-- ==== Sys2Proof/Word.lean ====
section
/-! DEFINITION. The word types of the manual and their plainest arithmetic (00 R1: bit 0 is the least
significant bit, multi-byte quantities are little-endian). -/

namespace Sys2Proof

abbrev Byte := BitVec 8
abbrev W16 := BitVec 16
abbrev W32 := BitVec 32
abbrev W64 := BitVec 64
abbrev W128 := BitVec 128

/-- Field [lo+len-1 : lo] of a word, as a number (R1). -/
def fld {w : Nat} (v : BitVec w) (lo len : Nat) : Nat := v.toNat / 2 ^ lo % 2 ^ len

/-- Bit `i` of a word. -/
def bit {w : Nat} (v : BitVec w) (i : Nat) : Bool := v.getLsbD i

/-- The word with field [lo+len-1 : lo] replaced by `x` (taken modulo 2^len). -/
def setFld {w : Nat} (v : BitVec w) (lo len x : Nat) : BitVec w :=
  (v &&& ~~~(BitVec.ofNat w ((2 ^ len - 1) * 2 ^ lo))) ||| BitVec.ofNat w (x % 2 ^ len * 2 ^ lo)

/-- The word with bit `i` set. -/
def setBit {w : Nat} (v : BitVec w) (i : Nat) : BitVec w := v ||| BitVec.ofNat w (2 ^ i)

/-- The word with bit `i` cleared. -/
def clrBit {w : Nat} (v : BitVec w) (i : Nat) : BitVec w := v &&& ~~~(BitVec.ofNat w (2 ^ i))

/-- The word with bit `i` as given. -/
def putBit {w : Nat} (v : BitVec w) (i : Nat) (b : Bool) : BitVec w := if b then setBit v i else clrBit v i

/-- A field of two's complement, as an integer. -/
def sfld {w : Nat} (v : BitVec w) (lo len : Nat) : Int :=
  let x := fld v lo len
  if x < 2 ^ (len - 1) then (x : Int) else (x : Int) - 2 ^ len

/-- A count field whose zero means `z` (R7: every table states it). -/
def cnt0 (x z : Nat) : Nat := if x = 0 then z else x

/-- Division rounded up. -/
def cdiv (a b : Nat) : Nat := (a + b - 1) / b

/-- The little-endian value of a list of bytes (R1). -/
def leNat : List Byte → Nat
  | [] => 0
  | b :: bs => b.toNat + 256 * leNat bs

/-- The `n` little-endian bytes of a value (R1). -/
def leBytes : Nat → Nat → List Byte
  | 0, _ => []
  | n + 1, x => BitVec.ofNat 8 x :: leBytes n (x / 256)

/-- Bytes of a list from an offset, short ends filled with zero. -/
def slice (l : List Byte) (off n : Nat) : List Byte :=
  let s := (l.drop off).take n
  s ++ List.replicate (n - s.length) 0

/-- The little-endian value of `n` bytes at an offset of a list. -/
def rdNat (l : List Byte) (off n : Nat) : Nat := leNat (slice l off n)

end Sys2Proof
end

