-- ==== Sys2Proof/Syntax.lean ====
section
/-! DEFINITION. The commands the device takes: one constructor of Instr for each row of
spec/opcode_table.json, with the operands the row's rule names. Host commands carry the mailbox `m` they
came by, and their parameters as typed operands (log 12). Physical events carry what the environment
shows the device: temperatures, slacks, upsets (log 19). -/

namespace Sys2Proof

abbrev R5 := BitVec 5
abbrev I16 := BitVec 16

/-- Who makes a register access (04 R89): each keeps a capture of its own. -/
inductive Requester where
  | scarab
  | host
deriving DecidableEq, Repr

/-- Who asks for a Hive lock (16 R370). -/
inductive LockReq where
  | core (k : BitVec 2)
  | host
deriving DecidableEq, Repr

/-- A register address: control space of a tile (04 R88) or BAR0 (17 R387). -/
inductive RegAddr where
  | tile (t off : Nat)
  | dev (off : Nat)
deriving DecidableEq, Repr

/-- Cells of the weight tier that have gone wrong (07 R163): how many bits of codeword `cw` (0 to 3) of page `page` of the slice of tile
`t` are wrong from now on. A codeword corrects up to 24. -/
structure CellErr where
  t : Nat
  page : Nat
  cw : Nat
  bits : Nat
deriving DecidableEq, Repr

/-- An upset of one bit of a scratchpad (log 19): the tile, the byte address of the word, and the bit: 0 to 31 of its data, else its
parity bit (06 R139). -/
structure BitFlip where
  t : Nat
  word : Nat
  bit : Nat
deriving DecidableEq, Repr

/-- What upset comes before a reading command (log 19): a bit of a scratchpad (06 R139), cells of the weight tier (07 R163, R165), a plane
or codebook of an array that fails parity (03 R73), a frame table or PTLB parity error (08 R202). -/
structure Upset where
  parity : Option BitFlip
  cells : List CellErr
  plane : Option Nat
  frame : Bool
deriving DecidableEq, Repr

/-- No upset. -/
def Upset.none : Upset := ⟨Option.none, [], Option.none, false⟩

/-- OP code and immediate of an instruction word (04 Table 4.1). -/
structure OpImm where
  op : BitVec 6
  imm : I16
deriving DecidableEq, Repr

/-- A rectangle of logical tiles (00 R11). -/
structure Rect where
  b0 : Nat
  b1 : Nat
  c0 : Nat
  c1 : Nat
deriving DecidableEq, Repr

/-- IMAGE_ALLOC (07 Table 7.9). `xset` gives the extents; with none, XCOUNT lets the device choose. -/
structure AllocReq where
  id : W32
  gen : W32
  ikind : Byte
  rect : Rect
  xcount : Nat
  xset : Option (BitVec 15)
  mbytes : W32
  mdigest : List Byte
deriving DecidableEq, Repr

/-- The role of a device in a haul session (07 R180). -/
inductive HaulRole where
  | head
  | member
  | tail
deriving DecidableEq, Repr

/-- HAUL_OPEN (07 R180). -/
structure HaulReq where
  session : W32
  role : HaulRole
  id : W32
  gen : W32
  down : Nat
  ackRoute : Nat
  frameRing : Nat
  ackRing : Nat
  repair : Bool
deriving DecidableEq, Repr

/-- A haul frame (07 R181, Table 7.11); `len` is the whole 16-bit LEN field. -/
structure HaulFrame where
  session : W32
  id : W32
  gen : W32
  shard : W32
  offset : W32
  len : BitVec 16
  flags : BitVec 16
  data : List Byte
deriving DecidableEq, Repr

/-- A haul acknowledgement (07 Table 7.12). -/
structure HaulAck where
  session : W32
  device : BitVec 12
  kind : Byte
  id : W32
  gen : W32
  shard : W32
  status : BitVec 16
  jseq : W64
deriving DecidableEq, Repr

/-- A request from another tile's Weevil (08 R212, R220), with the tile that asks. -/
inductive WvlReq where
  | walk (src : Nat) (slot : BitVec 16) (page : Nat)
  | read (src frame off n : Nat)
  | claim (src : Nat)
  | claimed (index : W32)
deriving DecidableEq, Repr

/-- A KV shadow record (08 Table 8.7), with the data of a DATA record. -/
structure ShadowRec where
  kind : BitVec 4
  len : BitVec 12
  offset : W32
  value : W64
  data : List Byte
deriving DecidableEq, Repr

/-- The shadow area of a tile as its buddy delivers it for a restore (15 R348): WVL_SHSTEP and the bytes. -/
structure ShadowCopy where
  step : W64
  data : List Byte
deriving DecidableEq, Repr

/-- How a DMA read fails (17 R392). -/
inductive DmaErr where
  | cpl
  | timeout
  | poison
deriving DecidableEq, Repr

/-- REGION_LOAD (09 R229): the image as the DMA read delivered it, or `dmaFail` with how that read failed; `model` names a MODEL image
whose program section is loaded instead (07 R195, log 106). -/
structure LoadReq where
  r : Nat
  b0 : Nat
  c0 : Nat
  addr : W64
  length : Nat
  image : List Byte
  routeBase : Nat
  devs : List (BitVec 12)
  dmaFail : Option DmaErr
  model : Option (W32 × W32)
deriving DecidableEq, Repr

/-- One entry of ROUTE_SELECT (09 R234). -/
structure RouteSel where
  entry : Nat
  alt : Byte
deriving DecidableEq, Repr

/-- The ring descriptor (10 Table 10.3); `rsv` says that a reserved byte or bit is set. -/
structure RingDesc where
  kind : Byte
  region : Byte
  h2dLog2 : Byte
  d2hLog2 : Byte
  vector : BitVec 16
  flags : Byte
  h2dBase : W64
  d2hBase : W64
  idxAddr : W64
  rxWait : W32
  imod : W32
deriving DecidableEq, Repr

/-- An ingress record (10 Table 10.8). -/
structure IngRec where
  addr : W64
  len : BitVec 16
  dtile : BitVec 16
  dqid : BitVec 16
  iseq : BitVec 16
  flags : Byte
  rsv : Bool
deriving DecidableEq, Repr

/-- A step descriptor with its ragged table, ingress records and frames as the DMA reads delivered them
(10 Tables 10.4, 10.5, 10.8); `rsv` says that a reserved bit of the descriptor is set. -/
structure StepIn where
  step : W64
  rtab : W64
  energy : W64
  nent : BitVec 16
  ning : BitVec 16
  flags : BitVec 16
  rsv : Bool
  barrier : W32
  usertag : W32
  rag : List (BitVec 128)
  ing : List IngRec
  frames : List (List Byte)
deriving DecidableEq, Repr

/-- A buffer descriptor of an EGRESS ring (10 R262). -/
structure BufDesc where
  addr : W64
  len : W32
deriving DecidableEq, Repr

/-- Router ports (11 R277). -/
inductive Port5 where
  | north
  | east
  | south
  | west
  | local_
  | gateway
deriving DecidableEq, Repr

/-- A packet: the fields of its header flit (11 Table 11.1, 12 Table 12.3), and the 16-byte words of the flits after it: payload, zeros,
trailer (11 R271), or as many of them as have come. `len` and `lastw` are the raw fields. -/
structure Packet where
  route : BitVec 128
  hopptr : BitVec 6
  segn : BitVec 3
  segptr : BitVec 3
  segs : BitVec 32
  dtile : BitVec 11
  dqid : BitVec 10
  regtag : BitVec 7
  vc : BitVec 2
  srcdev : BitVec 12
  srctile : BitVec 11
  flowseq : W32
  len : BitVec 6
  lastw : BitVec 2
  kind : BitVec 4
  rmc : Bool
  rb0 : BitVec 5
  rb1 : BitVec 5
  rc0 : BitVec 6
  rc1 : BitVec 6
  mcast : Bool
  hops : BitVec 6
  ddev : BitVec 12
  sflow : BitVec 11
  ackfloor : W32
  resend : Bool
  loc : Byte
  e2e : Bool
  rpath : BitVec 128
  nakType : BitVec 2
  words : List (BitVec 128)
deriving DecidableEq, Repr

/-- A link frame as it arrives: its bytes (12 Table 12.2), and the codewords its FEC corrected and could not correct. -/
structure LinkFrame where
  bytes : List Byte
  fecCorr : Nat
  fecUncorr : Nat
deriving DecidableEq, Repr

/-- The key of a flow (12 R300). -/
structure FlowKey where
  dev : BitVec 12
  tile : BitVec 11
  sflow : BitVec 11
deriving DecidableEq, Repr

/-- A ring frame (13 R312): its 24 data bytes as Table 13.2 lays them out. -/
structure RingFrame where
  bytes : List Byte
deriving DecidableEq, Repr

/-- What LEAVE_AT stands for (13 R317): its frame, or the request of a joined device to leave as the master learns of it (log 100). -/
inductive LeaveIn where
  | frame (fr : RingFrame)
  | ask (dev : BitVec 12)
deriving DecidableEq, Repr

/-- What MASTER stands for (13 R318): its frame, or a joined device's CIC_CTL.MASTER_PREF as this device finds it (log 100). -/
inductive MasterIn where
  | frame (fr : RingFrame)
  | pref (dev : BitVec 12) (named : Bool)
deriving DecidableEq, Repr

/-- Activity of one tile in a 10 µs period (14 R327): core activity, bank accesses, slice accesses. -/
structure TileActivity where
  t : Nat
  act : Nat
  bank : Nat
  wt : Nat
deriving DecidableEq, Repr

/-- The meters of one 10 µs period (14 R327): VIN energy, rail output energies in µJ, tile activities. -/
structure EnergySample where
  vin : Nat
  rails : List Nat
  tiles : List TileActivity
deriving DecidableEq, Repr

/-- The fields of a profile record (17 Table 17.5, bytes 0x04 to 0x0C). -/
structure ProfRec where
  limit : Nat
  cap : Nat
  code : Nat
  slow : Nat
  twarn : Nat
  lidmax : Nat
  opt : Bool
deriving DecidableEq, Repr

/-- SET_PROFILE (17 R398). -/
structure ProfileReq where
  profile : Byte
  write : Bool
  select : Bool
  sel : Byte
  prof : ProfRec
deriving DecidableEq, Repr

/-- An action of a standby plan (15 Table 15.4). -/
inductive PlanAct where
  | unload (r : Nat)
  | load (q : LoadReq)
  | restore (rect : Rect) (r : Nat)
deriving DecidableEq, Repr

/-- HELLO (16 R377). -/
structure HelloReq where
  maj : Byte
  min : Byte
  driver : W32
  feats : BitVec 256
deriving DecidableEq, Repr

/-- LOG_CONFIG and TRACE_CONFIG (16 R383, R384). -/
structure LogReq where
  addr : W64
  log2 : Nat
  vector : Nat
  idxAddr : W64
deriving DecidableEq, Repr

/-- A host memory request to BAR0 or BAR2 (17 R386): a write carries its aligned 32-bit words and whether it is
poisoned; a read names its number of words. `wide` says that the words are 64-bit register accesses. -/
structure BarReq where
  bar : Nat
  off : Nat
  write : Bool
  wide : Bool
  words : List W32
  n : Nat
  poisoned : Bool
  upset : Option BitFlip
deriving DecidableEq, Repr

/-- What RESET_N samples at its rising edge (17 R394, R396, 18 R412): the straps, and whether VIN, AUX and SYS_REFCLK are
within their limits. -/
structure RiseIn where
  profileSel : BitVec 2
  authPref : Bool
  powerOk : Bool
deriving DecidableEq, Repr

/-- The commands of the device, one constructor for each row of the table. -/
inductive Instr where
  /-- ALU: gRD := gRS1 fn gRS2 (Tables 4.3, R82); PC + 4; a nonzero reserved field or an unlisted FN traps ILLEGAL. -/
  | alu (t : Nat) (rd : R5) (rs1 : R5) (rs2 : R5) (rsv : BitVec 6) (fn : R5)
  /-- ADDI: gRD := gRS1 + sext IMM. -/
  | addi (t : Nat) (rd : R5) (rs1 : R5) (imm : I16)
  /-- ANDI: gRD := gRS1 and zext IMM. -/
  | andi (t : Nat) (rd : R5) (rs1 : R5) (imm : I16)
  /-- ORI: gRD := gRS1 or zext IMM. -/
  | ori (t : Nat) (rd : R5) (rs1 : R5) (imm : I16)
  /-- XORI: gRD := gRS1 xor zext IMM. -/
  | xori (t : Nat) (rd : R5) (rs1 : R5) (imm : I16)
  /-- SLTI: gRD := 1 if gRS1 < sext IMM (signed) else 0. -/
  | slti (t : Nat) (rd : R5) (rs1 : R5) (imm : I16)
  /-- SHI: SLLI, SRLI, SRAI by IMM[4:0]; IMM[6:5]=3 or IMM[15:7]≠0 traps ILLEGAL. -/
  | shi (t : Nat) (rd : R5) (rs1 : R5) (imm : I16)
  /-- LUI: gRD := IMM << 16; RS1 is reserved. -/
  | lui (t : Nat) (rd : R5) (rs1 : R5) (imm : I16)
  /-- LB: signed byte load with store forwarding (R86), or the load stalls. -/
  | lb (t : Nat) (rd : R5) (rs1 : R5) (imm : I16)
  /-- LBU: unsigned byte load. -/
  | lbu (t : Nat) (rd : R5) (rs1 : R5) (imm : I16)
  /-- LH: signed halfword load. -/
  | lh (t : Nat) (rd : R5) (rs1 : R5) (imm : I16)
  /-- LHU: unsigned halfword load. -/
  | lhu (t : Nat) (rd : R5) (rs1 : R5) (imm : I16)
  /-- LW: word load. -/
  | lw (t : Nat) (rd : R5) (rs1 : R5) (imm : I16)
  /-- SB: byte store enters the store buffer, or stalls when it holds 8 entries. -/
  | sb (t : Nat) (rs2 : R5) (rs1 : R5) (imm : I16)
  /-- SH: halfword store. -/
  | sh (t : Nat) (rs2 : R5) (rs1 : R5) (imm : I16)
  /-- SW: word store. -/
  | sw (t : Nat) (rs2 : R5) (rs1 : R5) (imm : I16)
  /-- STORE_BUFFER_WRITE: the oldest buffered store is written to DMEM. -/
  | storeBufferWrite (t : Nat)
  /-- BEQ: branch to PC + 4·sext IMM if equal, else PC + 4; a target at or above 0x1_0000 traps IMEM_RANGE. -/
  | beq (t : Nat) (rs2 : R5) (rs1 : R5) (imm : I16)
  /-- BNE: branch if the registers differ. -/
  | bne (t : Nat) (rs2 : R5) (rs1 : R5) (imm : I16)
  /-- BLT: branch if gRS1 < gRS2 signed. -/
  | blt (t : Nat) (rs2 : R5) (rs1 : R5) (imm : I16)
  /-- BGE: branch if gRS1 ≥ gRS2 signed. -/
  | bge (t : Nat) (rs2 : R5) (rs1 : R5) (imm : I16)
  /-- BLTU: branch if gRS1 < gRS2 unsigned. -/
  | bltu (t : Nat) (rs2 : R5) (rs1 : R5) (imm : I16)
  /-- BGEU: branch if gRS1 ≥ gRS2 unsigned. -/
  | bgeu (t : Nat) (rs2 : R5) (rs1 : R5) (imm : I16)
  /-- JAL: gRD := PC + 4; PC := PC + 4·sext IMM21. -/
  | jal (t : Nat) (rd : R5) (imm : BitVec 21)
  /-- JALR: target from the old gRS1; gRD := PC + 4; PC := target with [1:0] clear. -/
  | jalr (t : Nat) (rd : R5) (rs1 : R5) (imm : I16)
  /-- CRD: gRD := control word at gRS1 + IMM with its read side effect and the Scarab's capture (R88, R89). -/
  | crd (t : Nat) (rd : R5) (rs1 : R5) (imm : I16)
  /-- CWR: control word at gRS1 + IMM := gRS2, with the register's own effect (R88, R90). -/
  | cwr (t : Nat) (rs2 : R5) (rs1 : R5) (imm : I16)
  /-- ACWP: check the 48-byte issue block and push it; or trap; or stall (R91 to R94, R137). -/
  | acwp (t : Nat) (rd : R5) (rs1 : R5) (imm : I16)
  /-- VISS: check the 24-byte issue block and issue it; or trap; or stall. -/
  | viss (t : Nat) (rd : R5) (rs1 : R5) (imm : I16)
  /-- AGS: load AG RD[3:0] from the descriptor: current at once, pending, stalled, or trap AG_DESC. -/
  | ags (t : Nat) (rd : R5) (rs1 : R5) (imm : I16)
  /-- ISSUE_RESUME: the stalled load, store, ACWP, VISS, AGS or claimed read proceeds when its cause has gone. -/
  | issueResume (t : Nat)
  /-- WAITT: wait until the view reaches the 64-bit target; late targets complete at once and are counted; over 2^32 ns ahead traps WAITT_RANGE. -/
  | waitt (t : Nat) (rd : R5) (rs1 : R5) (imm : I16)
  /-- WAITT_COMPLETE: a waiting WAITT completes once the view has reached its target. -/
  | waittComplete (t : Nat)
  /-- WAITE: start a wait for a masked SCB_EVENT bit; completes at once when one is set; mask 0 traps ILLEGAL. -/
  | waite (t : Nat) (rd : R5) (rs1 : R5) (imm : I16)
  /-- WAITE_COMPLETE: gRD := the matched event bits, which are cleared. -/
  | waiteComplete (t : Nat)
  /-- FENCE: start a wait for the conditions of IMM[4:0]; completes at once when all hold. -/
  | fence (t : Nat) (rd : R5) (rs1 : R5) (imm : I16)
  /-- FENCE_COMPLETE: the waiting FENCE completes once every selected condition holds. -/
  | fenceComplete (t : Nat)
  /-- TIME: gRD, gRD+1 := the view of Cicada time; odd RD, RD = 0 or reserved bits trap ILLEGAL. -/
  | time (t : Nat) (rd : R5) (rs1 : R5) (imm : I16)
  /-- TRAP: the word with OP code OP. 0x21 is SYS: IMM[3:0] = 0 traps SYSCALL with IMM[15:4], values 3 to 15 trap ILLEGAL. An OP code
  that Table 4.2 does not list traps ILLEGAL (R80). -/
  | trap (t : Nat) (rd : R5) (rs1 : R5) (imm : OpImm)
  /-- ERET: INTRAP := 0, PC := SCB_EPC, the oldest pending cause is taken; EPC ≥ 0x1_0000 enters FAULT. -/
  | eret (t : Nat) (rd : R5) (rs1 : R5) (code : BitVec 12)
  /-- HALT: the Scarab enters HALTED. -/
  | halt (t : Nat) (rd : R5) (rs1 : R5) (code : BitVec 12)
  /-- ASYNC_TRAP: the oldest pending asynchronous cause is taken at the boundary; a waiting instruction is abandoned. -/
  | asyncTrap (t : Nat)
  /-- WATCHDOG: the watchdog count at SCB_WDOG.LIMIT: trap WATCHDOG, or FAULT under INTRAP; the count restarts. -/
  | watchdog (t : Nat)
  /-- SCB_CTL_RUN: HALTED: start at SCB_ENTRY; ignored in every other state. -/
  | scbCtlRun (t : Nat)
  /-- SCB_CTL_HALT: request a stop at the next boundary. -/
  | scbCtlHalt (t : Nat)
  /-- HALTED_AT_BOUNDARY: enter HALTED after a HALT request; a waiting instruction is abandoned. -/
  | haltedAtBoundary (t : Nat)
  /-- SCB_WDOG_KICK: restart the watchdog count. -/
  | scbWdogKick (t : Nat)
  /-- AG_COMMIT: AGS of the staging copy of AGn. -/
  | agCommit (t : Nat) (n : BitVec 4) (who : Requester)
  /-- CAPTURE_READ: 32-bit read of a register word: capture, read side effect (R89). -/
  | captureRead (who : Requester) (a : RegAddr)
  /-- REGISTER_WRITE: write by access type (R3), or discarded under R7. -/
  | registerWrite (who : Requester) (a : RegAddr) (wide : Bool) (v : W64)
  /-- HOST_IMEM_WRITE: host write to IMEM: accepted in HALTED or FAULT, otherwise counted in SCB_HOSTDROP. -/
  | hostImemWrite (t : Nat) (a : Nat) (v : W32)
  /-- NOP: the head NOP ACW starts and is complete. -/
  | nop (t : Nat)
  /-- COMPUTE: the first unstarted ACW, a COMPUTE, runs as many vectors as its operands allow: loads, passes, WACC adds, drains. -/
  | compute (t : Nat) (f : Upset)
  /-- WLOAD: the first unstarted ACW, a WLOAD, loads plane PSEL of each enabled array. -/
  | wload (t : Nat) (f : Upset)
  /-- CBLOAD: the first unstarted ACW, a CBLOAD, loads codebooks and column registers. -/
  | cbload (t : Nat) (f : Upset)
  /-- DRAIN: the first unstarted ACW, a DRAIN, emits its rows. -/
  | drain (t : Nat)
  /-- ACW_XADD: the first unstarted ACW, an XADD, adds XPS blocks into WACC rows. -/
  | acwXadd (t : Nat) (f : Upset)
  /-- ACW_RETIRE: the oldest complete ACW retires: scoreboard, tickets, ARR_ACWDONE, ACW_DONE. -/
  | acwRetire (t : Nat)
  /-- VNOP: the head vector instruction, a VNOP, executes. -/
  | vnop (t : Nat)
  /-- VLD: 256-byte reads at AG addresses fill N entries. -/
  | vld (t : Nat) (f : Upset)
  /-- VST: N entries are written by 256-byte writes at AG addresses. -/
  | vst (t : Nat)
  /-- VLDQ: one whole item from an RX queue into the operand cache, or LONG. -/
  | vldq (t : Nat) (f : Upset)
  /-- VSTQ: N entries are sent as one item. -/
  | vstq (t : Nat)
  /-- FADD: A + B. -/
  | fadd (t : Nat)
  /-- FSUB: A − B. -/
  | fsub (t : Nat)
  /-- FMUL: A × B. -/
  | fmul (t : Nat)
  /-- FFMA: A × B + C, one rounding. -/
  | ffma (t : Nat)
  /-- FMIN: minimum, NaN if either is NaN, −0 < +0. -/
  | fmin (t : Nat)
  /-- FMAX: maximum. -/
  | fmax (t : Nat)
  /-- FCMP: EQ, LT, LE, UNORD as all-ones or zero. -/
  | fcmp (t : Nat)
  /-- FSGN: ABS, NEG, COPYSIGN. -/
  | fsgn (t : Nat)
  /-- FDIV: A ÷ B correctly rounded. -/
  | fdiv (t : Nat)
  /-- FSQRT: square root correctly rounded. -/
  | fsqrt (t : Nat)
  /-- FTRN: transcendental function within its bound (R124). -/
  | ftrn (t : Nat)
  /-- IADD: integer add, wrap or saturate. -/
  | iadd (t : Nat)
  /-- ISUB: integer subtract. -/
  | isub (t : Nat)
  /-- IMUL: integer multiply. -/
  | imul (t : Nat)
  /-- IMIN: integer minimum. -/
  | imin (t : Nat)
  /-- IMAX: integer maximum. -/
  | imax (t : Nat)
  /-- ILOG: AND, OR, XOR, ANDN. -/
  | ilog (t : Nat)
  /-- ISH: SLL, SRL, SRA by B mod width. -/
  | ish (t : Nat)
  /-- ICMP: EQ, LT, LTU. -/
  | icmp (t : Nat)
  /-- SEL: A where C has a bit set, else B. -/
  | sel (t : Nat)
  /-- SETM: VE_LMASK := nonzero elements. -/
  | setm (t : Nat)
  /-- MOV: copies A. -/
  | mov (t : Nat)
  /-- RED: fixed pairwise tree reduction of each entry. -/
  | red (t : Nat)
  /-- CVT: element stream conversion (R125). -/
  | cvt (t : Nat)
  /-- RAND: Philox numbers (R128). -/
  | rand (t : Nat)
  /-- XADD: XPS block addition (R126). -/
  | xadd (t : Nat)
  /-- XCVT: XPS to FP32 (R127). -/
  | xcvt (t : Nat)
  /-- VEC_RETIRE: the executed head vector instruction retires: flags, VEC_DONE, VE_FLAG, tickets. -/
  | vecRetire (t : Nat)
  /-- QITEM_ARRIVAL: the first packet held at the tile's Local port delivers its words to the RX context (R146 to R148). -/
  | qitemArrival (t : Nat)
  /-- QCMD_READ: the busy SPAD_QCMD READ completes. -/
  | qcmdRead (t : Nat)
  /-- QCMD_CONFIG: the busy CONFIG completes or is refused. -/
  | qcmdConfig (t : Nat)
  /-- QCMD_FLUSH: the busy FLUSH completes or is refused. -/
  | qcmdFlush (t : Nat)
  /-- QCMD_RESET: the busy RESET completes (RX) or starts its wait (TX). -/
  | qcmdReset (t : Nat)
  /-- QCMD_TX_RESET_DONE: no item of the TX context is in sending: ISEQ, STARTSEQ and SENT become 0. -/
  | qcmdTxResetDone (t : Nat)
  /-- WT_PAGE_REFRESH: the first queued page is reprogrammed into a pool page and remapped, or POOL. -/
  | wtPageRefresh
  /-- JOURNAL_COMMIT: the next commit stage of the first waiting record; bit k of fail: copy k cannot be programmed. -/
  | journalCommit (fail : BitVec 4)
  /-- JOURNAL_REPLAY: boot replay of R175: items 1 to 3 and the report of item 4, then the rest; JREADY. -/
  | journalReplay
  /-- IMAGE_ALLOC: EMPTY to DOWNLOADING. -/
  | imageAlloc (m : Nat) (q : AllocReq)
  /-- HAUL_OPEN: opens a session. -/
  | haulOpen (m : Nat) (q : HaulReq)
  /-- HAUL_CLOSE: closes a session. -/
  | haulClose (m : Nat) (session : W32)
  /-- IMAGE_VERIFY: starts a verification. -/
  | imageVerify (m : Nat) (id : W32) (gen : W32)
  /-- VERIFY_COMPLETE: the verification ends: VERIFIED, or BAD with BAD_SHARD. -/
  | verifyComplete (id : W32) (gen : W32) (cells : List CellErr)
  /-- IMAGE_ACTIVATE: ACTIVATE record. -/
  | imageActivate (m : Nat) (id : W32) (gen : W32) (limit : Byte)
  /-- IMAGE_CONFIRM: CONFIRM record. -/
  | imageConfirm (m : Nat) (id : W32) (gen : W32)
  /-- IMAGE_REVERT: REVERT record, cause 2. -/
  | imageRevert (m : Nat) (id : W32) (gen : W32)
  /-- IMAGE_RETIRE: RETIRE record, or DOWNLOADING to EMPTY. -/
  | imageRetire (m : Nat) (id : W32) (gen : W32)
  /-- IMAGE_QUERY: standing of a pair or of every generation. -/
  | imageQuery (m : Nat) (id : W32) (gen : Option W32)
  /-- HAUL_HEAD_SEND: the head sends a frame of its host ring. -/
  | haulHeadSend (session : W32) (frame : HaulFrame)
  /-- HAUL_FRAME_ARRIVAL: forwarded, digested and stored, or NAKed, or counted bad. -/
  | haulFrameArrival (frame : HaulFrame)
  /-- SHARD_OK: every page of a matching shard is programmed: SHARD_OK, and DOWNLOADED or REPAIRED after the last. -/
  | shardOk (session : W32) (shard : W32)
  /-- HAUL_ACK_ARRIVAL: the acknowledgement is placed on the head's ring. -/
  | haulAckArrival (ack : HaulAck)
  /-- SCRUB_PASS_START: a pass starts and reads every shard. -/
  | scrubPassStart (cells : List CellErr)
  /-- SCRUB_PASS_COMPLETE: WT_SCRUB_PASS + 1. -/
  | scrubPassComplete
  /-- LAYER_SWAP: arms a swap. -/
  | layerSwap (m : Nat) (mask : W64) (mode : Bool) (tail : Byte)
  /-- LAYER_SWAP_REPLY: the reply after the last copy or departure. -/
  | layerSwapReply (m : Nat)
  /-- ADAPTER_LOAD: starts a copy into an adapter slot. -/
  | adapterLoad (m : Nat) (r : Nat) (slot : Nat) (id : W32) (gen : W32) (ad : W32)
  /-- ADAPTER_COPY_DONE: every tile's copy is finished. -/
  | adapterCopyDone (r : Nat) (slot : Nat)
  /-- ADAPTER_EVICT: the slot becomes EMPTY at the next boundary. -/
  | adapterEvict (m : Nat) (r : Nat) (slot : Nat)
  /-- APPEND_ROW: the first waiting row is appended (R203 to R206). -/
  | appendRow (t : Nat) (f : Upset)
  /-- WVL_FQ_COMMIT: the staged fetch is checked and queued, or refused. -/
  | wvlFqCommit (t : Nat)
  /-- FETCH: the first held fetch is executed (R212). -/
  | fetch (t : Nat) (f : Upset)
  /-- WVL_REQ_ARRIVAL: a remote walk, fetch or claim request is served and answered. -/
  | wvlReqArrival (t : Nat) (req : WvlReq)
  /-- READPTE: the busy WVL_CMD READPTE completes. -/
  | readpte (t : Nat)
  /-- WRITEPTE: the busy WRITEPTE completes. -/
  | writepte (t : Nat)
  /-- PTLB_INV: the busy PTLB_INV completes. -/
  | ptlbInv (t : Nat)
  /-- PTLB_INV_SLOT: the busy PTLB_INV_SLOT completes. -/
  | ptlbInvSlot (t : Nat)
  /-- READFT: the busy READFT completes. -/
  | readft (t : Nat)
  /-- WVL_CFG_WRITE: arena configuration stored, or discarded with CFG. -/
  | wvlCfgWrite (t : Nat) (v : W64)
  /-- WVL_DIR_WRITE: directory configuration stored, or discarded with CFG. -/
  | wvlDirWrite (t : Nat) (v : W64)
  /-- KV_SHARE: shares entries. -/
  | kvShare (m : Nat) (r : Nat) (src : BitVec 16) (dst : BitVec 16) (n : Nat)
  /-- KV_FREE: frees a range. -/
  | kvFree (m : Nat) (r : Nat) (slot : BitVec 16) (first : Nat) (n : Nat) (f : Upset)
  /-- KV_FREE_SLOT: frees every entry and zeroes the lengths. -/
  | kvFreeSlot (m : Nat) (r : Nat) (slot : BitVec 16)
  /-- KV_RESTORE: restores arenas and directories from shadow areas. -/
  | kvRestore (m : Nat) (src : BitVec 12) (rect : Rect) (r : Nat)
  /-- WVL_CLAIM: requests the next unit. -/
  | wvlClaim (t : Nat)
  /-- WVL_CLAIMED: returns the claimed index, or waits. -/
  | wvlClaimed (t : Nat) (who : Requester)
  /-- SHADOW_SEND: the tile's waiting shadow records are sent to the buddy. -/
  | shadowSend (t : Nat)
  /-- SHADOW_RECORD_ARRIVAL: stored; END is acknowledged. -/
  | shadowRecordArrival (t : Nat) (src : BitVec 12) (sr : ShadowRec)
  /-- SHADOW_ACK_ARRIVAL: WVL_SHACK. -/
  | shadowAckArrival (t : Nat) (step : W64)
  /-- SHADOW_ACK_TIMEOUT: EN cleared, SHADOW set, record written. -/
  | shadowAckTimeout (t : Nat)
  /-- REGION_LOAD: the Table 9.3 checks, then R231. -/
  | regionLoad (m : Nat) (q : LoadReq)
  /-- REGION_UNLOAD: R379. -/
  | regionUnload (m : Nat) (r : Nat)
  /-- ROUTE_SELECT: ACTIVE of listed entries. -/
  | routeSelect (m : Nat) (sel : List RouteSel)
  /-- RING_CONFIG: R243. -/
  | ringConfig (m : Nat) (pair : Nat) (d : RingDesc)
  /-- RING_DOORBELL: H2D producer index. -/
  | ringDoorbell (pair : Nat) (idx : W32)
  /-- D2H_CONSUMER_INDEX: D2H consumer index. -/
  | d2hConsumerIndex (pair : Nat) (idx : W32)
  /-- STEP_DESCRIPTOR_FETCH: the fetched descriptor, ragged table and ingress records are held. -/
  | stepDescriptorFetch (r : Nat) (d : StepIn)
  /-- STEP_ADMISSION: checks, masking, reservations, energy admission. -/
  | stepAdmission (r : Nat)
  /-- STEP_START: R256 in every tile; epoch; dispatch lists; ingress delivery begins. -/
  | stepStart (r : Nat)
  /-- STEP_BOUNDARY: R258. -/
  | stepBoundary (r : Nat)
  /-- TOKEN_RECORD_WRITE: the next token record and its payload. -/
  | tokenRecordWrite (r : Nat) (bufs : List BufDesc)
  /-- RX_WAIT_EXPIRY: TRUNCATE: the waiting record is truncated; HOLD: RXLATE and the interrupt. -/
  | rxWaitExpiry (r : Nat)
  /-- STEP_ABORT: the abort point: R108, R130, R156, R218. -/
  | stepAbort (r : Nat) (rerun : Bool)
  /-- STEP_RERUN_START: the rerun starts once the region's packets have drained. -/
  | stepRerunStart (r : Nat)
  /-- REGION_START: STOPPED to RUNNING. -/
  | regionStart (m : Nat) (r : Nat)
  /-- REGION_STOP: STOPPING or STOPPED. -/
  | regionStop (m : Nat) (r : Nat)
  /-- REGION_RESUME: HELD to RUNNING. -/
  | regionResume (m : Nat) (r : Nat)
  /-- REGION_ABORT: R266. -/
  | regionAbort (m : Nat) (r : Nat)
  /-- SEQ_CANCEL: R264. -/
  | seqCancel (m : Nat) (r : Nat) (slot : BitVec 16)
  /-- SEQ_RESET: OPEN, LOST cleared. -/
  | seqReset (m : Nat) (slot : BitVec 16)
  /-- SEQ_ROLLBACK: R355. -/
  | seqRollback (m : Nat) (r : Nat) (slot : BitVec 16) (n : Nat)
  /-- TENANT_SET: entry written. -/
  | tenantSet (m : Nat) (tenant : BitVec 16) (balance : BitVec 48) (pcost : Byte) (tcost : Byte)
  /-- TENANT_CREDIT: saturating add. -/
  | tenantCredit (m : Nat) (tenant : BitVec 16) (amount : BitVec 48)
  /-- TENANT_QUERY: returns the entry and its reservations. -/
  | tenantQuery (m : Nat) (tenant : BitVec 16)
  /-- PACKET_ARRIVAL: R272 to R274, R281 to R283 at the router of tile t. -/
  | packetArrival (t : Nat) (port : Port5) (pkt : Packet)
  /-- SLOT_START: the first cycle of a slot: a matching VC0 packet starts. -/
  | slotStart (t : Nat) (out : Port5) (slot : Byte)
  /-- GATEWAY_INGRESS: segment list and REGTAG given; the packet enters the mesh, or GW_DROP. -/
  | gatewayIngress (g : Nat) (pkt : Packet)
  /-- LINK_FRAME_ARRIVAL: CRC, FSEQ; slots taken or R291. -/
  | linkFrameArrival (p : Nat) (fr : LinkFrame)
  /-- CREDIT_UPDATE_SEND: a LINK credit slot is sent. -/
  | creditUpdateSend (p : Nat)
  /-- PORT_SLOT_START: a port slot begins: a matching VC0 packet starts. -/
  | portSlotStart (p : Nat)
  /-- E2E_PACKET_ARRIVAL: Table of R301. -/
  | e2ePacketArrival (pkt : Packet)
  /-- ACK_SEND: ACK of X − 1. -/
  | ackSend (f : FlowKey)
  /-- ACK_ARRIVAL: frees held packets. -/
  | ackArrival (f : FlowKey) (n : W32) (src : BitVec 12)
  /-- NAK_ARRIVAL: resends held packets. -/
  | nakArrival (f : FlowKey) (n : W32) (src : BitVec 12)
  /-- RESEND_TIMEOUT: resend, or the flow breaks. -/
  | resendTimeout (f : FlowKey)
  /-- FLOW_ENTRY_EXPIRY: an idle receive entry is freed. -/
  | flowEntryExpiry (f : FlowKey)
  /-- PORT_ENABLE: training starts. -/
  | portEnable (p : Nat)
  /-- TRAINING_COMPLETE: UP. -/
  | trainingComplete (p : Nat) (narrow : Bool) (margin : Byte)
  /-- TRAINING_TIMEOUT: TRAINFAIL, DOWN. -/
  | trainingTimeout (p : Nat)
  /-- PORT_DISABLE: R307. -/
  | portDisable (p : Nat)
  /-- PORT_IDLE_DONE: DISABLED, or DOWN kept. -/
  | portIdleDone (p : Nat)
  /-- ERRLIM_CHECK: DEGRADED. -/
  | errlimCheck (p : Nat)
  /-- LOSS_OF_SIGNAL: DOWN. -/
  | lossOfSignal (p : Nat)
  /-- CREDIT_STALL: STALL and a record. -/
  | creditStall (p : Nat)
  /-- CICADA_TICK: the counter and the views advance by one ns, or repeat or skip under a slew. -/
  | cicadaTick
  /-- VIEW_RELOAD: COUNT mode: views reload. -/
  | viewReload
  /-- CIC_SET: the counter is loaded, or CFGLOST. -/
  | cicSet (v : W64)
  /-- MARK_SEND: the master sends MARK. -/
  | markSend
  /-- FRAME_COPY_SEND: a further copy of a ring frame. -/
  | frameCopySend
  /-- MARK: R313, R315; `arr` is how many 1/64 ns after the counter's last step the comma came. -/
  | mark (fr : RingFrame) (arr : Nat) (dwell : Nat)
  /-- FREQ: arms a switch. -/
  | freq (fr : RingFrame)
  /-- BARRIER: records an arrival. -/
  | barrier (fr : RingFrame)
  /-- FAULT_QUIESCE: R343, R356. -/
  | faultQuiesce (fr : RingFrame)
  /-- FAULT_HOLD: HELD. -/
  | faultHold (fr : RingFrame)
  /-- FAULT_RELEASE: STOPPED. -/
  | faultRelease (fr : RingFrame)
  /-- FAULT_NOTICE: no action on regions; ring class asks a measurement of the master. -/
  | faultNotice (fr : RingFrame)
  /-- JOIN_AT: schedules the bypass opening. -/
  | joinAt (fr : RingFrame)
  /-- LEAVE_AT: schedules the bypass closing; the master answers a request with the frame. -/
  | leaveAt (fr : LeaveIn)
  /-- MEASURE_AT: schedules a window. -/
  | measureAt (fr : RingFrame)
  /-- MASTER: the master role; the master hands over to a device ranked above it. -/
  | master (fr : MasterIn)
  /-- MEASUREMENT_WINDOW: CIC_OUTDLY; HOLDOVER may end at the next mark. -/
  | measurementWindow (half : Nat)
  /-- BYPASS_OPEN: JOINED. -/
  | bypassOpen
  /-- BYPASS_CLOSE: left the ring. -/
  | bypassClose
  /-- MARK_TIMEOUT: first member, takeover, or MASTERLOSS. -/
  | markTimeout (highest : Bool)
  /-- SYNC_IN_LOS: LOS and HOLDOVER. -/
  | syncInLos
  /-- CIC_JOIN_CLEAR: asks the master for LEAVE_AT. -/
  | cicJoinClear
  /-- RING_ADMIT: JOIN_AT and MEASURE_AT. -/
  | ringAdmit (m : Nat) (dev : BitVec 12)
  /-- CIC_FSW: arms a switch, FSW_LATE or FSW_BAD. -/
  | cicFsw (code : BitVec 6) (scope : Bool)
  /-- FREQUENCY_SWITCH: FREQ := CODE. -/
  | frequencySwitch
  /-- CYCLE_STRETCH: CIC_RSTATn. -/
  | cycleStretch (n : Nat) (eighths : Nat)
  /-- MARGIN_SAMPLE: CIC_MARGINn. -/
  | marginSample (n : Nat) (slack : W32)
  /-- AVS_LOOP: rail n up, down or held. -/
  | avsLoop (n : Nat) (slack : Nat)
  /-- REGION_ENERGY_UPDATE: ledger counters. -/
  | regionEnergyUpdate (e : EnergySample)
  /-- ENERGY_WINDOW_BOUNDARY: usage resets, overruns, WAIT rechecks. -/
  | energyWindowBoundary
  /-- SYNCHRONISED_COUNT: pending window, limit, profile, SLOW, burst changes. -/
  | synchronisedCount
  /-- PWR_WIN_WRITE: held until the next synchronised count. -/
  | pwrWinWrite (v : W64)
  /-- PWR_BUDGET_WRITE: PWR_LIMIT or PWR_REGCFGr under R328. -/
  | pwrBudgetWrite (a : Nat) (v : W64)
  /-- POWER_GUARD: capping. -/
  | powerGuard (avg : Nat)
  /-- THERMAL_MONITOR: warning, trip, burst-off. -/
  | thermalMonitor (tj : List Nat) (tcase : Nat)
  /-- SET_PROFILE: R398. -/
  | setProfile (m : Nat) (q : ProfileReq)
  /-- PROFILE_QUERY: returns profiles, override, PSRC. -/
  | profileQuery (m : Nat)
  /-- TILE_RECOVERY: opens a tile recovery. -/
  | tileRecovery (b : Nat) (col : Nat)
  /-- BIST_COMPLETE: in place, remap, or spare exhausted. -/
  | bistComplete (pass : Bool)
  /-- HALF_BENCH_EMPTY: muxes, arena shift, restore of the failed tile. -/
  | halfBenchEmpty (sh : Option ShadowCopy)
  /-- SLICE_SHIFT_DONE: DONE. -/
  | sliceShiftDone (clean : Bool)
  /-- RECOVERY_LOAD: R345 item 8. -/
  | recoveryLoad (r : Nat) (q : LoadReq)
  /-- SHADOW_RESYNC: whole arenas at the next boundary. -/
  | shadowResync (src : BitVec 12)
  /-- LOCAL_PART_DONE: RELEASE after the last. -/
  | localPartDone (dev : BitVec 12) (recid : W32)
  /-- DEVICE_LOSS: opens a device recovery; armed plan runs. -/
  | deviceLoss (dev : BitVec 12)
  /-- FLT_GROUP: member set. -/
  | fltGroup (m : Nat) (g : BitVec 16) (plen : Nat) (members : BitVec 4096)
  /-- STANDBY_ARM: armed plan. -/
  | standbyArm (m : Nat) (dev : BitVec 12) (acts : List PlanAct)
  /-- STANDBY_DISARM: disarmed. -/
  | standbyDisarm (m : Nat) (dev : BitVec 12)
  /-- FLT_QUERY: reports and records. -/
  | fltQuery (m : Nat) (recid : W32) (first : W64) (count : Nat)
  /-- RING_KEEPALIVE_LAPSE: JOINED cleared, bypass closed. -/
  | ringKeepaliveLapse
  /-- HIVE_WATCHDOG: core reset. -/
  | hiveWatchdog (k : Nat)
  /-- HIVE_FW_GO: BUSY, staging locked, or WRLOST. -/
  | hiveFwGo
  /-- FW_CHECK_COMPLETE: R363 items 3 to 5. -/
  | fwCheckComplete
  /-- HELLO: negotiation. -/
  | hello (m : Nat) (q : HelloReq)
  /-- DEVICE_QUERY: returns HIVE_STATUS, FWVER, bitmap, WT_STATUS. -/
  | deviceQuery (m : Nat)
  /-- FW_RELOAD: R364. -/
  | fwReload (m : Nat)
  /-- LATCH_REFRESH: the owner refreshes, or demotes after two failures. -/
  | latchRefresh (east : Bool) (ack : Bool)
  /-- LATCH_CLAIM: a claim with an expected epoch; success takes authority. -/
  | latchClaim (east : Bool) (x : BitVec 16)
  /-- HEARTBEAT_MISS: third miss starts claiming. -/
  | heartbeatMiss (east : Bool)
  /-- SEAM_FAULT: half held, relay-only. -/
  | seamFault (east : Bool)
  /-- LOCK_ACQUIRE: Table of R370. -/
  | lockAcquire (who : LockReq) (n : BitVec 6)
  /-- LOCK_RELEASE: FREE or LOCK_NOT_OWNER. -/
  | lockRelease (who : LockReq) (n : BitVec 6)
  /-- MAILBOX_DOORBELL: FREE to POSTED, or WRLOST. -/
  | mailboxDoorbell (m : Nat)
  /-- MAILBOX_TAKE: the first POSTED message becomes RUNNING or is answered by a failed check. -/
  | mailboxTake
  /-- HIVE_MBOXFREE: DONE to FREE. -/
  | hiveMboxfree (v : W32)
  /-- LOG_CONFIG: log ring. -/
  | logConfig (m : Nat) (q : LogReq)
  /-- LOG_CONSUMER_INDEX: frees room; buffered records move. -/
  | logConsumerIndex (idx : W32)
  /-- TRACE_CONFIG: trace ring or descriptions. -/
  | traceConfig (m : Nat) (query : Bool) (q : LogReq)
  /-- DEBUG_CHALLENGE: nonce and serial. -/
  | debugChallenge (m : Nat)
  /-- DEBUG_UNLOCK: scopes. -/
  | debugUnlock (m : Nat) (scope : BitVec 3) (sig : List Byte)
  /-- BAR_ACCESS: aligned words of BAR0 or BAR2. -/
  | barAccess (q : BarReq)
  /-- DMA_READ_COMPLETE: data delivered to its consumer. -/
  | dmaReadComplete (e : Nat) (data : List Byte)
  /-- DMA_ERROR: recorded; the consumer's outcome. -/
  | dmaError (e : Nat) (kind : DmaErr)
  /-- RESET_N_LOW: Table 17.3, first column. -/
  | resetNLow
  /-- RESET_N_RISE: boot starts. -/
  | resetNRise (q : RiseIn)
  /-- BOOT_WAIT_FW: PHASE = WAIT_FW. -/
  | bootWaitFw
  /-- PERST_N: Table 17.3, second column. -/
  | perstN
  /-- FLR: as PERST_N without retraining. -/
  | flr
  /-- AUX_RISE: always-on domain reset. -/
  | auxRise (smbAddr : BitVec 3)
  /-- AUX_LOSS: always-on domain reset, and as RESET_N low. -/
  | auxLoss
  /-- VIN_DROP: as RESET_N low. -/
  | vinDrop
  /-- SMB_STATUS: STATUS word; ALERT_N released. -/
  | smbStatus
  /-- SMB_JUNCTION_TEMP: hottest junction. -/
  | smbJunctionTemp
  /-- SMB_CASE_TEMP: case temperature. -/
  | smbCaseTemp
  /-- SMB_VIN_POWER: VIN power. -/
  | smbVinPower
  /-- SMB_LATCH_EPOCH: EPOCH. -/
  | smbLatchEpoch
  /-- SMB_RSTCAUSE: HOST_RSTCAUSE[7:0]. -/
  | smbRstcause
  /-- SMB_IDENTITY: 16 bytes. -/
  | smbIdentity
  /-- SMB_OVERRIDE: override record. -/
  | smbOverride (sel : Byte)
  /-- SMB_CLEAR_TRIP: 0x01 clears TRIP. -/
  | smbClearTrip (v : Byte)
  /-- ALERT_RESPONSE: the device's address. -/
  | alertResponse
  /-- EXTEST: IR := EXTEST while RESET_N is low, else BYPASS. -/
  | extest
  /-- IDCODE: IR := IDCODE. -/
  | idcode
  /-- SAMPLE_PRELOAD: IR := SAMPLE/PRELOAD. -/
  | samplePreload (cells : List Bool)
  /-- CLAMP: IR := CLAMP while RESET_N is low, else BYPASS. -/
  | clamp
  /-- HIGHZ: IR := HIGHZ while RESET_N is low, else BYPASS. -/
  | highz
  /-- DBG_ACCESS: BAR access with scope bit 1, else BYPASS. -/
  | dbgAccess (q : BarReq)
  /-- SCANBIST: scan BIST with scope bit 2 outside loaded regions, else BYPASS. -/
  | scanbist (b : Nat) (col : Nat) (pass : Bool)
  /-- BYPASS: IR := BYPASS. -/
  | bypass
  /-- TAP_TEST_RESET: IR := IDCODE. -/
  | tapTestReset
  /-- UNCORRECTABLE_HIVE_MEMORY_ERROR: core reset. -/
  | uncorrectableHiveMemoryError (k : Nat)
  /-- HEARTBEAT: the other pair's miss count := 0 and its claiming ends. -/
  | heartbeat (east : Bool)
  /-- TRACE_CONSUMER_INDEX: trace ring consumer index. -/
  | traceConsumerIndex (idx : W32)
  /-- PERST_N_HIGH: the link trains. -/
  | perstNHigh
  /-- DMA_READ_REPEAT: the failed head read is issued again. -/
  | dmaReadRepeat (session : W32)
  /-- RESIDENT_WEIGHT_RELOAD_DONE: the region may start its next step. -/
  | residentWeightReloadDone (r : Nat)
  /-- RING_INTERRUPT_MODERATION: the merged MSI-X message. -/
  | ringInterruptModeration (pair : Nat)
deriving DecidableEq, Repr

end Sys2Proof
end

