-- ==== Sys2Proof/Decode.lean ====
section
/-! DEFINITION. The command a word of the table spells. -/

namespace Sys2Proof

/-- The command that a word spells by the bits of spec/opcode_table.json. Every row of that table has an empty list of
fields: no row gives bits, so no word spells a command (log 21). -/
def decodeTableWord (nbits w : Nat) : Option Instr :=
  match nbits, w with
  | _, _ => none

end Sys2Proof
end

