-- ==== Sys2Proof/Machine/Crc.lean ====
section
/-! DEFINITION. The cyclic redundancy checks of frames, packets and records (07 R170, 12 R289, R299, 13 R312). -/

namespace Sys2Proof.Machine

/-- One bit of a CRC of `w` bits that takes the most significant bit of each byte first. -/
def crcMsbBit (w poly : Nat) (x : Byte) (c i : Nat) : Nat :=
  let s := 2 * c % 2 ^ w
  if decide (c / 2 ^ (w - 1) % 2 = 1) = x.getLsbD (7 - i) then s else s ^^^ poly

/-- A CRC of `w` bits with polynomial `poly` and initial value `init`, most significant bit first. -/
def crcMsb (w poly init : Nat) (b : List Byte) : Nat := b.foldl (fun c x => (List.range 8).foldl (crcMsbBit w poly x) c) init

/-- One bit of a CRC-32 that takes the least significant bit of each byte first; `poly` is the polynomial with its bits reversed. -/
def crcLsbBit (poly c : Nat) : Nat := if c % 2 = 1 then (c / 2) ^^^ poly else c / 2

/-- A reflected CRC-32: initial value and final inversion all ones. -/
def crcLsb (poly : Nat) (b : List Byte) : Nat :=
  b.foldl (fun c x => (List.range 8).foldl (fun c _ => crcLsbBit poly c) (c ^^^ x.toNat)) 0xFFFFFFFF ^^^ 0xFFFFFFFF

/-- CRC-32C (07 Table 7.6, 12 R299). -/
def crc32c (b : List Byte) : Nat := crcLsb 0x82F63B78 b

end Sys2Proof.Machine
end

