-- ==== Sys2Proof/Config.lean ====
section
/-! DEFINITION. What the part fixes (00 R12, 01 R19) and what the manual leaves open. Every value the
manual leaves open is an opaque constant: nothing can evaluate it, so nothing proved rests on a choice. -/

namespace Sys2Proof.Config

/-- Logical benches (01). -/
def benches : Nat := 24
/-- Logical columns (01 R13). -/
def lcols : Nat := 46
/-- Logical tiles (00 R11). -/
def nTiles : Nat := 1104
/-- Regions (10 R241). -/
def nRegions : Nat := 64
/-- Ring pairs (10 R242). -/
def nPairs : Nat := 4096
/-- Fabric ports (12 R288). -/
def nPorts : Nat := 16
/-- Gateways (11 R275). -/
def nGateways : Nat := 8
/-- Mailboxes (16 R372). -/
def nMailboxes : Nat := 32
/-- Half-bench clock regions and core rails (13 R308, 14 R324). -/
def nHalfBenches : Nat := 48
/-- Hive cores (16 R359). -/
def nCores : Nat := 4
/-- Bytes of a scratchpad (06 R131). -/
def spadBytes : Nat := 3145728
/-- Lines of a scratchpad (06 R131). -/
def spadLines : Nat := 49152
/-- Bytes of a slice that a program address can reach: extents 0 to 14 (04 R98). -/
def sliceProgBytes : Nat := 1006632960

/-- UNVERIFIED by any source: the numbers that stand for values the manual leaves open. Argument n gives the
n-th number drawn (log 2). -/
opaque freeNat : Nat → Nat

/-- The same for contents that are unspecified after an abort (log 14): seed, then place. -/
opaque freeAt : Nat → Nat → Nat

/-- The choice of a transcendental function within its bound (05 R124): the same for the same function and
operand (log 13). -/
opaque ftrnChoice : Nat → BitVec 32 → Nat

/-- An MX element under its scale that FP32 cannot hold (02 Table 2.5 states no result): bits and flags, by type,
code and scale (log 22). -/
opaque mxOutOfRange : Nat → Nat → Nat → BitVec 32 × BitVec 7

/-- The serial number of the part (17 Table 17.6). -/
opaque serial : BitVec 64

/-- The SHA-384 of the firmware key held in fuses (16 R362). -/
opaque fwKeyDigest : List (BitVec 8)

/-- The public key whose SHA-384 the debug fuses hold (17 R403). -/
opaque debugKey : List (BitVec 8)

/-- The firmware's own feature bitmap, by FWVER (16 R377). -/
opaque fwFeatures : BitVec 32 → BitVec 256

/-- The boot ROM version that HELLO reports (16 R377). -/
opaque bootRomVersion : BitVec 32

/-- Whether the board leaves TRST_N unconnected (17 R402). -/
opaque trstAbsent : Bool

/-- Silicon revision and JEDEC identity of IDCODE (17 Table 17.7). -/
opaque idcodeRev : BitVec 4
opaque jedecId : BitVec 11

/-- Name and DATA layout of each trace point (16 R384). -/
opaque tracePoints : List (List (BitVec 8))

/-- The 64 KiB boot ROM of the West and the East pair (16 Table 16.1). -/
opaque bootRom : Bool → List (BitVec 8)

end Sys2Proof.Config
end

