-- ==== Sys2Proof/Machine/Num.lean ====
section
/-! DEFINITION. Number formats (02): exact values as sign, integer and power of two; decoding; the one
rounding to nearest even; IEEE arithmetic of the vector engine (05 R119); conversions (02 Table 2.5, R46,
R420). Results carry the flags of 05 Table 5.6. -/

namespace Sys2Proof.Machine

/-! ### Vector flags (05 Table 5.6) -/

abbrev VFlags := BitVec 7
abbrev fINVALID : VFlags := 1
abbrev fDIVZERO : VFlags := 2
abbrev fOVERFLOW : VFlags := 4
abbrev fUNDERFLOW : VFlags := 8
abbrev fINEXACT : VFlags := 16
abbrev fSAT : VFlags := 32
abbrev fWINDOW : VFlags := 64

/-- A flag when a condition holds. -/
def flagIf (c : Bool) (f : VFlags) : VFlags := if c then f else 0

/-! ### Values -/

/-- A decoded value: (−1)^neg × m × 2^e exactly, an infinity, or a NaN (signalling or quiet). -/
inductive Val where
  | fin (neg : Bool) (m : Nat) (e : Int)
  | inf (neg : Bool)
  | nan (sig : Bool)
deriving DecidableEq, Repr

/-- An integer times a power of two. -/
def Val.ofInt (i : Int) (e : Int) : Val := .fin (decide (i < 0)) i.natAbs e

def Val.isNan : Val → Bool
  | .nan _ => true
  | _ => false

def Val.isSnan : Val → Bool
  | .nan s => s
  | _ => false

def Val.isInf : Val → Bool
  | .inf _ => true
  | _ => false

def Val.isZero : Val → Bool
  | .fin _ 0 _ => true
  | _ => false

/-- Sign of a value; a NaN counts as positive. -/
def Val.neg : Val → Bool
  | .fin n _ _ => n
  | .inf n => n
  | .nan _ => false

/-- Times a power of two. -/
def Val.scale (v : Val) (k : Int) : Val :=
  match v with
  | .fin n m e => .fin n m (e + k)
  | v => v

/-- What a floating-point format does with its top codes (02 Table 2.2): IEEE with signalling NaNs; IEEE whose NaNs are all
quiet (E5M2, R420); one NaN and no infinity (E4M3); every code finite. -/
inductive FpKind where
  | ieee
  | ieeeQuiet
  | oneNan
  | finite
deriving DecidableEq, Repr

/-- A floating-point format (02 Table 2.2): exponent bits, mantissa bits, bias. -/
structure FpFmt where
  eb : Nat
  mb : Nat
  bias : Int
  kind : FpKind
deriving DecidableEq, Repr

def e4m3 : FpFmt := ⟨4, 3, 7, .oneNan⟩
def e5m2 : FpFmt := ⟨5, 2, 15, .ieeeQuiet⟩
def e3m2 : FpFmt := ⟨3, 2, 3, .finite⟩
def e2m3 : FpFmt := ⟨2, 3, 1, .finite⟩
def e2m1 : FpFmt := ⟨2, 1, 1, .finite⟩
def fp16 : FpFmt := ⟨5, 10, 15, .ieee⟩
def bf16 : FpFmt := ⟨8, 7, 127, .ieee⟩
def fp32 : FpFmt := ⟨8, 23, 127, .ieee⟩
def fp64 : FpFmt := ⟨11, 52, 1023, .ieee⟩

/-- Whether the format has infinities. -/
def FpFmt.hasInf (f : FpFmt) : Bool := f.kind == .ieee || f.kind == .ieeeQuiet

/-- Bits of an element. -/
def FpFmt.width (f : FpFmt) : Nat := 1 + f.eb + f.mb

/-- The sign bit in place. -/
def FpFmt.sign (f : FpFmt) (neg : Bool) : Nat := if neg then 2 ^ (f.eb + f.mb) else 0

/-- The code of infinity without its sign. -/
def FpFmt.infCode (f : FpFmt) : Nat := (2 ^ f.eb - 1) * 2 ^ f.mb

/-- The code of the largest finite value without its sign. -/
def FpFmt.maxCode (f : FpFmt) : Nat :=
  match f.kind with
  | .ieee | .ieeeQuiet => f.infCode - 1
  | .oneNan => 2 ^ (f.eb + f.mb) - 2
  | .finite => 2 ^ (f.eb + f.mb) - 1

/-- The canonical NaN (02 R25). -/
def FpFmt.nanCode (f : FpFmt) : Nat :=
  match f.kind with
  | .ieee | .ieeeQuiet => f.infCode + 2 ^ (f.mb - 1)
  | .oneNan | .finite => 2 ^ (f.eb + f.mb) - 1

/-- The value of a code (02 R23). -/
def FpFmt.decode (f : FpFmt) (x : Nat) : Val :=
  let s := decide (x / 2 ^ (f.eb + f.mb) % 2 = 1)
  let e := x / 2 ^ f.mb % 2 ^ f.eb
  let m := x % 2 ^ f.mb
  if e = 2 ^ f.eb - 1 ∧ f.hasInf = true then
    if m = 0 then .inf s else .nan (f.kind == .ieee && decide (m < 2 ^ (f.mb - 1)))
  else if f.kind = .oneNan ∧ e = 2 ^ f.eb - 1 ∧ m = 2 ^ f.mb - 1 then .nan false
  else if e = 0 then .fin s m (1 - f.bias - f.mb)
  else .fin s (2 ^ f.mb + m) ((e : Int) - f.bias - f.mb)

/-! ### Rounding -/

/-- m ÷ 2^s rounded to the nearest integer, ties to even. -/
def rneShift (m s : Nat) : Nat :=
  let q := m / 2 ^ s
  let r := m % 2 ^ s
  if 2 * r > 2 ^ s ∨ (2 * r = 2 ^ s ∧ q % 2 = 1) then q + 1 else q

/-- m × 2^e rounded to the nearest multiple of 2^q, in units of 2^q. -/
def rneTo (m : Nat) (e q : Int) : Nat :=
  if q ≤ e then m * 2 ^ (e - q).toNat else rneShift m (q - e).toNat

/-- Whether m × 2^e is a multiple of 2^q. -/
def isMul (m : Nat) (e q : Int) : Bool := decide (q ≤ e) || decide (m % 2 ^ (q - e).toNat = 0)

/-- Rounds a positive magnitude m × 2^e once to nearest even: the code without sign, as if codes went on above the largest
finite one, whether it is inexact, and whether it is tiny after rounding (05 R122). -/
def FpFmt.roundMag (f : FpFmt) (m : Nat) (e : Int) : Nat × Bool × Bool :=
  if m = 0 then (0, false, false)
  else
    let top : Int := e + Nat.log2 m
    let emin := 1 - f.bias
    let q0 := emin - f.mb
    let q := max top emin - f.mb
    let n := rneTo m e q
    let tiny := decide (top < emin) && decide (rneTo m e (top - f.mb) < 2 ^ (f.mb + (emin - top).toNat))
    ((q - q0).toNat * 2 ^ f.mb + n, !isMul m e q, tiny)

/-- Rounds a value into a format with its flags. `sat`: out of range gives the largest finite value and SAT instead of an
infinity (02 Table 2.5), and no OVERFLOW (05 R122); INEXACT is raised beside SAT (DESIGN CHOICE, log 92). -/
def FpFmt.encode (f : FpFmt) (sat : Bool) (v : Val) : Nat × VFlags :=
  match v with
  | .nan s => (f.nanCode, flagIf s fINVALID)
  | .inf n => if f.hasInf then (f.sign n + f.infCode, 0) else (f.sign n + f.maxCode, fSAT)
  | .fin n m e =>
    let (c, inex, tiny) := f.roundMag m e
    if c > f.maxCode then
      if sat then (f.sign n + f.maxCode, fSAT ||| fINEXACT) else (f.sign n + f.infCode, fOVERFLOW ||| fINEXACT)
    else (f.sign n + c, flagIf inex fINEXACT ||| flagIf (inex && tiny) fUNDERFLOW)

/-- Rounds a value to a two's complement integer of `w` bits in units of 2^q, saturating (02 Table 2.5, R420, R46). A value that
saturates raises SAT and no INEXACT (DESIGN CHOICE, log 92). -/
def encodeInt (w : Nat) (q : Int) (v : Val) : Nat × VFlags :=
  let lim (n : Bool) : Nat := if n then 2 ^ (w - 1) else 2 ^ (w - 1) - 1
  match v with
  | .nan _ => (0, fINVALID)
  | .inf n => (lim n, fSAT ||| fINVALID)
  | .fin n m e =>
    let r := rneTo m e q
    let fl := flagIf (!isMul m e q) fINEXACT
    if n then
      if r > 2 ^ (w - 1) then (lim true, fSAT) else ((2 ^ w - r) % 2 ^ w, fl)
    else if r ≥ 2 ^ (w - 1) then (lim false, fSAT)
    else (r, fl)

/-- The two's complement value of `w` bits. -/
def sInt (w x : Nat) : Int := if x % 2 ^ w < 2 ^ (w - 1) then ((x % 2 ^ w : Nat) : Int) else ((x % 2 ^ w : Nat) : Int) - 2 ^ w

/-- The `w` low bits of an integer. -/
def intBits (w : Nat) (i : Int) : Nat := (i % (2 ^ w : Int)).toNat

/-! ### Exact sums and products -/

/-- Exact sum of two finite values as an integer and an exponent. -/
def dySum (n1 : Bool) (m1 : Nat) (e1 : Int) (n2 : Bool) (m2 : Nat) (e2 : Int) : Int × Int :=
  let e := min e1 e2
  let a : Int := (m1 * 2 ^ (e1 - e).toNat : Nat)
  let b : Int := (m2 * 2 ^ (e2 - e).toNat : Nat)
  ((if n1 then -a else a) + (if n2 then -b else b), e)

/-- Exact sum (IEEE 754): an exact zero of unlike signs is +0. -/
def Val.add : Val → Val → Val × VFlags
  | .nan s, b => (.nan false, flagIf (s || b.isSnan) fINVALID)
  | a, .nan s => (.nan false, flagIf (s || a.isSnan) fINVALID)
  | .inf n, .inf n' => if n = n' then (.inf n, 0) else (.nan false, fINVALID)
  | .inf n, _ => (.inf n, 0)
  | _, .inf n => (.inf n, 0)
  | .fin n1 m1 e1, .fin n2 m2 e2 =>
    let (i, e) := dySum n1 m1 e1 n2 m2 e2
    if i = 0 then (.fin (n1 && n2) 0 0, 0) else (.ofInt i e, 0)

/-- Negation, with no effect on a NaN. -/
def Val.negate : Val → Val
  | .fin n m e => .fin (!n) m e
  | .inf n => .inf (!n)
  | v => v

/-- Exact product. -/
def Val.mul : Val → Val → Val × VFlags
  | .nan s, b => (.nan false, flagIf (s || b.isSnan) fINVALID)
  | a, .nan s => (.nan false, flagIf (s || a.isSnan) fINVALID)
  | .inf n, b => if b.isZero then (.nan false, fINVALID) else (.inf (n != b.neg), 0)
  | a, .inf n => if a.isZero then (.nan false, fINVALID) else (.inf (n != a.neg), 0)
  | .fin n1 m1 e1, .fin n2 m2 e2 => (.fin (n1 != n2) (m1 * m2) (e1 + e2), 0)

/-- A × B + C with one rounding to come; an infinity times a zero is INVALID whatever C (05 R119). -/
def Val.fma (a b c : Val) : Val × VFlags :=
  let (p, f1) := Val.mul a b
  let (s, f2) := Val.add p c
  (s, f1 ||| f2)

/-- Quotient, with a sticky low bit in place of the rest: the numerator is shifted until the quotient has 70 or more
bits, so one rounding of the result is the rounding of the exact quotient. -/
def Val.div : Val → Val → Val × VFlags
  | .nan s, b => (.nan false, flagIf (s || b.isSnan) fINVALID)
  | a, .nan s => (.nan false, flagIf (s || a.isSnan) fINVALID)
  | .inf _, .inf _ => (.nan false, fINVALID)
  | .inf n, b => (.inf (n != b.neg), 0)
  | a, .inf n => (.fin (a.neg != n) 0 0, 0)
  | .fin n1 m1 e1, .fin n2 m2 e2 =>
    if m2 = 0 then
      if m1 = 0 then (.nan false, fINVALID) else (.inf (n1 != n2), fDIVZERO)
    else if m1 = 0 then (.fin (n1 != n2) 0 0, 0)
    else
      let k : Nat := 130
      let q := m1 * 2 ^ k / m2
      let st := if m1 * 2 ^ k % m2 = 0 then 0 else 1
      (.fin (n1 != n2) (2 * q + st) (e1 - e2 - k - 1), 0)

/-- Integer square root by bits, from bit `n` down. -/
def isqrtAux : Nat → Nat → Nat → Nat
  | 0, _, r => r
  | n + 1, x, r =>
    let c := r + 2 ^ n
    isqrtAux n x (if c * c ≤ x then c else r)

/-- Integer square root of a number below 2^(2n). -/
def isqrt (n x : Nat) : Nat := isqrtAux n x 0

/-- Square root, with a sticky low bit in place of the rest. -/
def Val.sqrt : Val → Val × VFlags
  | .nan s => (.nan false, flagIf s fINVALID)
  | .inf false => (.inf false, 0)
  | .inf true => (.nan false, fINVALID)
  | .fin n m e =>
    if m = 0 then (.fin n 0 0, 0)
    else if n then (.nan false, fINVALID)
    else
      let odd := (e % 2).toNat
      let x := m * 2 ^ (odd + 160)
      let e' := (e - odd - 160) / 2
      let r := isqrt (Nat.log2 x / 2 + 1) x
      (.fin false (2 * r + (if r * r = x then 0 else 1)) (e' - 1), 0)

/-- Order of two values that are not NaN: a < b. -/
def Val.lt : Val → Val → Bool
  | .inf n, .inf n' => n && !n'
  | .inf n, _ => n
  | _, .inf n => !n
  | .fin n1 m1 e1, .fin n2 m2 e2 => decide ((dySum n1 m1 e1 (!n2) m2 e2).1 < 0)
  | _, _ => false

/-- Equality of two values that are not NaN. -/
def Val.eq (a b : Val) : Bool := !Val.lt a b && !Val.lt b a

/-! ### Element types (05 Table 5.2) -/

/-- Width in bits of an element type; XPS blocks have none. -/
def tyWidth (ty : Nat) : Nat :=
  match ty with
  | 0x0 => 8 | 0x1 => 32 | 0x2 => 16 | 0x3 => 16 | 0x4 => 32 | 0x5 => 64 | 0x6 => 8 | 0x7 => 8
  | 0x8 => 8 | 0x9 => 8 | 0xA => 8 | 0xB => 6 | 0xC => 6 | 0xD => 4 | 0xE => 4 | _ => 8

/-- Whether a type is an MX type, with a scale stream. -/
def tyMx (ty : Nat) : Bool := decide (8 ≤ ty) && decide (ty ≤ 13)

/-- The floating-point format of a type's elements; none for integers. -/
def tyFp (ty : Nat) : Option FpFmt :=
  match ty with
  | 0x2 => some bf16 | 0x3 => some fp16 | 0x4 => some fp32 | 0x5 => some fp64 | 0x6 => some e4m3 | 0x7 => some e5m2
  | 0x8 => some e4m3 | 0x9 => some e5m2 | 0xB => some e3m2 | 0xC => some e2m3 | 0xD => some e2m1 | _ => none

/-- The value of an element of a type, before any block scale (02 R22, R23). -/
def tyDecode (ty x : Nat) : Val :=
  match tyFp ty with
  | some f => f.decode x
  | none => Val.ofInt (sInt (tyWidth ty) x) (if ty = 0xA then -6 else 0)

/-- The value of an element under an E8M0 scale: NaN when the scale is 0xFF (02 Table 2.2). -/
def scaled (v : Val) (s : Nat) : Val := if s % 256 = 255 then .nan false else v.scale ((s % 256 : Nat) - 127 : Int)

/-- The pairs of source and destination types that the vector engine converts (02 Table 2.5). -/
def cvtPair (src dst : Nat) : Bool :=
  (src == 4 && (dst == 0 || dst == 1 || dst == 2 || dst == 3 || dst == 5 || dst == 6 || dst == 7 || tyMx dst || dst == 14)) ||
  (dst == 4 && (src == 0 || src == 1 || src == 2 || src == 3 || src == 5 || src == 6 || src == 7 || tyMx src || src == 14)) ||
  (src == 5 && (dst == 0 || dst == 1)) || (src == 14 && (dst == 0 || dst == 1)) || (dst == 14 && (src == 0 || src == 1))

/-- One conversion to a type that is not MX (02 Table 2.5, R420). -/
def cvtTo (dst : Nat) (v : Val) : Nat × VFlags :=
  match tyFp dst with
  | some f => f.encode (dst == 6 || dst == 7) v
  | none => encodeInt (tyWidth dst) 0 v

/-- An MX element under its scale to FP32: exact. The manual states no result where FP32 has no such value; a free value
stands there (log 22). -/
def mxToFp32 (ty x s : Nat) : Nat × VFlags :=
  match scaled (tyDecode ty x) s with
  | .fin n m e =>
    let (c, inex, _) := fp32.roundMag m e
    if inex || decide (c > fp32.maxCode) then
      ((Config.mxOutOfRange ty x s).1.toNat, (Config.mxOutOfRange ty x s).2)
    else (fp32.sign n + c, 0)
  | v => fp32.encode false v

/-- floor(log2 m 2^e) of a nonzero magnitude. -/
def floorLog (m : Nat) (e : Int) : Int := e + Nat.log2 m

/-- The exponent of the largest magnitude of a list; none when all are zero. -/
def maxLog : List Val → Option Int
  | [] => none
  | .fin _ m e :: l =>
    if m = 0 then maxLog l
    else match maxLog l with
      | none => some (floorLog m e)
      | some k => some (max k (floorLog m e))
  | _ :: l => maxLog l

/-- emax of an MX element type (02 R46). -/
def mxEmax (ty : Nat) : Int :=
  match ty with
  | 0x8 => 8 | 0x9 => 15 | 0xA => 0 | 0xB => 4 | 0xC => 2 | _ => 2

/-- Quantises one MX block (02 R46): scale byte, element codes, flags. In a block that holds a NaN or an infinity a signalling NaN
raises INVALID and nothing else raises a flag, for MXINT8 as for the floating-point element types (DESIGN CHOICE, log 93). -/
def mxQuantise (ty : Nat) (vs : List Val) : Nat × List Nat × VFlags :=
  if vs.any fun v => v.isNan || v.isInf then (0xFF, vs.map fun _ => 0, flagIf (vs.any Val.isSnan) fINVALID)
  else match maxLog vs with
    | none => (0x7F, vs.map fun _ => 0, 0)
    | some k =>
      let x := max (-127) (min 127 (k - mxEmax ty))
      let rs := vs.map fun v =>
        match tyFp ty with
        | some f => f.encode true (v.scale (-x))
        | none => encodeInt 8 (-6) (v.scale (-x))
      ((x + 127).toNat, rs.map (·.1), rs.foldl (fun a r => a ||| r.2) 0)

end Sys2Proof.Machine
end

