-- ==== Sys2Proof/Machine/SMap.lean ====
section
/-! DEFINITION. Sparse maps: the one canonical form in which the model holds memories, register files and
tables. Keys rise strictly, and no entry equals what an unlisted key reads as, so that equal maps are
equal data. What an unlisted key reads as is an argument of every operation: it is never stored. -/

namespace Sys2Proof.Machine

/-- A sparse map from numbers to values. -/
abbrev SMap (V : Type) := List (Nat × V)

/-- What key `k` holds, where an unlisted key reads as `d k`. -/
def SMap.get {V : Type} (d : Nat → V) : SMap V → Nat → V
  | [], k => d k
  | (k', v) :: m, k => if k = k' then v else SMap.get d m k

/-- Without key `k`. -/
def SMap.erase {V : Type} (m : SMap V) (k : Nat) : SMap V := m.filter fun e => decide (e.1 ≠ k)

/-- Places a new key in order. -/
def SMap.ins {V : Type} : SMap V → Nat → V → SMap V
  | [], k, v => [(k, v)]
  | e :: m, k, v => if k < e.1 then (k, v) :: e :: m else e :: SMap.ins m k v

/-- Writes `v` at key `k`, keeping the canonical form. -/
def SMap.set {V : Type} [DecidableEq V] (d : Nat → V) (m : SMap V) (k : Nat) (v : V) : SMap V :=
  if v = d k then SMap.erase m k else SMap.ins (SMap.erase m k) k v

/-- The canonical form above a bound: keys rise strictly from `lo`, and no entry is what it would read as. -/
def SMap.wfFrom {V : Type} [DecidableEq V] (d : Nat → V) : Nat → SMap V → Bool
  | _, [] => true
  | lo, (k, v) :: m => decide (lo ≤ k) && decide (v ≠ d k) && SMap.wfFrom d (k + 1) m

/-- The canonical form. -/
def SMap.wf {V : Type} [DecidableEq V] (d : Nat → V) (m : SMap V) : Bool := SMap.wfFrom d 0 m

/-- A byte memory; an unlisted byte reads as zero. -/
abbrev Memory := SMap Byte

/-- The canonical form of a byte memory. -/
def Memory.wf (m : Memory) : Bool := SMap.wf (fun _ => (0 : Byte)) m

/-- One byte. -/
def Memory.read (m : Memory) (a : Nat) : Byte := SMap.get (fun _ => 0) m a

/-- Writes one byte. -/
def Memory.write (m : Memory) (a : Nat) (b : Byte) : Memory := SMap.set (fun _ => 0) m a b

/-- `n` bytes from address `a`. -/
def Memory.readN (m : Memory) : Nat → Nat → List Byte
  | _, 0 => []
  | a, n + 1 => Memory.read m a :: Memory.readN m (a + 1) n

/-- Writes bytes from address `a` upward. -/
def Memory.writeN (m : Memory) : Nat → List Byte → Memory
  | _, [] => m
  | a, b :: bs => Memory.writeN (Memory.write m a b) (a + 1) bs

/-- The little-endian value of `n` bytes at `a` (R1). -/
def Memory.readNat (m : Memory) (a n : Nat) : Nat := leNat (Memory.readN m a n)

/-- Removes every listed byte of `n` bytes from `a`: they read as zero again. -/
def Memory.clear (m : Memory) (a n : Nat) : Memory := m.filter fun e => decide (e.1 < a) || decide (a + n ≤ e.1)

end Sys2Proof.Machine
end

