-- ==== Sys2Proof/Machine/Store.lean ====
section
/-! DEFINITION. The profile store (17 R397, R399, Table 17.5): its records as bytes, the two copies of each, which copy is in force, and the
write of the older one. -/

namespace Sys2Proof.Machine

/-- Bytes 0x04 to 0x17 of a profile store record (17 Table 17.5): the fields of a profile, and SEL. -/
def ProfRec.fields (q : ProfRec) (sel : Byte) : List Byte :=
  leBytes 2 q.limit ++ leBytes 2 q.cap ++ leBytes 1 q.code ++ leBytes 1 q.slow ++ leBytes 1 q.twarn ++ leBytes 1 q.lidmax ++
  leBytes 1 (if q.opt then 1 else 0) ++ [sel] ++ leBytes 10 0

/-- A record programmed but for its COMMIT byte: SEQ, fields, the CRC of bytes 0x00 to 0x17. -/
def profBody (seq : W32) (fields : List Byte) : List Byte :=
  let b := leBytes 4 seq.toNat ++ fields
  b ++ leBytes 4 (crc32c b) ++ leBytes 3 0 ++ [0xFF]

/-- COMMIT is programmed, in an operation of its own. -/
def profCommit (b : List Byte) : List Byte := b.take 31 ++ [0xA5]

/-- The two copies that the profile store holds of a profile or of the override record (17 R397). -/
structure StoreItem where
  a : List Byte
  b : List Byte
deriving DecidableEq, Repr

/-- A copy that holds no record. -/
def profBlank : List Byte := leBytes 32 0

/-- The four profiles as shipped (14 Table 14.2), each in one copy with SEQ 1 (log 114). -/
def factoryProfiles : List ProfRec :=
  [⟨1600, 1850, 18, 8, 100, 60, true⟩, ⟨1100, 1300, 8, 0, 100, 60, true⟩, ⟨1850, 1850, 28, 18, 100, 45, true⟩, ⟨600, 700, 0, 0, 95, 60, false⟩]

/-- The store as shipped: the profiles, and no override record. -/
def factoryStore : List StoreItem := factoryProfiles.map (fun q => ⟨profCommit (profBody 1 (ProfRec.fields q 0)), profBlank⟩) ++ [⟨profBlank, profBlank⟩]

/-- A copy that may be read: its CRC checks and its COMMIT is 0xA5 (17 R397). -/
def profSound (b : List Byte) : Bool := decide (rdNat b 24 4 = crc32c (slice b 0 24)) && decide (b.getD 31 0 = 0xA5)

/-- SEQ and SEL of a record. -/
def profSeq (b : List Byte) : W32 := BitVec.ofNat 32 (rdNat b 0 4)
def profSel (b : List Byte) : Byte := b.getD 13 0

/-- The profile that a record holds. -/
def ProfRec.ofRec (b : List Byte) : ProfRec :=
  ⟨rdNat b 4 2, rdNat b 6 2, rdNat b 8 1, rdNat b 9 1, rdNat b 10 1, rdNat b 11 1, decide (rdNat b 12 1 % 2 = 1)⟩

/-- Whether copy `b` is the one in force: it may be read, and copy `a` may not or has a lower SEQ. -/
def StoreItem.newer (i : StoreItem) : Bool := profSound i.b && (!profSound i.a || decide (profSeq i.a < profSeq i.b))

/-- The copy in force: of those that may be read the one with the higher SEQ (17 R397). -/
def StoreItem.best (i : StoreItem) : Option (List Byte) := if i.newer then some i.b else if profSound i.a then some i.a else none

/-- The SEQ after one: 0 and 0xFFFFFFFF are never written (17 Table 17.5). -/
def nextSeq (s : W32) : W32 := if s.toNat ≥ 2 ^ 32 - 2 then 1 else s + 1

/-- SEQ of the next record of an item. -/
def StoreItem.next (i : StoreItem) : W32 := match i.best with | some b => nextSeq (profSeq b) | none => 1

/-- The copy that a write replaces is the one not in force. -/
def StoreItem.older (i : StoreItem) (x : List Byte) : StoreItem := if i.newer then { i with a := x } else { i with b := x }

/-- A write: the older copy takes the record, then its COMMIT; a write that power loss tears leaves `older` with `profBody` alone. -/
def StoreItem.put (i : StoreItem) (fields : List Byte) : StoreItem := i.older (profCommit (profBody i.next fields))

/-- An item of the store: profiles 0 to 3, then the override record. -/
def storeItem (l : List StoreItem) (k : Nat) : StoreItem := l.getD k ⟨profBlank, profBlank⟩

/-- A store with one item written. -/
def storePut (l : List StoreItem) (k : Nat) (fields : List Byte) : List StoreItem := l.set k ((storeItem l k).put fields)

end Sys2Proof.Machine
end

