-- ==== Sys2Proof/Machine/State.lean ====
section
/-! DEFINITION. State: every piece of state the manual gives the device, as plain data, and the state
right after reset. Tiles, regions, ports and tables are sparse maps, since nearly all of them hold their
reset value. Control registers lie in the register files `Tile.regs` (by control-space address, 04 R88)
and `Dev.regs` (by BAR0 offset, 17 R387); Machine/Regs.lean gives each register its name and reset. -/

namespace Sys2Proof.Machine

/-- Why the model stops. -/
inductive Fault where
  /-- Raised by every command that names a tile, region, port, pair, mailbox, rail, core or gateway which the manual says
  does not exist (00 R11, 10 R241, R242, 12 R288, 16 R372). Safe: the device has no such unit to act on. -/
  | noSuchUnit
deriving DecidableEq, Repr

/-- Why the model refuses. -/
inductive Refusal where
  /-- A row of the table without a meaning. No arm raises it. Safe: nothing can be proved of such a row. -/
  | notModelled (mnemonic : String)
deriving DecidableEq, Repr

/-! ## The tile: Scarab (04) -/

/-- States of a Scarab (04 SCB_STATUS). -/
inductive ScbMode where
  | halted
  | run
  | wait
  | fault
deriving DecidableEq, Repr

/-- Asynchronous causes (04 Table 4.9, R105). -/
inductive AsyncCause where
  | agRange
  | agEmpty
  | arrFlag
  | veFlag
  | watchdog
deriving DecidableEq, Repr

/-- A buffered store (04 R85). -/
structure StoreEntry where
  addr : Nat
  bytes : List Byte
deriving DecidableEq, Repr

/-- A declared range of scratchpad lines (04 R92). -/
structure LineRange where
  first : Nat
  count : Nat
  write : Bool
deriving DecidableEq, Repr

/-- What a waiting instruction waits for (04 R104): nothing; a Cicada time; an event mask; FENCE conditions; a load behind
overlapping stores; a store behind a full buffer; an issue whose block is behind overlapping stores; a checked issue
behind a full queue or the scoreboard; an AGS or a COMMIT behind a full pending slot; a claimed index. -/
inductive Stall where
  | none
  | waitt (target : Nat)
  | waite (rd : R5) (mask : BitVec 16)
  | fence (mask : BitVec 16)
  | load (addr size : Nat) (signed : Bool) (rd : R5)
  | store (e : StoreEntry)
  | acwpRead (addr : Nat)
  | vissRead (addr : Nat)
  | acwpIssue (acw : BitVec 256) (ranges : List LineRange)
  | vissIssue (word : W64) (ranges : List LineRange)
  | agsRead (n addr : Nat)
  | ags (n : Nat) (words : List W32)
  | claimed (rd : R5)
deriving DecidableEq, Repr

structure Scarab where
  g : SMap W32
  pc : W32
  mode : ScbMode
  inTrap : Bool
  haltReq : Bool
  fresh : Bool
  pend : List (AsyncCause × W32)
  sbuf : List StoreEntry
  stall : Stall
  wdogNs : Nat
deriving DecidableEq, Repr

def Scarab.reset : Scarab := ⟨[], 0, .halted, false, false, false, [], [], .none, 0⟩

/-- An AG program (04 Table 4.8) with the port setting it took when it became current (06 R134). -/
structure AgProg where
  base : W32
  space : Nat
  lslice : Nat
  cyc : Bool
  doneEv : Bool
  cnts : List (BitVec 16)
  strs : List W32
  port : W64
deriving DecidableEq, Repr

def AgProg.reset : AgProg := ⟨0, 0, 0, false, false, [0, 0, 0, 0], [0, 0, 0, 0], 0⟩

structure Ag where
  cur : AgProg
  staging : List W32
  pending : Option (AgProg × List Nat)
  pos : Nat
  exh : Bool
  err : Bool
  stopped : Bool
  tickets : List Nat
  waitc : W32
  resid : List Byte
deriving DecidableEq, Repr

def Ag.reset : Ag := ⟨.reset, List.replicate 8 0, none, 0, false, false, false, [], 0, []⟩

/-! ## The tile: arrays (02, 03) and vector engine (05) -/

/-- An ACW from its push to its retirement (04 R90, R93): ranges, recorded masks, progress in vectors or rows,
bytes of the item being consumed, plane blocks loaded, operands of the unit in progress that have arrived, whether the
adds of the vector in progress are done and how many of its outputs are sent. -/
structure AcwEntry where
  id : Nat
  acw : BitVec 256
  ranges : List LineRange
  rmask : W32
  cmask : W32
  ags : List Nat
  started : Bool
  done : Bool
  prog : Nat
  item : List Byte
  itemTrunc : Bool
  loaded : Nat
  got : List (List Byte)
  added : Bool
  sent : Nat
deriving DecidableEq, Repr

/-- A vector instruction from its issue to its retirement (05 R118); `prog` counts the entries a VLD or VST has moved. -/
structure VecEntry where
  id : Nat
  word : W64
  ranges : List LineRange
  lmask : W64
  oe : Int
  seed : W64
  stream : BitVec 16
  pos : W32
  ags : List Nat
  prog : Nat
  done : Bool
  flags : BitVec 7
deriving DecidableEq, Repr

/-- One WACC entry (02 R32 to R36, R42): the integer, the FP32 value, INVALID, and whether it is saturated. -/
structure WEntry where
  i : Int
  fp : W32
  invalid : Bool
  sat : Bool
deriving DecidableEq, Repr

def WEntry.reset : WEntry := ⟨0, 0, false, false⟩

/-- One row of an 8-column group (02 R32, R419). -/
structure WGroup where
  wb : Int
  fpPath : Bool
  inexact : Bool
  overflow : Bool
  mismatch : Bool
deriving DecidableEq, Repr

def WGroup.reset : WGroup := ⟨0, false, false, false, false⟩

/-- A weight plane (03 R48 to R50): its format and pass depth `kb`; decoded element values in order k × 32 + n (`none` where
the 2:4 metadata excludes the position), scale bytes in order 32j + n, and the columns a bad descriptor marks. `seed`
is some when the contents are unspecified (03 R73). -/
structure Plane where
  fmt : Nat
  kb : Nat
  elems : List (Option Val)
  scales : List Byte
  marked : List Nat
  seed : Option Nat
deriving DecidableEq, Repr

def Plane.reset : Plane := ⟨0, 0, [], [], [], none⟩

/-- One matrix array. `seed` is some when the contents of the WACC are unspecified (03 R73). -/
structure Arr where
  p0 : Plane
  p1 : Plane
  cb : List Byte
  cbType : BitVec 4
  cbcol : W64
  wacc : SMap WEntry
  rows : SMap WGroup
  plane : Bool
  seed : Option Nat
deriving DecidableEq, Repr

def Arr.reset : Arr := ⟨.reset, .reset, List.replicate 64 0, 0, 0, [], [], false, none⟩

/-! ## The tile: queues (06), Weevil (08), router (11, 12) -/

/-- An item in a ring buffer (06 R148, R149): source, first word, reserved words, words arrived, whether it was cut. -/
structure RxItem where
  srcdev : Nat
  srctile : Nat
  start : Nat
  words : Nat
  arrived : Nat
  trunc : Bool
deriving DecidableEq, Repr

/-- A queue context: the four words of Table 6.1 and the items of the ring from the low mark on; `taken` counts the
items already delivered and kept; `last` is the source of the item stored before the head and the step it was
delivered in (R149). -/
structure QCtx where
  w0 : W64
  w1 : W64
  w2 : W64
  w3 : W64
  items : List RxItem
  taken : Nat
  last : Option (Nat × Nat × Nat)
deriving DecidableEq, Repr

def QCtx.reset : QCtx := ⟨0, 0, 0, 0, [], 0, none⟩

/-- A reassembly entry (06 R146): the words of the declared item still to come, the words still to be stored and where;
whether they count as SPOIL when discarded, and whether the entry is in skip state. -/
structure Reasm where
  srcdev : Nat
  srctile : Nat
  qid : Nat
  left : Nat
  store : Nat
  wptr : Nat
  spoil : Bool
  skip : Bool
deriving DecidableEq, Repr

/-- A PTLB entry (08 R213). -/
structure PtlbEnt where
  slot : Nat
  page : Nat
  pte : W32
  clen : Nat
deriving DecidableEq, Repr

/-- A pending list entry (08 R206): slot, page, old entry, the frame allocated, the copy-on-write source (tile, frame). -/
structure PendEnt where
  slot : Nat
  page : Nat
  old : W32
  alloc : Option Nat
  cow : Option (Nat × Nat)
deriving DecidableEq, Repr

/-- A drained row on its way to the append port (08 R203). -/
structure AppRow where
  kvs : Nat
  bytes : List Byte
  acwId : Nat
deriving DecidableEq, Repr

structure Weevil where
  ptlb : List PtlbEnt
  ft : SMap W32
  pend : List PendEnt
  fq : List (W64 × W64)
  cursor : SMap (Nat × Nat)
  appendQ : List AppRow
  claimOut : Nat
  claimCtr : Nat
  nUnits : Nat
  shadowQ : List ShadowRec
  dirty : List Nat
  clenCh : List Nat
  unsync : List Nat
  shWhole : Bool
  shStep : Nat
  shFrom : List (BitVec 12)
deriving DecidableEq, Repr

def Weevil.reset : Weevil := ⟨[], [], [], [], [], [], 0, 0, 0, [], [], [], [], false, 0, []⟩

/-- A copy held until its acknowledgement (12 R300): the lines of the tile's scratchpad that hold its flits (none for a device unit), and when
it was last sent. -/
structure Held where
  key : FlowKey
  seq : W32
  route : Nat
  pkt : Packet
  lines : List Nat
  sent : Nat
deriving DecidableEq, Repr

structure Tile where
  imem : Memory
  dmem : Memory
  spad : Memory
  parInv : List Nat
  ocache : Memory
  ocSeed : Option Nat
  regs : SMap W64
  scb : Scarab
  cap : Option (Nat × W64)
  ags : SMap Ag
  acwQ : List AcwEntry
  vecQ : List VecEntry
  nextId : Nat
  arrs : SMap Arr
  qctx : SMap QCtx
  qwait : Bool
  reasm : List Reasm
  localIn : List Packet
  wvl : Weevil
  slot0 : Nat
  rot : SMap Nat
  replay : List Held
  replayAt : Nat
  txWait : List (Nat × Packet)
  flowSeq : SMap W32
  exWindow : Bool
  exQueue : Bool
  exBound : Bool
  exUnsync : Bool
  tdcBase : Nat
  stopped : Bool
deriving DecidableEq, Repr

def Tile.reset : Tile :=
  { imem := [], dmem := [], spad := [], parInv := [], ocache := [], ocSeed := none, regs := [], scb := .reset, cap := none, ags := [],
    acwQ := [], vecQ := [], nextId := 0, arrs := [], qctx := [], qwait := false, reasm := [], localIn := [], wvl := .reset,
    slot0 := 0, rot := [], replay := [], replayAt := 0, txWait := [], flowSeq := [], exWindow := false, exQueue := false, exBound := false, exUnsync := false, tdcBase := 0, stopped := false }

/-! ## Regions and serving (09, 10) -/

/-- Region serving states (10 Table 10.1). -/
inductive RState where
  | empty
  | stopped
  | running
  | stopping
  | held
  | fault
deriving DecidableEq, Repr

/-- A resident-weight declaration of the program image in one tile (09 Table 9.2). -/
structure Resident where
  t : Nat
  saddr : Nat
  line : Nat
  lines : Nat
deriving DecidableEq, Repr

/-- A copy into an adapter slot (07 R194): the library's pair, the adapter, its offset and part, and whether every tile has
copied. -/
structure AdJob where
  id : W32
  gen : W32
  ad : W32
  xoff : Nat
  part : Nat
  copied : Bool
deriving DecidableEq, Repr

/-- Standing of an adapter slot (07). -/
inductive AdState where
  | empty
  | loading
  | ready
deriving DecidableEq, Repr

structure AdSlot where
  line : Nat
  lines : Nat
  st : AdState
  ad : W32
  job : Option AdJob
  evict : Bool
deriving DecidableEq, Repr

/-- Where a region's step stands. -/
inductive Phase where
  | idle
  | admitted
  | running
  | aborted
deriving DecidableEq, Repr

/-- An admitted or waiting step (10 R246 to R255): its input with MCAUSE filled in, reservations (tenant, charge, entry), ADMIT,
the estimate E, and the TENANT exposure of 09 R238. -/
structure Adm where
  inp : StepIn
  resv : List (Nat × Nat × Nat)
  nmasked : Nat
  course : Nat
  est : Nat
  waiting : Bool
  tenant : Bool
deriving DecidableEq, Repr

/-- A token record waiting to be written (10 R261, R263): fields, and the payload still to deliver. -/
structure Tok where
  step : W64
  slot : BitVec 16
  status : BitVec 16
  token : W32
  flags : Byte
  mcause : Byte
  excl : Byte
  user : W32
  payload : List Byte
  pbytes : Nat
  nbuf : Nat
  pbuf : Nat
deriving DecidableEq, Repr

/-- The rest of a boundary after the token records (10 R258 items 5 and 6): the completion, the mailbox replies of what items 1 to 3
decided, and whether the step committed. -/
structure Finish where
  bytes : List Byte
  commit : Bool
  replies : List (Nat × W16)
  write : Bool
  ning : Nat
  barOut : Bool
  barrier : W32
  hold : Bool
deriving DecidableEq, Repr

structure Region where
  st : RState
  b0 : Nat
  c0 : Nat
  h : Nat
  w : Nat
  load : Option LoadReq
  routes : List Nat
  residents : List Resident
  adslots : List AdSlot
  fetched : Option StepIn
  adm : Option Adm
  phase : Phase
  rerun : Nat
  startT : Nat
  e0 : Nat
  eStep : Nat
  mixed : Bool
  mixedLeft : Nat
  toks : List Tok
  tokTotal : Nat
  tokTrunc : Bool
  fins : List Finish
  stopM : List Nat
  cancels : List (Nat × Nat)
  reload : Bool
  badWords : List (Nat × Nat)
deriving DecidableEq, Repr

def Region.reset : Region :=
  { st := .empty, b0 := 0, c0 := 0, h := 0, w := 0, load := none, routes := [], residents := [], adslots := [], fetched := none,
    adm := none, phase := .idle, rerun := 0, startT := 0, e0 := 0, eStep := 0, mixed := false, mixedLeft := 0, toks := [], tokTotal := 0,
    tokTrunc := false, fins := [], stopM := [], cancels := [], reload := false, badWords := [] }

/-- A host ring pair (10 R242 to R244), the entries whose interrupt is merged under IMOD (17 R391), and the time from which the next message
may be sent. -/
structure Ring where
  d : RingDesc
  h2dProd : W32
  h2dCons : W32
  d2hProd : W32
  d2hCons : W32
  irq : Nat
  irqAt : Nat
deriving DecidableEq, Repr

/-- A disabled pair's descriptor. -/
def ringDesc0 : RingDesc := ⟨0, 0, 0, 0, 0xFFFF, 0, 0, 0, 0, 0, 0⟩
def Ring.reset : Ring := ⟨ringDesc0, 0, 0, 0, 0, 0, 0⟩

/-- States of a sequence slot (10 R250). -/
inductive SlotSt where
  | open_
  | cancelled
  | complete
deriving DecidableEq, Repr

/-- A sequence slot: its state and LOST (15 R348). -/
structure Slot where
  st : SlotSt
  lost : Bool
deriving DecidableEq, Repr

def Slot.reset : Slot := ⟨.open_, false⟩

/-- A tenant table entry (10 R253), the regions that named it since TENANT_SET (09 R238). -/
structure Tenant where
  balance : BitVec 48
  pcost : Byte
  tcost : Byte
  named : List Nat
deriving DecidableEq, Repr

def Tenant.reset : Tenant := ⟨0, 0, 0, []⟩

/-- One alternate of a route patch entry (09 Table 9.5). -/
structure RouteAlt where
  route : BitVec 128
  hops : Nat
  segn : Nat
  segs : BitVec 32
  mcast : Bool
deriving DecidableEq, Repr

structure RouteEnt where
  nalt : Nat
  active : Nat
  ddev : BitVec 12
  alts : List RouteAlt
deriving DecidableEq, Repr

def RouteEnt.reset : RouteEnt := ⟨0, 0, 0, []⟩

/-! ## Weight tier (07) -/

/-- Image states (07 Table 7.8). -/
inductive ImgState where
  | empty
  | downloading
  | downloaded
  | verified
  | trial
  | confirmed
  | retired
  | bad
  | incomplete
deriving DecidableEq, Repr

/-- A shard entry of a manifest (07 Table 7.4). -/
structure Shard where
  len : Nat
  slice : Nat
  x : Nat
  page : Nat
  digest : List Byte
deriving DecidableEq, Repr

/-- An adapter directory entry (07 Table 7.5). -/
structure AdEnt where
  ad : W32
  xoff : Nat
  part : Nat
deriving DecidableEq, Repr

/-- The standing of an image (07 R166 to R178). -/
structure Image where
  id : W32
  gen : W32
  ikind : Byte
  st : ImgState
  rect : Rect
  xset : BitVec 15
  mbytes : Nat
  mdigest : List Byte
  shards : List Shard
  adapters : List AdEnt
  manOk : Bool
  stored : List Nat
  priorGen : W32
  trialLimit : Byte
  boots : Byte
  badShards : List Nat
  before : ImgState
  lastSeq : W64
deriving DecidableEq, Repr

/-- Journal record kinds (07 Table 7.7). -/
inductive RKind where
  | downloaded
  | activate
  | confirm
  | trialBoot
  | revert
  | retire
  | reclaim
  | badShard
  | repaired
  | checkpoint
  | state
deriving DecidableEq, Repr

/-- One copy of a slice header or a page remap table (07 R159): its sequence number, its entries as bytes, its CRC-32C. -/
structure MetaCopy where
  seq : Nat
  body : List Byte
  crc : Nat
deriving DecidableEq, Repr

/-- The two copies, which the device writes alternately (07 R159). -/
structure MetaPair where
  a : MetaCopy
  b : MetaCopy
deriving DecidableEq, Repr

/-- Copies that were never written. -/
def MetaPair.reset : MetaPair := ⟨⟨0, [], 0⟩, ⟨0, [], 0⟩⟩

/-- A record waiting for its commit: the mailbox whose reply follows, if any, with the status of that reply, the session whose
head IMAGE_DONE goes to, and the image that an IMAGE_ALLOC allocates once the record is in force. -/
structure JPend where
  kind : RKind
  img : Image
  param : Nat
  reply : Option Nat
  status : BitVec 16
  session : Option W32
  alloc : Option Image
deriving DecidableEq, Repr

/-- A haul session (07 R180 to R186): the shards in reception with their bytes so far, the shards that wait for a resend from
the start, the NAKs sent, the shards that match and are being programmed; `retry` says that a head frame's DMA read failed, `frame` holds
the bytes of a head frame that was read and not sent yet. -/
structure Session where
  q : HaulReq
  parts : List (W32 × List Byte)
  ignore : List Nat
  naks : List (Nat × Nat)
  landed : List Nat
  stopped : Bool
  retry : Bool
  no : Nat
  frame : Option (List Byte)
deriving DecidableEq, Repr

/-- An armed layer swap (07 R189 to R192). -/
structure Swap where
  mask : W64
  rolling : Bool
  tail : Nat
  left : W64
  copied : W64
  tFirst : Option Nat
  m : Nat
deriving DecidableEq, Repr

/-- A verification in progress (07 R177), with the mailbox whose reply follows, if any. -/
structure Verif where
  id : W32
  gen : W32
  m : Option Nat
deriving DecidableEq, Repr

/-- The weight tier. On the medium: the bytes of the slices (extents 0 to 14 and pool pages), the wrong bits of codewords, the two copies of
every slice header and page remap table, the pages of the journal (8,192 for each of four copies), and the journal copies whose slice
cannot be read or programmed. Beside it, what the device works with: page remaps, pages to refresh, owners of extents, records that wait
with the commit stages done of the first, records since the last checkpoint, the images, whether items 1 to 3 of the replay are done,
verifications, sessions, swaps. -/
structure WTier where
  data : Memory
  weak : SMap Nat
  hdrs : SMap MetaPair
  maps : SMap MetaPair
  jpages : SMap (List Byte)
  jlost : BitVec 4
  remap : List (Nat × Nat × Nat)
  refreshQ : List (Nat × Nat)
  owners : List (Nat × Nat × W32 × W32 × Bool)
  jq : List JPend
  jstage : Nat
  jsince : Nat
  replayed : Bool
  images : List Image
  verifying : List Verif
  sessions : List Session
  swaps : List Swap
deriving DecidableEq, Repr

def WTier.reset : WTier := ⟨[], [], [], [], [], 0, [], [], [], [], 0, 0, false, [], [], [], []⟩

/-! ## Cicada, ports, power, faults, Hive, host interface, always-on domain, TAP -/

/-- Who armed the frequency switch (13 R322, 14 R331): a write of CIC_FSW or the FREQ frame of one, SLOW admission, a profile or burst-off. -/
inductive FswBy where
  | host
  | slow
  | power
deriving DecidableEq, Repr

/-- The Cicada beside its registers (13): the fraction of the counter, the slew that is left and the ns until the next one may come (R309);
views, and those that hold until the counter reaches them (R310); `ns` counts the ns since reset whatever the counter is set to; `prefs`
are the devices found to have MASTER_PREF (R318); marks in a row within ±2 ns and outside ±16 ns; the armed switch; frames seen, copies and
frames still to send, times of a join, a leave and a window, quiet intervals. -/
structure Cicada where
  frac : Nat
  slew : Int
  slewGap : Nat
  views : SMap Nat
  viewHold : List Nat
  ns : Nat
  prefs : List (BitVec 12)
  good : Nat
  badm : Nat
  fsw : Option (Nat × Nat)
  fswBy : FswBy
  seen : List (Nat × Nat × Nat)
  copies : List (RingFrame × Nat)
  tJ : Option Nat
  tL : Option Nat
  tW : Option Nat
  measured : Bool
  quiet : List (Nat × Nat)
  fid : Byte
  wantLeave : Bool
deriving DecidableEq, Repr

def Cicada.reset : Cicada := ⟨0, 0, 0, [], [], 0, [], 0, 0, none, .host, [], [], none, none, none, false, [], 0, false⟩

/-- A fabric port beside its registers (12): the FSEQ it expects next, the FSEQ of the last frame taken, FREE of the last credit received,
the FSEQ of the next frame sent, the flits sent in frames after REFSEQ with their VC, the source each VC was last served from, FREE and the
time of the last credit sent, the times of frame drops in the running second, whether the port stops, and when it last went down. -/
structure Port where
  rxSeq : Option (BitVec 16)
  taken : BitVec 16
  free : List Nat
  txSeq : BitVec 16
  sent : List (BitVec 16 × Nat)
  rot : SMap Nat
  credSent : List Nat
  credAt : Nat
  drops : List Nat
  idling : Bool
  downAt : Nat
deriving DecidableEq, Repr

def Port.reset : Port := ⟨none, 0xFFFF, [], 0, [], [], [], 0, [], false, 0⟩

/-- A receive flow entry (12 R301, R302): next expected sequence, accepts since the last acknowledgement and the time of the
oldest of them, the packet an acknowledgement retraces, the time of the flow's last packet. -/
structure RxFlow where
  key : FlowKey
  x : W32
  unacked : Nat
  oldest : Nat
  back : Packet
  last : Nat
deriving DecidableEq, Repr

/-- A flow's resend standing (12 R303, R304): timeouts in a row, and which receivers acknowledged which sequence. -/
structure TxFlow where
  key : FlowKey
  timeouts : Nat
  acks : List (W32 × BitVec 12)
deriving DecidableEq, Repr

/-- Power changes that wait for a synchronised count (14 R329, R331, R335, R337), each with the time it was asked. -/
structure PwrPend where
  win : Option (Nat × Nat)
  limit : Option (Nat × Nat)
  prof : Option (Nat × Nat)
  burstOff : Option Nat
  burstOn : Option Nat
deriving DecidableEq, Repr

def PwrPend.reset : PwrPend := ⟨none, none, none, none, none⟩

/-- The ledger and the loops of 14 beside the registers: energy of the current window, the Cicada time at which the last window begun began,
and whether the waiting steps are still to be checked against it; held voltages, and the rails on their way to a voltage; regions whose step
waits in the order they asked; the fields of the profile in force, and OPT_EN of the one loaded at reset. -/
structure Power where
  uDev : Nat
  uReg : SMap Nat
  recV : SMap Nat
  lowUs : SMap Nat
  held : SMap Nat
  pend : PwrPend
  capQuiet : Nat
  caseCool : Nat
  slowUsed : Bool
  slowInForce : Bool
  stretch : List Nat
  winAt : Nat
  recheck : Bool
  slewTo : List (Nat × Nat)
  live : ProfRec
  waitQ : List Nat
  optEn : Bool
deriving DecidableEq, Repr

def Power.reset : Power := ⟨0, [], [], [], [], .reset, 0, 0, false, false, [], 0, false, [], ⟨1600, 1850, 18, 8, 100, 60, true⟩, [], true⟩

/-- An error record (15 Table 15.2); `detail` is its DETAIL field as a number. -/
structure ErrRec where
  rseq : W64
  time : W64
  cls : Nat
  unit : Nat
  status : BitVec 16
  site : BitVec 16
  ltile : BitVec 16
  region : Byte
  action : Nat
  port : BitVec 16
  recid : W32
  step : W64
  detail : Nat
deriving DecidableEq, Repr

/-- Stages of a tile recovery (15 R345). -/
inductive RecStage where
  | quiesced
  | bist
  | empty
  | slices
  | reload
  | waitParts
  | held
deriving DecidableEq, Repr

/-- A cause of a recovery as its FAULT frames name it (15 Table 15.3): CLASS, SUBJECT, WHERE, and their GROUP fields. -/
structure Cause where
  cls : Nat
  subject : Nat
  loc : Nat
  groups : List Nat
deriving DecidableEq, Repr

/-- A recovery this device holds (15 R341 to R356): `own` says that this device opened it; `causes` holds the fault that opened it and
those merged into it, in order. `sites` are the failed sites (bench, column), `todo` those whose BIST has not ended, `restored` the failed
tiles, `toLoad` the regions to reload, `lost` the slots lost in it; `relay` says that the device's spares are exhausted, so that it only
relays (R346). -/
structure Recovery where
  recid : W32
  causes : List Cause
  sites : List (Nat × Nat)
  todo : List (Nat × Nat)
  moved : List Nat
  restored : List Nat
  lost : List Nat
  restarts : Nat
  stage : RecStage
  own : Bool
  regions : List Nat
  parts : List Nat
  needParts : List Nat
  toLoad : List Nat
  status : BitVec 16
  relay : Bool
deriving DecidableEq, Repr

/-- The report of a recovery that FLT_QUERY returns (15 R358). -/
structure Report where
  recid : W32
  status : BitVec 16
  lost : List Nat
deriving DecidableEq, Repr

/-- The fault manager (15): error records and their sequence, the open recovery, member sets, armed plans, reports, the RECID counter, the
subjects of recent frames; `defects` are the logical tiles whose sites are judged failed (R339) and not in a recovery yet. -/
structure FltMgr where
  recs : List ErrRec
  rseq : W64
  recov : Option Recovery
  groups : SMap (BitVec 4096)
  plans : List (BitVec 12 × List PlanAct)
  reports : List Report
  recCtr : Nat
  seenSubj : List (Nat × Nat × W32)
  defects : List Nat
deriving DecidableEq, Repr

def FltMgr.reset : FltMgr := ⟨[], 1, none, [], [], [], 0, [], []⟩

/-- A log record (16 R382): KIND, LEVEL, SRC and BODY. -/
structure LogRec where
  seq : W64
  time : W64
  kind : Nat
  level : Nat
  src : Nat
  body : List Byte
deriving DecidableEq, Repr

/-- A device-to-host ring of LOG_CONFIG or TRACE_CONFIG (16 R383). -/
structure DevRing where
  q : LogReq
  prod : W32
  cons : W32
deriving DecidableEq, Repr

/-- A command as its message holds it (16 Table 16.3): OPCODE, REGION, PARAM0 and the payload bytes. -/
structure Message where
  op : Nat
  region : Nat
  param0 : W32
  payload : List Byte
deriving DecidableEq, Repr

/-- The Hive (16): the local memories of HC0 to HC3 and the shared memories of the West and the East pair; whether firmware runs, where it
was entered and for how long; mailbox areas, doorbell order, payloads read from host memory (by mailbox), the commands that have begun,
those that will write no reply, and those that a host reset met before they began (mailbox, message); what HELLO agreed; misses, claims,
unacknowledged refreshes and demotions of the West and the East pair; lock results of HC0 to HC3 and the host. -/
structure Hive where
  locals : List Memory
  shared : List Memory
  run : Bool
  entry : W32
  upNs : Nat
  fwver : W32
  ifmaj : Byte
  ifmin : Byte
  mbox : SMap Byte
  order : List Nat
  payloads : List (Nat × List Byte)
  began : List Nat
  noReply : List Nat
  late : List (Nat × Message)
  negMaj : Option Byte
  negMin : Byte
  mismatch : Bool
  agreed : BitVec 256
  miss : List Nat
  claiming : List Bool
  nack : List Nat
  demoted : List Bool
  lockRes : List (BitVec 16)
  staging : Memory
  logRing : Option DevRing
  logBuf : List LogRec
  logSeq : W64
  traceRing : Option DevRing
  traceSeq : W32
  nonce : Option (List Byte)
  fails : Nat
  scope : BitVec 3
deriving DecidableEq, Repr

def Hive.reset : Hive :=
  { locals := [[], [], [], []], shared := [[], []], entry := 0, payloads := [], run := false, fwver := 0, ifmaj := 0, ifmin := 0, mbox := [], order := [], began := [], noReply := [], late := [], upNs := 0, negMaj := none, negMin := 0,
    mismatch := false, agreed := 0, miss := [0, 0], claiming := [false, false], nack := [0, 0], demoted := [false, false],
    lockRes := [0, 0, 0, 0, 0], staging := [], logRing := none, logBuf := [], logSeq := 1, traceRing := none, traceSeq := 0,
    nonce := none, fails := 0, scope := 0 }

/-- Who consumes a DMA read (17 R392), a payload with its host address and length; `stepBad` is the read of a step that failed and whose step has not come up yet. -/
inductive DmaUse where
  | step (r : Nat)
  | stepBad (r : Nat)
  | payload (m : Nat) (addr : W64) (len : Nat)
  | haul (session : W32)
deriving DecidableEq, Repr

/-- The host interface (17): the MSI-X table and pending bits, PERST_N asserted, DMA reads in flight. -/
structure HostIf where
  msix : Memory
  perst : Bool
  dma : List (Nat × DmaUse)
  nextDma : Nat
deriving DecidableEq, Repr

def HostIf.reset : HostIf := ⟨[], true, [], 0⟩

/-- Owner of the authority latch (16 R365). -/
inductive Owner where
  | nobody
  | west
  | east
deriving DecidableEq, Repr

/-- The always-on domain (17 Table 17.3) and what the board holds at the pins; `since` is the time in ns since the owner's last
refresh, `store` the profiles 0 to 3 and the override record, `vinHist` the averages of VIN power over 20 µs, newest first. -/
structure AlwaysOn where
  owner : Owner
  epoch : BitVec 16
  since : Nat
  store : List StoreItem
  skip : SMap (BitVec 8)
  trip : Bool
  thermN : Bool
  tj : List Nat
  tcase : Nat
  vinHist : List Nat
  alertN : Bool
  smbAddr : BitVec 3
  bypass : Bool
  resetN : Bool
  aux : Bool
  vin : Bool
  rstcause : BitVec 5
deriving DecidableEq, Repr

/-- What an unlisted half-bench's remap entry reads as (01 R14): skipped column 0 West, 47 East, not used, not shifting. -/
def skipDefault (n : Nat) : BitVec 8 := if n % 2 = 0 then 0 else 47

def AlwaysOn.reset : AlwaysOn :=
  { owner := .nobody, epoch := 0, since := 0, store := factoryStore, skip := [], trip := false,
    thermN := false, tj := [], tcase := 0, vinHist := [], alertN := false, smbAddr := 0, bypass := true, resetN := false, aux := true, vin := true,
    rstcause := 0 }

/-- TAP instructions (17 Table 17.7). -/
inductive TapIr where
  | extest
  | idcode
  | sample
  | clamp
  | highz
  | dbgAccess
  | scanBist
  | bypass
deriving DecidableEq, Repr

structure Tap where
  ir : TapIr
  cells : List Bool
  bist : Option (Nat × Nat × Bool)
deriving DecidableEq, Repr

def Tap.reset : Tap := ⟨.idcode, [], none⟩

/-- What the device sends to the outside (the model's own record of it, log 1): data read, DMA writes, MSI-X messages, ring frames, link
frames, entries of the acknowledgement ring, CTRL packets, SMBus data, TAP data. -/
inductive Output where
  | readData (v : W64)
  | dmaWrite (addr : Nat) (bytes : List Byte)
  | msix (vector : Nat)
  | ring (fr : RingFrame)
  | portOut (p : Nat) (bytes : List Byte)
  | ackRing (ring : Nat) (a : HaulAck)
  | shadowAck (t : Nat) (dst : BitVec 12) (step : W64)
  | wvl (dst : Nat) (req : WvlReq)
  | wvlData (dst : Nat) (bytes : List Byte)
  | ctrl (dst : BitVec 12) (recid : W32)
  | resync (dst : BitVec 12)
  | askLeave (master : BitVec 12)
  | smb (data : List Byte)
  | tap (data : List Bool)
deriving DecidableEq, Repr

/-- A copy of a packet on its way out of an input: the output, the header it leaves with, the flits that have left, and whether a slot has
let it start (11 R278). -/
structure Copy where
  out : Nat
  hdr : Packet
  sent : Nat
  go : Bool
deriving DecidableEq, Repr

/-- A packet at an input of a router or of the relay crossbar (11 R268, 12 R296), with the flits of it that have come. `node` is a tile, or
1,104 for the relay crossbar. Inputs of a router are 0 N, 1 E, 2 S, 3 W, 4 Local, 5 gateway; those of the crossbar 0 to 15 the ports and 16
to 23 the gateways. Outputs are numbered the same way; output 16 of the crossbar is the device itself. `outs` is none while the header is on
the link, and empty for a packet that is discarded. -/
structure Flight where
  node : Nat
  inp : Nat
  pkt : Packet
  outs : Option (List Copy)
deriving DecidableEq, Repr

/-- The device: everything but the queue of commands. -/
structure Dev where
  regs : SMap W64
  hostCap : Option (Nat × W64)
  tiles : SMap Tile
  flying : List Flight
  cyc : Nat
  unitIn : List (Nat × Packet)
  gwIn : List (Nat × Packet)
  rxIn : List Packet
  routes : SMap RouteEnt
  regions : SMap Region
  rings : SMap Ring
  slots : SMap Slot
  tenants : SMap Tenant
  wt : WTier
  hive : Hive
  cic : Cicada
  ports : SMap Port
  rxFlows : List RxFlow
  naks : List (FlowKey × Nat)
  unitHeld : List Held
  unitSeq : SMap W32
  txFlows : List TxFlow
  pwr : Power
  flt : FltMgr
  host : HostIf
  aon : AlwaysOn
  tap : Tap
  out : List Output
  ctr : Nat
deriving DecidableEq, Repr

def Dev.reset : Dev :=
  { regs := [], hostCap := none, tiles := [], flying := [], cyc := 0, unitIn := [], gwIn := [], rxIn := [], routes := [], regions := [], rings := [], slots := [],
    tenants := [], wt := .reset, hive := .reset, cic := .reset, ports := [], rxFlows := [], naks := [], unitHeld := [], unitSeq := [], txFlows := [],
    pwr := .reset, flt := .reset, host := .reset, aon := .reset, tap := .reset, out := [], ctr := 0 }

/-- The state: the device, and the commands that wait, first in first out. -/
structure State where
  dev : Dev
  pending : List Instr
deriving DecidableEq, Repr

/-- Right after reset: every register at its Reset value, nothing loaded, no command waiting. -/
def State.reset : State := ⟨.reset, []⟩

end Sys2Proof.Machine
end

