-- ==== Sys2Proof/Machine/Regs.lean ====
section
/-! DEFINITION. The registers: for every register heading of the manual its address, its reset value and
the bits of each access type (00 R3, Table 0.1), and reads and writes of the two register files by these
types. Control-space addresses are those of 04 Table 4.6; device addresses are BAR0 offsets (17 Table
17.2). Fields that show other state are composed in Machine/RegFile.lean. -/

namespace Sys2Proof.Machine

/-- A register or an array of registers: the first address; `inner` consecutive 64-bit words, repeated `count` times
every `stride` bytes; the reset value; the RW, W1C, RC and action (WO, W1S) bits. -/
structure RegRow where
  first : Nat
  inner : Nat
  count : Nat
  stride : Nat
  reset : W64
  rw : W64
  w1c : W64
  rc : W64
  act : W64
deriving DecidableEq, Repr

/-- Whether a register of the row lies at an address. -/
def RegRow.at (r : RegRow) (a : Nat) : Bool :=
  decide (r.first ≤ a) && decide ((a - r.first) / r.stride < r.count) &&
  decide ((a - r.first) % r.stride < 8 * r.inner) && decide ((a - r.first) % 8 = 0)

/-! ### Addresses in a tile's control space -/

abbrev Reg.ARR_STATUS : Nat := 0x1000
abbrev Reg.ARR_ERR : Nat := 0x1008
abbrev Reg.ARR_FLAGS : Nat := 0x1010
abbrev Reg.ARR_FLAGSEL : Nat := 0x1018
abbrev Reg.ARR_FLAGROW : Nat := 0x1020
abbrev Reg.ARR_TRAPEN : Nat := 0x1028
abbrev Reg.ARR_RMASK : Nat := 0x1040
abbrev Reg.ARR_CMASK : Nat := 0x1080
abbrev Reg.ARR_CBCOL : Nat := 0x10c0
abbrev Reg.ARR_CBTYPE : Nat := 0x10e0
abbrev Reg.ARR_STALL_W : Nat := 0x1100
abbrev Reg.ARR_STALL_A : Nat := 0x1108
abbrev Reg.ARR_STALL_D : Nat := 0x1110
abbrev Reg.ARR_ACWDONE : Nat := 0x1118
abbrev Reg.SCB_CTL : Nat := 0
abbrev Reg.SCB_STATUS : Nat := 8
abbrev Reg.SCB_ENTRY : Nat := 0x10
abbrev Reg.SCB_TVEC : Nat := 0x18
abbrev Reg.SCB_EPC : Nat := 0x20
abbrev Reg.SCB_CAUSE : Nat := 0x28
abbrev Reg.SCB_EVENT : Nat := 0x30
abbrev Reg.SCB_STEP : Nat := 0x38
abbrev Reg.SCB_RERUN : Nat := 0x40
abbrev Reg.SCB_WDOG : Nat := 0x48
abbrev Reg.SCB_WDOG_KICK : Nat := 0x50
abbrev Reg.SCB_CYCLES : Nat := 0x58
abbrev Reg.SCB_STALL_FWD : Nat := 0x60
abbrev Reg.SCB_STALL_ISSUE : Nat := 0x68
abbrev Reg.SCB_WAITT_LATE : Nat := 0x70
abbrev Reg.SCB_HOSTDROP : Nat := 0x78
abbrev Reg.VE_STATUS : Nat := 0x2000
abbrev Reg.VE_ERR : Nat := 0x2008
abbrev Reg.VE_FLAGS : Nat := 0x2010
abbrev Reg.VE_TRAPEN : Nat := 0x2018
abbrev Reg.VE_OE : Nat := 0x2020
abbrev Reg.VE_SEED : Nat := 0x2028
abbrev Reg.VE_LMASK : Nat := 0x2040
abbrev Reg.VE_RNG : Nat := 0x2100
abbrev Reg.VE_RETIRED : Nat := 0x2180
abbrev Reg.VE_STALL : Nat := 0x2188
abbrev Reg.SPAD_ERR : Nat := 0x3000
abbrev Reg.SPAD_PARCNT : Nat := 0x3008
abbrev Reg.SPAD_BANKWAIT : Nat := 0x3010
abbrev Reg.SPAD_SBOARD : Nat := 0x3018
abbrev Reg.SPAD_PORT : Nat := 0x3100
abbrev Reg.SPAD_QCMD : Nat := 0x3200
abbrev Reg.SPAD_QCTX : Nat := 0x3208
abbrev Reg.SPAD_QHDR0 : Nat := 0x3228
abbrev Reg.SPAD_QHDR1 : Nat := 0x3230
abbrev Reg.SPAD_TDC : Nat := 0x3240
abbrev Reg.SPAD_SPOILT : Nat := 0x3248
abbrev Reg.SPAD_REASM : Nat := 0x3250
abbrev Reg.SPAD_REASM_WAIT : Nat := 0x3258
abbrev Reg.WVL_STATUS : Nat := 0x4000
abbrev Reg.WVL_ERR : Nat := 0x4008
abbrev Reg.WVL_CFG : Nat := 0x4010
abbrev Reg.WVL_DIR : Nat := 0x4018
abbrev Reg.WVL_CMD : Nat := 0x4020
abbrev Reg.WVL_CMDDATA : Nat := 0x4028
abbrev Reg.WVL_FQ0 : Nat := 0x4040
abbrev Reg.WVL_FQ1 : Nat := 0x4048
abbrev Reg.WVL_FQ_COMMIT : Nat := 0x4050
abbrev Reg.WVL_FDONE : Nat := 0x4058
abbrev Reg.WVL_DCFG : Nat := 0x4060
abbrev Reg.WVL_CLAIM : Nat := 0x4068
abbrev Reg.WVL_CLAIMED : Nat := 0x4070
abbrev Reg.WVL_SHADOW : Nat := 0x4080
abbrev Reg.WVL_SHACK : Nat := 0x4088
abbrev Reg.WVL_SHSTEP : Nat := 0x4090
abbrev Reg.WVL_MISS : Nat := 0x40a0
abbrev Reg.WVL_COW : Nat := 0x40a8
abbrev Reg.WVL_SPOIL : Nat := 0x40b0
abbrev Reg.WVL_FETCH_FAULT : Nat := 0x40b8
abbrev Reg.WVL_STEAL : Nat := 0x40c0
abbrev Reg.WVL_SHWAIT : Nat := 0x40c8
abbrev Reg.WVL_KVS : Nat := 0x4800
abbrev Reg.MESH_REGION : Nat := 0x5000
abbrev Reg.MESH_SLOTCFG : Nat := 0x5008
abbrev Reg.MESH_EPOCH : Nat := 0x5010
abbrev Reg.MESH_SLOT_LATE : Nat := 0x5018
abbrev Reg.MESH_BOUND_DROP : Nat := 0x5020
abbrev Reg.MESH_MISROUTE : Nat := 0x5028
abbrev Reg.MESH_RPT_MISS : Nat := 0x5030
abbrev Reg.MESH_XWAIT : Nat := 0x5038
abbrev Reg.MESH_SLOTTAB : Nat := 0x5400
abbrev Reg.MESH_REPLAY : Nat := 0x5040
abbrev Reg.MESH_REPLAY_WAIT : Nat := 0x5048
abbrev Reg.AG : Nat := 0x400

/-! ### Offsets in BAR0 -/

abbrev Reg.WT_STATUS : Nat := 0x200000
abbrev Reg.WT_ERR : Nat := 0x200008
abbrev Reg.WT_JSEQ : Nat := 0x200010
abbrev Reg.WT_ECC_CORR : Nat := 0x200018
abbrev Reg.WT_ECC_UNCORR : Nat := 0x200020
abbrev Reg.WT_REFRESH : Nat := 0x200028
abbrev Reg.WT_SCRUB_CTL : Nat := 0x200030
abbrev Reg.WT_SCRUB_PASS : Nat := 0x200038
abbrev Reg.WT_HAUL_BAD : Nat := 0x200040
abbrev Reg.WT_XMAP : Nat := 0x200400
abbrev Reg.WT_XMAP_NEXT : Nat := 0x200600
abbrev Reg.HOST_FEAT0 : Nat := 0x100
abbrev Reg.HOST_FEAT1 : Nat := 0x108
abbrev Reg.HOST_FEAT2 : Nat := 0x110
abbrev Reg.HOST_FEAT3 : Nat := 0x118
abbrev Reg.HOST_CFGSIG : Nat := 0x800
abbrev Reg.SRV_TDC : Nat := 0x302000
abbrev Reg.SRV_EXCL : Nat := 0x302200
abbrev Reg.SRV_RCFG : Nat := 0x300000
abbrev Reg.SRV_RCFG2 : Nat := 0x300200
abbrev Reg.SRV_STATE : Nat := 0x300400
abbrev Reg.SRV_LAST : Nat := 0x300600
abbrev Reg.SRV_OVERRUN : Nat := 0x300800
abbrev Reg.SRV_EGSPOIL : Nat := 0x300a00
abbrev Reg.SRV_ABORTDROP : Nat := 0x300c00
abbrev Reg.SRV_TENSHORT : Nat := 0x300e00
abbrev Reg.PORT_CTL : Nat := 0x400000
abbrev Reg.PORT_STATUS : Nat := 0x400008
abbrev Reg.PORT_ERR : Nat := 0x400010
abbrev Reg.PORT_CNT : Nat := 0x400018
abbrev Reg.PORT_SLOT_LATE : Nat := 0x400020
abbrev Reg.PORT_FEC : Nat := 0x400028
abbrev Reg.PORT_SLOTCFG : Nat := 0x400030
abbrev Reg.PORT_SLOTTAB : Nat := 0x400100
abbrev Reg.PORT_DEVID : Nat := 0x402000
abbrev Reg.PORT_SLOTBASE : Nat := 0x402008
abbrev Reg.PORT_E2ECFG : Nat := 0x402010
abbrev Reg.PORT_E2ECNT : Nat := 0x402018
abbrev Reg.PORT_DROPCNT : Nat := 0x402020
abbrev Reg.PORT_RESEND : Nat := 0x402028
abbrev Reg.CIC_CTL : Nat := 0x500000
abbrev Reg.CIC_STATUS : Nat := 0x500008
abbrev Reg.CIC_TIME : Nat := 0x500010
abbrev Reg.CIC_SET : Nat := 0x500018
abbrev Reg.CIC_ERR : Nat := 0x500020
abbrev Reg.CIC_OFFSET : Nat := 0x500028
abbrev Reg.CIC_OUTDLY : Nat := 0x500030
abbrev Reg.CIC_FSW : Nat := 0x500038
abbrev Reg.CIC_FSW_TIME : Nat := 0x500040
abbrev Reg.CIC_RINGCNT : Nat := 0x500048
abbrev Reg.CIC_BAR : Nat := 0x500100
abbrev Reg.CIC_RSTAT : Nat := 0x500400
abbrev Reg.CIC_MARGIN : Nat := 0x500600
abbrev Reg.PWR_LIMIT : Nat := 0x600000
abbrev Reg.PWR_WIN : Nat := 0x600008
abbrev Reg.PWR_WINBASE : Nat := 0x600010
abbrev Reg.PWR_STATUS : Nat := 0x600018
abbrev Reg.PWR_ERR : Nat := 0x600020
abbrev Reg.PWR_AVS : Nat := 0x600028
abbrev Reg.PWR_TEMP : Nat := 0x600030
abbrev Reg.PWR_CNT : Nat := 0x600038
abbrev Reg.PWR_DEVE : Nat := 0x600040
abbrev Reg.PWR_VCORE : Nat := 0x600100
abbrev Reg.PWR_RAILE : Nat := 0x600400
abbrev Reg.PWR_REGCFG : Nat := 0x600800
abbrev Reg.PWR_REGE : Nat := 0x600a00
abbrev Reg.PWR_OVERRUN : Nat := 0x600c00
abbrev Reg.FLT_STATUS : Nat := 0x700000
abbrev Reg.FLT_CTL : Nat := 0x700008
abbrev Reg.FLT_CNT : Nat := 0x700010
abbrev Reg.FLT_SKIP : Nat := 0x700100
abbrev Reg.FLT_PEER : Nat := 0x700200
abbrev Reg.FLT_GROUP : Nat := 0x700400
abbrev Reg.HIVE_STATUS : Nat := 0x100000
abbrev Reg.HIVE_FW : Nat := 0x100008
abbrev Reg.HIVE_MBOXST : Nat := 0x100010
abbrev Reg.HIVE_MBOXFREE : Nat := 0x100018
abbrev Reg.HIVE_CNT : Nat := 0x100020
abbrev Reg.HIVE_LOCKCMD : Nat := 0x100028
abbrev Reg.HIVE_LOCKRES : Nat := 0x100030
abbrev Reg.HIVE_EPOCH : Nat := 0x100038
abbrev Reg.HIVE_LOCK : Nat := 0x100400
abbrev Reg.HIVE_TRACE_EN : Nat := 0x100600
abbrev Reg.HOST_STATUS : Nat := 0
abbrev Reg.HOST_RSTCAUSE : Nat := 8
abbrev Reg.HOST_DMAERR : Nat := 0x10
abbrev Reg.HOST_BAR2DROP : Nat := 0x18

/-- Register headings, part 0 of the tile table. -/
def tileRows0 : List RegRow :=
  [⟨0x1000, 1, 1, 8, 0, 0, 0, 0, 0⟩,
   ⟨0x1008, 1, 1, 8, 0, 0, 0x3f00000000, 0, 0⟩,
   ⟨0x1010, 1, 1, 8, 0, 0, 0x1f1f1f1f, 0, 0⟩,
   ⟨0x1018, 1, 1, 8, 0, 0x1ff, 0, 0, 0⟩,
   ⟨0x1020, 1, 1, 8, 0, 0, 0, 0, 0⟩,
   ⟨0x1028, 1, 1, 8, 0, 0x1f, 0, 0, 0⟩,
   ⟨0x1040, 1, 1, 8, 0xffffffff, 0, 0, 0, 0⟩,
   ⟨0x1048, 1, 7, 8, 0xffffffff, 0xffffffff, 0, 0, 0⟩,
   ⟨0x1080, 1, 1, 8, 0xffffffff, 0, 0, 0, 0⟩,
   ⟨0x1088, 1, 7, 8, 0xffffffff, 0xffffffff, 0, 0, 0⟩,
   ⟨0x10c0, 1, 4, 8, 0, 0, 0, 0, 0⟩,
   ⟨0x10e0, 1, 1, 8, 0, 0, 0, 0, 0⟩,
   ⟨0x1100, 1, 1, 8, 0, 0, 0, 0xffffffffffffffff, 0⟩,
   ⟨0x1108, 1, 1, 8, 0, 0, 0, 0xffffffffffffffff, 0⟩,
   ⟨0x1110, 1, 1, 8, 0, 0, 0, 0xffffffffffffffff, 0⟩,
   ⟨0x1118, 1, 1, 8, 0, 0, 0, 0xffffffffffffffff, 0⟩]

/-- Register headings, part 1 of the tile table. -/
def tileRows1 : List RegRow :=
  [⟨0, 1, 1, 8, 0, 0, 0, 0, 3⟩,
   ⟨8, 1, 1, 8, 0, 0, 0, 0, 0⟩,
   ⟨0x10, 1, 1, 8, 0, 0xfffc, 0, 0, 0⟩,
   ⟨0x18, 1, 1, 8, 0, 0xfffc, 0, 0, 0⟩,
   ⟨0x20, 1, 1, 8, 0, 0xffffffff, 0, 0, 0⟩,
   ⟨0x28, 1, 1, 8, 0, 0, 0, 0, 0⟩,
   ⟨0x30, 1, 1, 8, 0, 0, 0x1f, 0, 0⟩,
   ⟨0x38, 1, 1, 8, 0, 0, 0, 0, 0⟩,
   ⟨0x40, 1, 1, 8, 0, 0, 0, 0, 0⟩,
   ⟨0x48, 1, 1, 8, 0x2710, 0xffffff, 0, 0, 0⟩,
   ⟨0x50, 1, 1, 8, 0, 0, 0, 0, 1⟩,
   ⟨0x58, 1, 1, 8, 0, 0, 0, 0, 0⟩,
   ⟨0x60, 1, 1, 8, 0, 0, 0, 0xffffffffffffffff, 0⟩,
   ⟨0x68, 1, 1, 8, 0, 0, 0, 0xffffffffffffffff, 0⟩,
   ⟨0x70, 1, 1, 8, 0, 0, 0, 0xffffffffffffffff, 0⟩,
   ⟨0x78, 1, 1, 8, 0, 0, 0, 0xffffffffffffffff, 0⟩]

/-- Register headings, part 2 of the tile table. -/
def tileRows2 : List RegRow :=
  [⟨0x2000, 1, 1, 8, 0, 0, 0, 0, 0⟩,
   ⟨0x2008, 1, 1, 8, 0, 0, 0x300000000, 0, 0⟩,
   ⟨0x2010, 1, 1, 8, 0, 0, 0x7f, 0, 0⟩,
   ⟨0x2018, 1, 1, 8, 0, 0x7f, 0, 0, 0⟩,
   ⟨0x2020, 1, 1, 8, 0, 0x3ff, 0, 0, 0⟩,
   ⟨0x2028, 1, 1, 8, 0, 0xffffffffffffffff, 0, 0, 0⟩,
   ⟨0x2040, 1, 1, 8, 0xffffffffffffffff, 0, 0, 0, 0⟩,
   ⟨0x2048, 1, 7, 8, 0xffffffffffffffff, 0xffffffffffffffff, 0, 0, 0⟩,
   ⟨0x2100, 1, 16, 8, 0, 0xffffffffffff, 0x1000000000000, 0, 0⟩,
   ⟨0x2180, 1, 1, 8, 0, 0, 0, 0, 0⟩,
   ⟨0x2188, 1, 1, 8, 0, 0, 0, 0xffffffffffffffff, 0⟩,
   ⟨0x3000, 1, 1, 8, 0, 0, 7, 0, 0⟩,
   ⟨0x3008, 1, 1, 8, 0, 0, 0, 0xffffffffffffffff, 0⟩,
   ⟨0x3010, 1, 1, 8, 0, 0, 0, 0xffffffffffffffff, 0⟩,
   ⟨0x3018, 1, 1, 8, 0, 0, 0, 0, 0⟩,
   ⟨0x3100, 1, 16, 8, 0, 0xffffff00ffff03, 0, 0, 0⟩]

/-- Register headings, part 3 of the tile table. -/
def tileRows3 : List RegRow :=
  [⟨0x3200, 1, 1, 8, 0, 0xfff, 0x20000, 0, 0⟩,
   ⟨0x3208, 1, 4, 8, 0, 0xffffffffffffffff, 0, 0, 0⟩,
   ⟨0x3228, 1, 1, 8, 0, 0, 0, 0, 0⟩,
   ⟨0x3230, 1, 1, 8, 0, 0, 0, 0, 0⟩,
   ⟨0x3240, 1, 1, 8, 0, 0, 0, 0, 0⟩,
   ⟨0x3248, 1, 1, 8, 0, 0, 0, 0xffffffffffffffff, 0⟩,
   ⟨0x3250, 1, 1, 8, 0, 0, 0, 0, 0⟩,
   ⟨0x3258, 1, 1, 8, 0, 0, 0, 0xffffffffffffffff, 0⟩,
   ⟨0x4000, 1, 1, 8, 0, 0, 0, 0, 0⟩,
   ⟨0x4008, 1, 1, 8, 0, 0, 0x7f0000, 0, 0⟩,
   ⟨0x4010, 1, 1, 8, 0, 0xffffff3ffffff, 0, 0, 0⟩,
   ⟨0x4018, 1, 1, 8, 0, 0xfffffffffffffff, 0, 0, 0⟩,
   ⟨0x4020, 1, 1, 8, 0, 0xffff7fff, 0x200000000, 0, 0⟩,
   ⟨0x4028, 1, 1, 8, 0, 0xffffffff, 0, 0, 0⟩,
   ⟨0x4040, 1, 1, 8, 0, 0xffffffffffffffff, 0, 0, 0⟩,
   ⟨0x4048, 1, 1, 8, 0, 0xffffffffffffffff, 0, 0, 0⟩]

/-- Register headings, part 4 of the tile table. -/
def tileRows4 : List RegRow :=
  [⟨0x4050, 1, 1, 8, 0, 0, 0, 0, 1⟩,
   ⟨0x4058, 1, 1, 8, 0, 0, 0, 0, 0⟩,
   ⟨0x4060, 1, 1, 8, 0, 0xfffffffffffffff3, 0, 0, 0⟩,
   ⟨0x4068, 1, 1, 8, 0, 0, 0, 0, 1⟩,
   ⟨0x4070, 1, 1, 8, 0xffffffff, 0, 0, 0, 0⟩,
   ⟨0x4080, 1, 1, 8, 0, 0xfffffffffffffff1, 0, 0, 0⟩,
   ⟨0x4088, 1, 1, 8, 0, 0, 0, 0, 0⟩,
   ⟨0x4090, 1, 1, 8, 0, 0, 0, 0, 0⟩,
   ⟨0x40a0, 1, 1, 8, 0, 0, 0, 0xffffffffffffffff, 0⟩,
   ⟨0x40a8, 1, 1, 8, 0, 0, 0, 0xffffffffffffffff, 0⟩,
   ⟨0x40b0, 1, 1, 8, 0, 0, 0, 0xffffffffffffffff, 0⟩,
   ⟨0x40b8, 1, 1, 8, 0, 0, 0, 0xffffffffffffffff, 0⟩,
   ⟨0x40c0, 1, 1, 8, 0, 0, 0, 0, 0⟩,
   ⟨0x40c8, 1, 1, 8, 0, 0, 0, 0xffffffffffffffff, 0⟩,
   ⟨0x4800, 1, 256, 8, 0, 0xffffffffff, 0, 0, 0⟩,
   ⟨0x5000, 1, 1, 8, 0x7f, 0, 0, 0, 0⟩]

/-- Register headings, part 5 of the tile table. -/
def tileRows5 : List RegRow :=
  [⟨0x5008, 1, 1, 8, 0, 0x7fff, 0, 0, 0⟩,
   ⟨0x5010, 1, 1, 8, 0, 0, 0, 0, 0⟩,
   ⟨0x5018, 1, 1, 8, 0, 0, 0, 0xffffffffffffffff, 0⟩,
   ⟨0x5020, 1, 1, 8, 0, 0, 0, 0xffffffffffffffff, 0⟩,
   ⟨0x5028, 1, 1, 8, 0, 0, 0, 0xffffffffffffffff, 0⟩,
   ⟨0x5030, 1, 1, 8, 0, 0, 0, 0xffffffffffffffff, 0⟩,
   ⟨0x5038, 1, 1, 8, 0, 0, 0, 0xffffffffffffffff, 0⟩,
   ⟨0x5400, 320, 1, 0xa00, 0x7000700070007, 0xffffffffffffffff, 0, 0, 0⟩,
   ⟨0x5040, 1, 1, 8, 0x400bc00, 0xffffffff, 0, 0, 0⟩,
   ⟨0x5048, 1, 1, 8, 0, 0, 0, 0xffffffffffffffff, 0⟩]

/-- The registers of a tile's control space, but for the AG blocks (03 to 06, 08, 11, 12). -/
def tileRows : List RegRow := tileRows0 ++ tileRows1 ++ tileRows2 ++ tileRows3 ++ tileRows4 ++ tileRows5

/-- Register headings, part 0 of the device table. -/
def devRows0 : List RegRow :=
  [⟨0x200000, 1, 1, 8, 0, 0, 0, 0, 0⟩,
   ⟨0x200008, 1, 1, 8, 0, 0, 0x3f, 0, 0⟩,
   ⟨0x200010, 1, 1, 8, 0, 0, 0, 0, 0⟩,
   ⟨0x200018, 1, 1, 8, 0, 0, 0, 0xffffffffffffffff, 0⟩,
   ⟨0x200020, 1, 1, 8, 0, 0, 0, 0xffffffffffffffff, 0⟩,
   ⟨0x200028, 1, 1, 8, 0, 0, 0, 0xffffffffffffffff, 0⟩,
   ⟨0x200030, 1, 1, 8, 0x1005a0, 0x1fffff, 0, 0, 0⟩,
   ⟨0x200038, 1, 1, 8, 0, 0, 0, 0, 0⟩,
   ⟨0x200040, 1, 1, 8, 0, 0, 0, 0xffffffffffffffff, 0⟩,
   ⟨0x200400, 1, 64, 8, 0xfffffffffffffff, 0, 0, 0, 0⟩,
   ⟨0x200600, 1, 64, 8, 0xfffffffffffffff, 0xfffffffffffffff, 0, 0, 0⟩,
   ⟨0x100, 1, 1, 8, 0x1104020412e1818, 0, 0, 0, 0⟩,
   ⟨0x108, 1, 1, 8, 0x1040040010010c00, 0, 0, 0, 0⟩,
   ⟨0x110, 1, 1, 8, 0x4c020000400300, 0, 0, 0, 0⟩,
   ⟨0x118, 1, 1, 8, 0x240450, 0, 0, 0, 0⟩,
   ⟨0x800, 1, 64, 8, 0, 0, 0, 0, 0⟩]

/-- Register headings, part 1 of the device table. -/
def devRows1 : List RegRow :=
  [⟨0x302000, 1, 64, 8, 0, 0, 0, 0, 0⟩,
   ⟨0x302200, 1, 64, 8, 0, 0, 0, 0, 0⟩,
   ⟨0x300000, 1, 64, 8, 0, 0x7fffffffffff07ff, 0, 0, 0⟩,
   ⟨0x300200, 1, 64, 8, 0, 0xffffffffffffffff, 0, 0, 0⟩,
   ⟨0x300400, 1, 64, 8, 0, 0, 0x28, 0, 0⟩,
   ⟨0x300600, 1, 64, 8, 0, 0, 0, 0, 0⟩,
   ⟨0x300800, 1, 64, 8, 0, 0, 0, 0xffffffffffffffff, 0⟩,
   ⟨0x300a00, 1, 64, 8, 0, 0, 0, 0xffffffffffffffff, 0⟩,
   ⟨0x300c00, 1, 64, 8, 0, 0, 0, 0xffffffffffffffff, 0⟩,
   ⟨0x300e00, 1, 1, 8, 0, 0, 0, 0xffffffffffffffff, 0⟩,
   ⟨0x400000, 1, 16, 0x200, 0x100002, 0xffff0003, 0, 0, 0⟩,
   ⟨0x400008, 1, 16, 0x200, 0, 0, 0, 0, 0⟩,
   ⟨0x400010, 1, 16, 0x200, 0, 0, 0xf, 0, 0⟩,
   ⟨0x400018, 1, 16, 0x200, 0, 0, 0, 0xffffffffffffffff, 0⟩,
   ⟨0x400020, 1, 16, 0x200, 0, 0, 0, 0xffffffffffffffff, 0⟩,
   ⟨0x400028, 1, 16, 0x200, 0, 0, 0, 0xffffffffffffffff, 0⟩]

/-- Register headings, part 2 of the device table. -/
def devRows2 : List RegRow :=
  [⟨0x400030, 1, 16, 0x200, 0, 0x1ffffff, 0, 0, 0⟩,
   ⟨0x400100, 32, 16, 0x200, 0x1f1f1f1f1f1f1f1f, 0x1f1f1f1f1f1f1f1f, 0, 0, 0⟩,
   ⟨0x402000, 1, 1, 8, 0, 0x1fff, 0, 0, 0⟩,
   ⟨0x402008, 1, 1, 8, 0, 0xffffffffffffffff, 0, 0, 0⟩,
   ⟨0x402010, 1, 1, 8, 0x100014, 0xffffff, 0, 0, 0⟩,
   ⟨0x402018, 1, 1, 8, 0, 0, 0, 0xffffffffffffffff, 0⟩,
   ⟨0x402020, 1, 1, 8, 0, 0, 0, 0xffffffffffffffff, 0⟩,
   ⟨0x402028, 1, 1, 8, 0, 0, 0, 0xffffffffffffffff, 0⟩,
   ⟨0x500000, 1, 1, 8, 0, 7, 0, 0, 0⟩,
   ⟨0x500008, 1, 1, 8, 0x1200000000, 0, 0, 0, 0⟩,
   ⟨0x500010, 1, 1, 8, 0, 0, 0, 0, 0⟩,
   ⟨0x500018, 1, 1, 8, 0, 0, 0, 0, 0xffffffffffffffff⟩,
   ⟨0x500020, 1, 1, 8, 0, 0, 0xff, 0, 0⟩,
   ⟨0x500028, 1, 1, 8, 0, 0, 0, 0, 0⟩,
   ⟨0x500030, 1, 1, 8, 0, 0, 0, 0, 0⟩,
   ⟨0x500038, 1, 1, 8, 0, 0x7f, 0, 0, 0⟩]

/-- Register headings, part 3 of the device table. -/
def devRows3 : List RegRow :=
  [⟨0x500040, 1, 1, 8, 0, 0xffffffffffffffff, 0, 0, 0⟩,
   ⟨0x500048, 1, 1, 8, 0, 0, 0, 0xffffffffffffffff, 0⟩,
   ⟨0x500100, 1, 16, 8, 0, 0xfffffffffff, 0, 0, 0⟩,
   ⟨0x500400, 1, 48, 8, 0, 0, 0, 0xffffffffffff, 0⟩,
   ⟨0x500600, 1, 48, 8, 0xffffffff, 0, 0, 0xffffffff, 0⟩,
   ⟨0x600000, 1, 1, 8, 0x873a0640, 0x3f0000fff, 0, 0, 0⟩,
   ⟨0x600008, 1, 1, 8, 0x3e8, 0x1ffff, 0, 0, 0⟩,
   ⟨0x600010, 1, 1, 8, 0, 0, 0, 0, 0⟩,
   ⟨0x600018, 1, 1, 8, 0, 0, 0, 0, 0⟩,
   ⟨0x600020, 1, 1, 8, 0, 0, 0x1f, 0, 0⟩,
   ⟨0x600028, 1, 1, 8, 0x206, 0xffff, 0, 0, 0⟩,
   ⟨0x600030, 1, 1, 8, 0x64, 0xff, 0, 0, 0⟩,
   ⟨0x600038, 1, 1, 8, 0, 0, 0, 0xffffffffffffffff, 0⟩,
   ⟨0x600040, 1, 1, 8, 0, 0, 0, 0, 0⟩,
   ⟨0x600100, 1, 48, 8, 0x78, 0, 0, 0, 0⟩,
   ⟨0x600400, 1, 54, 8, 0, 0, 0, 0, 0⟩]

/-- Register headings, part 4 of the device table. -/
def devRows4 : List RegRow :=
  [⟨0x600800, 1, 64, 8, 0, 0x1ffffffffff, 0, 0, 0⟩,
   ⟨0x600a00, 1, 64, 8, 0, 0, 0, 0, 0⟩,
   ⟨0x600c00, 1, 64, 8, 0, 0, 0, 0xffffffffffffffff, 0⟩,
   ⟨0x700000, 1, 1, 8, 0, 0, 0, 0, 0⟩,
   ⟨0x700008, 1, 1, 8, 0x30005, 0x3ffff, 0, 0, 0⟩,
   ⟨0x700010, 1, 1, 8, 0, 0, 0, 0xffffffffffffffff, 0⟩,
   ⟨0x700100, 1, 48, 8, 0, 0, 0, 0, 0⟩,
   ⟨0x700200, 1, 16, 8, 0, 0x1fff, 0, 0, 0⟩,
   ⟨0x700400, 1, 64, 8, 0, 0xffff, 0, 0, 0⟩,
   ⟨0x100000, 1, 1, 8, 0, 0, 0, 0, 0⟩,
   ⟨0x100008, 1, 1, 8, 0, 0, 0, 0, 0x10000⟩,
   ⟨0x100010, 1, 1, 8, 0, 0, 0, 0, 0⟩,
   ⟨0x100018, 1, 1, 8, 0, 0, 0, 0, 0xffffffff⟩,
   ⟨0x100020, 1, 1, 8, 0, 0, 0, 0xffffffffffffffff, 0⟩,
   ⟨0x100028, 1, 1, 8, 0, 0, 0, 0, 0xff⟩,
   ⟨0x100030, 1, 1, 8, 0, 0, 0, 0, 0⟩]

/-- Register headings, part 5 of the device table. -/
def devRows5 : List RegRow :=
  [⟨0x100038, 1, 1, 8, 0, 0, 0, 0, 0⟩,
   ⟨0x100400, 1, 64, 8, 0, 0, 0, 0, 0⟩,
   ⟨0x100600, 1, 16, 8, 0, 0xffffffffffffffff, 0, 0, 0⟩,
   ⟨0, 1, 1, 8, 0, 0, 0, 0, 0⟩,
   ⟨8, 1, 1, 8, 0, 0, 0x1f, 0, 0⟩,
   ⟨0x10, 1, 1, 8, 0, 0, 0xf, 0, 0⟩,
   ⟨0x18, 1, 1, 8, 0, 0, 0, 0xffffffffffffffff, 0⟩]

/-- The registers of BAR0 (07, 09, 10, 12 to 17). -/
def devRows : List RegRow := devRows0 ++ devRows1 ++ devRows2 ++ devRows3 ++ devRows4 ++ devRows5

/-- The register of the control space that lies at an address. -/
def tileRow (a : Nat) : Option RegRow := tileRows.find? (·.at a)

/-- The register of BAR0 that lies at an offset. -/
def devRow (a : Nat) : Option RegRow := devRows.find? (·.at a)

/-- Reset value of a control-space register; an unlisted address reads as zero. -/
def tileReset (a : Nat) : W64 := match tileRow a with | some r => r.reset | none => 0

/-- Reset value of a BAR0 register. Fields that the profile gives hold profile 0's values (14 Table 14.2) until a rising
edge of RESET_N samples the pins (log 3). -/
def devReset (a : Nat) : W64 := match devRow a with | some r => r.reset | none => 0

/-- What a tile register holds. -/
def Tile.reg (t : Tile) (a : Nat) : W64 := SMap.get tileReset t.regs a

/-- Gives a tile register a value. -/
def Tile.setReg (t : Tile) (a : Nat) (v : W64) : Tile := { t with regs := SMap.set tileReset t.regs a v }

/-- Changes a tile register. -/
def Tile.modReg (t : Tile) (a : Nat) (f : W64 → W64) : Tile := t.setReg a (f (t.reg a))

/-- What a device register holds. -/
def Dev.reg (d : Dev) (a : Nat) : W64 := SMap.get devReset d.regs a

/-- Gives a device register a value. -/
def Dev.setReg (d : Dev) (a : Nat) (v : W64) : Dev := { d with regs := SMap.set devReset d.regs a v }

/-- Changes a device register. -/
def Dev.modReg (d : Dev) (a : Nat) (f : W64 → W64) : Dev := d.setReg a (f (d.reg a))

/-- An event counter in field [lo+len-1 : lo]: it stops at its all-ones value (00 R6). -/
def addCnt (v : W64) (lo len n : Nat) : W64 := setFld v lo len (min (fld v lo len + n) (2 ^ len - 1))

/-- A register after a write of `v` under byte-lane mask `m`, by access types alone (00 R3): RW bits are stored, W1C bits
written as one are cleared, all others keep their values. -/
def RegRow.write (r : RegRow) (m old v : W64) : W64 :=
  let rw := r.rw &&& m
  let c := r.w1c &&& m &&& v
  ((old &&& ~~~rw) ||| (v &&& rw)) &&& ~~~c

/-- A register after a read of it: RC fields are cleared to what they hold when nothing was counted (00 R3, 04 R89). -/
def RegRow.afterRead (r : RegRow) (old : W64) : W64 := (old &&& ~~~r.rc) ||| (r.reset &&& r.rc)

end Sys2Proof.Machine
end

