-- ==== Sys2Proof/Machine/Ops.lean ====
section
/-! DEFINITION. The operations every meaning shares: status codes, access to the units of the device, the
form of a meaning, free values, time, host writes and interrupts, log and error records. -/

namespace Sys2Proof.Machine

/-! ### Status codes (16 Table 16.5) -/

abbrev St.OK : W16 := 0x0000
abbrev St.LENGTH_INVALID : W16 := 0x0001
abbrev St.LENGTH_EXCEEDS : W16 := 0x0002
abbrev St.UNKNOWN_OPCODE : W16 := 0x0003
abbrev St.VERSION_MISMATCH : W16 := 0x0004
abbrev St.NOT_NEGOTIATED : W16 := 0x0005
abbrev St.FEATURE_OFF : W16 := 0x0006
abbrev St.AUTHORITY_LOST : W16 := 0x0007
abbrev St.COMMAND_INVALID : W16 := 0x0008
abbrev St.FW_INVALID : W16 := 0x0100
abbrev St.FW_KEY : W16 := 0x0101
abbrev St.FW_SIGNATURE : W16 := 0x0102
abbrev St.ACQUIRED : W16 := 0x0103
abbrev St.ACQUIRED_ABANDONED : W16 := 0x0104
abbrev St.LOCK_HELD : W16 := 0x0105
abbrev St.LOCK_NOT_OWNER : W16 := 0x0106
abbrev St.SEAM_FAULT : W16 := 0x0107
abbrev St.DEBUG_DENIED : W16 := 0x0108
abbrev St.IMAGE_UNKNOWN : W16 := 0x0200
abbrev St.IMAGE_EXISTS : W16 := 0x0201
abbrev St.IMAGE_STATE : W16 := 0x0202
abbrev St.NO_SPACE : W16 := 0x0203
abbrev St.EXTENT_BUSY : W16 := 0x0204
abbrev St.JOURNAL_FAULT : W16 := 0x0205
abbrev St.SESSION_LIMIT : W16 := 0x0206
abbrev St.MANIFEST_INVALID : W16 := 0x0207
abbrev St.DIGEST_MISMATCH : W16 := 0x0208
abbrev St.SWAP_ARMED : W16 := 0x0209
abbrev St.ADAPTER_UNKNOWN : W16 := 0x020A
abbrev St.ADAPTER_SHAPE : W16 := 0x020B
abbrev St.UNCORRECTABLE : W16 := 0x020C
abbrev St.REGION_BUSY : W16 := 0x0300
abbrev St.REGION_OVERLAP : W16 := 0x0301
abbrev St.PROGRAM_INVALID : W16 := 0x0302
abbrev St.FEATURE_MISMATCH : W16 := 0x0303
abbrev St.PLACEMENT_SEAM : W16 := 0x0304
abbrev St.RELOC_OVERFLOW : W16 := 0x0305
abbrev St.ROUTE_INVALID : W16 := 0x0306
abbrev St.LOAD_FAILED : W16 := 0x0307
abbrev St.REGION_STATE : W16 := 0x0308
abbrev St.RING_INVALID : W16 := 0x0400
abbrev St.STEP_ORDER : W16 := 0x0401
abbrev St.STEP_INVALID : W16 := 0x0402
abbrev St.ABORTED : W16 := 0x0403
abbrev St.STEP_FAILED : W16 := 0x0404
abbrev St.TRUNCATED : W16 := 0x0405
abbrev St.SEQ_MASKED : W16 := 0x0406
abbrev St.NO_RECORD : W16 := 0x0407
abbrev St.SEQUENCE_LOST : W16 := 0x0408
abbrev St.ALREADY_COMPLETE : W16 := 0x0409
abbrev St.KV_FULL : W16 := 0x040A
abbrev St.KV_PTE_INVALID : W16 := 0x040B
abbrev St.KV_SLOT_RANGE : W16 := 0x040C
abbrev St.KV_BUSY : W16 := 0x040D
abbrev St.KV_PENDING : W16 := 0x040E
abbrev St.REFCOUNT_MAX : W16 := 0x040F
abbrev St.FETCH_QUEUE_FULL : W16 := 0x0410
abbrev St.SHADOW_ABSENT : W16 := 0x0411
abbrev St.LINK_DOWN : W16 := 0x0500
abbrev St.FLOW_BROKEN : W16 := 0x0501
abbrev St.LINK_STALL : W16 := 0x0502
abbrev St.DEVICE_LOST : W16 := 0x0503
abbrev St.RING_FAULT : W16 := 0x0504
abbrev St.THERMAL_TRIP : W16 := 0x0600
abbrev St.AVS_LIMIT : W16 := 0x0601
abbrev St.PROFILE_INVALID : W16 := 0x0602
abbrev St.RECOVERY_ESCALATED : W16 := 0x0700
abbrev St.PARITY_ERROR : W16 := 0x0701
abbrev St.WATCHDOG_EXPIRED : W16 := 0x0702
abbrev St.SCARAB_FAULT : W16 := 0x0703
abbrev St.SITE_FAILED : W16 := 0x0704
abbrev St.SPARE_EXHAUSTED : W16 := 0x0705
abbrev St.ACW_INVALID : W16 := 0x0800
abbrev St.ACW_FORMAT : W16 := 0x0801
abbrev St.ACW_SHAPE : W16 := 0x0802
abbrev St.VEC_INVALID : W16 := 0x0803
abbrev St.VEC_FORMAT : W16 := 0x0804
abbrev St.QUEUE_ROLE : W16 := 0x0805
abbrev St.QUEUE_CONFIG : W16 := 0x0806

/-! ### The form of a meaning -/

/-- A command that changes the device and leaves the queue alone. -/
def onDev (s : State) (f : Dev → Dev) : Host.Outcome State Fault Refusal := .next { s with dev := f s.dev }

/-- A command that names unit `i` of `n`: it acts on the device when that unit exists. -/
def onUnit (n i : Nat) (s : State) (f : Dev → Dev) : Host.Outcome State Fault Refusal :=
  if i < n then onDev s f else .fault .noSuchUnit

/-- A command at a tile. -/
def onTile (t : Nat) (s : State) (f : Dev → Dev) : Host.Outcome State Fault Refusal := onUnit Config.nTiles t s f

/-- A command at a region. -/
def onRegion (r : Nat) (s : State) (f : Dev → Dev) : Host.Outcome State Fault Refusal := onUnit Config.nRegions r s f

/-- A command at a port. -/
def onPort (p : Nat) (s : State) (f : Dev → Dev) : Host.Outcome State Fault Refusal := onUnit Config.nPorts p s f

/-! ### Units of the device -/

/-- Tile `t`. -/
def Dev.tile (d : Dev) (t : Nat) : Tile := SMap.get (fun _ => Tile.reset) d.tiles t

/-- Puts tile `t` in place. -/
def Dev.setTile (d : Dev) (t : Nat) (x : Tile) : Dev := { d with tiles := SMap.set (fun _ => Tile.reset) d.tiles t x }

/-- Changes tile `t`. -/
def Dev.modTile (d : Dev) (t : Nat) (f : Tile → Tile) : Dev := d.setTile t (f (d.tile t))

/-- Region `r`. -/
def Dev.region (d : Dev) (r : Nat) : Region := SMap.get (fun _ => Region.reset) d.regions r

/-- Puts region `r` in place. -/
def Dev.setRegion (d : Dev) (r : Nat) (x : Region) : Dev := { d with regions := SMap.set (fun _ => Region.reset) d.regions r x }

/-- Changes region `r`. -/
def Dev.modRegion (d : Dev) (r : Nat) (f : Region → Region) : Dev := d.setRegion r (f (d.region r))

/-- Ring pair `p`. -/
def Dev.ring (d : Dev) (p : Nat) : Ring := SMap.get (fun _ => Ring.reset) d.rings p

/-- Puts ring pair `p` in place. -/
def Dev.setRing (d : Dev) (p : Nat) (x : Ring) : Dev := { d with rings := SMap.set (fun _ => Ring.reset) d.rings p x }

/-- Sequence slot `k`. -/
def Dev.slot (d : Dev) (k : Nat) : Slot := SMap.get (fun _ => Slot.reset) d.slots k

/-- Puts sequence slot `k` in place. -/
def Dev.setSlot (d : Dev) (k : Nat) (x : Slot) : Dev := { d with slots := SMap.set (fun _ => Slot.reset) d.slots k x }

/-- Tenant `k`. -/
def Dev.tenant (d : Dev) (k : Nat) : Tenant := SMap.get (fun _ => Tenant.reset) d.tenants k

/-- Puts tenant `k` in place. -/
def Dev.setTenant (d : Dev) (k : Nat) (x : Tenant) : Dev := { d with tenants := SMap.set (fun _ => Tenant.reset) d.tenants k x }

/-- Fabric port `p`. -/
def Dev.port (d : Dev) (p : Nat) : Port := SMap.get (fun _ => Port.reset) d.ports p

/-- Puts fabric port `p` in place. -/
def Dev.setPort (d : Dev) (p : Nat) (x : Port) : Dev := { d with ports := SMap.set (fun _ => Port.reset) d.ports p x }

/-- Changes fabric port `p`. -/
def Dev.modPort (d : Dev) (p : Nat) (f : Port → Port) : Dev := d.setPort p (f (d.port p))

/-- Route patch entry `k`. -/
def Dev.route (d : Dev) (k : Nat) : RouteEnt := SMap.get (fun _ => RouteEnt.reset) d.routes k

/-- Address generator `n` of a tile. -/
def Tile.ag (t : Tile) (n : Nat) : Ag := SMap.get (fun _ => Ag.reset) t.ags n

/-- Puts address generator `n` in place. -/
def Tile.setAg (t : Tile) (n : Nat) (x : Ag) : Tile := { t with ags := SMap.set (fun _ => Ag.reset) t.ags n x }

/-- Matrix array `j` of a tile. -/
def Tile.arr (t : Tile) (j : Nat) : Arr := SMap.get (fun _ => Arr.reset) t.arrs j

/-- Puts matrix array `j` in place. -/
def Tile.setArr (t : Tile) (j : Nat) (x : Arr) : Tile := { t with arrs := SMap.set (fun _ => Arr.reset) t.arrs j x }

/-- Queue context `q` of a tile. -/
def Tile.qc (t : Tile) (q : Nat) : QCtx := SMap.get (fun _ => QCtx.reset) t.qctx q

/-- Puts queue context `q` in place. -/
def Tile.setQc (t : Tile) (q : Nat) (x : QCtx) : Tile := { t with qctx := SMap.set (fun _ => QCtx.reset) t.qctx q x }

/-! ### Names of tiles and sites -/

/-- Half-bench of a logical tile: n = 2b + h (15 FLT_SKIPn). -/
def halfOf (t : Nat) : Nat := 2 * (t / Config.lcols) + (if t % Config.lcols ≥ 23 then 1 else 0)

/-- What the remap table holds for half-bench `n` (15 FLT_SKIPn). -/
def Dev.skip (d : Dev) (n : Nat) : Byte := SMap.get skipDefault d.aon.skip n

/-- Physical column of logical column `c` beside skipped column `s` (01 R13). -/
def physCol (s c : Nat) : Nat := if c < 23 then (if c < s then c else c + 1) else (if c + 1 < s then c + 1 else c + 2)

/-- SITE field of a logical tile (15 Table 15.2). -/
def Dev.siteOf (d : Dev) (t : Nat) : W16 :=
  BitVec.ofNat 16 (physCol (fld (d.skip (halfOf t)) 0 6) (t % Config.lcols) + 64 * (t / Config.lcols))

/-- Whether a region's rectangle holds a logical tile. -/
def Region.holds (x : Region) (t : Nat) : Bool :=
  let b := t / Config.lcols
  let c := t % Config.lcols
  decide (x.b0 ≤ b) && decide (b < x.b0 + x.h) && decide (x.c0 ≤ c) && decide (c < x.c0 + x.w)

/-- The loaded region that holds a logical tile. -/
def Dev.regionOf (d : Dev) (t : Nat) : Option Nat :=
  (d.regions.find? fun e => decide (e.2.st ≠ .empty) && e.2.holds t).map (·.1)

/-- The logical tiles of a region, in order of their index. -/
def Region.tileList (x : Region) : List Nat :=
  (List.range x.h).flatMap fun i => (List.range x.w).map fun j => (x.b0 + i) * Config.lcols + x.c0 + j

/-- Changes every tile of a list. -/
def Dev.modTiles (d : Dev) (ts : List Nat) (f : Tile → Tile) : Dev := ts.foldl (fun d t => d.modTile t f) d

/-! ### Time and free values -/

/-- Cicada time of the device in ns (13 R309). -/
def Dev.now (d : Dev) : Nat := (d.reg Reg.CIC_TIME).toNat

/-- The view of Cicada time of a tile's half-bench (13 R310). -/
def Dev.view (d : Dev) (t : Nat) : Nat := SMap.get (fun _ => 0) d.cic.views (halfOf t)

/-- The number the manual leaves open next; `drawn` moves on to the one after it (log 2). -/
def Dev.free (d : Dev) : Nat := Config.freeNat d.ctr

/-- After a free value was used. -/
def Dev.drawn (d : Dev) : Dev := { d with ctr := d.ctr + 1 }

/-- Counts an open number of events in a 64-bit counter of a tile: how long a unit stalls is outside the model (log 16). -/
def Dev.countFree (d : Dev) (t a : Nat) : Dev := (d.modTile t fun x => x.modReg a fun v => addCnt v 0 64 d.free).drawn

/-- Advances a counter field of a device register. -/
def Dev.count (d : Dev) (a lo len n : Nat) : Dev := d.modReg a fun v => addCnt v lo len n

/-- Advances a 64-bit counter of a tile. -/
def Tile.count (t : Tile) (a n : Nat) : Tile := t.modReg a fun v => addCnt v 0 64 n

/-! ### What leaves the device -/

/-- Sends something to the outside (log 1). -/
def Dev.emit (d : Dev) (o : Output) : Dev := { d with out := d.out ++ [o] }

/-- What an unlisted byte of the MSI-X window reads as: the Mask bit of every table entry is set (log 10). -/
def msixDefault (a : Nat) : Byte := if a < 0x8000 ∧ a % 16 = 12 then 1 else 0

/-- A byte of the MSI-X table (0 to 0x7FFF) and pending bit array (from 0x8000), 17 R390. -/
def Dev.msixByte (d : Dev) (a : Nat) : Byte := SMap.get msixDefault d.host.msix a

/-- Writes a byte of the MSI-X window. -/
def Dev.setMsixByte (d : Dev) (a : Nat) (b : Byte) : Dev :=
  { d with host := { d.host with msix := SMap.set msixDefault d.host.msix a b } }

/-- An interrupt on MSI-X vector `v` (17 R390, R391): a message, or the pending bit of a masked vector. A vector above 2,047
names no interrupt. -/
def Dev.irq (d : Dev) (v : Nat) : Dev :=
  if v < 2048 then
    if bit (d.msixByte (16 * v + 12)) 0 then d.setMsixByte (0x8000 + v / 8) (setBit (d.msixByte (0x8000 + v / 8)) (v % 8))
    else d.emit (.msix v)
  else d

/-! ### Authority (16 R365 to R369) -/

/-- Whether a half is in SEAM_FAULT: HIVE_STATUS.SEAMF_W or SEAMF_E. -/
def Dev.seamF (d : Dev) (east : Bool) : Bool := bit (d.reg Reg.HIVE_STATUS) (if east then 4 else 3)

/-- Whether a pair holds the latch and acts on it: firmware runs, the pair has not demoted itself and is not in SEAM_FAULT. -/
def Dev.authority (d : Dev) : Bool :=
  d.hive.run && match d.aon.owner with
  | .nobody => false
  | .west => !d.hive.demoted.getD 0 false && !d.seamF false
  | .east => !d.hive.demoted.getD 1 false && !d.seamF true

/-! ### Log records (16 R382, R383) -/

/-- The 64 bytes of a log record for entry `i` of a ring of 2^log2 entries. -/
def LogRec.bytes (r : LogRec) (i log2 : Nat) : List Byte :=
  leBytes 8 r.seq.toNat ++ leBytes 8 r.time.toNat ++ leBytes 1 r.kind ++ leBytes 1 r.level ++ leBytes 1 r.src ++
  leBytes 1 (128 * ((i / 2 ^ log2 + 1) % 2)) ++ slice r.body 0 44

/-- Moves buffered records to the host ring while it has room. -/
def Dev.logMove : Nat → Dev → Dev
  | 0, d => d
  | n + 1, d =>
    match d.hive.logRing, d.hive.logBuf with
    | some g, r :: rest =>
      if (g.prod - g.cons).toNat < 2 ^ g.q.log2 then
        let i := g.prod.toNat
        let d := d.emit (.dmaWrite (g.q.addr.toNat + 64 * (i % 2 ^ g.q.log2)) (r.bytes i g.q.log2))
        Dev.logMove n { d with hive := { d.hive with logRing := some { g with prod := g.prod + 1 }, logBuf := rest } }
      else d
    | _, _ => d

/-- The authority moves records; then the producer index is written and one message is sent (16 R367, log 23). -/
def Dev.logFlush (d : Dev) : Dev :=
  let d' := if d.authority then d.logMove d.hive.logBuf.length else d
  match d'.hive.logRing with
  | some g =>
    if d'.hive.logBuf.length < d.hive.logBuf.length then
      (d'.emit (.dmaWrite (g.q.idxAddr.toNat + 4) (leBytes 4 g.prod.toNat))).irq g.q.vector
    else d'
  | none => d'

/-- Writes a log record: it enters the device buffer of 4,096 records, where the oldest is overwritten when it is full,
and moves on to the host ring. The manual does not say which core writes it: SRC is a free value (log 23). -/
def Dev.log (d : Dev) (kind level : Nat) (body : List Byte) : Dev :=
  let r : LogRec := ⟨d.hive.logSeq, BitVec.ofNat 64 d.now, kind, level, d.free % 4, body⟩
  let d := d.drawn
  let full := decide (d.hive.logBuf.length ≥ 4096)
  let d := if full then d.count Reg.HIVE_CNT 16 16 1 else d
  let old := if full then d.hive.logBuf.drop 1 else d.hive.logBuf
  { d with hive := { d.hive with logSeq := d.hive.logSeq + 1, logBuf := old ++ [r] } }.logFlush

/-- A log record of an event whose LEVEL and BODY the manual does not state: free values (log 23). -/
def Dev.logEvent (d : Dev) (kind : Nat) : Dev :=
  let c := d.ctr
  d.drawn.log kind (Config.freeAt c 44 % 4) ((List.range 44).map fun i => BitVec.ofNat 8 (Config.freeAt c i))

/-- A trace point is raised (16 R384). An enabled point writes a record to the trace ring, or drops it; trace capture needs its debug
scope (17 R403, log 51). -/
def Dev.trace (d : Dev) (id src : Nat) (data : List Byte) : Dev :=
  if bit d.hive.scope 0 && bit (d.reg (Reg.HIVE_TRACE_EN + 8 * (id / 64))) (id % 64) then
    let rec_ := leBytes 8 d.now ++ leBytes 2 id ++ leBytes 2 src ++ leBytes 4 d.hive.traceSeq.toNat ++ slice data 0 16
    let d := { d with hive := { d.hive with traceSeq := d.hive.traceSeq + 1 } }
    match d.hive.traceRing with
    | some g =>
      if d.authority && decide ((g.prod - g.cons).toNat < 2 ^ g.q.log2) then
        let i := g.prod.toNat
        let d := { d with hive := { d.hive with traceRing := some { g with prod := g.prod + 1 } } }
        ((d.emit (.dmaWrite (g.q.addr.toNat + 32 * (i % 2 ^ g.q.log2)) rec_)).emit (.dmaWrite (g.q.idxAddr.toNat + 4) (leBytes 4 (i + 1)))).irq g.q.vector
      else d.count Reg.HIVE_CNT 32 32 1
    | none => d.count Reg.HIVE_CNT 32 32 1
  else d

/-! ### Error records (15 R340, R381) -/

/-- Bytes 0x10 to 0x37 of an error record (15 Table 15.2). -/
def ErrRec.core (r : ErrRec) : List Byte :=
  leBytes 1 r.cls ++ leBytes 1 r.unit ++ leBytes 2 r.status.toNat ++ leBytes 2 r.site.toNat ++ leBytes 2 r.ltile.toNat ++
  leBytes 1 r.region.toNat ++ leBytes 1 r.action ++ leBytes 2 r.port.toNat ++ leBytes 4 r.recid.toNat ++
  leBytes 8 r.step.toNat ++ leBytes 16 r.detail

/-- The 64 bytes of an error record. -/
def ErrRec.bytes (r : ErrRec) : List Byte :=
  leBytes 8 r.rseq.toNat ++ leBytes 8 r.time.toNat ++ r.core ++ leBytes 8 0

/-- A record of class `cls` from unit `unit` with nothing else named. -/
def errBase (cls unit : Nat) (status : W16) : ErrRec :=
  ⟨0, 0, cls, unit, status, 0xFFFF, 0xFFFF, 0xFF, 0, 0xFFFF, 0, 0, 0⟩

/-- Writes an error record: the next RSEQ, the time, one of the newest 1,024, and its copy in the log. -/
def Dev.record (d : Dev) (r : ErrRec) : Dev :=
  let r := { r with rseq := d.flt.rseq, time := BitVec.ofNat 64 d.now }
  let d := { d with flt := { d.flt with rseq := d.flt.rseq + 1, recs := (d.flt.recs ++ [r]).drop (d.flt.recs.length - 1023) } }
  d.log 1 0 (r.core ++ leBytes 4 r.rseq.toNat)

/-- An error record of a tile: its site, its region and the step it runs. -/
def Dev.recordTile (d : Dev) (t cls unit : Nat) (status : W16) (action detail : Nat) : Dev :=
  let r := d.regionOf t
  d.record { errBase cls unit status with
    site := d.siteOf t
    ltile := BitVec.ofNat 16 t
    region := match r with | some r => BitVec.ofNat 8 r | none => 0xFF
    action := action
    step := match r with
      | some r => (match (d.region r).adm with | some a => a.inp.step | none => 0)
      | none => 0
    detail := detail }

end Sys2Proof.Machine
end

