-- ==== Sys2Proof/Machine/PacketOps.lean ====
section
/-! DEFINITION. Packets as flits: the header flit (11 Table 11.1, 12 Table 12.3), length and trailer (11 R271, 12 R299), malformed headers
and misuse of a VC (11 R272), and the bytes of a link frame (12 R289, R290). -/

namespace Sys2Proof

open Machine

/-! ### The header flit -/

/-- A number that holds fields one after another, the first from bit 0. -/
def packFields : List (Nat × Nat) → Nat
  | [] => 0
  | (w, v) :: l => v % 2 ^ w + 2 ^ w * packFields l

/-- The fields of the header flit from bit 0 upward, each its width and its value. -/
def Packet.fields (p : Packet) : List (Nat × Nat) :=
  [(128, p.route.toNat), (6, p.hopptr.toNat), (3, p.segn.toNat), (3, p.segptr.toNat), (32, p.segs.toNat), (11, p.dtile.toNat), (10, p.dqid.toNat),
   (7, p.regtag.toNat), (2, p.vc.toNat), (12, p.srcdev.toNat), (11, p.srctile.toNat), (32, p.flowseq.toNat), (6, p.len.toNat), (2, p.lastw.toNat),
   (4, p.kind.toNat), (1, p.rmc.toNat), (5, p.rb0.toNat), (5, p.rb1.toNat), (6, p.rc0.toNat), (6, p.rc1.toNat), (1, p.mcast.toNat), (6, p.hops.toNat),
   (12, p.ddev.toNat), (11, p.sflow.toNat), (32, p.ackfloor.toNat), (1, p.resend.toNat), (8, p.loc.toNat), (1, p.e2e.toNat), (128, p.rpath.toNat),
   (2, p.nakType.toNat)]

/-- The header flit of a packet. -/
def Packet.head (p : Packet) : BitVec 512 := BitVec.ofNat 512 (packFields p.fields)

/-- The packet that a header flit announces, with no word after it yet. -/
def Packet.ofHead (h : BitVec 512) : Packet :=
  { route := h.extractLsb' 0 128, hopptr := h.extractLsb' 128 6, segn := h.extractLsb' 134 3, segptr := h.extractLsb' 137 3,
    segs := h.extractLsb' 140 32, dtile := h.extractLsb' 172 11, dqid := h.extractLsb' 183 10, regtag := h.extractLsb' 193 7,
    vc := h.extractLsb' 200 2, srcdev := h.extractLsb' 202 12, srctile := h.extractLsb' 214 11, flowseq := h.extractLsb' 225 32,
    len := h.extractLsb' 257 6, lastw := h.extractLsb' 263 2, kind := h.extractLsb' 265 4, rmc := h.getLsbD 269, rb0 := h.extractLsb' 270 5,
    rb1 := h.extractLsb' 275 5, rc0 := h.extractLsb' 280 6, rc1 := h.extractLsb' 286 6, mcast := h.getLsbD 292, hops := h.extractLsb' 293 6,
    ddev := h.extractLsb' 299 12, sflow := h.extractLsb' 311 11, ackfloor := h.extractLsb' 322 32, resend := h.getLsbD 354,
    loc := h.extractLsb' 355 8, e2e := h.getLsbD 363, rpath := h.extractLsb' 364 128, nakType := h.extractLsb' 492 2, words := [] }

/-- A packet whose fields are all zero. -/
def packet0 : Packet := Packet.ofHead 0

/-- The packet without the words after its header. -/
def Packet.hdr (p : Packet) : Packet := { p with words := [] }

/-! ### Length, payload and trailer (11 R271, 12 R299) -/

/-- Flits of a packet (11 R270): 0 = 64. -/
def Packet.flits (p : Packet) : Nat := cnt0 p.len.toNat 64

/-- Payload words the header declares (11 R271). -/
def Packet.nwords (p : Packet) : Nat := if p.flits ≤ 1 then 0 else 4 * (p.flits - 2) + p.lastw.toNat

/-- The payload. -/
def Packet.payload (p : Packet) : List W128 := p.words.take p.nwords

/-- Flits that have come: the header, and four words each. -/
def Packet.got (p : Packet) : Nat := 1 + p.words.length / 4

/-- Whether every flit has come. -/
def Packet.whole (p : Packet) : Bool := decide (p.flits ≤ p.got)

/-- The four words of flit `k`, k ≥ 1. -/
def Packet.flitWords (p : Packet) (k : Nat) : List W128 := (p.words.drop (4 * (k - 1))).take 4

/-- The trailer word: the last word of the last flit (11). -/
def Packet.trailer (p : Packet) : W128 := p.words.getD (4 * (p.flits - 1) - 1) 0

/-- The flow of a packet (12 R300). -/
def Packet.flow (p : Packet) : FlowKey := ⟨p.srcdev, p.srctile, p.sflow⟩

/-- The end-to-end CRC-32C (12 R299): the header with the fields that change on the way taken as zero, the payload words, and the trailer word
without its CRC field (log 109). -/
def Packet.crc (p : Packet) : Nat :=
  let h := ({ p with hopptr := 0, segn := 0, segptr := 0, segs := 0, regtag := 0, rpath := 0 } : Packet).head
  crc32c (leBytes 64 h.toNat ++ p.payload.flatMap (fun w => leBytes 16 w.toNat) ++ (leBytes 16 p.trailer.toNat).drop 4)

/-- Whether the trailer's CRC checks. A packet of one flit has no trailer. -/
def Packet.crcOk (p : Packet) : Bool := decide (p.flits = 1) || decide (fld p.trailer 0 32 = p.crc)

/-- Fills the words up to LEN with zeros and writes the trailer's CRC, or its complement (12 R291). -/
def Packet.sealed (p : Packet) (bad : Bool) : Packet :=
  let n := 4 * (p.flits - 1)
  if n = 0 then { p with words := [] }
  else
    let ws := p.words.take (n - 1) ++ List.replicate (n - 1 - p.words.length) 0
    let c := ({ p with words := ws ++ [0] } : Packet).crc
    { p with words := ws ++ [BitVec.ofNat 128 (if bad then 0xFFFFFFFF - c else c)] }

/-- Gives a packet its length fields and payload (11 R271): L − 2 flits of four words, then LASTW words before the trailer. -/
def Packet.withWords (p : Packet) (ws : List W128) : Packet :=
  { p with len := BitVec.ofNat 6 (ws.length / 4 + 2), lastw := BitVec.ofNat 2 ws.length, words := ws }

/-! ### Malformed headers (11 R270, R272, 12 R295) -/

/-- A header malformed under Table 11.1 (log 43). `off` says that the packet is not in a mesh, where DTILE 0x7FF names device units (12 R293). -/
def Packet.malformed (p : Packet) (off : Bool) : Bool :=
  decide (p.hopptr.toNat > 32) || decide (p.segn.toNat > 4) || decide (p.segptr.toNat > 4) ||
  (decide (p.dtile.toNat ≥ Config.nTiles) && !(off && decide (p.dtile.toNat = 0x7FF))) ||
  (decide (p.regtag.toNat ≥ 64) && decide (p.regtag.toNat ≠ 0x7F))

/-- Whether a kind may use a VC (11 Table 11.2); reserved kinds use none. -/
def kindVc (kind vc : Nat) : Bool :=
  match kind with
  | 0 => decide (vc = 0) || decide (vc = 3)
  | 1 => decide (vc = 2)
  | 2 => decide (vc = 3)
  | 3 => decide (vc = 3)
  | 4 => decide (vc = 3)
  | 5 => decide (vc = 2)
  | 6 => decide (vc = 1)
  | _ => false

/-- Splits words into packets of 251 (11 R271). -/
def chunks251 : Nat → List W128 → List (List W128)
  | 0, _ => []
  | n + 1, l => if l.isEmpty then [] else l.take 251 :: chunks251 n (l.drop 251)

/-- Bytes as 16-byte words, the last completed with zeros (06 R145). -/
def toWords : Nat → List Byte → List W128
  | 0, _ => []
  | n + 1, l => if l.isEmpty then [] else BitVec.ofNat 128 (rdNat l 0 16) :: toWords n (l.drop 16)

/-- The bytes of 16-byte words. -/
def ofWords (ws : List W128) : List Byte := ws.flatMap fun w => leBytes 16 w.toNat

end Sys2Proof

namespace Sys2Proof.Machine

/-! ### Link frames (12 Table 12.2) -/

/-- Whether the optical framing applies (12 R288). -/
def optical (p : Nat) : Bool := decide (p ≥ 12)

/-- Slots of a frame, and bytes of its control word. -/
def frameSlots (p : Nat) : Nat := if optical p then 8 else 2
def ctlBytes (p : Nat) : Nat := if optical p then 8 else 4

/-- Bytes of a frame before its link CRC. -/
def frameBody (p : Nat) : Nat := ctlBytes p + 64 * frameSlots p

/-- The CRC-32 of IEEE 802.3, polynomial 0x04C1_1DB7 (12 R290, log 109). -/
def linkCrc (b : List Byte) : Nat := crcLsb 0xEDB88320 b

/-- The frame of FSEQ `seq` whose slots hold these codes and flits. -/
def frameBytes (p : Nat) (seq : BitVec 16) (slots : List (Nat × BitVec 512)) : List Byte :=
  let ctl := leBytes (ctlBytes p) (seq.toNat + 2 ^ 16 * packFields (slots.map fun s => (4, s.1)))
  let body := ctl ++ slots.flatMap fun s => leBytes 64 s.2.toNat
  body ++ leBytes 4 (linkCrc body)

end Sys2Proof.Machine

namespace Sys2Proof

open Machine

/-- FSEQ of a frame. -/
def LinkFrame.fseq (f : LinkFrame) : BitVec 16 := BitVec.ofNat 16 (rdNat f.bytes 0 2)

/-- The code and the flit of slot `i` of a frame of port `p`. -/
def LinkFrame.slot (f : LinkFrame) (p i : Nat) : Nat × BitVec 512 :=
  (rdNat f.bytes 2 4 / 2 ^ (4 * i) % 16, BitVec.ofNat 512 (rdNat f.bytes (ctlBytes p + 64 * i) 64))

/-- The slots of a frame in order. -/
def LinkFrame.slots (f : LinkFrame) (p : Nat) : List (Nat × BitVec 512) := (List.range (frameSlots p)).map (f.slot p)

/-- Whether a frame of port `p` has its length and its link CRC checks. -/
def LinkFrame.crcOk (f : LinkFrame) (p : Nat) : Bool :=
  decide (f.bytes.length = frameBody p + 4) && decide (rdNat f.bytes (frameBody p) 4 = linkCrc (slice f.bytes 0 (frameBody p)))

/-- Whether a frame carries a reserved slot code (12 R289). -/
def LinkFrame.reserved (f : LinkFrame) (p : Nat) : Bool := (f.slots p).any fun s => decide (2 ≤ s.1) && decide (s.1 ≤ 7)

/-! ### Haul frames and acknowledgements as packets (07 R181, R185) -/

/-- The 132 payload words of a haul frame: its header (Table 7.11), then 2,048 bytes of data. -/
def HaulFrame.words (f : HaulFrame) : List W128 :=
  toWords 133 (leBytes 4 f.session.toNat ++ leBytes 4 f.id.toNat ++ leBytes 4 f.gen.toNat ++ leBytes 4 f.shard.toNat ++ leBytes 4 f.offset.toNat ++
    leBytes 2 f.len.toNat ++ leBytes 2 f.flags.toNat ++ leBytes 40 0 ++ slice f.data 0 2048)

/-- The haul frame that bytes hold: header, then data. -/
def HaulFrame.ofBytes (b : List Byte) : HaulFrame :=
  ⟨BitVec.ofNat 32 (rdNat b 0 4), BitVec.ofNat 32 (rdNat b 4 4), BitVec.ofNat 32 (rdNat b 8 4), BitVec.ofNat 32 (rdNat b 12 4),
    BitVec.ofNat 32 (rdNat b 16 4), BitVec.ofNat 16 (rdNat b 20 2), BitVec.ofNat 16 (rdNat b 22 2), slice b 64 2048⟩

/-- The haul frame of a packet; none when the packet has not 35 flits with LASTW = 0. -/
def Packet.haul (k : Packet) : Option HaulFrame :=
  if k.flits = 35 ∧ k.lastw = 0 then some (HaulFrame.ofBytes (ofWords k.payload)) else none

/-- The four payload words of a haul acknowledgement (07 Table 7.12). -/
def HaulAck.words (a : HaulAck) : List W128 :=
  toWords 5 (leBytes 4 a.session.toNat ++ leBytes 2 a.device.toNat ++ leBytes 1 a.kind.toNat ++ [0] ++ leBytes 4 a.id.toNat ++ leBytes 4 a.gen.toNat ++
    leBytes 4 a.shard.toNat ++ leBytes 2 a.status.toNat ++ leBytes 2 0 ++ leBytes 8 a.jseq.toNat ++ leBytes 32 0)

/-- The haul acknowledgement of a packet. -/
def Packet.haulAck (k : Packet) : HaulAck :=
  let b := ofWords k.payload
  ⟨BitVec.ofNat 32 (rdNat b 0 4), BitVec.ofNat 12 (rdNat b 4 2), BitVec.ofNat 8 (rdNat b 6 1), BitVec.ofNat 32 (rdNat b 8 4),
    BitVec.ofNat 32 (rdNat b 12 4), BitVec.ofNat 32 (rdNat b 16 4), BitVec.ofNat 16 (rdNat b 20 2), BitVec.ofNat 64 (rdNat b 24 8)⟩

/-- The words of a shadow record: its header (08 Table 8.7), then the data of a DATA record. -/
def ShadowRec.words (q : ShadowRec) : List W128 :=
  BitVec.ofNat 128 (packFields [(4, q.kind.toNat), (12, q.len.toNat), (32, q.offset.toNat), (16, 0), (64, q.value.toNat)]) :: toWords 251 q.data

/-- The shadow record of a packet. -/
def Packet.shadow (k : Packet) : ShadowRec :=
  let h := k.payload.headD 0
  ⟨BitVec.ofNat 4 (fld h 0 4), BitVec.ofNat 12 (fld h 4 12), BitVec.ofNat 32 (fld h 16 32), BitVec.ofNat 64 (fld h 64 64), ofWords (k.payload.drop 1)⟩

end Sys2Proof
end

