-- ==== Sys2Proof/Machine/LaneOps.lean ====
section
/-! DEFINITION. Packets on their way, flit by flit (11 R268, R276, 12 R291, R293, R294, R296): buffers and what an output sends next, entry into
the relay crossbar, arrival at the device. -/

namespace Sys2Proof

open Machine

/-- Number of a router input or output (11 R277). -/
def Port5.code (p : Port5) : Nat :=
  match p with | .north => 0 | .east => 1 | .south => 2 | .west => 3 | .local_ => 4 | .gateway => 5

/-- The gateway beside an edge router: its column's span (11 R275). -/
def colGateway (c : Nat) : Nat := if c ≤ 11 then 0 else if c ≤ 22 then 1 else if c ≤ 34 then 2 else 3

/-- The gateway that takes packets for a tile (12 R293). -/
def Packet.gateway (p : Packet) : Nat :=
  colGateway (p.dtile.toNat % Config.lcols) + (if p.dtile.toNat / Config.lcols ≤ 11 then 0 else 4)

end Sys2Proof

namespace Sys2Proof.Machine

/-- The relay crossbar as a node, and its output that is the device itself. -/
abbrev relay : Nat := Config.nTiles
abbrev outHere : Nat := 16

/-! ### Buffers of an input (11 R268, R285) -/

/-- Flits that a packet holds in its input's buffer: those that have come and that some copy has not sent. A discarded packet holds none. -/
def Flight.held (f : Flight) : Nat :=
  match f.outs with
  | none => f.pkt.got
  | some [] => 0
  | some (c :: l) => f.pkt.got - l.foldl (fun m c => min m c.sent) c.sent

/-- Whether a packet is at this input on this VC. -/
def Flight.at_ (f : Flight) (node inp : Nat) (v : BitVec 2) : Bool := decide (f.node = node) && decide (f.inp = inp) && decide (f.pkt.vc = v)

/-- The copy of a packet for an output. -/
def Flight.copyTo (f : Flight) (o : Nat) : Option Copy := match f.outs with | some l => l.find? fun c => decide (c.out = o) | none => none

/-- Changes the copy for an output. -/
def Flight.modCopy (f : Flight) (o : Nat) (g : Copy → Copy) : Flight :=
  { f with outs := f.outs.map fun l => l.map fun c => if c.out = o then g c else c }

/-- Whether a packet has come whole and every copy has left: the buffer is free of it (11 R281). -/
def Flight.over (f : Flight) : Bool :=
  f.pkt.whole && match f.outs with | none => false | some l => l.all fun c => decide (f.pkt.flits ≤ c.sent)

/-- The device takes the flits of a copy for itself as they come. -/
def Flight.taken (f : Flight) : Flight := f.modCopy outHere fun c => { c with sent := f.pkt.got }

/-- Flits in the buffer of an input on a VC; those of packets whose header is still on the link. -/
def Dev.heldAt (d : Dev) (node inp : Nat) (v : BitVec 2) : Nat := (d.flying.filter fun f => f.at_ node inp v).foldl (fun s f => s + f.held) 0
def Dev.onLink (d : Dev) (node inp : Nat) (v : BitVec 2) : Nat :=
  (d.flying.filter fun f => f.at_ node inp v && f.outs.isNone).foldl (fun s f => s + f.held) 0

/-- Flits in the asynchronous FIFO before an input of 8 flits: those that the input has no place for (11 R285). -/
def Dev.inFifo (d : Dev) (node inp : Nat) (v : BitVec 2) : Nat :=
  let l := d.onLink node inp v
  l + (d.heldAt node inp v - l - 8)

/-- Removes the packets that have left. -/
def Dev.clean (d : Dev) : Dev := { d with flying := d.flying.filter fun f => !f.over }

/-- Appends a flit to the packet that is coming in at an input; a flit of no such packet is discarded. -/
def addFlit (fs : List Flight) (node inp : Nat) (v : BitVec 2) (ws : List W128) : List Flight :=
  match fs.findIdx? fun f => f.at_ node inp v && !f.pkt.whole with
  | some i => fs.modify i fun f => ({ f with pkt := { f.pkt with words := f.pkt.words ++ ws } } : Flight).taken
  | none => fs

/-! ### What an output sends next (11 R276, R278, 12 R296) -/

/-- The packets with flits left for an output that are the first of their input on VC `v`: place in the list, packet, copy. -/
def heads (fs : List Flight) (node out : Nat) (v : BitVec 2) : List (Nat × Flight × Copy) :=
  fs.zipIdx.filterMap fun e =>
    if e.1.node = node ∧ e.1.pkt.vc = v ∧ ((fs.take e.2).any fun g => g.at_ node e.1.inp v) = false then
      match e.1.copyTo out with
      | some c => if c.sent < e.1.pkt.flits then some (e.2, e.1, c) else none
      | none => none
    else none

/-- The first in rotation after input `last` of `n`. -/
def rotate (n last : Nat) : List (Nat × Flight × Copy) → Option (Nat × Flight × Copy)
  | [] => none
  | h :: l =>
    let k (h : Nat × Flight × Copy) : Nat := (h.2.1.inp + n - 1 - last % n) % n
    some (l.foldl (fun m h => if k h < k m then h else m) h)

/-- The next flit of VC `v` at an output: that of the packet it has begun, else a packet's first. VC2 and VC3 serve inputs in rotation, VC0 and VC1
in the order of arrival; with slots, VC0 starts what a slot let start. -/
def nextOn (fs : List Flight) (node out n : Nat) (slots : Bool) (last : Nat) (v : BitVec 2) : Option (Nat × Flight × Copy) :=
  let hs := heads fs node out v
  match hs.find? fun h => decide (0 < h.2.2.sent) with
  | some h => if h.2.2.sent < h.2.1.pkt.got then some h else none
  | none => if v = 0 then hs.find? fun h => !slots || h.2.2.go else if v = 1 then hs.head? else rotate n last hs

/-- The flit an output sends: the first in the order VC1, VC0, VC2, VC3 that has room ahead. `room v k` says so of flit `k` of a packet of VC `v`. -/
def choose (fs : List Flight) (node out n : Nat) (slots : Bool) (last : BitVec 2 → Nat) (room : BitVec 2 → Nat → Bool) : Option (Nat × Flight × Copy) :=
  ([1, 0, 2, 3] : List (BitVec 2)).findSome? fun v => match nextOn fs node out n slots (last v) v with
    | some h => if room v h.2.2.sent then some h else none
    | none => none

/-- Flit `k` of a copy. -/
def Flight.flit (f : Flight) (c : Copy) : BitVec 512 :=
  if c.sent = 0 then c.hdr.head else BitVec.ofNat 512 (leNat (ofWords (f.pkt.flitWords c.sent)))

/-! ### Ports as a place packets go to (12 R296, R307) -/

/-- STATE of port `p`: 0 DISABLED, 1 TRAINING, 2 UP, 3 DEGRADED, 4 DOWN (12 PORT_STATUS). -/
def Dev.portState (d : Dev) (p : Nat) : Nat := fld (d.reg (Reg.PORT_STATUS + 0x200 * p)) 0 3

/-- Gives a port a STATE. -/
def Dev.setPortState (d : Dev) (p st : Nat) : Dev := d.modReg (Reg.PORT_STATUS + 0x200 * p) fun v => setFld v 0 3 st

/-- PORT_CTL.EN. -/
def Dev.portEn (d : Dev) (p : Nat) : Bool := bit (d.reg (Reg.PORT_CTL + 0x200 * p)) 0

/-- Whether a port is in UP or DEGRADED. -/
def Dev.portUp (d : Dev) (p : Nat) : Bool := decide (d.portState p = 2) || decide (d.portState p = 3)

/-- Whether a port takes packets: it is UP or DEGRADED and is not being disabled (12 R307). -/
def Dev.portCarries (d : Dev) (p : Nat) : Bool := d.portUp p && d.portEn p && !(d.port p).idling

/-- PORT_SLOTCFG.EN, SLOTNS and PERIOD. -/
def Dev.portSlots (d : Dev) (p : Nat) : Bool := bit (d.reg (Reg.PORT_SLOTCFG + 0x200 * p)) 24
def Dev.portSlotNs (d : Dev) (p : Nat) : Nat := cnt0 (fld (d.reg (Reg.PORT_SLOTCFG + 0x200 * p)) 0 16) 65536
def Dev.portPeriod (d : Dev) (p : Nat) : Nat := cnt0 (fld (d.reg (Reg.PORT_SLOTCFG + 0x200 * p)) 16 8) 256

/-- Time since PORT_SLOTBASE; none before it. -/
def Dev.portClock (d : Dev) : Option Nat :=
  let t0 := (d.reg Reg.PORT_SLOTBASE).toNat
  if d.now < t0 then none else some (d.now - t0)

/-- The source that the current slot of port `p` names (12 R296); none for EMPTY and before PORT_SLOTBASE. -/
def Dev.portSrc (d : Dev) (p : Nat) : Option Nat :=
  match d.portClock with
  | none => none
  | some n =>
    let k := n / d.portSlotNs p % d.portPeriod p
    let s := fld (d.reg (Reg.PORT_SLOTTAB + 0x200 * p + 8 * (k / 8))) (8 * (k % 8)) 5
    if s < 24 then some s else none

/-- Counts packets that a port discards (12 R307). -/
def Dev.portDiscard (d : Dev) (p n : Nat) : Dev := d.count (Reg.PORT_CNT + 0x200 * p) 32 32 n

/-- Ports set in a mask. -/
def maskPorts (m : Nat) : List Nat := (List.range 16).filter fun i => decide (m / 2 ^ i % 2 = 1)

/-! ### Entry into the relay crossbar (12 R293, R294) -/

/-- This device's ID (12 PORT_DEVID). -/
def Dev.id (d : Dev) : BitVec 12 := BitVec.ofNat 12 (fld (d.reg Reg.PORT_DEVID) 0 12)

/-- A packet of source `src` is routed to port `p`: a copy for it, or a discard (12 R307). A VC0 packet that comes after the first ns of a slot of its
source is late (12 R296). -/
def Dev.toPort (src : Nat) (k : Packet) (s : Dev × List Copy) (p : Nat) : Dev × List Copy :=
  if s.1.portCarries p = false then (s.1.portDiscard p 1, s.2)
  else
    let late := decide (k.vc = 0) && s.1.portSlots p && decide (s.1.portSrc p = some src) &&
      (match s.1.portClock with | some n => decide (n % s.1.portSlotNs p ≠ 0) | none => false)
    (if late then s.1.count (Reg.PORT_SLOT_LATE + 0x200 * p) 0 64 1 else s.1, s.2 ++ [⟨p, k.hdr, 0, false⟩])

/-- Where a packet goes from the crossbar: the packet with its arrival port in RPATH, and its copies. From a port (src 0 to 15) it is relayed, taken by
the device, or both; from a gateway (16 to 23) it leaves on its first hop or hops, or is discarded. -/
def Dev.relayOuts (d : Dev) (src : Nat) (k : Packet) : Dev × Packet × List Copy :=
  if src < 16 then
    let h := k.hopptr.toNat
    let k := { k with rpath := setFld k.rpath (4 * (h - 1)) 4 src }
    let on (d : Dev) (ps : List Nat) : Dev × List Copy := ps.foldl (Dev.toPort src { k with hopptr := BitVec.ofNat 6 (h + 1) }) (d, [])
    if k.mcast then
      let here : List Copy := if bit k.loc (h - 1) then [⟨outHere, k.hdr, 0, false⟩] else []
      let s := if h < k.hops.toNat then on d (maskPorts (fld k.route (16 * h) 16)) else (d, [])
      (s.1, k, here ++ s.2)
    else if h < k.hops.toNat then
      let s := on d (if h < 32 then [fld k.route (4 * h) 4] else [])
      (s.1, k, s.2)
    else (d, k, if h = k.hops.toNat then [⟨outHere, k.hdr, 0, false⟩] else [])
  else if bit (d.reg Reg.PORT_DEVID) 12 = false ∨ k.flits = 1 then (d.count Reg.PORT_DROPCNT 0 32 1, k, [])
  else
    let ps := if k.mcast then maskPorts (fld k.route 0 16) else [fld k.route 0 4]
    let s := ps.foldl (Dev.toPort src { k with hopptr := 1 }) (d, [])
    (s.1, k, s.2)

/-! ### Arrival at the device (12 R293, R299) -/

/-- A packet for a device unit: a haul frame of the wrong length is malformed (07 R182); what another unit gets waits for the command that acts on
it (log 44). -/
def Dev.toUnit (d : Dev) (k : Packet) : Dev :=
  if k.kind = 4 ∧ k.haul = none then d.count Reg.WT_HAUL_BAD 0 64 1
  else if k.kind = 4 ∨ k.kind = 5 ∨ (k.kind = 6 ∧ k.nakType.toNat < 2) then { d with unitIn := d.unitIn ++ [(0x7FF, k)] }
  else d

/-- A packet whose route ends here goes to its unit, or to the gateway of its tile, which has stored it whole. No hop of its route remains. -/
def Dev.accepted (d : Dev) (k : Packet) : Dev :=
  if k.dtile.toNat = 0x7FF then d.toUnit k else { d with gwIn := d.gwIn ++ [(k.gateway, { k with hopptr := k.hops })] }

/-- A packet that has come whole at its destination device: the one DDEV names, but for a copy of a tree. A packet with E2E set waits for its end-to-end
check; one without it is checked by its trailer alone (12 R299). -/
def Dev.arriveHere (d : Dev) (k : Packet) : Dev :=
  if k.mcast = false ∧ k.ddev ≠ d.id then d.count Reg.PORT_DROPCNT 32 16 1
  else if k.e2e then { d with rxIn := d.rxIn ++ [k] }
  else if k.crcOk = false then d
  else d.accepted k

/-- A packet enters the relay crossbar from source `src`, with the flits of it that have come. -/
def Dev.relayIn (d : Dev) (src : Nat) (k : Packet) : Dev :=
  let s := d.relayOuts src k
  let f : Flight := Flight.taken ⟨relay, src, s.2.1, some s.2.2⟩
  let d := { s.1 with flying := s.1.flying ++ [f] }
  if f.pkt.whole && (f.copyTo outHere).isSome then d.arriveHere f.pkt else d

/-- A packet that a unit of the device gives whole to gateway 0 (log 46). -/
def Dev.unitOut (d : Dev) (k : Packet) : Dev := (d.relayIn 16 k).clean

/-- A further flit of the packet that is coming in from source `src` on VC `v`; the last one makes it whole. -/
def Dev.relayBody (d : Dev) (src : Nat) (v : BitVec 2) (ws : List W128) : Dev :=
  match d.flying.find? fun f => f.at_ relay src v && !f.pkt.whole with
  | none => d
  | some f =>
    let k := { f.pkt with words := f.pkt.words ++ ws }
    let d := { d with flying := addFlit d.flying relay src v ws }
    if k.whole && (f.copyTo outHere).isSome then d.arriveHere k else d

/-- The packet that is coming in from source `src` on VC `v` is completed with zero flits and a trailer that does not check (12 R291). -/
def Dev.relayCut (d : Dev) (src : Nat) (v : BitVec 2) : Dev :=
  match d.flying.find? fun f => f.at_ relay src v && !f.pkt.whole with
  | none => d
  | some f => (d.relayBody src v ((f.pkt.sealed true).words.drop f.pkt.words.length)).clean

end Sys2Proof.Machine
end

