-- ==== Sys2Proof/Machine/TileOps.lean ====
section
/-! DEFINITION. Shared operations of a tile: events and asynchronous causes, the weight-tier read path (07
R158 to R165), address generators and port modes (04 R95 to R100, 06 R134 to R136), the range scoreboard
(06 R137), delivery from RX queue contexts (06 R149). -/

namespace Sys2Proof.Machine

/-! ### Events and asynchronous causes -/

/-- Sets a bit of SCB_EVENT (04 R102). -/
def Tile.event (t : Tile) (i : Nat) : Tile := t.modReg Reg.SCB_EVENT fun v => setBit v i

/-- Holds an asynchronous cause pending; one that recurs while it is pending is recorded once (04 R105). -/
def Tile.raise (t : Tile) (c : AsyncCause) (tval : W32) : Tile :=
  if t.scb.pend.any fun p => decide (p.1 = c) then t else { t with scb := { t.scb with pend := t.scb.pend ++ [(c, tval)] } }

/-- ORs flags into FLAGSj of ARR_FLAGS. A bit that changes from 0 to 1 and is enabled in ARR_TRAPEN raises ARR_FLAG (03
ARR_TRAPEN). -/
def Tile.arrNote (t : Tile) (j : Nat) (f : BitVec 5) : Tile :=
  let old := t.reg Reg.ARR_FLAGS
  let new := old ||| BitVec.ofNat 64 (f.toNat * 2 ^ (8 * j))
  let rose := BitVec.ofNat 64 (fld (new &&& ~~~old) (8 * j) 5) &&& t.reg Reg.ARR_TRAPEN
  let t := t.setReg Reg.ARR_FLAGS new
  if rose ≠ 0 then t.raise .arrFlag 0 else t

/-- The flags that adds set in WACC entries; they mark the run for WINDOW (09 R238). -/
def Tile.arrFlag (t : Tile) (j : Nat) (f : BitVec 5) : Tile :=
  match t.arrNote j f with | t => { t with exWindow := t.exWindow || decide (f &&& 15 ≠ 0) }

/-! ### Words of the scratchpad and their parity (06 R133, R139) -/

/-- The XOR of the bits of a number of 32 bits. -/
def xorBits (x : Nat) : Bool :=
  let a := x ^^^ x / 2 ^ 16
  let b := a ^^^ a / 2 ^ 8
  let c := b ^^^ b / 2 ^ 4
  let e := c ^^^ c / 4
  decide ((e ^^^ e / 2) % 2 = 1)

/-- The parity bit of the word `w` at byte address `a`: the XOR of its 32 bits with bits [21:2] of `a` (06 R139). -/
def parityBit (a w : Nat) : Bool := xorBits (w ^^^ a / 4 % 2 ^ 20)

/-- The parity bit that the scratchpad stores for the word at `a`: `parInv` lists the words whose bit is the wrong one. -/
def Tile.parBit (t : Tile) (a : Nat) : Bool := parityBit a (t.spad.readNat a 4) != t.parInv.contains a

/-- Whether the word at `w` lies in part or whole in `n` bytes from `a`. -/
def wordIn (w a n : Nat) : Bool := decide (0 < n) && decide (a ≤ w + 3) && decide (w < a + n)

/-- The first word that a read of `n` bytes from `a` finds to fail parity: its stored bit is not that of its data and address. -/
def Tile.badWord (t : Tile) (a n : Nat) : Option Nat :=
  t.parInv.find? fun w => wordIn w a n && (t.parBit w != parityBit w (t.spad.readNat w 4))

/-- The words that a write covers in part are read and merged (06 R133): the first of them that fails parity. -/
def Tile.mergeBad (t : Tile) (a n : Nat) : Option Nat :=
  t.parInv.find? fun w => wordIn w a n && !(decide (a ≤ w) && decide (w + 4 ≤ a + n)) && (t.badWord w 4).isSome

/-- A write to the scratchpad: every word it touches gets its parity anew. -/
def Tile.spadWrite (t : Tile) (a : Nat) (bs : List Byte) : Tile :=
  { t with spad := t.spad.writeN a bs, parInv := t.parInv.filter fun w => !wordIn w a bs.length }

/-- Zeros whole words of the scratchpad. -/
def Tile.spadClear (t : Tile) (a n : Nat) : Tile := { t with spad := t.spad.clear a n, parInv := t.parInv.filter fun w => !wordIn w a n }

/-- An upset: a data bit or the parity bit of a word turns over. -/
def Tile.flip (t : Tile) (f : BitFlip) : Tile :=
  let w := f.word / 4 * 4
  let a := w + f.bit / 8
  { t with
    spad := if f.bit < 32 then t.spad.write a (t.spad.read a ^^^ BitVec.ofNat 8 (2 ^ (f.bit % 8))) else t.spad
    parInv := if t.parInv.contains w then t.parInv.filter fun x => decide (x ≠ w) else t.parInv ++ [w] }

/-- An upset of a word of a tile's scratchpad. -/
def Dev.flip (d : Dev) (f : Option BitFlip) : Dev :=
  match f with
  | some b => if b.t < Config.nTiles ∧ b.word < Config.spadBytes then d.modTile b.t fun x => x.flip b else d
  | none => d

/-! ### The weight tier as a tile reads it -/

/-- The physical byte of a slice: a page in use in the replacement pool stands for the page it replaces (07 R159). -/
def WTier.byte (w : WTier) (t a : Nat) : Byte :=
  let pg := a / 4096
  match w.remap.find? fun e => decide (e.1 = t) && decide (e.2.1 = pg) with
  | some e => w.data.read (t * 2 ^ 30 + e.2.2 * 4096 + a % 4096)
  | none => w.data.read (t * 2 ^ 30 + a)

/-- `n` bytes of a slice from a physical address. -/
def WTier.bytes (w : WTier) (t a n : Nat) : List Byte := (List.range n).map fun i => w.byte t (a + i)

/-- The extent map of region `r` (07 R161). -/
def Dev.xmap (d : Dev) (r : Nat) : W64 := d.reg (Reg.WT_XMAP + 8 * r)

/-- Whether every byte of a unit lies in a mapped program extent (07 R161). -/
def xmapOk (x : W64) (a n : Nat) : Bool :=
  decide (a + n ≤ Config.sliceProgBytes) &&
  (List.range 15).all fun e => decide (a + n ≤ e * 2 ^ 26) || decide ((e + 1) * 2 ^ 26 ≤ a) || decide (fld x (4 * e) 4 ≠ 15)

/-- The physical slice address of a program address (07 R161). -/
def xmapAddr (x : W64) (a : Nat) : Nat := fld x (4 * (a / 2 ^ 26)) 4 * 2 ^ 26 + a % 2 ^ 26

/-- `n` bytes from a program address of the slice of tile `t`. -/
def WTier.prog (w : WTier) (x : W64) (t a n : Nat) : List Byte := (List.range n).map fun i => w.byte t (xmapAddr x (a + i))

/-- The parts of a slice that a program read touches: an address and a length for each program extent it lies in. -/
def progRanges (x : W64) (a n : Nat) : List (Nat × Nat) := (List.range 15).filterMap fun e =>
  let lo := max a (e * 2 ^ 26)
  let hi := min (a + n) ((e + 1) * 2 ^ 26)
  if lo < hi then some (xmapAddr x lo, hi - lo) else none

/-! ### Codewords (07 R163, R165) -/

/-- Image extent of a physical extent: how many extents of the set lie below it (07 R167). -/
def xsetIndex (xset : BitVec 15) (e : Nat) : Nat := (List.range e).foldl (fun s i => s + if bit xset i then 1 else 0) 0

/-- Physical extent of image extent `x` (07 R167). -/
def xsetExtent (xset : BitVec 15) (x : Nat) : Nat :=
  ((List.range 15).find? fun e => bit xset e && decide (xsetIndex xset e = x)).getD 15

/-- Whether a rectangle holds a tile. -/
def rectHolds (q : Rect) (t : Nat) : Bool :=
  decide (q.b0 ≤ t / Config.lcols) && decide (t / Config.lcols ≤ q.b1) && decide (q.c0 ≤ t % Config.lcols) &&
  decide (t % Config.lcols ≤ q.c1)

/-- The shard of an image that holds a page of slice `t`. -/
def Image.shardAt (m : Image) (t page : Nat) : Option Nat :=
  (List.range m.shards.length).find? fun i =>
    match m.shards[i]? with
    | some s => decide (s.slice = t) && decide (xsetExtent m.xset s.x = page / 16384) &&
        decide (s.page ≤ page % 16384) && decide ((page % 16384 - s.page) * 4096 < s.len)
    | none => false

/-- Queues a journal record (07 R172): it is in force once it is committed. -/
def Dev.journal (d : Dev) (p : JPend) : Dev := { d with wt := { d.wt with jq := d.wt.jq ++ [p] } }

/-- Marks the shard that holds a page BAD by a BAD_SHARD record (07 R165, R184). -/
def Dev.markBad (d : Dev) (t page : Nat) : Dev :=
  match d.wt.images.findSome? fun m => if decide (m.st ≠ .empty) then (m.shardAt t page).map fun i => (m, i) else none with
  | some (m, i) => d.journal ⟨.badShard, m, i, none, 0, none, none⟩
  | none => d

/-- Cells go wrong: the wrong bits of codewords from now on. -/
def WTier.ail (w : WTier) (cs : List CellErr) : WTier :=
  { w with weak := cs.foldl (fun m c =>
      if c.t < Config.nTiles ∧ c.page < 262144 ∧ c.cw < 4 then SMap.set (fun _ => 0) m (c.t * 2 ^ 20 + 4 * c.page + c.cw) c.bits else m) w.weak }

/-- The slice and slice address of the bytes that a codeword of the medium holds: those of the page it stands for; none for a page that
another one stands for (07 R159). -/
def WTier.cwAddr (w : WTier) (k : Nat) : Option (Nat × Nat) :=
  let t := k / 2 ^ 20
  let page := k % 2 ^ 20 / 4
  match w.remap.find? fun e => decide (e.1 = t) && decide (e.2.2 = page) with
  | some e => some (t, e.2.1 * 4096 + k % 4 * 1024)
  | none => if w.remap.any fun e => decide (e.1 = t) && decide (e.2.1 = page) then none else some (t, page * 4096 + k % 4 * 1024)

/-- The codewords with wrong bits that a read of `n` bytes at `a` of slice `t` meets: page and wrong bits. -/
def WTier.weakIn (w : WTier) (t a n : Nat) : List (Nat × Nat) :=
  w.weak.filterMap fun e => match w.cwAddr e.1 with
    | some (u, b) => if u = t ∧ b < a + n ∧ a < b + 1024 then some (b / 4096, e.2) else none
    | none => none

/-- A range that holds no uncorrectable codeword. -/
def WTier.readable (w : WTier) (t a n : Nat) : Bool := (w.weakIn t a n).all fun e => decide (e.2 ≤ 24)

/-- `n` bytes from a slice address as a read delivers them: those of an uncorrectable codeword are free values (log 105). -/
def WTier.read (w : WTier) (c t a n : Nat) : List Byte :=
  (List.range n).map fun i => if w.readable t (a + i) 1 then w.byte t (a + i) else BitVec.ofNat 8 (Config.freeAt c i)

/-- The same from a program address. -/
def WTier.readProg (w : WTier) (c : Nat) (x : W64) (t a n : Nat) : List Byte :=
  (List.range n).map fun i => if w.readable t (xmapAddr x (a + i)) 1 then w.byte t (xmapAddr x (a + i)) else BitVec.ofNat 8 (Config.freeAt c i)

/-- What a read of codewords meets, each a slice, a page and wrong bits (07 R163): corrected codewords are counted and their page queued for
refresh when one needed more than THRESH corrections; the pages of uncorrectable ones are answered. -/
def Dev.cwMeet (d : Dev) (hits : List (Nat × Nat × Nat)) : Dev × List (Nat × Nat) :=
  let d := (hits.filter fun e => decide (0 < e.2.2 ∧ e.2.2 ≤ 24)).foldl (fun d e =>
    let d := d.count Reg.WT_ECC_CORR 0 64 1
    if e.2.2 > fld (d.reg Reg.WT_SCRUB_CTL) 16 5 ∧ (e.1, e.2.1) ∉ d.wt.refreshQ then
      { d with wt := { d.wt with refreshQ := d.wt.refreshQ ++ [(e.1, e.2.1)] } } else d) d
  (d, (hits.filter fun e => decide (24 < e.2.2)).map fun e => (e.1, e.2.1))

/-- What reading ranges of slice `t` meets: the pages of uncorrectable codewords are answered. -/
def Dev.tierMeet (d : Dev) (t : Nat) (rs : List (Nat × Nat)) : Dev × List Nat :=
  match d.cwMeet (rs.flatMap fun r => (d.wt.weakIn t r.1 r.2).map fun e => (t, e.1, e.2)) with
  | (d, bad) => (d, bad.map (·.2))

/-- Everything that goes wrong before a reading command (log 19). -/
def Dev.upset (d : Dev) (u : Upset) : Dev := match d.flip u.parity with | d => { d with wt := d.wt.ail u.cells }

/-- The slice of tile `s` is being rebuilt: its readers wait (07 R197). -/
def Dev.moving (d : Dev) (s : Nat) : Bool :=
  match d.flt.recov with
  | some v => (decide (v.stage = .empty) || decide (v.stage = .slices)) && v.moved.contains s
  | none => false

/-- An uncorrectable codeword (07 R165): counted, flagged, recorded. -/
def Dev.uncorrNote (d : Dev) (t page : Nat) : Dev :=
  let d := d.count Reg.WT_ECC_UNCORR 0 64 1
  let d := d.modReg Reg.WT_ERR fun v => setBit v 0
  d.record { errBase 4 7 St.UNCORRECTABLE with site := d.siteOf t, ltile := BitVec.ofNat 16 t, detail := page }

/-- The same, and its shard is marked BAD. -/
def Dev.uncorrectable (d : Dev) (t page : Nat) : Dev := (d.uncorrNote t page).markBad t page

/-! ### Address generators -/

/-- Addresses of a program (04 R95): the product of its counts. -/
def AgProg.total (p : AgProg) : Nat := p.cnts.foldl (fun a c => a * cnt0 c.toNat 65536) 1

/-- Sum of index × stride, dimension 0 innermost. -/
def agOffset : List (BitVec 16) → List W32 → Nat → Int
  | c :: cs, s :: ss, n => let k := cnt0 c.toNat 65536; (n % k : Nat) * sfld s 0 32 + agOffset cs ss (n / k)
  | _, _, _ => 0

/-- The n-th address of a program, formed exactly (04 R95). -/
def AgProg.addr (p : AgProg) (n : Nat) : Int := (p.base.toNat : Int) + agOffset p.cnts p.strs (n % p.total)

/-- The slice an AG reads: none for the scratchpad (04 Table 4.8). -/
def AgProg.slice (p : AgProg) (t : Nat) : Option Nat :=
  match p.space with
  | 0 => none
  | 1 => some t
  | _ => some (t / Config.lcols * Config.lcols + p.lslice + (if t % Config.lcols ≥ 23 then 23 else 0))

/-- Port mode of a program (06 SPAD_PORTn). -/
def AgProg.mode (p : AgProg) : Nat := fld p.port 0 2

/-- Rows of a block: how many, and bytes of each (06 R135, R136). -/
def AgProg.shape (p : AgProg) : Nat × Nat :=
  match p.mode with
  | 1 => (32, 32)
  | 2 => (16, 32)
  | _ => (cnt0 (fld p.port 8 8) 256, 4 * cnt0 (fld p.port 16 8) 256)

/-- A block as the port delivers it, from its rows in source order (06 R135, R136). -/
def portBlock (mode : Nat) (rows : List (List Byte)) : List Byte :=
  match mode with
  | 1 => (List.range 32).flatMap fun j => rows.map fun r => r.getD j 0
  | 2 => (List.range 16).flatMap fun j => rows.flatMap fun r => [r.getD (2 * j) 0, r.getD (2 * j + 1) 0]
  | _ => rows.flatten

/-- What drawing one address does: the address; or the AG has no more; or it has stopped. -/
inductive AgDraw where
  | addr (a : Int)
  | empty
  | stopped
deriving DecidableEq, Repr

/-- The address the AG would emit next (04 R100). -/
def Ag.next (g : Ag) : AgDraw :=
  if g.stopped then .stopped else if g.exh then .empty else .addr (g.cur.addr g.pos)

/-- After an address was emitted: POS, EXH (04 R100, Table 4.8). -/
def Ag.emitted (g : Ag) : Ag := { g with pos := g.pos + 1, exh := !g.cur.cyc && decide (g.pos + 1 ≥ g.cur.total) }

/-- Emits the address: AG_DONE is set with the last one when DONE_EV = 1. -/
def Tile.agEmit (t : Tile) (n : Nat) : Tile :=
  let g := t.ag n
  let t := t.setAg n g.emitted
  if g.cur.doneEv ∧ (g.pos + 1) % g.cur.total = 0 then t.event 2 else t

/-- Stops an AG with ERR and raises its cause (04 R98, R100). -/
def Tile.agStop (t : Tile) (n : Nat) (c : AsyncCause) : Tile :=
  (t.setAg n { t.ag n with err := true, stopped := true }).raise c (BitVec.ofNat 32 n)

/-- The outcome of a read or a write through an AG: the device after it, the bytes (none: the consumer waits), and whether the
read met a word that fails parity or an uncorrectable codeword. -/
structure AgOut where
  d : Dev
  data : Option (List Byte)
  parity : Option Nat
  uncorr : List (Nat × Nat)
deriving DecidableEq, Repr

/-- Alignment an array consumer asks of an address (04 R98): 16 in the scratchpad, 64 in a slice. -/
def alignOk (array : Bool) (slice : Bool) (a : Int) : Bool := !array || decide (a % (if slice then 64 else 16) = 0)

/-- Reads one unit or block at address `a` in LINEAR or block mode: the bytes, a scratchpad word that fails parity, the parts of a slice that
were read; none when a check of 04 R98 or 06 R134 fails. The store read is
the one the AG's SPACE names, whatever source code (ASRC, WSRC) the consumer's ACW gives (DESIGN CHOICE, log 89). -/
def Dev.agFetch (d : Dev) (t : Nat) (p : AgProg) (a : Int) (len : Nat) (array : Bool) :
    Option (List Byte × Option Nat × List (Nat × Nat)) :=
  let tile := d.tile t
  if a < 0 then none
  else
    let b := a.toNat
    match p.slice t with
    | some s =>
      if p.mode ≠ 0 ∨ alignOk array true a = false then none
      else match d.regionOf t with
        | none => none
        | some r =>
          if xmapOk (d.xmap r) b len then
            some (d.wt.readProg d.ctr (d.xmap r) s b len, none, progRanges (d.xmap r) b len)
          else none
    | none =>
      if alignOk array false a = false then none
      else if p.mode = 0 then
        if b + len ≤ Config.spadBytes then some (tile.spad.readN b len, tile.badWord b len, []) else none
      else
        let (rows, w) := p.shape
        let pitch := fld p.port 32 24
        let starts := (List.range rows).map fun i => b + i * pitch
        if starts.all fun x => decide (x + w ≤ Config.spadBytes) then
          some (portBlock p.mode (starts.map fun x => tile.spad.readN x w), starts.findSome? fun x => tile.badWord x w, [])
        else none

/-- Reads `len` bytes for a consumer through AG `n` (04 R98, R100, 06 R134): a unit at one address in LINEAR mode, else from the
blocks in emission order. A read of a slice that is being rebuilt waits. `array` asks for the alignment of array consumers. -/
def Dev.agReadAux (t n len : Nat) (array : Bool) : Nat → Dev → Option Nat → AgOut
  | 0, d, par => ⟨d, none, par, []⟩
  | k + 1, d, par =>
    let g := (d.tile t).ag n
    if g.cur.mode ≠ 0 ∧ g.resid.length ≥ len then
      ⟨d.modTile t fun x => x.setAg n { g with resid := g.resid.drop len }, some (g.resid.take len), par, []⟩
    else
      match g.next with
      | .stopped => ⟨d, none, par, []⟩
      | .empty => ⟨d.modTile t fun x => x.agStop n .agEmpty, none, par, []⟩
      | .addr a =>
        match d.agFetch t g.cur a len array with
        | none => ⟨d.modTile t fun x => x.agStop n .agRange, none, par, []⟩
        | some (bs, p, rs) =>
          let s := (g.cur.slice t).getD t
          if rs ≠ [] ∧ d.moving s = true then ⟨d, none, par, []⟩ else
          let (d, bad) := (d.modTile t fun x => x.agEmit n).tierMeet s rs
          let d := if bad.isEmpty then d else d.drawn
          if g.cur.mode = 0 then ⟨d, some bs, par <|> p, bad.map fun q => (s, q)⟩
          else
            let d := d.modTile t fun x => x.setAg n { x.ag n with resid := (x.ag n).resid ++ bs }
            Dev.agReadAux t n len array k d (par <|> p)

/-- One unit of `len` bytes through AG `n`. -/
def Dev.agRead (d : Dev) (t n len : Nat) (array : Bool) : AgOut := Dev.agReadAux t n len array (len + 2) d none

/-- Writes one unit through AG `n`: SPACE must be 0 and the mode LINEAR (04 R98, 06 R134). `parity` is a word that the merge of a partial
word finds to fail. -/
def Dev.agWrite (d : Dev) (t n : Nat) (bs : List Byte) (array : Bool) : AgOut :=
  let g := (d.tile t).ag n
  match g.next with
  | .stopped => ⟨d, none, none, []⟩
  | .empty => ⟨d.modTile t fun x => x.agStop n .agEmpty, none, none, []⟩
  | .addr a =>
    if g.cur.space = 0 ∧ g.cur.mode = 0 ∧ 0 ≤ a ∧ a.toNat + bs.length ≤ Config.spadBytes ∧ alignOk array false a = true then
      ⟨d.modTile t fun x => (x.agEmit n).spadWrite a.toNat bs, some bs, (d.tile t).mergeBad a.toNat bs.length, []⟩
    else ⟨d.modTile t fun x => x.agStop n .agRange, none, none, []⟩

/-- Makes a program current (04 R99, R100): POS = 0, with the port setting of that moment (06 R134). -/
def Tile.agLoad (t : Tile) (n : Nat) (p : AgProg) : Tile :=
  t.setAg n { t.ag n with
    cur := { p with port := t.reg (Reg.SPAD_PORT + 8 * n) }, pos := 0, exh := false, stopped := false, resid := [], pending := none }

/-- Releases a ticket of AG `n` (04 R99). A pending program becomes current once every ticket taken before it is released. -/
def Tile.agRelease (id : Nat) (t : Tile) (n : Nat) : Tile :=
  let g := t.ag n
  let t := t.setAg n { g with tickets := g.tickets.filter fun i => decide (i ≠ id) }
  match g.pending with
  | some (p, ids) =>
    let ids := ids.filter fun i => decide (i ≠ id)
    if ids.isEmpty then t.agLoad n p else t.setAg n { t.ag n with pending := some (p, ids) }
  | none => t

/-- Whether ticket `id` is at the head of every AG of a list (04 R99). -/
def Tile.atHead (t : Tile) (id : Nat) (ags : List Nat) : Bool := ags.all fun n => decide ((t.ag n).tickets.head? = some id)

/-! ### The range scoreboard (06 R137) -/

/-- The ranges of instructions issued and not retired. -/
def Tile.board (t : Tile) : List LineRange := t.acwQ.flatMap (·.ranges) ++ t.vecQ.flatMap (·.ranges)

/-- Two ranges of lines overlap. -/
def LineRange.overlaps (a b : LineRange) : Bool := decide (a.first < b.first + b.count) && decide (b.first < a.first + a.count)

/-- An issue with these ranges need not wait: entries are free, and no RAW, WAR or WAW conflict stands. -/
def Tile.boardFree (t : Tile) (rs : List LineRange) : Bool :=
  decide (t.board.length + rs.length ≤ 16) && rs.all fun r => t.board.all fun e => !(r.overlaps e) || (!r.write && !e.write)

/-! ### RX queue contexts (06 R143, R149) -/

def QCtx.en (q : QCtx) : Bool := bit q.w0 0
def QCtx.tx (q : QCtx) : Bool := bit q.w0 1
def QCtx.anyOrder (q : QCtx) : Bool := bit q.w0 2
def QCtx.retain (q : QCtx) : Bool := bit q.w0 3
def QCtx.ev (q : QCtx) : Bool := bit q.w0 4
def QCtx.base (q : QCtx) : Nat := fld q.w0 16 16
def QCtx.size (q : QCtx) : Nat := fld q.w0 32 16
def QCtx.rx (q : QCtx) : Bool := q.en && !q.tx

/-- Words of the ring. -/
def QCtx.words (q : QCtx) : Nat := q.size * 4

/-- Scratchpad address of word `w` of the ring. -/
def QCtx.addr (q : QCtx) (w : Nat) : Nat := q.base * 64 + (if q.words = 0 then 0 else w % q.words) * 16

/-- Word offset `n` words after `w`, wrapping. -/
def QCtx.wrap (q : QCtx) (w n : Nat) : Nat := if q.words = 0 then 0 else (w + n) % q.words

/-- The item at RDPTR. -/
def QCtx.head? (q : QCtx) : Option RxItem := q.items[q.taken]?

/-- The head item can be taken: all its reserved words have arrived (06 R149). -/
def QCtx.avail (q : QCtx) : Bool := match q.head? with | some i => decide (i.arrived = i.words) | none => false

/-- Bytes of `n` words of an item from word `k` of it. -/
def Tile.itemWords (t : Tile) (q : QCtx) (i : RxItem) (k n : Nat) : List Byte :=
  (List.range n).flatMap fun j => t.spad.readN (q.addr (i.start + k + j)) 16

/-- The step a tile runs, as the queues tell steps apart (06 R149). -/
def Tile.stepNo (t : Tile) : Nat := (t.reg Reg.SCB_STEP).toNat

/-- Stores a context after a change and sets QUEUE when its head became available or an ERRS bit rose (06 R152). -/
def Tile.putQc (t : Tile) (n : Nat) (q : QCtx) : Tile :=
  let o := t.qc n
  let t := t.setQc n q
  let rose := fld (q.w3 &&& ~~~o.w3) 43 6
  if q.rx ∧ q.ev ∧ (rose ≠ 0 ∨ (q.avail = true ∧ ¬(o.avail = true ∧ o.head? = q.head?))) then t.event 4 else t

/-- Takes the head item (06 R149): RDPTR advances, the space is released without RETAIN, and a change of source under
ANYORDER advances SPAD_TDC. -/
def Tile.qTake (t : Tile) (n : Nat) : Option (RxItem × Tile) :=
  let q := t.qc n
  match q.head? with
  | none => none
  | some i =>
    if q.rx ∧ i.arrived = i.words then
      let rd := q.wrap (fld q.w1 0 18) i.words
      let tdc := q.anyOrder && match q.last with
        | some (sd, st, k) => decide (k = t.stepNo) && decide ((sd, st) ≠ (i.srcdev, i.srctile))
        | none => false
      let t := if tdc then t.count Reg.SPAD_TDC 1 else t
      let q := { q with w1 := setFld q.w1 0 18 rd, last := some (i.srcdev, i.srctile, t.stepNo) }
      let q := if q.retain then { q with taken := q.taken + 1 } else { q with items := q.items.drop 1 }
      some (i, t.putQc n q)
    else none

end Sys2Proof.Machine
end

