-- ==== Sys2Proof/Machine/MeshOps.lean ====
section
/-! DEFINITION. Forming packets and sending them: flows and replay windows, stream queue items, packets of device units (06 R144, R145, 09 R233,
R234, 11 R270, R271, 12 R295, R300). -/

namespace Sys2Proof

open Machine

/-- Gives a packet the path of an alternate (09 R234, 12 R293). LOCAL of a tree is not part of the entry and stays zero
but for its last depth (log 25). -/
def Packet.onRoute (p : Packet) (ddev : BitVec 12) (a : RouteAlt) : Packet :=
  { p with
    route := a.route, hopptr := 0, segn := BitVec.ofNat 3 a.segn, segptr := 0, segs := a.segs, mcast := a.mcast, hops := BitVec.ofNat 6 a.hops, ddev := ddev, e2e := decide (a.hops ≠ 0),
    loc := if a.mcast then BitVec.ofNat 8 (2 ^ (a.hops - 1)) else 0 }

end Sys2Proof

namespace Sys2Proof.Machine

/-- Bits set in a mask of ports. -/
def popcount16 (m : Nat) : Nat := ((List.range 16).filter fun i => decide (m / 2 ^ i % 2 = 1)).length

/-- Receivers of a tree whose last depth alone delivers (12 R294, log 25). -/
def RouteAlt.nrcv (a : RouteAlt) : Nat := (List.range a.hops).foldl (fun q j => q * popcount16 (fld a.route (16 * j) 16)) 1

/-- The alternate in use of a route patch entry; none while the entry is not loaded (09 R234). -/
def Dev.routeAlt (d : Dev) (k : Nat) : Option RouteAlt :=
  let e := d.route k
  if e.nalt = 0 then none else e.alts[e.active]?

/-! ### Flows and the replay window of a tile (12 R300) -/

/-- The oldest unacknowledged FLOWSEQ of a tile's flow, or `dflt` when none is held. -/
def Tile.ackFloor (t : Tile) (f : FlowKey) (dflt : W32) : W32 :=
  match t.replay.find? fun h => decide (h.key = f) with
  | some h => h.seq
  | none => dflt

/-- MESH_REPLAY: first line and lines of the window, and the lines in use. -/
def Tile.replayBase (t : Tile) : Nat := fld (t.reg Reg.MESH_REPLAY) 0 16
def Tile.replayLines (t : Tile) : Nat := fld (t.reg Reg.MESH_REPLAY) 16 16
def Tile.replayUsed (t : Tile) : Nat := t.replay.foldl (fun s h => s + h.pkt.flits) 0

/-- Writes a copy of a packet into the window, a flit to a line; the lines are taken in order and go round (log 110). -/
def Tile.hold (t : Tile) (route : Nat) (p : Packet) (now : Nat) : Tile :=
  let ls := (List.range p.flits).map fun i => t.replayBase + (t.replayAt + i) % t.replayLines
  let t := (ls.zipIdx).foldl (fun t e =>
    if e.1 < Config.spadLines then
      t.spadWrite (64 * e.1) (if e.2 = 0 then leBytes 64 p.head.toNat else ofWords (p.flitWords e.2))
    else t) t
  { t with replay := t.replay ++ [⟨p.flow, p.flowseq, route, p, ls, now⟩], replayAt := (t.replayAt + p.flits) % t.replayLines }

/-- Lets packets of tile `t` that wait for the replay window leave in order (12 R300): a packet that crosses ports is held
there, one of the device is not. MESH_REPLAY_WAIT counts a wait (log 16). -/
def Dev.txGo (t : Nat) : Nat → Dev → Dev
  | 0, d => d
  | n + 1, d =>
    let x := d.tile t
    match x.txWait with
    | [] => d
    | (rt, p) :: rest =>
      let go (d : Dev) (p : Packet) : Dev := { d with flying := d.flying ++ [⟨t, 4, p, none⟩] }
      if p.hops = 0 then Dev.txGo t n (go (d.setTile t { x with txWait := rest }) (p.sealed false))
      else if x.replayUsed + p.flits ≤ x.replayLines then
        let p := ({ p with ackfloor := x.ackFloor p.flow p.flowseq } : Packet).sealed false
        Dev.txGo t n (go (d.setTile t ({ x with txWait := rest }.hold rt p d.now)) p)
      else d.countFree t Reg.MESH_REPLAY_WAIT

/-- Sends what waits at tile `t`. -/
def Dev.txRun (d : Dev) (t : Nat) : Dev := d.txGo t (d.tile t).txWait.length

/-- Sends payloads as consecutive packets of one flow of tile `t`, numbered when they cross ports (11 R271, 12 R300). `k` has the fields that do not
come from the route. -/
def Dev.tileSend (d : Dev) (t route : Nat) (a : RouteAlt) (k : Packet) (parts : List (List W128)) : Dev :=
  let x := d.tile t
  let q := k.sflow.toNat
  let base := ({ k with regtag := BitVec.ofNat 7 (fld (x.reg Reg.MESH_REGION) 0 7), srcdev := d.id, srctile := BitVec.ofNat 11 t } : Packet).onRoute
    (d.route route).ddev a
  let seq0 := SMap.get (fun _ => (0 : W32)) x.flowSeq q
  let ps := (parts.zipIdx).map fun e =>
    let p := base.withWords e.1
    (route, if a.hops = 0 then p else { p with flowseq := seq0 + BitVec.ofNat 32 e.2 })
  (d.setTile t { x with
    txWait := x.txWait ++ ps
    flowSeq := if a.hops = 0 then x.flowSeq else SMap.set (fun _ => (0 : W32)) x.flowSeq q (seq0 + BitVec.ofNat 32 ps.length) }).txRun t

/-! ### Stream queue items -/

/-- The header word of an item (06 Table 6.2). -/
def itemHeader (len : Nat) (mark : Bool) (srcdev srctile iseq : Nat) : W128 :=
  BitVec.ofNat 128 (len % 4096 + (if mark then 2 ^ 13 else 0) + srcdev % 4096 * 2 ^ 16 + srctile % 2048 * 2 ^ 28 + iseq % 65536 * 2 ^ 48)

/-- Sends a payload as one item through TX context `q` of tile `t` (06 R145, 09 R234, 12 R300). With no route loaded the item is
discarded whole and ISEQ still advances. -/
def Dev.sendItem (d : Dev) (t q : Nat) (payload : List Byte) : Dev :=
  let x := d.tile t
  let c := x.qc q
  let iseq := fld c.w2 0 16
  let c1 := { c with w2 := setFld c.w2 0 16 (iseq + 1) }
  match d.routeAlt (fld c.w1 48 16) with
  | none => d.setTile t ((x.setQc q c1).count Reg.MESH_RPT_MISS 1)
  | some a =>
    let ws := toWords (payload.length + 1) payload
    let hd := itemHeader ws.length false d.id.toNat t iseq
    let k := { packet0 with
      dtile := BitVec.ofNat 11 (fld c.w1 12 11), dqid := BitVec.ofNat 10 (fld c.w1 23 10), vc := BitVec.ofNat 2 (fld c.w1 33 2), sflow := BitVec.ofNat 11 q }
    (d.setTile t (x.setQc q { c1 with w3 := setFld c1.w3 0 32 (min (fld c1.w3 0 32 + 1) (2 ^ 32 - 1)) })).tileSend t (fld c.w1 48 16) a k
      (chunks251 (ws.length + 1) (hd :: ws))

/-- Whether an item of the TX contexts of tile `t` is in sending: a packet of it waits for the replay window or has not left the
tile's router (06 R153, 10 R257). `q` restricts to one context. -/
def Dev.sending (d : Dev) (t : Nat) (q : Option Nat) : Bool :=
  let mine (p : Packet) : Bool := decide (p.kind = 0) && decide (p.srctile.toNat = t) &&
    (match q with | some q => decide (p.sflow.toNat = q) | none => true)
  (d.tile t).txWait.any (fun e => mine e.2) || d.flying.any fun f => decide (f.node = t) && decide (f.inp = 4) && mine f.pkt

/-- Sends the shadow records of tile `t` to its buddy through a route (08 R222): flow 1,024, a packet for each record. With no route loaded they are
discarded. -/
def Dev.sendShadow (d : Dev) (t : Nat) (recs : List ShadowRec) : Dev :=
  let rt := fld ((d.tile t).reg Reg.WVL_SHADOW) 16 16
  match d.routeAlt rt with
  | none => d.modTile t fun x => x.count Reg.MESH_RPT_MISS recs.length
  | some a => d.tileSend t rt a { packet0 with dtile := BitVec.ofNat 11 t, vc := 3, kind := 3, sflow := 1024 } (recs.map ShadowRec.words)

/-! ### Device units (12 R295, R300, R302) -/

/-- Sends one packet of a device unit through a route: gateway 0 takes it, and a copy is held while it crosses ports (logs 46, 111). With no route
loaded it is discarded (09 R234). -/
def Dev.unitSend (d : Dev) (route : Nat) (kind : BitVec 4) (vc : BitVec 2) (sflow : Nat) (ws : List W128) : Dev :=
  match d.routeAlt route with
  | none => d
  | some a =>
    let p := (({ packet0 with dtile := 0x7FF, regtag := 0x7F, vc := vc, kind := kind, srcdev := d.id, srctile := 0x7FF, sflow := BitVec.ofNat 11 sflow } : Packet).onRoute
      (d.route route).ddev a).withWords ws
    if a.hops = 0 then d.accepted (p.sealed false)
    else
      let seq := SMap.get (fun _ => (0 : W32)) d.unitSeq sflow
      let p := { p with flowseq := seq }
      let floor := match d.unitHeld.find? fun h => decide (h.key = p.flow) with | some h => h.seq | none => seq
      let p := ({ p with ackfloor := floor } : Packet).sealed false
      ({ d with
        unitSeq := SMap.set (fun _ => (0 : W32)) d.unitSeq sflow (seq + 1)
        unitHeld := d.unitHeld ++ [⟨p.flow, seq, route, p, [], d.now⟩] } : Dev).unitOut p

/-- The first packet of a kind that waits for a unit, or for a tile's own unit, and satisfies a test (log 44). -/
def Dev.unitPkt (d : Dev) (t : Nat) (kind : BitVec 4) (f : Packet → Bool) : Option Packet :=
  (d.unitIn.find? fun e => decide (e.1 = t) && decide (e.2.kind = kind) && f e.2).map (·.2)

/-- Takes a packet from a unit. -/
def Dev.unitTake (d : Dev) (t : Nat) (k : Packet) : Dev := { d with unitIn := d.unitIn.erase (t, k) }

end Sys2Proof.Machine
end

