-- ==== Sys2Proof/Machine/CicOps.lean ====
section
/-! DEFINITION. The Cicada ring as other units use it (13): status bits, sending frames, barriers, HOLDOVER, the
frequency switch a unit arms. -/

namespace Sys2Proof

open Machine

/-! ### The frame (13 Table 13.2) -/

/-- TYPE. -/
def RingFrame.type (fr : RingFrame) : Byte := fr.bytes.getD 0 0
/-- SRC. -/
def RingFrame.src (fr : RingFrame) : BitVec 12 := BitVec.ofNat 12 (rdNat fr.bytes 1 2)
/-- FID. -/
def RingFrame.fid (fr : RingFrame) : Byte := fr.bytes.getD 3 0
/-- HOPS. -/
def RingFrame.hops (fr : RingFrame) : Nat := rdNat fr.bytes 4 2 % 1024
/-- PAYLOAD: bytes 6 to 21. -/
def RingFrame.payload (fr : RingFrame) : List Byte := slice fr.bytes 6 16

/-- The CRC-16 of bytes 0 to 21 (13 R312). -/
def Machine.ringCrc (b : List Byte) : Nat := crcMsb 16 0x1021 0xFFFF (slice b 0 22)

/-- Whether the CRC of a frame checks. -/
def RingFrame.crcOk (fr : RingFrame) : Bool := decide (rdNat fr.bytes 22 2 = ringCrc fr.bytes)

end Sys2Proof

namespace Sys2Proof.Machine

/-- Bit `i` of CIC_STATUS: 0 JOINED, 1 TLOCK, 2 MASTER, 3 HOLDOVER. -/
def Dev.cicBit (d : Dev) (i : Nat) : Bool := bit (d.reg Reg.CIC_STATUS) i

/-- Sets or clears bit `i` of CIC_STATUS. -/
def Dev.setCicBit (d : Dev) (i : Nat) (b : Bool) : Dev := d.modReg Reg.CIC_STATUS fun v => putBit v i b

/-- Sets bit `i` of CIC_ERR. -/
def Dev.cicErr (d : Dev) (i : Nat) : Dev := d.modReg Reg.CIC_ERR fun v => setBit v i

/-- Ring frame types (13 Table 13.3). -/
abbrev ftMARK : Byte := 1
abbrev ftFREQ : Byte := 2
abbrev ftBARRIER : Byte := 3
abbrev ftFAULT : Byte := 4
abbrev ftJOIN_AT : Byte := 5
abbrev ftLEAVE_AT : Byte := 6
abbrev ftMEASURE_AT : Byte := 7
abbrev ftMASTER : Byte := 8

/-- A frame of 22 bytes with its CRC; `flip` complements it (13 R313). -/
def ringSeal (b : List Byte) (flip : Bool) : RingFrame :=
  ⟨slice b 0 22 ++ leBytes 2 (if flip then 0xFFFF - ringCrc b else ringCrc b)⟩

/-- A frame of a device: TYPE, SRC, FID, HOPS 0 and the payload, with its CRC. -/
def ringFrame (type : Byte) (src : BitVec 12) (fid : Byte) (payload : List Byte) : RingFrame :=
  ringSeal (type :: leBytes 2 src.toNat ++ fid :: leBytes 2 0 ++ slice payload 0 16) false

/-- Nanoseconds since reset, whatever the counter is set to (log 101). -/
def Dev.elapsed (d : Dev) : Nat := d.cic.ns

/-- No frame may be sent now (13 R314, R317). -/
def Dev.ringQuiet (d : Dev) : Bool := d.cic.quiet.any fun q => decide (q.1 ≤ d.now) && decide (d.now < q.2)

/-- Adds a quiet interval; intervals that are over are forgotten. -/
def Dev.addQuiet (d : Dev) (a b : Nat) : Dev :=
  { d with cic := { d.cic with quiet := (d.cic.quiet.filter fun q => decide (d.now < q.2)) ++ [(a, b)] } }

/-- Sends a frame on SYNC_OUT: only while the bypass is open, and only for the authority (13 R311, 16 R367). -/
def Dev.transmit (d : Dev) (fr : RingFrame) : Dev :=
  if d.cicBit 0 && d.authority then d.emit (.ring fr) else d

/-- Sends a frame of this device with its two further copies (13 R313). In a quiet interval all three copies wait. -/
def Dev.sendFrame (d : Dev) (type : Byte) (payload : List Byte) : Dev :=
  let fr := ringFrame type d.id d.cic.fid payload
  let d1 := if d.ringQuiet then d else d.transmit fr
  let n := if d.ringQuiet then 3 else 2
  { d1 with cic := { d1.cic with fid := d.cic.fid + 1, copies := d.cic.copies ++ [(fr, n)] } }

/-- The payload of a FAULT frame (15 Table 15.3). -/
def faultPayload (cls action : Nat) (subject : BitVec 12) (group : Nat) (recid : W32) (loc restart : Nat) : List Byte :=
  leBytes 1 cls ++ leBytes 1 action ++ leBytes 2 subject.toNat ++ leBytes 2 group ++ leBytes 4 recid.toNat ++
  leBytes 2 loc ++ leBytes 1 restart ++ leBytes 3 0

/-- A measurement window from `t`: nothing is sent for 4 µs (13 R314). -/
def Dev.planWindow (d : Dev) (t : Nat) : Dev := ({ d with cic := { d.cic with tW := some t } } : Dev).addQuiet t (t + 4000)

/-- The master asks for a measurement window from `t`, at least 20 µs ahead (13 R314). -/
def Dev.askWindow (d : Dev) (t : Nat) : Dev := (d.sendFrame ftMEASURE_AT (leBytes 8 t)).planWindow t

/-- A time 20 µs ahead, for frames that need that lead. -/
def Dev.lead20 (d : Dev) : Nat := d.now + 20000

/-- A FAULT frame of class RING with ACTION NOTICE: it asks for a measurement (13 R314). -/
def Dev.ringNotice (d : Dev) (subject : BitVec 12) (recid : W32) : Dev :=
  d.sendFrame ftFAULT (faultPayload 7 0 subject 0 recid 0 0)

/-- An error of the ring class (15 Table 15.1): its RING record, and a measurement window, which the master asks for itself and every other
device by a frame of the ring class (log 102). -/
def Dev.ringFault (d : Dev) : Dev :=
  let d := d.record (errBase 7 8 St.RING_FAULT)
  if d.cicBit 0 && d.cicBit 2 then d.askWindow d.lead20 else d.ringNotice d.id 0

/-- Entering HOLDOVER (13 R315): a RING record and a FAULT frame of the ring class. -/
def Dev.enterHoldover (d : Dev) (err : Nat) : Dev :=
  let d := (d.cicErr err).setCicBit 3 true
  let d := { d with cic := { d.cic with measured := false, good := 0, badm := 0 } }
  (d.record (errBase 7 8 St.RING_FAULT)).ringNotice d.id 0

/-! ### Barriers (13 R319) -/

/-- Entry of the barrier table that holds an ID. -/
def Dev.barEntry (d : Dev) (id : Nat) : Option Nat :=
  (List.range 16).find? fun k => decide (fld (d.reg (Reg.CIC_BAR + 8 * k)) 0 32 = id)

/-- Records an arrival at a barrier; an ID of 0 is invalid. -/
def Dev.barArrive (d : Dev) (id : Nat) : Dev :=
  if id = 0 then d
  else match d.barEntry id with
    | some k => d.modReg (Reg.CIC_BAR + 8 * k) fun v => addCnt v 44 12 1
    | none =>
      match d.barEntry 0 with
      | some k => d.setReg (Reg.CIC_BAR + 8 * k) (BitVec.ofNat 64 (id + 2 ^ 44))
      | none => d.cicErr 5

/-- Whether a barrier has been reached. -/
def Dev.barReached (d : Dev) (id : Nat) : Bool :=
  decide (id ≠ 0) && match d.barEntry id with
  | some k => let v := d.reg (Reg.CIC_BAR + 8 * k); decide (fld v 32 12 ≠ 0) && decide (fld v 44 12 ≥ fld v 32 12)
  | none => false

/-- A region reports its arrival: it sends BARRIER, and the device counts the arrival when the frame is sent, which a quiet interval delays
(FRAME_COPY_SEND). -/
def Dev.barReport (d : Dev) (id : W32) (r : Nat) : Dev :=
  let d' := d.sendFrame ftBARRIER (leBytes 4 id.toNat ++ leBytes 1 r)
  if d.ringQuiet then d' else d'.barArrive id.toNat

/-! ### Frequency switches (13 R322, 14 R331) -/

/-- The current frequency code. -/
def Dev.freqCode (d : Dev) : Nat := fld (d.reg Reg.CIC_STATUS) 32 6

/-- Arms a switch at a time. A newer request replaces an armed one, and PWR_STATUS.SLOW says whether a SLOW switch is armed or in force. -/
def Dev.armFsw (d : Dev) (t code : Nat) (by_ : FswBy) : Dev :=
  let d := { d with cic := { d.cic with fsw := some (t, code), fswBy := by_ } }
  (d.modReg Reg.CIC_FSW fun v => setBit v 7).modReg Reg.PWR_STATUS fun v => putBit v 4 (decide (by_ = .slow) || d.pwr.slowInForce)

/-- The next synchronised count named now (14 R329): a multiple of 1,048,576 ns at least 50 µs ahead. -/
def Dev.nextSync (d : Dev) : Nat := cdiv (d.now + 50000) 1048576 * 1048576

end Sys2Proof.Machine
end

