-- ==== Sys2Proof/Machine/HiveOps.lean ====
section
/-! DEFINITION. The mailboxes as host commands use them (16 R372 to R376): states, message areas, the parameters that a message holds, the
start of a command and its reply. -/

namespace Sys2Proof.Machine

/-- State of mailbox `m`: 0 FREE, 1 POSTED, 2 RUNNING, 3 DONE (16 HIVE_MBOXST). -/
def Dev.mbState (d : Dev) (m : Nat) : Nat := fld (d.reg Reg.HIVE_MBOXST) (2 * m) 2

/-- Gives mailbox `m` a state. -/
def Dev.setMbState (d : Dev) (m st : Nat) : Dev := d.modReg Reg.HIVE_MBOXST fun v => setFld v (2 * m) 2 st

/-- `n` bytes of the message area of mailbox `m` as a number. -/
def Dev.mbNat (d : Dev) (m off n : Nat) : Nat := Memory.readNat d.hive.mbox (4096 * m + off) n

/-- OPCODE, REGION, and bits [9:8] of word 3: INDIRECT, NOINTR (16 Table 16.3). -/
def Dev.mbOpcode (d : Dev) (m : Nat) : Nat := d.mbNat m 2 2
def Dev.mbRegion (d : Dev) (m : Nat) : Nat := d.mbNat m 12 1
def Dev.mbIndirect (d : Dev) (m : Nat) : Bool := decide (d.mbNat m 13 1 % 2 = 1)
def Dev.mbNoIntr (d : Dev) (m : Nat) : Bool := decide (d.mbNat m 13 1 / 2 % 2 = 1)

/-- PLEN, and the payload's address under INDIRECT. -/
def Dev.mbPlen (d : Dev) (m : Nat) : Nat := d.mbNat m 8 4
def Dev.mbAddr (d : Dev) (m : Nat) : W64 := BitVec.ofNat 64 (d.mbNat m 32 8)

/-- The payload of mailbox `m`: from byte 32 of the message, or as it was read from host memory. -/
def Dev.mbPayload (d : Dev) (m : Nat) : List Byte :=
  if d.mbIndirect m then ((d.hive.payloads.find? fun e => decide (e.1 = m)).map (·.2)).getD []
  else Memory.readN d.hive.mbox (4096 * m + 32) (d.mbPlen m)

/-- The message of mailbox `m`. -/
def Dev.message (d : Dev) (m : Nat) : Message := ⟨d.mbOpcode m, d.mbRegion m, BitVec.ofNat 32 (d.mbNat m 16 4), d.mbPayload m⟩

/-- Whether the command in mailbox `m` runs and has not begun, and its payload has arrived (17 R392). The authority starts it (16 R376). -/
def Dev.canBegin (d : Dev) (m op : Nat) : Bool :=
  d.authority && decide (d.mbState m = 2) && decide (d.mbOpcode m = op) && !d.hive.began.contains m && !d.hive.noReply.contains m &&
  !d.host.dma.any fun e => match e.2 with | .payload k _ _ => decide (k = m) | _ => false

/-- Whether a host reset met the command of mailbox `m` before it began (17 Table 17.3): it runs to its end without a reply. -/
def Dev.isLate (d : Dev) (m op : Nat) (ok : Message → Bool) : Bool :=
  d.authority && d.hive.late.any fun e => decide (e.1 = m) && decide (e.2.op = op) && ok e.2

/-- A command with opcode `op` that carries the parameters `ok` asks for runs in mailbox `m`: its message holds them (16 R373). -/
def Dev.accepts (d : Dev) (m op : Nat) (ok : Message → Bool) : Bool := (d.canBegin m op && ok (d.message m)) || d.isLate m op ok

/-- The command of mailbox `m` begins. -/
def Dev.begin_ (d : Dev) (m : Nat) : Dev :=
  { d with hive := { d.hive with began := d.hive.began ++ [m], late := d.hive.late.filter fun e => decide (e.1 ≠ m) } }

/-- A host command of mailbox `m` with opcode `op` and parameters that the manual places in the message: it takes place when that command
runs there (log 12). -/
def onHostM (m op : Nat) (ok : Message → Bool) (s : State) (f : Dev → Dev) : Host.Outcome State Fault Refusal :=
  onUnit Config.nMailboxes m s fun d => if d.accepts m op ok then f (d.begin_ m) else d

/-- The same for a command whose parameters the manual places nowhere in the message. -/
def onHost (m op : Nat) (s : State) (f : Dev → Dev) : Host.Outcome State Fault Refusal := onHostM m op (fun _ => true) s f

/-- A host command that names region `r` in its header. -/
def onHostR (m op r : Nat) (s : State) (f : Dev → Dev) : Host.Outcome State Fault Refusal :=
  if r < Config.nRegions then onHostM m op (fun x => decide (x.region = r)) s f else .fault .noSuchUnit

/-! ### Parameters that the manual places (16 R373, R377, 10 Table 10.3, 15 R341, 17 R398, R403) -/

/-- HELLO: the 64-byte payload. -/
def HelloReq.ofBytes (b : List Byte) : HelloReq :=
  ⟨b.getD 0 0, b.getD 1 0, BitVec.ofNat 32 (rdNat b 2 4), BitVec.ofNat 256 (rdNat b 32 32)⟩

/-- RING_CONFIG: the ring descriptor. -/
def RingDesc.ofBytes (b : List Byte) : RingDesc :=
  ⟨b.getD 0 0, b.getD 1 0, b.getD 2 0, b.getD 3 0, BitVec.ofNat 16 (rdNat b 4 2), b.getD 6 0, BitVec.ofNat 64 (rdNat b 8 8),
    BitVec.ofNat 64 (rdNat b 16 8), BitVec.ofNat 64 (rdNat b 24 8), BitVec.ofNat 32 (rdNat b 32 4), BitVec.ofNat 32 (rdNat b 36 4)⟩

/-- SET_PROFILE: PARAM0, and with WRITE bytes 0x04 to 0x0C of a record at their offsets in the 32-byte payload (log 115). -/
def ProfileReq.fits (q : ProfileReq) (x : Message) : Bool :=
  decide (x.param0 = BitVec.ofNat 32 (q.profile.toNat + 2 ^ 8 * q.write.toNat + 2 ^ 9 * q.select.toNat + 2 ^ 10 * q.sel.toNat)) &&
  (!q.write || decide (q.prof = ProfRec.ofRec x.payload))

/-- FLT_GROUP: the PLEN bytes, and bit i of the member set is device i. -/
def groupFits (plen : Nat) (members : BitVec 4096) (x : Message) : Bool :=
  decide (x.payload.length = plen) && (decide (plen ≠ 512) || decide (members = BitVec.ofNat 4096 (leNat x.payload)))

/-- TRACE_CONFIG: the query flag in PARAM0[0]. -/
def queryFits (query : Bool) (x : Message) : Bool := decide (bit x.param0 0 = query)

/-- DEBUG_UNLOCK: the scope in PARAM0[2:0] and the 96-byte signature. -/
def unlockFits (scope : BitVec 3) (sig : List Byte) (x : Message) : Bool := decide (fld x.param0 0 3 = scope.toNat) && decide (x.payload = sig)

/-- Reserved bits set in PARAM0 or in the payload of a command that the manual lays out (16 R374 item 6). -/
def Message.reserved (x : Message) : Bool :=
  match x.op with
  | 0x0100 => decide (rdNat x.payload 6 26 ≠ 0)
  | 0x0400 => decide (rdNat x.payload 6 2 / 2 ≠ 0) || decide (rdNat x.payload 40 24 ≠ 0)
  | 0x0600 => decide (fld x.param0 18 14 ≠ 0) || (bit x.param0 8 && decide (rdNat x.payload 12 1 / 2 ≠ 0))
  | 0x0704 => decide (fld x.param0 3 29 ≠ 0)
  | _ => false

/-! ### Replies (16 R375) -/

/-- The reply of R375: word 0 and TAG stay, then STATUS, DETAIL, RLEN, words 5 to 7 and the data; the bytes after them read
as zero. At most 4,064 bytes of data fit. Only the authority replies (R367): without one the mailbox stays RUNNING. A command whose mailbox a host reset freed ends without a reply (17 Table 17.3). -/
def Dev.replyFull (d : Dev) (m : Nat) (st : W16) (detail : W32) (w57 : List W32) (data : List Byte) : Dev :=
  let gone (l : List Nat) : List Nat := l.filter fun i => decide (i ≠ m)
  let d0 := { d with hive := { d.hive with
    began := gone d.hive.began, noReply := gone d.hive.noReply, payloads := d.hive.payloads.filter fun e => decide (e.1 ≠ m) } }
  if d.authority = false then d
  else if d.hive.noReply.contains m then d0
  else if d.mbState m = 2 then
    let data := data.take 4064
    let w (i : Nat) : List Byte := leBytes 4 (w57.getD i 0).toNat
    let bytes := leBytes 4 st.toNat ++ leBytes 4 detail.toNat ++ leBytes 4 data.length ++ w 0 ++ w 1 ++ w 2 ++ data
    let area := Memory.writeN (Memory.clear d0.hive.mbox (4096 * m + 8) 4088) (4096 * m + 8) bytes
    let d1 := ({ d0 with hive := { d0.hive with mbox := area } } : Dev).setMbState m 3
    if d.mbNoIntr m then d1 else d1.irq (2016 + m)
  else d0

/-- A reply with a status alone. -/
def Dev.reply (d : Dev) (m : Nat) (st : W16) : Dev := d.replyFull m st 0 [] []

/-- The items of a list that fit whole into `n` bytes, from the first on. -/
def itemsFit (n : Nat) : List (List Byte) → List (List Byte)
  | [] => []
  | x :: l => if x.length ≤ n then x :: itemsFit (n - x.length) l else []

/-- A reply with a list of items: as many whole items as fit, with their count in DETAIL when some do not (16 R375). -/
def Dev.replyItems (d : Dev) (m : Nat) (w57 : List W32) (items : List (List Byte)) : Dev :=
  let l := itemsFit 4064 items
  d.replyFull m St.OK (if l.length = items.length then 0 else BitVec.ofNat 32 l.length) w57 l.flatten

/-- A reply to a mailbox that may be absent. -/
def Dev.replyOpt (d : Dev) (m : Option Nat) (st : W16) : Dev :=
  match m with
  | some m => d.reply m st
  | none => d

/-- Whether a feature was agreed (16 R377). -/
def Dev.feature (d : Dev) (i : Nat) : Bool := bit d.hive.agreed i

end Sys2Proof.Machine
end

