-- ==== Sys2Proof/Machine/WvlOps.lean ====
section
/-! DEFINITION. Shared operations of the Weevil (08): arena, directories, frame tables, the PTLB, translations,
the pending list and its undoing, the step boundary, the dispatch list, shadow records. -/

namespace Sys2Proof.Machine

/-! ### Configuration (08 R198, R199) -/

def Tile.kvBase (t : Tile) : Nat := fld (t.reg Reg.WVL_CFG) 0 16
def Tile.kvFrames (t : Tile) : Nat := fld (t.reg Reg.WVL_CFG) 16 10
def Tile.kvPosb (t : Tile) : Nat := cnt0 (fld (t.reg Reg.WVL_CFG) 28 12) 4096
def Tile.kvPpp (t : Tile) : Nat := cnt0 (fld (t.reg Reg.WVL_CFG) 40 12) 4096
def Tile.dirBase (t : Tile) : Nat := fld (t.reg Reg.WVL_DIR) 0 16
def Tile.slotBase (t : Tile) : Nat := fld (t.reg Reg.WVL_DIR) 16 16
def Tile.nSlots (t : Tile) : Nat := fld (t.reg Reg.WVL_DIR) 32 16
def Tile.dirLen (t : Tile) : Nat := cnt0 (fld (t.reg Reg.WVL_DIR) 48 12) 4096

/-- Lines of one directory (08 R199). -/
def Tile.dirLines (t : Tile) : Nat := cdiv (16 + 4 * t.dirLen) 64

/-- Bytes of the directory area. -/
def Tile.dirBytes (t : Tile) : Nat := t.nSlots * t.dirLines * 64

/-- Whether the tile's range of directories contains a slot. -/
def Tile.claims (t : Tile) (slot : Nat) : Bool := decide (t.slotBase ≤ slot) && decide (slot < t.slotBase + t.nSlots)

/-- Byte address of the directory of a slot. -/
def Tile.dirAddr (t : Tile) (slot : Nat) : Nat := (t.dirBase + (slot - t.slotBase) * t.dirLines) * 64

/-- Byte address of a frame. -/
def Tile.frameAddr (t : Tile) (f : Nat) : Nat := (t.kvBase + 64 * f) * 64

/-- Home tile of a slot in a region: the lowest index that claims it (08 R201). -/
def Dev.homeOf (d : Dev) (r slot : Nat) : Option Nat := (d.region r).tileList.find? fun t => (d.tile t).claims slot

/-! ### Directory headers and entries (08 Tables 8.1, 8.2) -/

def Tile.clen (t : Tile) (slot : Nat) : Nat := t.spad.readNat (t.dirAddr slot) 4
def Tile.plen (t : Tile) (slot : Nat) : Nat := t.spad.readNat (t.dirAddr slot + 4) 4
def Tile.kvFail (t : Tile) (slot : Nat) : Nat := t.spad.readNat (t.dirAddr slot + 8) 1
def Tile.kvTrunc (t : Tile) (slot : Nat) : Bool := bit (t.spad.read (t.dirAddr slot + 9)) 0
def Tile.pte (t : Tile) (slot n : Nat) : W32 := BitVec.ofNat 32 (t.spad.readNat (t.dirAddr slot + 16 + 4 * n) 4)

def pteV (e : W32) : Bool := bit e 0
def pteShared (e : W32) : Bool := bit e 1
def ptePending (e : W32) : Bool := bit e 2
def pteFrame (e : W32) : Nat := fld e 3 12
def pteTile (e : W32) : Nat := fld e 15 12

/-- The entry of a frame of a tile. -/
def mkPte (shared pending : Bool) (frame tile : Nat) : W32 :=
  BitVec.ofNat 32 (1 + (if shared then 2 else 0) + (if pending then 4 else 0) + frame % 4096 * 8 + tile % 4096 * 2 ^ 15)

/-- Shadow offset, in 16-byte words, of a scratchpad byte in the arena or the directory area (08 R222). -/
def Tile.shadowWord (t : Tile) (a : Nat) : Option Nat :=
  if t.kvBase * 64 ≤ a ∧ a < t.kvBase * 64 + 4096 * t.kvFrames then some ((a - t.kvBase * 64) / 16)
  else if t.dirBase * 64 ≤ a ∧ a < t.dirBase * 64 + t.dirBytes then some ((4096 * t.kvFrames + (a - t.dirBase * 64)) / 16)
  else none

/-- Marks the 16-byte words of a write as written in the step (08 R222). -/
def Tile.markWords (t : Tile) (a n : Nat) : Tile :=
  let ws := (List.range (n / 16 + 2)).filterMap fun i =>
    let x := (a / 16 + i) * 16
    if x < a + n then t.shadowWord x else none
  { t with wvl := { t.wvl with dirty := (t.wvl.dirty ++ ws).eraseDups } }

/-- A Weevil write to the scratchpad. -/
def Tile.kvWrite (t : Tile) (a : Nat) (bs : List Byte) : Tile :=
  (t.spadWrite a bs).markWords a bs.length

/-- CLEN changes: the buddy hears of it by a HEADER record, not by DATA (08 R222, R223). -/
def Tile.setClen (t : Tile) (slot n : Nat) : Tile :=
  let t := t.spadWrite (t.dirAddr slot) (leBytes 4 n)
  { t with wvl := { t.wvl with clenCh := if slot ∈ t.wvl.clenCh then t.wvl.clenCh else t.wvl.clenCh ++ [slot] } }

/-- PLEN, FAIL and TRUNC are zero at every boundary and are not part of the shadow (08 R222). -/
def Tile.setPlen (t : Tile) (slot n : Nat) : Tile := t.spadWrite (t.dirAddr slot + 4) (leBytes 4 n)
def Tile.setFail (t : Tile) (slot c : Nat) : Tile :=
  if t.kvFail slot = 0 then t.spadWrite (t.dirAddr slot + 8) (leBytes 1 c) else t
def Tile.clearPending (t : Tile) (slot : Nat) : Tile := t.spadWrite (t.dirAddr slot + 4) (leBytes 12 0)
def Tile.setTrunc (t : Tile) (slot : Nat) : Tile := t.spadWrite (t.dirAddr slot + 9) [1]
def Tile.setPte (t : Tile) (slot n : Nat) (e : W32) : Tile := t.kvWrite (t.dirAddr slot + 16 + 4 * n) (leBytes 4 e.toNat)

/-! ### The frame table (08 R202) -/

def Tile.ft (t : Tile) (f : Nat) : W32 := SMap.get (fun _ => 0) t.wvl.ft f
def Tile.setFt (t : Tile) (f : Nat) (v : W32) : Tile := { t with wvl := { t.wvl with ft := SMap.set (fun _ => 0) t.wvl.ft f v } }
def ftRef (v : W32) : Nat := fld v 0 8
def ftCwd (v : W32) : Nat := fld v 8 8
def ftState (v : W32) : Nat := fld v 16 2
/-- Frame states: 0 FREE, 1 OWNED, 2 QUARANTINE. -/
def mkFt (ref cwd st : Nat) : W32 := BitVec.ofNat 32 (ref % 256 + cwd % 256 * 256 + st % 4 * 65536)

/-- The lowest-numbered FREE frame. -/
def Tile.freeFrame (t : Tile) : Option Nat := (List.range t.kvFrames).find? fun f => decide (ftState (t.ft f) = 0)

/-- FREE frames of a tile. -/
def Tile.freeFrames (t : Tile) : Nat := (List.range t.kvFrames).countP fun f => decide (ftState (t.ft f) = 0)

/-- No frame of the tile is other than FREE. -/
def Tile.allFree (t : Tile) : Bool := t.wvl.ft.all fun e => decide (ftState e.2 = 0)

/-- Whether the region runs a step. -/
def Region.stepping (x : Region) : Bool := decide (x.phase = .running) || decide (x.phase = .aborted)

/-- A decrement of a frame's REF (08 R210): at zero it enters QUARANTINE while the region runs a step, and is FREE at once
between steps. -/
def Dev.decFrame (d : Dev) (r h f : Nat) : Dev :=
  d.modTile h fun t =>
    let v := t.ft f
    let ref := ftRef v - 1
    t.setFt f (if ref = 0 then mkFt 0 (ftCwd v) (if (d.region r).stepping then 2 else 0) else mkFt ref (ftCwd v) (ftState v))

/-- Whether an entry names a frame its holder has in use (08 R205). `quarOk` lets a quarantined frame pass (R212). -/
def Dev.frameOk (d : Dev) (r : Nat) (e : W32) (quarOk : Bool) : Bool :=
  let h := pteTile e
  let st := ftState ((d.tile h).ft (pteFrame e))
  (d.region r).holds h && decide (h < Config.nTiles) && decide (pteFrame e < (d.tile h).kvFrames) &&
  decide (st ≠ 0) && (quarOk || decide (st ≠ 2))

/-! ### The PTLB (08 R213), most recently used first -/

def Tile.ptlbFind (t : Tile) (slot page : Nat) : Option PtlbEnt :=
  t.wvl.ptlb.find? fun e => decide (e.slot = slot) && decide (e.page = page)
def Tile.ptlbDrop (t : Tile) (p : PtlbEnt → Bool) : Tile := { t with wvl := { t.wvl with ptlb := t.wvl.ptlb.filter fun e => !p e } }
def Tile.ptlbInv (t : Tile) (slot page : Nat) : Tile := t.ptlbDrop fun e => decide (e.slot = slot) && decide (e.page = page)
def Tile.ptlbInvSlot (t : Tile) (slot : Nat) : Tile := t.ptlbDrop fun e => decide (e.slot = slot)
/-- Puts an entry at the head; the least recently used of 65 leaves. -/
def Tile.ptlbUse (t : Tile) (e : PtlbEnt) : Tile :=
  let t := t.ptlbInv e.slot e.page
  { t with wvl := { t.wvl with ptlb := (e :: t.wvl.ptlb).take 64 } }

/-- Translates position `p` of a slot for a fetch of tile `t` (08 R212): the entry, or none for a position that faults. -/
def Dev.translate (d : Dev) (r t slot p : Nat) : Dev × Option W32 :=
  let x := d.tile t
  let page := p / x.kvPpp
  match (x.ptlbFind slot page).filter fun e => decide (p < e.clen) with
  | some e => (d.setTile t (x.ptlbUse e), if d.frameOk r e.pte true then some e.pte else none)
  | none =>
    let d := d.modTile t fun x => x.count Reg.WVL_MISS 1
    match d.homeOf r slot with
    | none => (d, none)
    | some h =>
      let y := d.tile h
      if page ≥ y.dirLen then (d, none)
      else
        let e := y.pte slot page
        if pteV e then
          let d := d.modTile t fun x => x.ptlbUse ⟨slot, page, e, y.clen slot⟩
          if p < y.clen slot + y.plen slot ∧ d.frameOk r e true = true then (d, some e) else (d, none)
        else (d, none)

/-! ### Undoing and committing (08 R217, R218) -/

/-- Undoes one pending list entry of tile `t`. -/
def Dev.undoPend (d : Dev) (t : Nat) (p : PendEnt) : Dev :=
  let d := d.modTile t fun x => x.setPte p.slot p.page p.old
  let d := match p.alloc with
    | some f => d.modTile t fun x => x.setFt f 0
    | none => d
  match p.cow with
  | some (h, f) => d.modTile h fun x =>
      let v := x.ft f
      x.setFt f (mkFt (ftRef v + 1) (ftCwd v - 1) (if ftState v = 2 then 1 else ftState v))
  | none => d

/-- Undoes the entries of a list, last first. -/
def Dev.undoPends (d : Dev) (t : Nat) (ps : List PendEnt) : Dev := ps.reverse.foldl (fun d p => d.undoPend t p) d

/-- Slots whose directories lie on a tile. -/
def Tile.slotsHere (t : Tile) : List Nat := (List.range t.nSlots).map fun i => t.slotBase + i

/-- Slots of a tile whose directory header holds something pending: only a nonzero header can. -/
def Tile.touched (t : Tile) : List Nat := t.slotsHere.filter fun s => t.spad.readNat (t.dirAddr s + 4) 6 ≠ 0

/-- The Weevil of tile `t` at an abort (08 R218). -/
def Dev.wvlAbort (d : Dev) (t : Nat) : Dev :=
  let d := d.undoPends t (d.tile t).wvl.pend
  d.modTile t fun x =>
    let x := x.touched.foldl (fun x s => x.clearPending s) x
    { x with wvl := { x.wvl with pend := [], fq := [], ptlb := [], cursor := [], appendQ := [], claimOut := 0, claimCtr := 0, dirty := [], clenCh := [] } }

/-- The Weevil of tile `t` at the step boundary (08 R217, items 1 to 5). -/
def Dev.wvlCommit (d : Dev) (t : Nat) : Dev :=
  let x := d.tile t
  let bad := x.wvl.pend.filter fun p => decide (x.kvFail p.slot ≠ 0)
  let good := x.wvl.pend.filter fun p => decide (x.kvFail p.slot = 0)
  let d := d.undoPends t bad
  let d := d.modTile t fun x =>
    let x := x.touched.foldl (fun x s => if x.kvFail s = 0 ∧ x.plen s ≠ 0 then x.setClen s (x.clen s + x.plen s) else x) x
    let x := good.foldl (fun x p => x.setPte p.slot p.page (clrBit (x.pte p.slot p.page) 2)) x
    let x := x.touched.foldl (fun x s => x.clearPending s) x
    { x with wvl := { x.wvl with pend := [], ptlb := [] } }
  d

/-- End of the boundary for frame tables (08 R217 items 2 and 4), after every tile's undoing: CWD becomes zero, and
QUARANTINE frames and frames whose REF is zero become FREE. -/
def Tile.ftCommit (t : Tile) : Tile :=
  t.wvl.ft.foldl (fun t e =>
    let v := e.2
    t.setFt e.1 (if ftState v = 2 ∨ ftRef v = 0 then mkFt (ftRef v) 0 0 else mkFt (ftRef v) 0 (ftState v))) t

/-! ### The dispatch list (08 R219, R220) -/

/-- The attention group of a region, by logical index. -/
def Dev.group (d : Dev) (r : Nat) : List Nat := (d.region r).tileList.filter fun t => bit ((d.tile t).reg Reg.WVL_DCFG) 0

/-- Position of a tile in a list. -/
def posOf (t : Nat) (l : List Nat) : Nat := l.findIdx fun x => decide (x = t)

/-- Order of sequences in the dispatch list: L descending, then SLOT ascending. -/
def unitLe (a b : Nat × Nat) : Bool := decide (b.2 < a.2) || (decide (a.2 = b.2) && decide (a.1 ≤ b.1))

/-- Insertion in that order. -/
def unitIns (a : Nat × Nat) : List (Nat × Nat) → List (Nat × Nat)
  | [] => [a]
  | b :: l => if unitLe a b then a :: b :: l else b :: unitIns a l

/-- The units of a ragged table (08 R219): slot, chunk, L. -/
def dispatchUnits (rag : List (BitVec 128)) (unit : Nat) : List (Nat × Nat × Nat) :=
  let seqs := (rag.filter fun e => decide (fld e 90 6 = 0)).map fun e => (fld e 0 16, fld e 32 32 + cnt0 (fld e 64 12) 4096)
  (seqs.foldr unitIns []).flatMap fun s => (List.range (cdiv s.2 unit)).map fun k => (s.1, k, s.2)

/-! ### Shadow records (08 R222) -/

/-- Runs of consecutive numbers of a sorted list, at most 4,096 long. -/
def runs : List Nat → List (Nat × Nat)
  | [] => []
  | a :: l =>
    match runs l with
    | (b, n) :: rs => if a + 1 = b ∧ n < 250 then (a, n + 1) :: rs else (a, 1) :: (b, n) :: rs
    | [] => [(a, 1)]

/-- Insertion into a rising list. -/
def natIns (a : Nat) : List Nat → List Nat
  | [] => [a]
  | b :: l => if a ≤ b then a :: b :: l else b :: natIns a l

/-- Scratchpad byte of a shadow word. -/
def Tile.unshadow (t : Tile) (w : Nat) : Nat :=
  if w * 16 < 4096 * t.kvFrames then t.kvBase * 64 + w * 16 else t.dirBase * 64 + (w * 16 - 4096 * t.kvFrames)

/-- DATA records of the marked words, then a HEADER for each changed CLEN (08 R222, Table 8.7). -/
def Tile.shadowRecs (t : Tile) : List ShadowRec :=
  let data := (runs (t.wvl.dirty.foldr natIns [])).map fun r =>
    (⟨0, BitVec.ofNat 12 r.2, BitVec.ofNat 32 (r.1 * 16), 0, (List.range r.2).flatMap fun i => t.spad.readN (t.unshadow (r.1 + i)) 16⟩ : ShadowRec)
  let hdr := t.wvl.clenCh.map fun s =>
    (⟨1, 0, BitVec.ofNat 32 (4096 * t.kvFrames + (t.dirAddr s - t.dirBase * 64)), BitVec.ofNat 64 (t.clen s), []⟩ : ShadowRec)
  data ++ hdr

/-- Every word of the arena and the directory area but for the directory headers, which HEADER records carry. -/
def Tile.allShadow (t : Tile) : List Nat :=
  (List.range ((4096 * t.kvFrames + t.dirBytes) / 16)).filter fun w => decide (w < 256 * t.kvFrames) || decide ((w - 256 * t.kvFrames) % (4 * t.dirLines) ≠ 0)

/-- Queues the shadow records of a tile after a boundary (08 R222): END carries the step. -/
def Tile.shadowEnd (t : Tile) (step : W64) : Tile :=
  if bit (t.reg Reg.WVL_SHADOW) 0 then
    let t := if t.wvl.shWhole then { t with wvl := { t.wvl with dirty := t.allShadow, clenCh := t.slotsHere } } else t
    { t with wvl := { t.wvl with
        shadowQ := t.wvl.shadowQ ++ t.shadowRecs ++ [⟨2, 0, 0, step, []⟩]
        dirty := [], clenCh := [], shWhole := false, shStep := step.toNat } }
  else { t with wvl := { t.wvl with dirty := [], clenCh := [] } }

/-- What a tile has marked so far is kept aside while a KV command acts on it. -/
def Tile.shadowAside (t : Tile) : Tile := { t with wvl := { t.wvl with dirty := [], clenCh := [] } }

/-- Queues the records of a KV command's changes at once, whatever step is running (08 R222); `old` is the tile before the
command, whose own marks stand. -/
def Tile.shadowNow (t old : Tile) : Tile :=
  { t with wvl := { t.wvl with
      shadowQ := if bit (t.reg Reg.WVL_SHADOW) 0 then t.wvl.shadowQ ++ t.shadowRecs else t.wvl.shadowQ
      dirty := old.wvl.dirty, clenCh := old.wvl.clenCh } }

end Sys2Proof.Machine
end

