-- ==== Sys2Proof/Machine/ServOps.lean ====
section
/-! DEFINITION. The step sequencer as other units use it (10): host rings, step completions, the end of a step,
held cancels and stops. -/

namespace Sys2Proof.Machine

/-! ### Host rings (10 R242 to R244, 17 R391) -/

/-- The pair of a kind bound to region `r`. -/
def Dev.pairOf (d : Dev) (r kind : Nat) : Option Nat :=
  (d.rings.find? fun e => decide (e.2.d.kind.toNat = kind) && decide (e.2.d.region.toNat = r)).map (·.1)

/-- Ring kinds (10 Table 10.2). -/
abbrev rkSTEP : Nat := 1
abbrev rkINGRESS : Nat := 2
abbrev rkEGRESS : Nat := 3

/-- Entries of each direction. -/
def Ring.h2dSize (g : Ring) : Nat := 2 ^ g.d.h2dLog2.toNat
def Ring.d2hSize (g : Ring) : Nat := 2 ^ g.d.d2hLog2.toNat

/-- Entries the host has posted that are not consumed. -/
def Ring.posted (g : Ring) : Nat := (g.h2dProd - g.h2dCons).toNat

/-- The device may write its next D2H entry (10 R244). -/
def Ring.room (g : Ring) : Bool := decide ((g.d2hProd - g.d2hCons).toNat < g.d2hSize)

/-- A ring's message, after which IMOD ns pass before the next one (10 Table 10.3). -/
def Dev.ringMessage (d : Dev) (p : Nat) : Dev :=
  let g := d.ring p
  (d.setRing p { g with irq := 0, irqAt := d.elapsed + g.d.imod.toNat }).irq g.d.vector.toNat

/-- The interrupt of one D2H entry: at once once IMOD ns have passed since the last message, else merged (17 R391). -/
def Dev.ringIrq (d : Dev) (p : Nat) : Dev :=
  let g := d.ring p
  if g.d.vector.toNat ≥ 2048 then d
  else if g.irqAt ≤ d.elapsed then d.ringMessage p
  else d.setRing p { g with irq := g.irq + 1 }

/-- Writes the next D2H entry of 32 bytes: PHASE in bit 7 of its last byte, then the producer index, then the interrupt. -/
def Dev.d2hPut (d : Dev) (p : Nat) (bytes : List Byte) : Dev :=
  let g := d.ring p
  let i := g.d2hProd.toNat
  let phase := (i / g.d2hSize + 1) % 2
  let d := d.emit (.dmaWrite (g.d.d2hBase.toNat + 32 * (i % g.d2hSize)) (slice bytes 0 31 ++ [BitVec.ofNat 8 (128 * phase)]))
  let d := d.setRing p { g with d2hProd := g.d2hProd + 1 }
  (d.emit (.dmaWrite (g.d.idxAddr.toNat + 4) (leBytes 4 (i + 1)))).ringIrq p

/-- Consumes `n` H2D entries and writes the consumer index. -/
def Dev.h2dTake (d : Dev) (p n : Nat) : Dev :=
  let g := d.ring p
  let c := g.h2dCons + BitVec.ofNat 32 n
  (d.setRing p { g with h2dCons := c }).emit (.dmaWrite g.d.idxAddr.toNat (leBytes 4 c.toNat))

/-- Consumes entries of the pair of a kind, if one is bound. -/
def Dev.h2dTakeOf (d : Dev) (r kind n : Nat) : Dev :=
  if n = 0 then d else match d.pairOf r kind with
  | some p => d.h2dTake p n
  | none => d

/-! ### Step completions (10 Table 10.9) -/

/-- The first 31 bytes of a step completion. EXCL and TDC are those of the last committed step (log 36). -/
def Dev.completion (d : Dev) (r : Nat) (step : W64) (status : W16) (reruns : Nat) (usertag : W32) (nmasked ntok course : Nat) : List Byte :=
  leBytes 8 step.toNat ++ leBytes 2 status.toNat ++ leBytes 1 reruns ++ leBytes 1 (fld (d.reg (Reg.SRV_EXCL + 8 * r)) 0 7) ++
  leBytes 4 usertag.toNat ++ leBytes 4 nmasked ++ leBytes 4 (fld (d.reg (Reg.SRV_TDC + 8 * r)) 0 32) ++ leBytes 4 ntok ++
  leBytes 1 course ++ [0, 0]

/-- Descriptors fetched ahead are forgotten, with a fetch that failed. -/
def Dev.unfetch (d : Dev) (r : Nat) : Dev :=
  { d.modRegion r fun x => { x with fetched := none } with
    host := { d.host with dma := d.host.dma.filter fun e => decide (e.2 ≠ .stepBad r) } }

/-- Sends mailbox replies. -/
def Dev.sendReplies (d : Dev) (vs : List (Nat × W16)) : Dev := vs.foldl (fun d v => d.reply v.1 v.2) d

/-- Items 5 and 6 of a boundary (10 R258): the consumed entries, the completion, the replies that waited for it, the barrier, HELD. -/
def Dev.finishStep (d : Dev) (r : Nat) (f : Finish) : Dev :=
  let d := d.h2dTakeOf r rkINGRESS f.ning
  let d := d.h2dTakeOf r rkSTEP 1
  let d := match d.pairOf r rkSTEP with
    | some p => if f.write then d.d2hPut p f.bytes else d
    | none => d
  let d := d.sendReplies f.replies
  let d := if f.barOut then d.barReport f.barrier r else d
  if f.hold ∧ (d.region r).st = .running then (d.unfetch r).modRegion r fun x => { x with st := .held } else d

/-- Whether the STEP ring takes a completion now. -/
def Dev.stepRoom (d : Dev) (r : Nat) : Bool :=
  match d.pairOf r rkSTEP with
  | some p => (d.ring p).room
  | none => true

/-- Performs the finishes that wait, in order, once the token records are written and the STEP ring has room. -/
def Dev.runFinsAux (r : Nat) : Nat → Dev → Dev
  | 0, d => d
  | n + 1, d =>
    let x := d.region r
    match x.fins with
    | [] => d
    | f :: rest =>
      if x.toks = [] ∧ (f.write = false ∨ d.stepRoom r = true) then
        Dev.runFinsAux r n ((d.setRegion r { x with fins := rest }).finishStep r f)
      else d

def Dev.runFins (d : Dev) (r : Nat) : Dev := Dev.runFinsAux r (d.region r).fins.length d

/-! ### Cancels and stops (10 R264, R265) -/

/-- A cancel when no step in progress names the slot, with its reply (10 R264, first case). -/
def Dev.cancelSlot (d : Dev) (slot : Nat) : Dev × W16 :=
  let s := d.slot slot
  if s.st = .complete then (d, St.ALREADY_COMPLETE) else (d.setSlot slot { s with st := .cancelled }, St.OK)

def Dev.cancelNow (d : Dev) (m slot : Nat) : Dev := match d.cancelSlot slot with | (d, st) => d.reply m st

/-- Decides the held cancels of a region, with their replies still to send. -/
def Dev.decideCancels (d : Dev) (r : Nat) : Dev × List (Nat × W16) :=
  (d.region r).cancels.foldl (fun s c => match s.1.cancelSlot c.2 with | (d, st) => (d, s.2 ++ [(c.1, st)]))
    (d.modRegion r fun x => { x with cancels := [] }, [])

/-- The region is STOPPED: descriptors fetched ahead are not consumed. The replies of waiting REGION_STOPs are still to send. -/
def Dev.stopped (d : Dev) (r : Nat) : Dev × List (Nat × W16) :=
  ((d.unfetch r).modRegion r fun x => { x with st := .stopped, stopM := [] }, (d.region r).stopM.map fun m => (m, St.OK))

/-- The region enters STOPPED, and waiting REGION_STOPs are answered. -/
def Dev.enterStopped (d : Dev) (r : Nat) : Dev := match d.stopped r with | (d, vs) => d.sendReplies vs

/-- A region that leaves the swaps that name it (07 R192). -/
def Dev.swapLeave (d : Dev) (r : Nat) : Dev :=
  { d with wt := { d.wt with swaps := d.wt.swaps.map fun w => if bit w.mask r then { w with left := setBit w.left r } else w } }

/-- The region enters FAULT (10 Table 10.1, 07 R192). -/
def Dev.toFault (d : Dev) (r : Nat) : Dev := ((d.unfetch r).modRegion r fun x => { x with st := .fault }).swapLeave r

/-! ### The end of a step without commit (10 R254, R264, R266) -/

/-- The step in progress of region `r` ends without commit with a status: its reservations are released, its descriptor and
ingress records consumed, its completion written, held cancels decided (10 R254, R264). -/
def Dev.endStep (d : Dev) (r : Nat) (status : W16) : Dev :=
  let x := d.region r
  match x.adm with
  | none => d
  | some a =>
    let bytes := d.completion r a.inp.step status x.rerun a.inp.usertag a.nmasked 0 a.course
    let d := d.setRegion r { x with
      adm := none, phase := .idle, rerun := 0
      fins := x.fins ++ [⟨bytes, false, [], true, a.inp.ning.toNat, false, 0, false⟩] }
    match d.decideCancels r with | (d, vs) => (d.sendReplies vs).runFins r

end Sys2Proof.Machine
end

