-- ==== Sys2Proof/Machine/Abort.lean ====
section
/-! DEFINITION. The abort point (04 R108, 03 R73, 05 R130, 06 R156, R157, 08 R218, 11 R287): what a tile and a region
do when a step aborts for rerun, ends without rerun, or is aborted by the host. -/

namespace Sys2Proof.Machine

/-- The store buffer drains in program order (04 R85). -/
def Tile.drainStores (t : Tile) : Tile :=
  { t with
    dmem := t.scb.sbuf.foldl (fun m e => m.writeN e.addr e.bytes) t.dmem
    scb := { t.scb with sbuf := [] } }

/-- An AG at an abort: no tickets, no pending program, its current program from POS 0 (04 R108 item 4). -/
def Ag.abort (g : Ag) : Ag := { g with tickets := [], pending := none, pos := 0, exh := false, stopped := false, resid := [] }

/-- The Scarab at an abort (04 R108): it waits for the next STEP_START. One in FAULT leaves that state only under
REGION_ABORT (04 R106). -/
def Scarab.abort (s : Scarab) (region : Bool) : Scarab :=
  { s with
    inTrap := false, pend := [], stall := .none
    mode := if s.mode = .fault ∧ region = false then .fault else .wait }

/-- The arrays, the vector engine, the AGs and the Scarab of a tile at an abort. `c` numbers the unspecified contents (log 14). -/
def Tile.coreAbort (t : Tile) (c : Nat) (region : Bool) : Tile :=
  let t := t.drainStores
  let t := (List.range 16).foldl (fun t n => t.setAg n (t.ag n).abort) t
  let t := (List.range 4).foldl (fun t j =>
    t.setArr j { t.arr j with
      wacc := [], rows := [], seed := some (16 * c + j)
      p0 := { Plane.reset with seed := some (16 * c + 4 + j) }, p1 := { Plane.reset with seed := some (16 * c + 8 + j) } }) t
  { t with scb := t.scb.abort region, acwQ := [], vecQ := [], ocache := [], ocSeed := some (16 * c + 12) }

/-- Drops the items that wait at a tile to be sent: the flows go back to the first FLOWSEQ dropped. -/
def Tile.dropTx (t : Tile) : Tile :=
  let item (e : Nat × Packet) : Bool := decide (e.2.kind = 0)
  { t with
    txWait := t.txWait.filter fun e => !item e
    flowSeq := (t.txWait.filter item).foldr (fun e m =>
      if e.2.hops = 0 then m else SMap.set (fun _ => (0 : W32)) m e.2.sflow.toNat e.2.flowseq) t.flowSeq }

/-- A queue context at an abort for rerun (06 R156). -/
def QCtx.rerun (q : QCtx) : QCtx :=
  if q.tx then { q with w2 := setFld q.w2 0 16 (fld q.w2 16 16) }
  else if q.retain then { q with w1 := setFld q.w1 0 18 (fld q.w1 36 18), taken := 0, last := none }
  else { q with w1 := 0, w2 := setFld q.w2 23 16 (fld q.w2 39 16), w3 := setFld q.w3 24 19 0, items := [], taken := 0, last := none }

/-- A queue context under REGION_ABORT (06 R157): empty, sequences zero, configuration kept. -/
def QCtx.empty (q : QCtx) : QCtx :=
  if q.tx then { q with w2 := 0 }
  else { q with w1 := 0, w2 := setFld (setFld q.w2 23 16 0) 39 16 0, w3 := setFld q.w3 24 19 0, items := [], taken := 0, last := none }

/-- Changes every queue context that is not at its reset value. -/
def Tile.modQctx (t : Tile) (f : QCtx → QCtx) : Tile := t.qctx.foldl (fun t e => t.setQc e.1 (f (t.qc e.1))) t

/-- Queues of a tile at an abort for rerun: entries of contexts that keep nothing close. A retained item that is at the head again can be
taken again, which is an event (06 R152). -/
def Tile.queueRerun (t : Tile) : Tile :=
  let t := t.dropTx
  let t := t.qctx.foldl (fun t e => t.putQc e.1 (t.qc e.1).rerun) t
  { t with reasm := t.reasm.filter fun e => (t.qc e.qid).retain }

/-- Queues of a tile under REGION_ABORT. -/
def Tile.queueEmpty (t : Tile) : Tile := { t.dropTx.modQctx QCtx.empty with reasm := [] }

/-- What queues do at an abort: as for a rerun, as under REGION_ABORT, or nothing (log 37). -/
inductive AbortKind where
  | rerun
  | region
  | plain
deriving DecidableEq, Repr

/-- One tile at the abort point. -/
def Dev.abortTile (d : Dev) (k : AbortKind) (t : Nat) : Dev :=
  let d := (d.modTile t fun x => x.coreAbort d.ctr (decide (k = .region))).drawn
  let d := d.wvlAbort t
  match k with
  | .rerun => d.modTile t Tile.queueRerun
  | .region => d.modTile t Tile.queueEmpty
  | .plain => d

/-- Every tile of region `r` at the abort point. -/
def Dev.abortTiles (d : Dev) (k : AbortKind) (r : Nat) : Dev := (d.region r).tileList.foldl (fun d t => d.abortTile k t) d

/-- The step of region `r` aborts for rerun (01 R18): the rerun starts with STEP_RERUN_START. -/
def Dev.stepRerun (d : Dev) (r : Nat) : Dev := (d.abortTiles .rerun r).modRegion r fun x => { x with phase := .aborted }

/-- The step of region `r` ends without rerun: STEP_FAILED, and the region is in FAULT (10 Table 10.1). With no step in
progress nothing happens. -/
def Dev.stepFail (d : Dev) (r : Nat) : Dev :=
  let x := d.region r
  if x.adm.isNone then d
  else
    let d := if x.phase = .running then d.abortTiles .plain r else d
    (d.toFault r).endStep r St.STEP_FAILED

/-- An error that allows a rerun (01 R18): at most two, then the step ends. -/
def Dev.stepTrouble (d : Dev) (r : Nat) : Dev :=
  if (d.region r).phase = .running then (if (d.region r).rerun < 2 then d.stepRerun r else d.stepFail r) else d

/-- Whether the tile runs a step of its region. -/
def Dev.inStep (d : Dev) (t : Nat) : Option Nat :=
  match d.regionOf t with
  | some r => if (d.region r).phase = .running then some r else none
  | none => none

/-- Discards the packets of region `r` at its routers and at its tiles (10 R266, 11 R287), counted in SRV_ABORTDROP. A packet that is cut so ends at once where
the rest of it had gone: in a router it is discarded, in the relay crossbar completed with a trailer that does not check (log 110). -/
def Dev.dropPackets (d : Dev) (r : Nat) : Dev :=
  let x := d.region r
  let mine (p : Packet) : Bool := decide (p.regtag.toNat = r)
  let here (f : Flight) : Bool := decide (f.node < Config.nTiles) && mine f.pkt && x.holds f.node
  let begun (f : Flight) : Bool := match f.outs with | some l => l.any fun c => decide (0 < c.sent) | none => false
  let n := x.tileList.foldl (fun s t => s + ((d.tile t).localIn.filter mine).length + (d.tile t).txWait.length)
    (d.flying.filter fun f => here f && !begun f).length
  let d := { d with flying := d.flying.filter fun f => !(here f || (decide (f.node < Config.nTiles) && mine f.pkt && !f.pkt.whole)) }
  let d := (List.range Config.nGateways).foldl (fun d g => ([0, 1, 2, 3] : List (BitVec 2)).foldl (fun d v =>
    if d.flying.any fun f => f.at_ relay (16 + g) v && mine f.pkt && !f.pkt.whole then d.relayCut (16 + g) v else d) d) d
  let d := x.tileList.foldl (fun d t => d.modTile t fun y => { y with localIn := y.localIn.filter fun p => !(mine p) }) d
  d.count (Reg.SRV_ABORTDROP + 8 * r) 0 64 n

/-- REGION_ABORT's effect (10 R266) up to the state the region enters. -/
def Dev.regionAbort (d : Dev) (r : Nat) : Dev := ((d.dropPackets r).abortTiles .region r).endStep r St.ABORTED

/-- A recovery abort (15 R343): as REGION_ABORT, but the region enters FAULT; its receive flow entries are freed and its own
flows start again at FLOWSEQ 0. -/
def Dev.recoveryAbort (d : Dev) (r : Nat) : Dev :=
  let d := (d.regionAbort r).toFault r
  let x := d.region r
  let d := { d with rxFlows := d.rxFlows.filter fun f => !(x.holds f.back.dtile.toNat) }
  let d := { d with txFlows := d.txFlows.filter fun f => !(decide (f.key.dev = d.id) && x.holds f.key.tile.toNat) }
  x.tileList.foldl (fun d t => d.modTile t fun y => { y with flowSeq := [], replay := [] }) d

/-! ### Parity of the scratchpad (06 R140, R141) -/

/-- Notes a parity error in SPAD_ERR and SPAD_PARCNT: bit 0 PARITY, 1 HOSTPAR. -/
def Tile.parityNote (t : Tile) (b a : Nat) : Tile :=
  let t := t.modReg Reg.SPAD_ERR fun v =>
    if bit v 0 ∨ bit v 1 then setBit (setBit v b) 2 else setBit (setFld v 32 22 (a / 4 * 4)) b
  t.count Reg.SPAD_PARCNT 1

/-- The site of tile `t` is judged failed (15 R339): TILE_RECOVERY opens its recovery. -/
def Dev.siteDefect (d : Dev) (t : Nat) : Dev :=
  { d with flt := { d.flt with defects := d.flt.defects.filter (fun u => decide (u ≠ t)) ++ [t] } }

/-- An error that a rerun may cure (01 R18, 06 R140, R141): recorded as RERUN while a rerun is left, else as STEP, where the
site counts as defective (15 R339). -/
def Dev.rerunError (d : Dev) (r t unit detail : Nat) : Dev :=
  if (d.region r).rerun < 2 then (d.recordTile t 1 unit St.PARITY_ERROR 1 detail).stepRerun r
  else ((d.recordTile t 2 unit St.PARITY_ERROR 2 detail).siteDefect t).stepFail r

/-- A parity error on a host read, or on a read while the tile runs no step (06 R140). -/
def Dev.parityOutside (d : Dev) (t a : Nat) : Dev := (d.modTile t fun x => x.parityNote 1 a).recordTile t 1 3 St.PARITY_ERROR 0 a

/-- A read that failed parity at byte `a`: in a step it aborts for rerun, and the word is remembered for the reload of
resident weights; outside a step the data stands (06 R140). The flag says that the read serves no more. -/
def Dev.parityRead (d : Dev) (t a : Nat) : Dev × Bool :=
  match d.inStep t with
  | some r =>
    let d := d.modTile t fun x => x.parityNote 0 a
    let d := d.modRegion r fun x => { x with badWords := x.badWords ++ [(t, a)] }
    (d.rerunError r t 3 a, true)
  | none => (d.parityOutside t a, false)

/-- Checks what a unit of tile `t` reads: `n` bytes from `a` of its scratchpad. -/
def Dev.spadCheck (d : Dev) (t a n : Nat) : Dev × Bool :=
  match (d.tile t).badWord a n with
  | some w => d.parityRead t w
  | none => (d, false)

/-- Checks several reads in order, each of a tile, an address and a number of bytes; it ends at the first that aborts the step. -/
def Dev.spadChecks : List (Nat × Nat × Nat) → Dev → Dev × Bool
  | [], d => (d, false)
  | q :: qs, d => match d.spadCheck q.1 q.2.1 q.2.2 with
    | (d, true) => (d, true)
    | (d, false) => Dev.spadChecks qs d

/-- Checks the merge reads of a write of `n` bytes at `a` (06 R133). -/
def Dev.mergeCheck (d : Dev) (t a n : Nat) : Dev × Bool :=
  match (d.tile t).mergeBad a n with
  | some w => d.parityRead t w
  | none => (d, false)

end Sys2Proof.Machine
end

