-- ==== Sys2Proof/Machine/Acw.lean ====
section
/-! DEFINITION. Array control words (03): fields (Table 3.2), the fold's geometry (R62, R63), the fields each kind uses
(Table 3.8, R94), the checks at push (Table 3.6, R421). -/

namespace Sys2Proof.Machine

abbrev Acw := BitVec 256

/-! ### Fields (03 Table 3.2) -/

def Acw.kind (a : Acw) : Nat := fld a 0 4
def Acw.aen (a : Acw) : Nat := fld a 4 4
def Acw.fold (a : Acw) : Nat := fld a 8 3
def Acw.quad (a : Acw) : Bool := bit a 11
def Acw.afmt (a : Acw) : Nat := fld a 12 4
def Acw.wfmt (a : Acw) : Nat := fld a 16 4
def Acw.sparse (a : Acw) : Bool := bit a 20
def Acw.psel (a : Acw) : Bool := bit a 21
def Acw.swap (a : Acw) : Bool := bit a 22
def Acw.asrc (a : Acw) : Nat := fld a 23 2
def Acw.wsrc (a : Acw) : Nat := fld a 25 2
def Acw.odst (a : Acw) : Nat := fld a 27 2
def Acw.accop (a : Acw) : Nat := fld a 29 2
def Acw.fence (a : Acw) : Bool := bit a 31
def Acw.rep (a : Acw) : Nat := cnt0 (fld a 32 16) 65536
def Acw.rowbase (a : Acw) : Nat := fld a 48 7
def Acw.doneEv (a : Acw) : Bool := bit a 55
def Acw.rmi (a : Acw) : Nat := fld a 56 3
def Acw.cmi (a : Acw) : Nat := fld a 59 3
def Acw.wb (a : Acw) (g : Nat) : Int := sfld a (64 + 10 * g) 10
def Acw.oe (a : Acw) : Int := sfld a 104 10
def Acw.dfmt (a : Acw) : Nat := fld a 114 4
def Acw.cbcol (a : Acw) : Bool := bit a 118
def Acw.cbsel (a : Acw) : Nat := fld a 119 2
def Acw.cbtype (a : Acw) : Nat := fld a 121 4
def Acw.kt (a : Acw) : Nat := cnt0 (fld a 128 12) 4096
def Acw.nt (a : Acw) : Nat := cnt0 (fld a 140 12) 4096
def Acw.qid (a : Acw) : Nat := fld a 152 10
def Acw.aga (a : Acw) : Nat := fld a 162 4
def Acw.agw (a : Acw) : Nat := fld a 166 4
def Acw.agsa (a : Acw) : Nat := fld a 170 4
def Acw.agsw (a : Acw) : Nat := fld a 174 4
def Acw.agm (a : Acw) : Nat := fld a 178 4
def Acw.ago (a : Acw) : Nat := fld a 182 4
def Acw.kvs (a : Acw) : Nat := fld a 192 8

/-- ACW kinds (03 Table 3.3). -/
abbrev kNOP : Nat := 0
abbrev kCOMPUTE : Nat := 1
abbrev kWLOAD : Nat := 2
abbrev kCBLOAD : Nat := 3
abbrev kDRAIN : Nat := 4
abbrev kXADD : Nat := 5

/-! ### Formats (03 Tables 3.1, 3.4) -/

/-- BF16 or FP16. -/
def fmtFp (f : Nat) : Bool := decide (f = 11) || decide (f = 12)
/-- Weight formats with block scales: the MX formats and K4. -/
def wfmtScaled (f : Nat) : Bool := decide (4 ≤ f) && decide (f ≤ 10)
/-- Activation formats with block scales. -/
def afmtScaled (f : Nat) : Bool := decide (4 ≤ f) && decide (f ≤ 6)
/-- Formats that no activation may have: reserved or weight-only (03 R54). -/
def afmtBad (f : Nat) : Bool := decide (f > 12) || f == 1 || (decide (7 ≤ f) && decide (f ≤ 10))
/-- Bits of a stored weight. -/
def wfmtBits (f : Nat) : Nat := if f = 1 ∨ f = 9 ∨ f = 10 then 4 else if f = 7 ∨ f = 8 then 6 else if fmtFp f then 16 else 8
/-- Pass depth KB (03 Table 3.1). -/
def passDepth (f : Nat) (sparse : Bool) : Nat := (if wfmtBits f = 4 then 64 else 32) * (if sparse then 2 else 1)
/-- Weight bytes of a block, values only (03 Table 3.1). -/
def blockBytes (f : Nat) : Nat := if wfmtBits f = 4 then 1024 else 128 * wfmtBits f
/-- Bytes of 2:4 metadata of a block. -/
def metaBytes (f : Nat) : Nat := 4 * passDepth f true

def Acw.kb (a : Acw) : Nat := passDepth a.wfmt a.sparse
/-- Bytes of an activation element. -/
def Acw.abytes (a : Acw) : Nat := if fmtFp a.afmt then 2 else 1
/-- Enabled arrays, counted upward. -/
def Acw.arrays (a : Acw) : List Nat := (List.range 4).filter fun j => bit (BitVec.ofNat 4 a.aen) j
def Acw.na (a : Acw) : Nat := a.arrays.length

/-! ### The fold (03 R62, R63) -/

def Acw.nbk (a : Acw) : Nat := cdiv a.kt a.kb
def Acw.nbn (a : Acw) : Nat := cdiv a.nt 32
/-- Column rounds P. -/
def Acw.rounds (a : Acw) : Nat := match a.fold with | 1 => cdiv a.nbn (max a.na 1) | 2 => a.nbn | _ => 1
/-- K rounds of a column round. -/
def Acw.krounds (a : Acw) : Nat := match a.fold with | 1 => a.nbk | 2 => cdiv a.nbk (max a.na 1) | _ => 1
def Acw.passes (a : Acw) : Nat := a.rounds * a.krounds

/-- The window drains its rows. -/
def Acw.drains (a : Acw) : Bool := decide (a.kind = kDRAIN) || (decide (a.kind = kCOMPUTE) && decide (2 ≤ a.accop))
/-- The ACW reads blocks through WSRC (03 R65). -/
def Acw.loads (a : Acw) : Bool :=
  (a.wsrc == 1 || a.wsrc == 2) && (decide (a.kind = kWLOAD) || (decide (a.kind = kCOMPUTE) && a.swap))

/-- The AG fields the ACW uses (04 R94). -/
def Acw.ags (a : Acw) : List Nat :=
  let act := (a.kind == kCOMPUTE || a.kind == kXADD) && (a.asrc == 0 || a.asrc == 2)
  (if act then [a.aga] else []) ++
  (if act && a.kind == kCOMPUTE && afmtScaled a.afmt then [a.agsa] else []) ++
  (if a.kind == kCBLOAD || a.loads then [a.agw] else []) ++
  (if a.loads && wfmtScaled a.wfmt then [a.agsw] else []) ++
  (if a.loads && a.sparse then [a.agm] else []) ++
  (if a.drains && a.odst == 1 then [a.ago] else [])

/-! ### Checks at push (03 Table 3.6) -/

/-- The row rules (03 R57). -/
def Acw.rowsOk (a : Acw) : Bool :=
  if a.kind = kDRAIN ∨ a.kind = kXADD then decide (a.rowbase + a.rep ≤ 128)
  else if a.kind ≠ kCOMPUTE then true
  else if a.fold = 0 ∧ a.odst ≠ 0 ∧ 2 ≤ a.accop then true
  else if a.quad then decide (a.rowbase % 32 + a.rep ≤ 32)
  else decide (a.rowbase + a.rounds * a.rep ≤ 128)

/-- The first check of 03 Table 3.6, in row order and then 04 R94, that the ACW fails; none when it passes. -/
def Acw.check (a : Acw) : Option W16 :=
  let k := a.kind
  let comp := decide (k = kCOMPUTE)
  let fp := fmtFp a.afmt || fmtFp a.wfmt
  if k > 5 then some St.ACW_INVALID
  else if k = kNOP then none
  else if ((comp || k == kXADD) && a.asrc == 3) || ((comp || k == kWLOAD) && a.wsrc == 3) || (a.drains && decide (a.dfmt > 7)) ||
      (k == kWLOAD && a.wsrc == 0) || (k == kDRAIN && a.odst == 0) then some St.ACW_INVALID
  else if (comp && (afmtBad a.afmt || decide (a.wfmt > 12) || ((fmtFp a.afmt || fmtFp a.wfmt) && a.afmt != a.wfmt))) ||
      ((comp || k == kWLOAD) && (decide (a.wfmt > 12) || (a.sparse && fmtFp a.wfmt))) then some St.ACW_FORMAT
  else if comp && a.drains && a.dfmt == 7 && fp then some St.ACW_FORMAT
  else if a.aen = 0 then some St.ACW_SHAPE
  else if comp && (decide (a.fold > 2) || (a.fold == 2 && fp) || (a.fold != 0 && a.quad)) then some St.ACW_SHAPE
  else if comp && decide (a.passes > 1) && (!a.swap || a.wsrc == 0) then some St.ACW_SHAPE
  else if comp && a.fold == 0 && (decide (a.kt > if a.quad then a.kb / 2 else a.kb) || decide (a.nt > if a.quad then 16 else 32)) then
    some St.ACW_SHAPE
  else if !a.rowsOk then some St.ACW_SHAPE
  else if comp && ((a.asrc == 2 && a.wsrc == 2) || (a.asrc == 1 && a.odst == 2)) then some St.ACW_SHAPE
  else if comp && a.odst == 0 && decide (2 ≤ a.accop) then some St.ACW_SHAPE
  else if a.ags.eraseDups.length < a.ags.length then some St.ACW_SHAPE
  else none

/-- QUEUE_ROLE (06 R145): a producer names an enabled TX context, a consumer an enabled RX context. -/
def Tile.acwRoleOk (t : Tile) (a : Acw) : Bool :=
  let q := t.qc a.qid
  (!((a.kind == kCOMPUTE || a.kind == kXADD) && a.asrc == 1) || q.rx) && (!(a.drains && a.odst == 2) || (q.en && q.tx))

/-! ### Ranges (04 R92) -/

/-- The range words at bytes 32 to 47 or 8 to 23 of an issue block: RD_A, RD_B, WR_A, WR_B. -/
def rangeWords (bs : List Byte) (off : Nat) : List LineRange :=
  (List.range 4).filterMap fun i =>
    let c := rdNat bs (off + 4 * i + 2) 2
    if c = 0 then none else some ⟨rdNat bs (off + 4 * i) 2, c, decide (2 ≤ i)⟩

/-- Every range lies within the scratchpad. -/
def rangesOk (rs : List LineRange) : Bool := rs.all fun r => decide (r.first + r.count ≤ Config.spadLines)

end Sys2Proof.Machine
end

