-- ==== Sys2Proof/Machine/Vec.lean ====
section
/-! DEFINITION. Vector instruction words (05): fields (Table 5.1), operations (Table 5.3), spans, the checks at issue
(Table 5.4). -/

namespace Sys2Proof.Machine

/-! ### Fields (05 Table 5.1) -/

abbrev VWord := BitVec 64

def VWord.op (w : VWord) : Nat := fld w 0 6
def VWord.ty (w : VWord) : Nat := fld w 6 4
def VWord.fn (w : VWord) : Nat := fld w 10 4
def VWord.vd (w : VWord) : Nat := fld w 14 8
def VWord.va (w : VWord) : Nat := fld w 22 8
def VWord.vb (w : VWord) : Nat := fld w 30 8
def VWord.vc (w : VWord) : Nat := fld w 38 8
def VWord.n (w : VWord) : Nat := cnt0 (fld w 46 8) 256
def VWord.ag (w : VWord) : Nat := fld w 54 4
def VWord.lmi (w : VWord) : Nat := fld w 58 3
def VWord.bcb (w : VWord) : Bool := bit w 61
def VWord.ev (w : VWord) : Bool := bit w 62
/-- The queue of VLDQ and VSTQ. -/
def VWord.qid (w : VWord) : Nat := w.vc % 4 * 256 + w.vb

/-! ### Operations (05 Table 5.3) -/

abbrev oVNOP : Nat := 0x00
abbrev oVLD : Nat := 0x01
abbrev oVST : Nat := 0x02
abbrev oVLDQ : Nat := 0x03
abbrev oVSTQ : Nat := 0x04
abbrev oFADD : Nat := 0x08
abbrev oFSUB : Nat := 0x09
abbrev oFMUL : Nat := 0x0A
abbrev oFFMA : Nat := 0x0B
abbrev oFMIN : Nat := 0x0C
abbrev oFMAX : Nat := 0x0D
abbrev oFCMP : Nat := 0x0E
abbrev oFSGN : Nat := 0x0F
abbrev oFDIV : Nat := 0x10
abbrev oFSQRT : Nat := 0x11
abbrev oFTRN : Nat := 0x12
abbrev oIADD : Nat := 0x18
abbrev oISUB : Nat := 0x19
abbrev oIMUL : Nat := 0x1A
abbrev oIMIN : Nat := 0x1B
abbrev oIMAX : Nat := 0x1C
abbrev oILOG : Nat := 0x1D
abbrev oISH : Nat := 0x1E
abbrev oICMP : Nat := 0x1F
abbrev oSEL : Nat := 0x20
abbrev oSETM : Nat := 0x21
abbrev oMOV : Nat := 0x22
abbrev oRED : Nat := 0x28
abbrev oCVT : Nat := 0x30
abbrev oRAND : Nat := 0x31
abbrev oXADD : Nat := 0x38
abbrev oXCVT : Nat := 0x39

/-- How many FN values an operation has; zero for a reserved OP. -/
def opFns (op : Nat) : Nat :=
  if op ≤ 4 then 1
  else if 0x08 ≤ op ∧ op ≤ 0x0D then 1
  else if op = oFCMP then 4 else if op = oFSGN then 3 else if op = oFDIV then 1 else if op = oFSQRT then 1
  else if op = oFTRN then 7
  else if op = oIADD ∨ op = oISUB ∨ op = oIMUL then 2
  else if op = oIMIN ∨ op = oIMAX then 1
  else if op = oILOG then 4 else if op = oISH then 3 else if op = oICMP then 3
  else if op = oSEL ∨ op = oSETM ∨ op = oMOV then 1
  else if op = oRED then 3
  else if op = oCVT ∨ op = oRAND ∨ op = oXADD ∨ op = oXCVT then 1
  else 0

/-- Types an operation accepts (05 Table 5.3, R422). -/
def opTypeOk (op ty : Nat) : Bool :=
  if op = oVNOP then true
  else if op ≤ 4 ∨ op = oSEL ∨ op = oMOV then ty != 15
  else if 0x08 ≤ op ∧ op ≤ 0x0F then decide (2 ≤ ty) && decide (ty ≤ 5)
  else if op = oFDIV ∨ op = oFSQRT then ty == 4 || ty == 5
  else if op = oFTRN then ty == 4
  else if 0x18 ≤ op ∧ op ≤ 0x1F then ty == 0 || ty == 1
  else if op = oSETM then ty == 1
  else if op = oRED then decide (1 ≤ ty) && decide (ty ≤ 5)
  else if op = oRAND then ty == 1 || ty == 4 || ty == 5
  else if op = oXADD ∨ op = oXCVT then ty == 15
  else true

/-- Operations with an operand B (05 R113). -/
def VWord.hasB (w : VWord) : Bool :=
  (decide (oFADD ≤ w.op) && decide (w.op ≤ oFCMP)) || (w.op == oFSGN && w.fn == 2) || w.op == oFDIV ||
  (decide (oIADD ≤ w.op) && decide (w.op ≤ oSEL)) || w.op == oXADD

/-- Operations with an operand C. -/
def VWord.hasC (w : VWord) : Bool := w.op == oFFMA || w.op == oSEL

/-- Elements of the stream of a CVT (05 R125). -/
def VWord.cvtE (w : VWord) : Nat := w.n * 2048 / tyWidth w.ty

/-- The entry spans an instruction uses: first entry and entries (05 Table 5.4, R125 to R127). -/
def VWord.spans (w : VWord) : List (Nat × Nat) :=
  let op := w.op
  let n := w.n
  if op = oVNOP then []
  else if op = oVLD ∨ op = oVLDQ ∨ op = oRAND then [(w.vd, n)]
  else if op = oVST ∨ op = oVSTQ then [(w.va, n)]
  else if op = oSETM then [(w.va, 1)]
  else if op = oCVT then
    [(w.va, n), (w.vd, cdiv (w.cvtE * tyWidth (w.vc % 16)) 2048)] ++
      (if tyMx w.ty || tyMx (w.vc % 16) then [(w.vb, cdiv w.cvtE 8192)] else [])
  else if op = oXADD then [(w.vd, 3 * n), (w.va, 3 * n), (w.vb, if w.bcb then 3 else 3 * n)]
  else if op = oXCVT then [(w.va, 3 * n), (w.vd, cdiv n 2)]
  else
    [(w.vd, n), (w.va, n)] ++ (if w.hasB then [(w.vb, if w.bcb then 1 else n)] else []) ++ (if w.hasC then [(w.vc, n)] else [])

/-- Operations that take no lane mask. -/
def opNoMask (op : Nat) : Bool := (decide (oVLD ≤ op) && decide (op ≤ oVSTQ)) || op == oCVT || op == oRAND || op == oXADD || op == oXCVT

/-- The first check of 05 Table 5.4 that the instruction fails. -/
def VWord.check (w : VWord) : Option W16 :=
  if opFns w.op ≤ w.fn ∨ bit w 63 = true then some St.VEC_INVALID
  else if w.lmi ≠ 0 ∧ opNoMask w.op = true then some St.VEC_INVALID
  else if w.bcb = true ∧ w.hasB = false then some St.VEC_INVALID
  else if w.op = oSETM ∧ (w.n ≠ 1 ∨ w.vc % 8 = 0) then some St.VEC_INVALID
  else if opTypeOk w.op w.ty = false ∨ (w.op = oCVT ∧ cvtPair w.ty (w.vc % 16) = false) then some St.VEC_FORMAT
  else if w.spans.any fun s => decide (s.1 + s.2 > 256) then some St.LENGTH_EXCEEDS
  else none

/-- QUEUE_ROLE (06 R145) for VLDQ and VSTQ. -/
def Tile.vecRoleOk (t : Tile) (w : VWord) : Bool :=
  let q := t.qc w.qid
  (w.op != oVLDQ || q.rx) && (w.op != oVSTQ || (q.en && q.tx))

/-- The AG tickets an instruction takes (04 R99). -/
def VWord.ags (w : VWord) : List Nat := if w.op = oVLD ∨ w.op = oVST then [w.ag] else []

end Sys2Proof.Machine
end

