-- ==== Sys2Proof/Machine/Wacc.lean ====
section
/-! DEFINITION. The wide accumulator and XPS blocks (02 R32 to R46, R419): adding products and block values,
clears, drains. -/

namespace Sys2Proof.Machine

/-! ### Entries and rows of one array -/

/-- What entry `k` = 32 × row + column holds when nothing was written to it: zero, or a free value after an abort
(03 R73, log 14). -/
def Arr.entD (a : Arr) (k : Nat) : WEntry :=
  match a.seed with
  | none => WEntry.reset
  | some s =>
    let x := Config.freeAt s (2 * k)
    ⟨sInt 128 x, BitVec.ofNat 32 (x / 2 ^ 128), bit (BitVec.ofNat 162 x) 160, bit (BitVec.ofNat 162 x) 161⟩

/-- What row group `k` = 4 × row + group holds when nothing was written to it. -/
def Arr.grpD (a : Arr) (k : Nat) : WGroup :=
  match a.seed with
  | none => WGroup.reset
  | some s =>
    let x := BitVec.ofNat 14 (Config.freeAt s (2 * k + 1))
    ⟨sfld x 0 10, bit x 10, bit x 11, bit x 12, bit x 13⟩

/-- WACC entry (row, column). -/
def Arr.ent (a : Arr) (row col : Nat) : WEntry := SMap.get a.entD a.wacc (32 * row + col)

/-- Puts a WACC entry in place. -/
def Arr.setEnt (a : Arr) (row col : Nat) (e : WEntry) : Arr := { a with wacc := SMap.set a.entD a.wacc (32 * row + col) e }

/-- Row of an 8-column group. -/
def Arr.grp (a : Arr) (row g : Nat) : WGroup := SMap.get a.grpD a.rows (4 * row + g)

/-- Puts a row of a group in place. -/
def Arr.setGrp (a : Arr) (row g : Nat) (x : WGroup) : Arr := { a with rows := SMap.set a.grpD a.rows (4 * row + g) x }

/-! ### Adding -/

/-- Flags an addition raises in its row of a group: INEXACT_LOW, OVERFLOW. -/
abbrev AddFlags := Bool × Bool

/-- The saturated entry (02 R34). -/
def WEntry.saturate (e : WEntry) (neg : Bool) : WEntry := { e with i := if neg then -(2 ^ 127) else 2 ^ 127 - 1, sat := true }

/-- Adds an integer in units of 2^wb (02 R34). A saturated entry ignores it. -/
def WEntry.addInt (e : WEntry) (v : Int) : WEntry × AddFlags :=
  if e.sat then (e, false, false)
  else if e.i + v > 2 ^ 127 - 1 ∨ e.i + v < -(2 ^ 127) then (e.saturate (decide (v < 0)), false, true)
  else ({ e with i := e.i + v }, false, false)

/-- Adds a product ±m × 2^q against window base `wb` (02 R33). -/
def WEntry.addProd (e : WEntry) (wb : Int) (neg : Bool) (m : Nat) (q : Int) : WEntry × AddFlags :=
  if e.sat ∨ m = 0 then (e, false, false)
  else if floorLog m q ≥ wb + 126 then (e.saturate neg, false, true)
  else
    let n : Int := rneTo m q wb
    let r := e.addInt (if neg then -n else n)
    (r.1, r.2.1 || !isMul m q wb, r.2.2)

/-- Adds an XPS value with window base `wbi` to an entry with base `wbr` (02 R41). -/
def WEntry.addXps (e : WEntry) (wbr : Int) (v : Int) (wbi : Int) : WEntry × AddFlags :=
  if e.sat then (e, false, false)
  else if wbi ≥ wbr then
    let x := v * 2 ^ (wbi - wbr).toNat
    if x > 2 ^ 127 - 1 ∨ x < -(2 ^ 127) then (e.saturate (decide (v < 0)), false, true) else e.addInt x
  else
    let n : Int := rneTo v.natAbs wbi wbr
    let r := e.addInt (if v < 0 then -n else n)
    (r.1, r.2.1 || !isMul v.natAbs wbi wbr, r.2.2)

/-- ORs flags into a row of a group. -/
def WGroup.flags (g : WGroup) (f : AddFlags) (mismatch : Bool) : WGroup :=
  { g with inexact := g.inexact || f.1, overflow := g.overflow || f.2, mismatch := g.mismatch || mismatch }

/-- A clear of the columns of `cols` in a row (02 R36, R419): I, the FP32 value and INVALID go to zero; the flags, the window base
and the path of a group change when all its eight columns are cleared. -/
def Arr.clearRow (a : Arr) (row : Nat) (cols : W32) (wb : Nat → Int) (fpPath : Bool) : Arr :=
  let a := (List.range 32).foldl (fun a n => if bit cols n then a.setEnt row n WEntry.reset else a) a
  (List.range 4).foldl (fun a g =>
    if fld cols (8 * g) 8 = 255 then a.setGrp row g ⟨wb g, fpPath, false, false, false⟩ else a) a

/-- A drain's clear (03 R55), which covers all eight columns of every group: the entries and the flags go to zero and the path to
integer, since a DRAIN has no BF16 or FP16 operands (02 R419); the recorded base stays, since a DRAIN does not use the WB fields
(03 Table 3.8, R421; log 24). -/
def Arr.clearDrained (a : Arr) (row : Nat) : Arr :=
  let a := (List.range 32).foldl (fun a n => a.setEnt row n WEntry.reset) a
  (List.range 4).foldl (fun a g =>
    a.setGrp row g { WGroup.reset with wb := (a.grp row g).wb }) a

/-! ### XPS blocks (02 R39, R40) -/

/-- A parsed XPS block: window bases, flags (INEXACT_LOW, OVERFLOW, WINDOW_MISMATCH from bit 0) and values. -/
structure Xps where
  wb : List Int
  flg : List Nat
  count : Nat
  invalid : Nat
  vals : List Int
deriving DecidableEq, Repr

/-- Reads a block of 528 bytes. -/
def Xps.parse (l : List Byte) : Xps :=
  let h : W128 := BitVec.ofNat 128 (rdNat l 0 16)
  ⟨(List.range 4).map fun g => sfld h (10 * g) 10, (List.range 4).map fun g => fld h (40 + 3 * g) 3, fld h 56 6, fld h 64 32,
    (List.range 32).map fun i => sInt 128 (rdNat l (16 + 16 * i) 16)⟩

/-- A malformed block (02 R40). -/
def Xps.bad (x : Xps) : Bool := decide (x.count = 0) || decide (x.count > 32)

/-- The 528 bytes of a block; values at or above COUNT are zero (02 R40). -/
def Xps.bytes (x : Xps) : List Byte :=
  let part (l : List Nat) (w off : Nat) : Nat := (List.range 4).foldl (fun a g => a + l.getD g 0 % 2 ^ w * 2 ^ (off + w * g)) 0
  let h := part (x.wb.map (intBits 10)) 10 0 + part x.flg 3 40 + x.count % 64 * 2 ^ 56 + x.invalid % 2 ^ 32 * 2 ^ 64
  leBytes 16 h ++ (List.range 32).flatMap fun i => leBytes 16 (if i < x.count then intBits 128 (x.vals.getD i 0) else 0)

/-- The array flags an addition raises (03 ARR_FLAGS): [0] INEXACT_LOW, [1] OVERFLOW, [2] WINDOW_MISMATCH, [3] INVALID, [4] SAT. -/
def arrFlags (f : AddFlags) (mismatch invalid : Bool) : BitVec 5 :=
  (if f.1 then 1 else 0) ||| (if f.2 then 2 else 0) ||| (if mismatch then 4 else 0) ||| (if invalid then 8 else 0)

/-- An array and the flags raised so far. -/
abbrev ArrF := Arr × BitVec 5

/-- Stores the outcome of an addition into (row, n): the entry, and its flags in the row of its group and in the array's. -/
def ArrF.put (a : ArrF) (row n : Nat) (e : WEntry) (f : AddFlags) (mismatch invalid : Bool) : ArrF :=
  let g := a.1.grp row (n / 8)
  ((a.1.setEnt row n { e with invalid := e.invalid || invalid }).setGrp row (n / 8) (g.flags f mismatch),
    a.2 ||| arrFlags f mismatch (invalid || (e.invalid && !(a.1.ent row n).invalid)))

/-- Adds a block into a row (02 R40, R41, R419). `ok` is false for a unit that was completed with zeros or truncated: it sets
INVALID on every value (06 R151). `wb` is the adding ACW's field. Into a row on the FP32 path nothing is added, and the block's
flags are not ORed into it (DESIGN CHOICE, log 85). -/
def ArrF.addBlock (a : ArrF) (row : Nat) (x : Xps) (ok : Bool) (wb : Nat → Int) : ArrF :=
  (List.range 32).foldl (fun a n =>
    let gr := a.1.grp row (n / 8)
    let e := a.1.ent row n
    if x.bad then a.put row n e (false, false) false true
    else if n < x.count then
      let mm := decide (wb (n / 8) ≠ gr.wb)
      if gr.fpPath then a.put row n e (false, false) mm true
      else
        let wbi := x.wb.getD (n / 8) 0
        let r := e.addXps gr.wb (x.vals.getD n 0) wbi
        let fl := x.flg.getD (n / 8) 0
        a.put row n r.1 (r.2.1 || decide (fl % 2 = 1), r.2.2 || decide (fl / 2 % 2 = 1))
          (mm || decide (wbi ≠ gr.wb) || decide (fl / 4 % 2 = 1)) (!ok || decide (x.invalid / 2 ^ n % 2 = 1))
    else if ok then a else a.put row n e (false, false) false true) a

/-! ### Drains (02 R44, R45) -/

/-- The value a drain converts: NaN when INVALID is set. -/
def Arr.drainVal (a : Arr) (row col : Nat) : Val :=
  let e := a.ent row col
  let g := a.grp row (col / 8)
  if e.invalid then .nan false
  else if g.fpPath then fp32.decode e.fp.toNat
  else Val.ofInt e.i g.wb

/-- One value of a drain in format `dfmt` (03 Table 3.4), with whether it saturated (02 Table 2.5, R420). -/
def drainCode (dfmt : Nat) (v : Val) : Nat × Bool :=
  let isSat (r : Nat × VFlags) : Nat × Bool := (r.1, r.2 &&& fSAT != 0)
  match dfmt with
  | 0 => isSat (fp32.encode false v)
  | 1 => isSat (bf16.encode false v)
  | 2 => isSat (fp16.encode false v)
  | 3 => isSat (e4m3.encode true v)
  | 4 => isSat (e5m2.encode true v)
  | 5 => if v.isNan then (0, true) else isSat (encodeInt 8 0 v)
  | _ => if v.isNan then (0, true) else isSat (encodeInt 32 0 v)

/-- Bytes of one value of a drain format. -/
def drainSize (dfmt : Nat) : Nat :=
  match dfmt with
  | 0 => 4 | 1 => 2 | 2 => 2 | 3 => 1 | 4 => 1 | 5 => 1 | _ => 4

/-- Drains columns `c0` to `c0 + n − 1` of a row (02 R45): bytes and whether a conversion saturated. -/
def Arr.drain (a : Arr) (row c0 n dfmt : Nat) (oe : Int) : List Byte × Bool :=
  let rs := (List.range n).map fun i => drainCode dfmt ((a.drainVal row (c0 + i)).scale (-oe))
  (rs.flatMap fun r => leBytes (drainSize dfmt) r.1, rs.any (·.2))

/-- Drains columns `c0` to `c0 + n − 1` of a row to an XPS block (02 R45): an exact copy of the values, the recorded bases, the flags and
the INVALID bits. Value 0 is the first column drained, and field g of WB and FLG is that of the g-th column group from there on; the
fields of groups that hold no value of the block take the row's other groups in the same order (DESIGN CHOICE, log 83). Where a
group that holds a drained column is on the FP32 path, the block is that of a row on the FP32 path: COUNT 32, zero values, every
INVALID bit set, and INVALID set in ARR_FLAGS, which the second component says (DESIGN CHOICE for a row of both paths, log 84). -/
def Arr.drainXps (a : Arr) (row c0 n : Nat) : List Byte × Bool :=
  let grp (j : Nat) : WGroup := a.grp row ((c0 / 8 + j) % 4)
  let wbs := (List.range 4).map fun j => (grp j).wb
  let flgs := (List.range 4).map fun j => (grp j).inexact.toNat + 2 * (grp j).overflow.toNat + 4 * (grp j).mismatch.toNat
  if (List.range (cdiv n 8)).any fun j => (grp j).fpPath then ((⟨wbs, flgs, 32, 2 ^ 32 - 1, []⟩ : Xps).bytes, true)
  else
    let es := (List.range n).map fun i => a.ent row (c0 + i)
    let inv := (List.range n).foldl (fun s i => s + if (es.getD i WEntry.reset).invalid then 2 ^ i else 0) 0
    ((⟨wbs, flgs, n, inv, es.map (·.i)⟩ : Xps).bytes, false)

/-! ### The BF16 and FP16 path (02 R42, R43) -/

/-- A sum of two FP32 values in FP32. -/
def fpAdd32 (a b : Nat) : Nat := (fp32.encode false (Val.add (fp32.decode a) (fp32.decode b)).1).1

/-- A product of two BF16 or FP16 values in FP32. -/
def fpMul32 (a b : Val) : Nat := (fp32.encode false (Val.mul a b).1).1

/-- One level of the tree: adds adjacent pairs. -/
def fpTreeLevel : List Nat → List Nat
  | a :: b :: l => fpAdd32 a b :: fpTreeLevel l
  | l => l

/-- The tree of `depth` levels. -/
def fpTree : Nat → List Nat → Nat
  | 0, l => l.headD 0
  | n + 1, l => fpTree n (fpTreeLevel l)

/-- Adds a list of FP32 products by the tree and then into the entry (02 R42). OVERFLOW is set when the entry becomes infinite
from finite operands, INVALID when it becomes NaN (02 R43). -/
def WEntry.addFp (e : WEntry) (depth : Nat) (ps : List Nat) (finite : Bool) : WEntry × AddFlags :=
  let old := fp32.decode e.fp.toNat
  let s := fpAdd32 e.fp.toNat (fpTree depth ps)
  let new := fp32.decode s
  ({ e with fp := BitVec.ofNat 32 s, invalid := e.invalid || new.isNan }, false, new.isInf && !old.isInf && finite)

/-! ### One column of one vector (02 R31, R33, R35) -/

/-- What the products of one column add up to before they reach the entry: the sum in units of the window, whether a product
was rounded, the sign of the first product out of the window, whether an operand was not finite (log 31). -/
structure ColAcc where
  sum : Int
  inexact : Bool
  ovf : Option Bool
  invalid : Bool
deriving DecidableEq, Repr

def ColAcc.zero : ColAcc := ⟨0, false, none, false⟩

/-- Adds one product of an activation and a weight against window base `wb`. -/
def ColAcc.add (c : ColAcc) (wb : Int) (a w : Val) : ColAcc :=
  match a, w with
  | .fin n1 m1 e1, .fin n2 m2 e2 =>
    let m := m1 * m2
    let q := e1 + e2
    if m = 0 then c
    else if floorLog m q ≥ wb + 126 then { c with ovf := if c.ovf.isNone then some (n1 != n2) else c.ovf }
    else
      let v : Int := rneTo m q wb
      { c with sum := if n1 != n2 then c.sum - v else c.sum + v, inexact := c.inexact || !isMul m q wb }
  | _, _ => { c with invalid := true }

/-- Adds a column's products into its entry (02 R33, R34). -/
def WEntry.addCol (e : WEntry) (c : ColAcc) : WEntry × AddFlags :=
  if e.sat then (e, false, false)
  else match c.ovf with
    | some neg => (e.saturate neg, c.inexact, true)
    | none => let r := e.addInt c.sum; (r.1, c.inexact, r.2.2)

end Sys2Proof.Machine
end

