-- ==== Sys2Proof/Machine/TileReg.lean ====
section
/-! DEFINITION. Reads and writes of a tile's control space (04 R88 to R90): the fields that show other state, captures,
the counters of waiting time, and the own effect of each register. The Scarab and the host share them. -/

namespace Sys2Proof.Machine

/-! ### Address generator programs (04 Table 4.8, R96, R97, R99) -/

/-- The program eight words of a descriptor give. -/
def agParse (ws : List W32) : AgProg :=
  let w (i : Nat) : W32 := ws.getD i 0
  { base := w 0, space := fld (w 1) 0 2, lslice := fld (w 1) 2 5, cyc := bit (w 1) 7, doneEv := bit (w 1) 8,
    cnts := [BitVec.ofNat 16 (fld (w 2) 0 16), BitVec.ofNat 16 (fld (w 2) 16 16), BitVec.ofNat 16 (fld (w 3) 0 16), BitVec.ofNat 16 (fld (w 3) 16 16)],
    strs := [w 4, w 5, w 6, w 7], port := 0 }

/-- The eight words of a program. -/
def AgProg.words (p : AgProg) : List W32 :=
  let c (i : Nat) : Nat := (p.cnts.getD i 0).toNat
  [p.base, BitVec.ofNat 32 (p.space % 4 + p.lslice % 32 * 4 + p.cyc.toNat * 128 + p.doneEv.toNat * 256),
    BitVec.ofNat 32 (c 0 + c 1 * 65536), BitVec.ofNat 32 (c 2 + c 3 * 65536)] ++ p.strs

/-- A descriptor that 04 R97 refuses. -/
def AgProg.bad (p : AgProg) : Bool := decide (p.space = 3) || (decide (p.space = 2) && decide (p.lslice > 22))

/-- Takes a checked program (04 R99): current at once without tickets, else into the pending slot, which is free. -/
def Tile.agTake (t : Tile) (n : Nat) (p : AgProg) : Tile :=
  if (t.ag n).tickets.isEmpty then t.agLoad n p else t.setAg n { t.ag n with pending := some (p, (t.ag n).tickets) }

/-- Whether a consumer holds AG `n`: the head of its tickets has started (04 R100). -/
def Tile.agBusy (t : Tile) (n : Nat) : Bool :=
  match (t.ag n).tickets.head? with
  | some id => t.acwQ.any (fun e => decide (e.id = id) && e.started && !e.done) || t.vecQ.head?.any fun e => decide (e.id = id)
  | none => false

/-- A 32-bit word of the block of AG `n` (04 Table 4.8). -/
def Tile.agWord (t : Tile) (n o : Nat) : W32 :=
  let g := t.ag n
  if o < 0x20 then g.cur.words.getD (o / 4) 0
  else match o with
  | 0x20 => BitVec.ofNat 32 ((t.agBusy n).toNat + g.pending.isSome.toNat * 2 + g.exh.toNat * 4 + g.err.toNat * 8 + g.tickets.length % 65536 * 65536)
  | 0x24 => g.waitc
  | 0x28 => BitVec.ofNat 32 g.pos
  | 0x2C => BitVec.ofNat 32 (g.pos / 2 ^ 32)
  | _ => 0

/-! ### Values that show other state -/

/-- SCB_STATUS.STATE (04): a started Scarab whose instruction waits reads WAIT (log 26). -/
def Scarab.state (s : Scarab) : Nat :=
  match s.mode with
  | .halted => 0
  | .run => if s.stall = .none then 1 else 2
  | .wait => 2
  | .fault => 3

/-- Code of an asynchronous cause (04 Table 4.9) and its bit of SCB_STATUS.PENDING. -/
def AsyncCause.code : AsyncCause → Nat
  | .agRange => 0x0A | .agEmpty => 0x0B | .arrFlag => 0x10 | .veFlag => 0x11 | .watchdog => 0x12
def AsyncCause.bit : AsyncCause → Nat
  | .agRange => 0 | .agEmpty => 1 | .arrFlag => 2 | .veFlag => 3 | .watchdog => 4

/-- ARR_STATUS (03). -/
def Tile.arrStatus (t : Tile) : W64 :=
  let busy (j : Nat) : Bool := t.acwQ.any fun e => e.started && !e.done && (Acw.arrays e.acw).contains j
  let part (f : Nat → Bool) (k : Nat) : Nat := (List.range 4).foldl (fun s j => s + if f j then 2 ^ (k + j) else 0) 0
  BitVec.ofNat 64 (part busy 0 + part (fun j => (t.arr j).plane) 4 + t.acwQ.length * 256)

/-- ARR_FLAGROW (03): the row and array that ARR_FLAGSEL names. -/
def Tile.flagRow (t : Tile) : W64 :=
  let sel := t.reg Reg.ARR_FLAGSEL
  let a := t.arr (fld sel 7 2)
  let row := fld sel 0 7
  let g := (List.range 4).foldl (fun s g =>
    let x := a.grp row g
    s + (x.inexact.toNat + 2 * x.overflow.toNat + 4 * x.mismatch.toNat) * 2 ^ (3 * g)) 0
  BitVec.ofNat 64 ((List.range 32).foldl (fun s n => s + if (a.ent row n).invalid then 2 ^ (32 + n) else 0) g)

/-- What a 64-bit register of the control space reads as, before any read side effect. -/
def Tile.regVal (t : Tile) (a : Nat) : W64 :=
  if a = Reg.SCB_CTL then BitVec.ofNat 64 (2 * t.scb.haltReq.toNat)
  else if a = Reg.SCB_STATUS then
    BitVec.ofNat 64 (t.scb.state + 4 * t.scb.inTrap.toNat + t.scb.pend.foldl (fun s p => s + 2 ^ (8 + p.1.bit)) 0 +
      t.scb.sbuf.length * 65536 + t.vecQ.length * 2 ^ 20)
  else if a = Reg.ARR_STATUS then t.arrStatus
  else if a = Reg.ARR_FLAGROW then t.flagRow
  else if Reg.ARR_CBCOL ≤ a ∧ a < Reg.ARR_CBCOL + 32 then (t.arr ((a - Reg.ARR_CBCOL) / 8)).cbcol
  else if a = Reg.ARR_CBTYPE then
    BitVec.ofNat 64 ((List.range 4).foldl (fun s j => s + (t.arr j).cbType.toNat * 16 ^ j) 0)
  else if a = Reg.VE_STATUS then
    match t.vecQ.head? with
    | some e => BitVec.ofNat 64 (e.done.toNat + 2 * t.vecQ.length + if e.done then 128 * VWord.op e.word else 0)
    | none => 0
  else if a = Reg.SPAD_SBOARD then BitVec.ofNat 64 t.board.length
  else if a = Reg.SPAD_REASM then BitVec.ofNat 64 t.reasm.length
  else if a = Reg.WVL_STATUS then
    BitVec.ofNat 64 (t.wvl.fq.length + 32 * t.wvl.pend.length + 32768 * t.freeFrames)
  else t.reg a

/-- Counters of waiting time and cycles: how long a unit waits is outside the model, so a read finds an open number of
further counts (log 16). -/
def cycleCounter (a : Nat) : Bool :=
  [Reg.SCB_CYCLES, Reg.SCB_STALL_FWD, Reg.SCB_STALL_ISSUE, Reg.ARR_STALL_W, Reg.ARR_STALL_A, Reg.ARR_STALL_D, Reg.VE_STALL,
    Reg.SPAD_BANKWAIT, Reg.SPAD_REASM_WAIT, Reg.MESH_REPLAY_WAIT, Reg.WVL_SHWAIT].contains a

/-- Brings a counter of waiting time up to date before it is read. -/
def Dev.tileTick (d : Dev) (t a : Nat) : Dev := if cycleCounter a then d.countFree t a else d

/-- The read side effect of a register (00 R3, 04 R89). -/
def Tile.afterRead (t : Tile) (a : Nat) : Tile :=
  match tileRow a with
  | some r => if r.rc = 0 then t else t.setReg a (r.afterRead (t.reg a))
  | none => t

/-! ### Captures (04 R89) -/

/-- The key of a register of tile `t` in the host's capture. -/
def capKey (t a : Nat) : Nat := 2 ^ 32 + t * 2 ^ 16 + a

/-- A requester's capture. -/
def Dev.capOf (d : Dev) (w : Requester) (t : Nat) : Option (Nat × W64) :=
  match w with
  | .scarab => (d.tile t).cap
  | .host => d.hostCap

/-- Replaces a requester's capture. -/
def Dev.setCap (d : Dev) (w : Requester) (t a : Nat) (v : W64) : Dev :=
  match w with
  | .scarab => d.modTile t fun x => { x with cap := some (capKey t a, v) }
  | .host => { d with hostCap := some (capKey t a, v) }

/-- Halves of a register. -/
def lo32 (v : W64) : W32 := BitVec.ofNat 32 v.toNat
def hi32 (v : W64) : W32 := BitVec.ofNat 32 (v.toNat / 2 ^ 32)

/-- A range of Table 4.6 whose unlisted offsets are reserved and read as zero: AG, ARR, SPAD, WVL and MESH. -/
def ctlOpen (a : Nat) : Bool :=
  (decide (0x400 ≤ a) && decide (a < 0x800)) || (decide (0x1000 ≤ a) && decide (a < 0x1200)) || (decide (0x3000 ≤ a) && decide (a < 0x6000))

/-- Whether a CRD or CWR may name an address (04 R88): a multiple of 4 in a range of Table 4.6. In the SCB core and VE blocks an
unlisted offset traps too (04 and 05, at their register lists). -/
def ctlValid (a : Nat) : Bool := decide (a % 4 = 0) && (ctlOpen a || (tileRow (a / 8 * 8)).isSome)

/-- A 32-bit read (04 R89): at the low word it captures and has the read side effect; at the high word it returns that half of
the requester's capture of this register, or the current one. Words of an AG block are registers of 32 bits but for
POS. An unlisted offset is reserved: zero, and the capture stays (log 96). -/
def Dev.tileRead32 (d : Dev) (w : Requester) (t a : Nat) : Dev × W32 :=
  if 0x400 ≤ a ∧ a < 0x800 then
    let n := (a - 0x400) / 64
    let o := (a - 0x400) % 64
    let g := (d.tile t).ag n
    if o = 0x24 then
      let v := BitVec.ofNat 32 (min (g.waitc.toNat + d.free) (2 ^ 32 - 1))
      ((d.modTile t fun x => x.setAg n { g with waitc := 0 }).drawn, v)
    else if o = 0x28 then (d.setCap w t a (BitVec.ofNat 64 g.pos), (d.tile t).agWord n o)
    else if o = 0x2C then
      match d.capOf w t with
      | some (k, v) => (d, if k = capKey t (a - 4) then hi32 v else (d.tile t).agWord n o)
      | none => (d, (d.tile t).agWord n o)
    else (d, (d.tile t).agWord n o)
  else if (tileRow (a / 8 * 8)).isNone then (d, 0)
  else
    let x := a / 8 * 8
    if a % 8 = 0 then
      let d := d.tileTick t x
      let v := (d.tile t).regVal x
      ((d.modTile t fun y => y.afterRead x).setCap w t x v, lo32 v)
    else
      match d.capOf w t with
      | some (k, v) => if k = capKey t x then (d, hi32 v) else let d := d.tileTick t x; (d, hi32 ((d.tile t).regVal x))
      | none => let d := d.tileTick t x; (d, hi32 ((d.tile t).regVal x))

/-- A 64-bit read (04 R89): all bits, the read side effect, the capture unchanged. -/
def Dev.tileRead64 (d : Dev) (t a : Nat) : Dev × W64 :=
  if 0x400 ≤ a ∧ a < 0x800 then
    let n := (a - 0x400) / 64
    let o := (a - 0x400) % 64
    let g := (d.tile t).ag n
    let hi : Nat := if o = 0x20 then min (g.waitc.toNat + d.free) (2 ^ 32 - 1) else ((d.tile t).agWord n (o + 4)).toNat
    let v := BitVec.ofNat 64 (((d.tile t).agWord n o).toNat + hi * 2 ^ 32)
    (if o = 0x20 then (d.modTile t fun x => x.setAg n { g with waitc := 0 }).drawn else d, v)
  else
    let d := d.tileTick t a
    (d.modTile t fun y => y.afterRead a, (d.tile t).regVal a)

/-! ### Effects of writes -/

/-- The Scarab starts at SCB_ENTRY (04 R75). -/
def Tile.scbStart (t : Tile) : Tile :=
  { t with scb := { t.scb with pc := BitVec.ofNat 32 (fld (t.reg Reg.SCB_ENTRY) 0 16), mode := .run, stall := .none, haltReq := false } }

/-- The event bits a mask selects. -/
def Tile.matched (t : Tile) (mask : I16) : W64 := t.reg Reg.SCB_EVENT &&& BitVec.ofNat 64 mask.toNat

/-- The Scarab waits for STEP_START (04 R102): it executes a WAITE on bit 3 that no masked event has completed. -/
def Tile.waitsStart (t : Tile) : Bool :=
  match t.scb.mode, t.scb.stall with
  | .run, .waite _ m => bit m 3 && t.matched m == 0
  | _, _ => false

/-- SCB_CTL.RUN: only a HALTED Scarab starts (04 R75, R106). -/
def Tile.scbRun (t : Tile) : Tile := if t.scb.mode = .halted then t.scbStart else t

/-- SCB_CTL.HALT: a request that holds until the Scarab has halted. -/
def Tile.scbHalt (t : Tile) : Tile :=
  if t.scb.mode = .run ∨ t.scb.mode = .wait then { t with scb := { t.scb with haltReq := true } } else t

/-- SCB_WDOG_KICK: the watchdog count restarts (04 R107). -/
def Tile.wdogKick (t : Tile) : Tile := { t with scb := { t.scb with wdogNs := 0 } }

/-- A write to WVL_CFG that 08 R198 allows. -/
def Tile.wvlCfgOk (t : Tile) (v : W64) : Bool :=
  let frames := fld v 16 10
  let posb := cnt0 (fld v 28 12) 4096
  let ppp := cnt0 (fld v 40 12) 4096
  decide (posb % 16 = 0) && decide (posb * ppp ≤ 4096) && decide (frames ≤ 768) &&
  decide (fld v 0 16 + 64 * frames ≤ Config.spadLines) && t.allFree

/-- A write to WVL_DIR that 08 R199 allows. -/
def Tile.wvlDirOk (t : Tile) (v : W64) : Bool :=
  let n := fld v 32 16
  (decide (n = 0) || (decide (fld v 0 16 + n * cdiv (16 + 4 * cnt0 (fld v 48 12) 4096) 64 ≤ Config.spadLines) &&
    decide (fld v 16 16 + n ≤ 0xFFFF))) && t.allFree

/-- Stores a checked configuration word, or sets WVL_ERR.CFG (08 R198, R199). -/
def Tile.wvlCfgWrite (t : Tile) (a : Nat) (v : W64) : Tile :=
  if (if a = Reg.WVL_CFG then t.wvlCfgOk v else t.wvlDirOk v) then t.setReg a v else t.modReg Reg.WVL_ERR fun e => setBit e 17

/-- Bytes a fetch writes in the scratchpad: first byte and one past the last (08 R211). -/
def fetchSpan (d0 d1 : W64) : Nat × Nat :=
  let cnt := cnt0 (fld d0 16 12) 4096
  let w := cnt0 (fld d1 12 12) 4096
  let st := if fld d1 46 14 = 0 then w else fld d1 46 14
  (fld d1 24 22, fld d1 24 22 + (cnt - 1) * st + w)

/-- Two byte spans overlap; an empty one overlaps nothing. -/
def spansMeet (a b c e : Nat) : Bool := decide (a < b) && decide (c < e) && decide (a < e) && decide (c < b)

/-- The check of a fetch (08 R211). -/
def Tile.fetchOk (t : Tile) (d0 d1 : W64) : Bool :=
  let s := fetchSpan d0 d1
  decide (fld d1 0 12 + cnt0 (fld d1 12 12) 4096 ≤ t.kvPosb) && decide (s.2 ≤ Config.spadBytes) &&
  !spansMeet s.1 s.2 (t.kvBase * 64) (t.kvBase * 64 + 4096 * t.kvFrames) &&
  !spansMeet s.1 s.2 (t.dirBase * 64) (t.dirBase * 64 + t.dirBytes)

/-- A refused fetch (08 R211): recorded, and done. -/
def Tile.fetchRefuse (t : Tile) (st : W16) : Tile :=
  let t := t.modReg Reg.WVL_ERR fun e => setBit (if bit e 16 then e else setFld e 0 16 st.toNat) 16
  t.modReg Reg.WVL_FDONE fun v => addCnt v 0 32 1

/-- WVL_FQ_COMMIT (08 R211). -/
def Tile.fqCommit (t : Tile) : Tile :=
  let d0 := t.reg Reg.WVL_FQ0
  let d1 := t.reg Reg.WVL_FQ1
  if t.fetchOk d0 d1 = false then t.fetchRefuse St.LENGTH_EXCEEDS
  else if t.wvl.fq.length ≥ 16 then t.fetchRefuse St.FETCH_QUEUE_FULL
  else { t with wvl := { t.wvl with fq := t.wvl.fq ++ [(d0, d1)] } }

/-- The next index of a claim counter, or 0xFFFF_FFFF when no unit remains (08 R220). -/
def claimIndex (i n : Nat) : W32 := if i < n then BitVec.ofNat 32 i else 0xFFFFFFFF

/-- A tile receives a claimed index; one of another position under CLAIM is a steal (08 R220). -/
def Dev.claimGot (d : Dev) (t : Nat) (i : W32) : Dev :=
  let g : List Nat := match d.regionOf t with | some r => d.group r | none => []
  d.modTile t fun x =>
    let x : Tile := { x.setReg Reg.WVL_CLAIMED (BitVec.ofNat 64 i.toNat) with wvl := { x.wvl with claimOut := x.wvl.claimOut - 1 } }
    if bit (x.reg Reg.WVL_DCFG) 1 ∧ i ≠ 0xFFFFFFFF ∧ g.isEmpty = false ∧ i.toNat % g.length ≠ posOf t g then x.count Reg.WVL_STEAL 1 else x

/-- The lead serves one request from its counter (08 R220). -/
def Dev.claimServe (d : Dev) (lead : Nat) : Dev × W32 :=
  let x := d.tile lead
  (d.setTile lead { x with wvl := { x.wvl with claimCtr := x.wvl.claimCtr + 1 } }, claimIndex x.wvl.claimCtr x.wvl.nUnits)

/-- WVL_CLAIM (08 R220): each write is a request of its own. Under STATIC the tile takes the indices of its position; under CLAIM the lead answers, at once when it
asks itself. A tile outside the attention group receives no unit (log 38). -/
def Dev.wvlClaim (d : Dev) (t : Nat) : Dev :=
  let x := d.tile t
  let x : Tile := { x with wvl := { x.wvl with claimOut := x.wvl.claimOut + 1 } }
  let d := d.setTile t x
  let g := match d.regionOf t with | some r => d.group r | none => []
  match g with
  | [] => d.claimGot t 0xFFFFFFFF
  | lead :: _ =>
    if !g.contains t then d.claimGot t 0xFFFFFFFF
    else if bit (x.reg Reg.WVL_DCFG) 1 then
      if lead = t then
        let (d, i) := d.claimServe t
        d.claimGot t i
      else d.emit (.wvl lead (.claim t))
    else
      let i := claimIndex (posOf t g + x.wvl.claimCtr * g.length) x.wvl.nUnits
      (d.setTile t { x with wvl := { x.wvl with claimCtr := x.wvl.claimCtr + 1 } }).claimGot t i

/-- Byte lanes of a 32-bit write to word `h` of a register, and of a 64-bit write. -/
def laneMask (h : Nat) : W64 := if h = 0 then 0xFFFFFFFF else 0xFFFFFFFF00000000
abbrev fullMask : W64 := 0xFFFFFFFFFFFFFFFF

/-- A command register: a write while `busy` is set is discarded and sets `lost`; one to word 0 starts the command (06 R153, 08
WVL_CMD). -/
def Tile.cmdWrite (t : Tile) (a busy lost : Nat) (r : RegRow) (m v : W64) : Tile :=
  let old := t.reg a
  if bit old busy then t.setReg a (setBit old lost)
  else
    let n := r.write m old v
    t.setReg a (if m &&& 1 = 1 then setBit n busy else n)

/-- A write of the lanes `m` of `v` to the 64-bit register at `a` of tile `t` (04 R89, R90, 00 R3, R7). -/
def Dev.tileWrite (d : Dev) (t a : Nat) (m v : W64) : Dev :=
  match tileRow a with
  | none => d
  | some r =>
    let x := d.tile t
    let n := r.write m (x.reg a) v
    let low := bit m 0
    if a = Reg.SCB_CTL then
      let x := if bit (m &&& v) 0 then x.scbRun else x
      d.setTile t (if bit (m &&& v) 1 then x.scbHalt else x)
    else if a = Reg.SCB_WDOG_KICK then if low then d.setTile t x.wdogKick else d
    else if a = Reg.SCB_EPC then d.setTile t (x.setReg a (setFld n 0 2 0))
    else if a = Reg.ARR_ERR then d.setTile t (x.setReg a (if bit n 32 then n else setFld n 0 20 0))
    else if a = Reg.VE_ERR then d.setTile t (x.setReg a (if bit n 32 then n else setFld n 0 22 0))
    else if a = Reg.SPAD_QCMD then d.setTile t (x.cmdWrite a 16 17 r m v)
    else if a = Reg.WVL_CMD then
      let y := x.cmdWrite a 32 33 r m v
      let w := y.reg a
      d.setTile t (if bit w 32 ∧ bit (x.reg a) 32 = false ∧ fld w 12 3 ≥ 5 then y.setReg a (setFld (clrBit w 32) 48 16 St.KV_BUSY.toNat) else y)
    else if a = Reg.WVL_CFG ∨ a = Reg.WVL_DIR then d.setTile t (x.wvlCfgWrite a n)
    else if a = Reg.WVL_FQ_COMMIT then if low then d.setTile t x.fqCommit else d
    else if a = Reg.WVL_CLAIM then if low then d.wvlClaim t else d
    else d.setTile t (x.setReg a n)

/-- A host's COMMIT of AG `n` (04 R96): AGS of the staging copy. One that R97 refuses, or that finds the pending slot full,
does nothing (log 39). -/
def Tile.agHostCommit (t : Tile) (n : Nat) : Tile :=
  let p := agParse (t.ag n).staging
  if p.bad ∨ (t.ag n).pending.isSome then t else t.agTake n p

/-- A 32-bit write to a word of the block of AG `n`, COMMIT apart (04 Table 4.8). -/
def Tile.agPoke (t : Tile) (n o : Nat) (v : W32) : Tile :=
  let g := t.ag n
  if o < 0x20 then t.setAg n { g with staging := g.staging.set (o / 4) v }
  else if o = 0x20 then t.setAg n { g with err := g.err && !bit v 3 }
  else t

/-- A 32-bit write by the host to control address `a` of tile `t`; an unlisted address is discarded (04 R88). -/
def Dev.tileWrite32 (d : Dev) (t a : Nat) (v : W32) : Dev :=
  if ctlValid a = false then d
  else if 0x400 ≤ a ∧ a < 0x800 then
    let n := (a - 0x400) / 64
    let o := (a - 0x400) % 64
    d.modTile t fun x => if o = 0x30 then x.agHostCommit n else x.agPoke n o v
  else d.tileWrite t (a / 8 * 8) (laneMask (a % 8)) (BitVec.ofNat 64 (v.toNat * 2 ^ (8 * (a % 8))))

/-- A 64-bit write by the host. -/
def Dev.tileWrite64 (d : Dev) (t a : Nat) (v : W64) : Dev :=
  if 0x400 ≤ a ∧ a < 0x800 then (d.tileWrite32 t a (lo32 v)).tileWrite32 t (a + 4) (hi32 v)
  else if ctlValid a then d.tileWrite t a fullMask v else d

end Sys2Proof.Machine
end

