-- ==== Sys2Proof/Machine/Queue.lean ====
section
/-! DEFINITION. Stream queues (06): arrival of item words at receive contexts (R146 to R148), the commands of SPAD_QCMD (R153,
R154), and what a step boundary does to contexts (R155). -/

namespace Sys2Proof.Machine

/-! ### Arrival (06 R146 to R148) -/

/-- Counts words in SPOIL of a receive context (06 Table 6.1). -/
def QCtx.spoil (q : QCtx) (n : Nat) : QCtx := { q with w3 := addCnt q.w3 0 24 n }

/-- Sets bit `i` of a context's ERRS word. -/
def QCtx.err (q : QCtx) (i : Nat) : QCtx := { q with w3 := setBit q.w3 i }

/-- ERRS: TRUNC, OVERRUN and STRAY mark the run for QUEUE (09 R238). -/
def Tile.qErr (t : Tile) (n i : Nat) : Tile :=
  let t := t.putQc n ((t.qc n).err i)
  if i ≤ 45 then { t with exQueue := true } else t

/-- Words held from the low mark to WRPTR (06 R148). -/
def QCtx.held (q : QCtx) : Nat := q.items.foldl (fun s i => s + i.words) 0

/-- The open entry of a source and queue ID. -/
def Tile.entry (t : Tile) (sd st n : Nat) : Option Reasm :=
  t.reasm.find? fun e => decide (e.srcdev = sd) && decide (e.srctile = st) && decide (e.qid = n)

/-- Replaces the open entry of a source and queue ID; it closes when its declared words have arrived (06 R146). -/
def Tile.setEntry (t : Tile) (e : Reasm) : Tile :=
  let same (x : Reasm) : Bool := decide (x.srcdev = e.srcdev) && decide (x.srctile = e.srctile) && decide (x.qid = e.qid)
  { t with reasm := if e.left = 0 then t.reasm.filter fun x => !same x else t.reasm.map fun x => if same x then e else x }

/-- Stores a word of an open item: it reaches the ring, and its item counts it. -/
def Tile.storeWord (t : Tile) (n : Nat) (e : Reasm) (w : W128) : Tile :=
  let q := t.qc n
  let t := t.spadWrite (q.addr e.wptr) (leBytes 16 w.toNat)
  let mine (i : RxItem) : Bool := decide (i.srcdev = e.srcdev) && decide (i.srctile = e.srctile) && decide (i.arrived < i.words)
  t.putQc n { q with items := q.items.map fun i => if mine i then { i with arrived := i.arrived + 1 } else i }

/-- A word of the open item of an entry (06 R148, R154). -/
def Tile.entryWord (t : Tile) (n : Nat) (e : Reasm) (w : W128) : Tile :=
  let e1 := { e with left := e.left - 1 }
  if e.skip then
    let q := (t.qc n).spoil 1
    (t.setQc n { q with w3 := setFld q.w3 24 19 (fld q.w3 24 19 - 1) }).setEntry e1
  else if e.store ≠ 0 then (t.storeWord n e w).setEntry { e1 with store := e.store - 1, wptr := e.wptr + 1 }
  else (if e.spoil then t.setQc n ((t.qc n).spoil 1) else t).setEntry e1

/-- Opens an entry of `len` payload words that are all discarded; `spoil` counts them and the header. -/
def Tile.openDrop (t : Tile) (n sd st len : Nat) (spoil : Bool) : Tile :=
  let t : Tile := { t with reasm := t.reasm ++ [⟨sd, st, n, len, 0, 0, spoil, false⟩] }
  if spoil then t.setQc n ((t.qc n).spoil 1) else t

/-- An accepted header reserves words from WRPTR (06 R148). -/
def Tile.reserve (t : Tile) (n sd st : Nat) (h : W128) (len : Nat) : Tile :=
  let q := t.qc n
  let free := q.words - q.held
  if free < 2 then (t.openDrop n sd st len true).qErr n 44
  else
    let cut := decide (free < 1 + len)
    let keep := if cut then free - 1 else len
    let h := if cut then setBit (setFld h 0 12 keep) 12 else h
    let wr := fld q.w1 18 18
    let e : Reasm := ⟨sd, st, n, len, keep, wr + 1, true, false⟩
    let t := ({ t with reasm := t.reasm ++ [e] } : Tile).spadWrite (q.addr wr) (leBytes 16 h.toNat)
    let t := t.putQc n { q with
      w1 := setFld q.w1 18 18 (q.wrap wr (1 + keep))
      items := q.items ++ [⟨sd, st, wr, 1 + keep, 1, cut⟩] }
    if cut then t.qErr n 43 else t

/-- A header (06 R147): the checks of an ORDERED context, then the reservation. -/
def Tile.headerWord (t : Tile) (n sd st : Nat) (h : W128) : Tile :=
  let q := t.qc n
  let len := cnt0 (fld h 0 12) 4096
  if q.anyOrder then t.reserve n sd st h len
  else if fld h 16 12 ≠ fld q.w2 0 12 ∨ fld h 28 11 ≠ fld q.w2 12 11 then (t.openDrop n sd st len true).qErr n 45
  else
    let iseq := fld h 48 16
    let dist := (iseq + 65536 - fld q.w2 23 16) % 65536
    if dist ≥ 32768 then (t.openDrop n sd st len false).qErr n 48
    else
      let t := t.setQc n { q with w2 := setFld q.w2 23 16 ((iseq + 1) % 65536) }
      (if dist ≠ 0 then t.qErr n 46 else t).reserve n sd st h len

/-- One word from a source for queue `n`; none when it is a header and no entry is free (06 R146). `shut` says that the
region's step is aborted and waits for its rerun (06 R156). -/
def Tile.qWord (t : Tile) (n sd st : Nat) (shut : Bool) (w : W128) : Option Tile :=
  let q := t.qc n
  if q.rx = false then some (t.count Reg.SPAD_SPOILT 1)
  else if shut ∧ q.retain = false then some (t.setQc n (q.spoil 1))
  else match t.entry sd st n with
    | some e => some (t.entryWord n e w)
    | none => if t.reasm.length ≥ 64 then none else some (t.headerWord n sd st w)

/-- Delivers words of a packet in order; what is left waits. -/
def Tile.qWords (n sd st : Nat) (shut : Bool) : List W128 → Tile → List W128 × Tile
  | [], t => ([], t)
  | w :: ws, t =>
    match t.qWord n sd st shut w with
    | some t => Tile.qWords n sd st shut ws t
    | none => (w :: ws, t)

/-- Whether the tile's region waits for the rerun of an aborted step. -/
def Dev.shut (d : Dev) (t : Nat) : Bool :=
  match d.regionOf t with
  | some r => decide ((d.region r).phase = .aborted)
  | none => false

/-- Delivers the first packet of a list that does not wait for an entry: the packets before it, and it. -/
def Tile.firstReady (t : Tile) (shut : Bool) : List Packet → List Packet → Option (List Packet × Packet × List Packet)
  | _, [] => none
  | pre, p :: ps =>
    let ready := match p.words with
      | [] => true
      | w :: _ => (t.qWord p.dqid.toNat p.srcdev.toNat p.srctile.toNat shut w).isSome
    if ready then some (pre, p, ps) else Tile.firstReady t shut (pre ++ [p]) ps

/-- QITEM_ARRIVAL: the first packet held at the Local port that can go on delivers its words. -/
def execQitemArrival (t : Nat) (s : State) : Host.Outcome State Fault Refusal :=
  onTile t s fun d =>
    let x := d.tile t
    let sh := d.shut t
    match x.firstReady sh [] x.localIn with
    | none => if x.localIn.isEmpty then d else d.countFree t Reg.SPAD_REASM_WAIT
    | some (pre, p, ps) =>
      let r := Tile.qWords p.dqid.toNat p.srcdev.toNat p.srctile.toNat sh p.words x
      d.setTile t { r.2 with localIn := pre ++ (if r.1.isEmpty then [] else [{ p with words := r.1 }]) ++ ps }

/-! ### Commands (06 R153, R154) -/

/-- The bits of each word that a context of a role has (06 Table 6.1). -/
def qMask (tx : Bool) (w : Nat) : W64 :=
  match tx, w with
  | _, 0 => 0xFFFFFFFF001F
  | false, 1 => 0x3FFFFFFFFFFFFF
  | true, 1 => 0xFFFF0007FFFFFFFF
  | false, 2 => 0x7FFFFFFFFFFFFF
  | true, 2 => 0xFFFFFFFF
  | false, _ => 0x1FFFFFFFFFFFF
  | true, _ => 0xFFFFFFFF

/-- A context made of four configuration words: pointers, sequences, SPOIL, SKIPW and ERRS are zero; SENT of a send context is taken
(06 R153). -/
def QCtx.ofWords (w0 w1 w2 w3 : W64) : QCtx :=
  let tx := bit w0 1
  { QCtx.reset with
    w0 := if tx then w0 &&& 3 else w0 &&& qMask false 0
    w1 := if tx then w1 &&& qMask true 1 else 0
    w2 := if tx then 0 else w2 &&& 0x7FFFFF
    w3 := if tx then w3 &&& qMask true 3 else 0 }

/-- Why CONFIG refuses staging words, or OK (06 R153). -/
def qCheck (w0 w1 : W64) : W16 :=
  let tx := bit w0 1
  if (!tx && bit w0 3 && bit w0 2) || (tx && (fld w1 33 2 == 1 || fld w1 33 2 == 2)) then St.QUEUE_CONFIG
  else if !tx && bit w0 0 && (fld w0 32 16 == 0 || decide (fld w0 16 16 + fld w0 32 16 > Config.spadLines)) then St.LENGTH_EXCEEDS
  else St.OK

/-- CONFIG of context `n` of tile `t` with these words: the status, and the device after it. The flow of a send context starts at FLOWSEQ 0 (12 R300). -/
def Dev.qConfig (d : Dev) (t n : Nat) (w0 w1 w2 w3 : W64) : W16 × Dev :=
  let x := d.tile t
  let q := x.qc n
  if q.items.isEmpty = false ∨ x.reasm.any (fun e => decide (e.qid = n)) = true ∨ d.sending t (some n) = true then (St.QUEUE_CONFIG, d)
  else if qCheck w0 w1 ≠ St.OK then (qCheck w0 w1, d)
  else
    let x := x.setQc n (QCtx.ofWords w0 w1 w2 w3)
    (St.OK, d.setTile t (if bit w0 1 then { x with flowSeq := SMap.set (fun _ => (0 : W32)) x.flowSeq n 0 } else x))

/-- FLUSH of a receive context (06 R154). -/
def Tile.flush (t : Tile) (n : Nat) : Tile :=
  let q := t.qc n
  let stored := (q.items.drop q.taken).foldl (fun s i => s + i.arrived) 0
  let mine (e : Reasm) : Bool := decide (e.qid = n)
  let left := (t.reasm.filter mine).foldl (fun s e => s + e.left) 0
  let q := q.spoil stored
  let t := t.setQc n { q with w1 := 0, w3 := setFld q.w3 24 19 left, items := [], taken := 0, last := none }
  { t with reasm := t.reasm.map fun e => if mine e then { e with skip := true, store := 0 } else e }

/-- The queue ID and the operation of the command in SPAD_QCMD; none when it is not busy. -/
def Tile.qcmd (t : Tile) : Option (Nat × Nat) :=
  let v := t.reg Reg.SPAD_QCMD
  if bit v 16 then some (fld v 0 10, fld v 10 2) else none

/-- The command ends with a status. -/
def Tile.qcmdEnd (t : Tile) (st : W16) : Tile := t.modReg Reg.SPAD_QCMD fun v => setFld (clrBit v 16) 32 16 st.toNat

/-- A command of SPAD_QCMD of operation `op` in tile `t`, which acts on context `n`. -/
def onQcmd (t op : Nat) (s : State) (f : Nat → Dev → Dev) : Host.Outcome State Fault Refusal :=
  onTile t s fun d => match (d.tile t).qcmd with
    | some (n, o) => if o = op ∧ (d.tile t).qwait = false then f n d else d
    | none => d

/-- QCMD_READ: the context's words go to the staging words. -/
def execQcmdRead (t : Nat) (s : State) : Host.Outcome State Fault Refusal :=
  onQcmd t 0 s fun n d => d.modTile t fun x =>
    let q := x.qc n
    ((((x.setReg Reg.SPAD_QCTX q.w0).setReg (Reg.SPAD_QCTX + 8) q.w1).setReg (Reg.SPAD_QCTX + 16) q.w2).setReg (Reg.SPAD_QCTX + 24) q.w3).qcmdEnd St.OK

/-- QCMD_CONFIG: the staging words go to the context, or the command is refused. -/
def execQcmdConfig (t : Nat) (s : State) : Host.Outcome State Fault Refusal :=
  onQcmd t 1 s fun n d =>
    let g (i : Nat) : W64 := (d.tile t).reg (Reg.SPAD_QCTX + 8 * i)
    let r := d.qConfig t n (g 0) (g 1) (g 2) (g 3)
    r.2.modTile t fun x => x.qcmdEnd r.1

/-- QCMD_FLUSH: R154 for a receive context; a send context is refused. -/
def execQcmdFlush (t : Nat) (s : State) : Host.Outcome State Fault Refusal :=
  onQcmd t 2 s fun n d => d.modTile t fun x =>
    if (x.qc n).tx then x.qcmdEnd St.QUEUE_ROLE else (x.flush n).qcmdEnd St.OK

/-- QCMD_RESET: a receive context is flushed, and SPOIL and ERRS are cleared; a send context starts its wait. -/
def execQcmdReset (t : Nat) (s : State) : Host.Outcome State Fault Refusal :=
  onQcmd t 3 s fun n d => d.modTile t fun x =>
    if (x.qc n).tx then { x with qwait := true }
    else
      let x := x.flush n
      let q := x.qc n
      (x.setQc n { q with w3 := setFld (setFld q.w3 0 24 0) 43 6 0 }).qcmdEnd St.OK

/-- QCMD_TX_RESET_DONE: no item of the context is in sending; ISEQ, STARTSEQ and SENT become zero. -/
def execQcmdTxResetDone (t : Nat) (s : State) : Host.Outcome State Fault Refusal :=
  onTile t s fun d => match (d.tile t).qcmd with
    | some (n, _) =>
      if (d.tile t).qwait = true ∧ d.sending t (some n) = false then
        d.modTile t fun x => { (x.setQc n { x.qc n with w2 := 0, w3 := 0 }).qcmdEnd St.OK with qwait := false }
      else d
    | none => d

/-! ### The step boundary (06 R155) -/

/-- A context at a step boundary. -/
def QCtx.boundary (q : QCtx) : QCtx :=
  if q.tx then { q with w2 := setFld q.w2 16 16 (fld q.w2 0 16) }
  else { q with w1 := setFld q.w1 36 18 (fld q.w1 0 18), w2 := setFld q.w2 39 16 (fld q.w2 23 16), items := q.items.drop q.taken, taken := 0 }

end Sys2Proof.Machine
end

