-- ==== Sys2Proof/Machine/Crypto.lean ====
section
/-! DEFINITION. SHA-256, SHA-384 and ECDSA over P-384. The manual names them (07 R169, 09 R229, 16 R361, R362, 17 R403) and leaves their
definition to the standards, FIPS 180-4 and FIPS 186 (log 28). -/

namespace Sys2Proof.Machine

/-- The first 80 primes: every number from 2 to 409 that no smaller prime below 21 divides. -/
def shaPrimes : List Nat :=
  (List.range 410).filter fun n => decide (2 ≤ n) && [2, 3, 5, 7, 11, 13, 17, 19].all fun q => decide (n = q) || decide (n % q ≠ 0)

/-- The largest `x + y` with (x + y)^k at most `m` and y below 2^n, found bit by bit. -/
def rootFloor (k m : Nat) : Nat → Nat → Nat
  | 0, x => x
  | n + 1, x => rootFloor k m n (if (x + 2 ^ n) ^ k ≤ m then x + 2 ^ n else x)

/-- The first 64 bits of the fraction of the k-th root of a prime below 512 (so that the root is below 32): the standard draws
every constant of the family from these. -/
def rootFrac (k p : Nat) : W64 := BitVec.ofNat 64 (rootFloor k (p * 2 ^ (64 * k)) 69 0)

/-- Round constants: cube roots. SHA-384 has 80 of 64 bits; those of SHA-256 are the upper halves of the first 64. -/
def sha384K : List W64 := shaPrimes.map (rootFrac 3)
def sha256K : List W32 := (sha384K.take 64).map fun x => x.extractLsb' 32 32

/-- Initial hash values: square roots, of the first eight primes for SHA-256 and of the next eight for SHA-384. -/
def sha256Init : List W32 := (shaPrimes.take 8).map fun p => (rootFrac 2 p).extractLsb' 32 32
def sha384Init : List W64 := ((shaPrimes.drop 8).take 8).map (rootFrac 2)

/-- The word width and the rotation counts of one function of the family: Σ0, Σ1, and σ0, σ1 with a shift last. -/
structure ShaFn (w : Nat) where
  s0 : Nat × Nat × Nat
  s1 : Nat × Nat × Nat
  g0 : Nat × Nat × Nat
  g1 : Nat × Nat × Nat
  k : List (BitVec w)

def sha256Fn : ShaFn 32 := ⟨(2, 13, 22), (6, 11, 25), (7, 18, 3), (17, 19, 10), sha256K⟩
def sha384Fn : ShaFn 64 := ⟨(28, 34, 39), (14, 18, 41), (1, 8, 7), (19, 61, 6), sha384K⟩

/-- Three rotations, and two rotations with a shift. -/
def sha3rot {w : Nat} (r : Nat × Nat × Nat) (x : BitVec w) : BitVec w := x.rotateRight r.1 ^^^ x.rotateRight r.2.1 ^^^ x.rotateRight r.2.2
def sha2rot {w : Nat} (r : Nat × Nat × Nat) (x : BitVec w) : BitVec w := x.rotateRight r.1 ^^^ x.rotateRight r.2.1 ^^^ (x >>> r.2.2)

/-- The message schedule, newest word first, `n` more words. -/
def shaSched {w : Nat} (f : ShaFn w) : Nat → List (BitVec w) → List (BitVec w)
  | 0, l => l
  | n + 1, l => shaSched f n ((sha2rot f.g1 (l.getD 1 0) + l.getD 6 0 + sha2rot f.g0 (l.getD 14 0) + l.getD 15 0) :: l)

/-- One round on the eight working variables. -/
def shaRound {w : Nat} (f : ShaFn w) (v : List (BitVec w)) (kw : BitVec w × BitVec w) : List (BitVec w) :=
  match v with
  | [a, b, c, d, e, g, h, i] =>
    let t1 := i + sha3rot f.s1 e + ((e &&& g) ^^^ (~~~e &&& h)) + kw.1 + kw.2
    let t2 := sha3rot f.s0 a + ((a &&& b) ^^^ (a &&& c) ^^^ (b &&& c))
    [t1 + t2, a, b, c, d + t1, e, g, h]
  | v => v

/-- Big-endian value and bytes: these digests are byte strings of their standard (16 R361). -/
def beNat (l : List Byte) : Nat := l.foldl (fun a b => 256 * a + b.toNat) 0
def beBytes (n x : Nat) : List Byte := (leBytes n x).reverse

/-- One block. -/
def shaBlock {w : Nat} (f : ShaFn w) (h : List (BitVec w)) (block : List Byte) : List (BitVec w) :=
  let ws := (List.range 16).map fun i => BitVec.ofNat w (beNat (slice block (w / 8 * i) (w / 8)))
  let sched := (shaSched f (f.k.length - 16) ws.reverse).reverse
  (h.zip ((f.k.zip sched).foldl (shaRound f) h)).map fun x => x.1 + x.2

/-- The blocks of a padded message. -/
def shaBlocks {w : Nat} (f : ShaFn w) : Nat → List (BitVec w) → List Byte → List (BitVec w)
  | 0, h, _ => h
  | n + 1, h, l => shaBlocks f n (shaBlock f h (l.take (2 * w))) (l.drop (2 * w))

/-- The hash value of a message: one bit, zeros, the length in bits in the last eighth of the last block. -/
def shaMsg {w : Nat} (f : ShaFn w) (h : List (BitVec w)) (l : List Byte) : List (BitVec w) :=
  let n := (l.length + 1 + w / 4 + 2 * w - 1) / (2 * w)
  let pad := 2 * w * n - l.length - 1 - w / 4
  shaBlocks f n h (l ++ [0x80] ++ List.replicate pad 0 ++ beBytes (w / 4) (8 * l.length))

/-- SHA-256: 32 bytes. -/
def sha256 (l : List Byte) : List Byte := (shaMsg sha256Fn sha256Init l).flatMap fun x => beBytes 4 x.toNat

/-- SHA-384: 48 bytes. -/
def sha384 (l : List Byte) : List Byte := ((shaMsg sha384Fn sha384Init l).take 6).flatMap fun x => beBytes 8 x.toNat

/-! ### ECDSA over P-384 -/

/-- The field prime, the coefficient b (a is -3), the base point and its order. -/
def p384P : Nat := 0xFFFFFFFFFFFFFFFFFFFFFFFFFFFFFFFFFFFFFFFFFFFFFFFFFFFFFFFFFFFFFFFEFFFFFFFF0000000000000000FFFFFFFF
def p384B : Nat := 0xB3312FA7E23EE7E4988E056BE3F82D19181D9C6EFE8141120314088F5013875AC656398D8A2ED19D2A85C8EDD3EC2AEF
def p384Gx : Nat := 0xAA87CA22BE8B05378EB1C71EF320AD746E1D3B628BA79B9859F741E082542A385502F25DBF55296C3A545E3872760AB7
def p384Gy : Nat := 0x3617DE4A96262C6F5D9E98BF9292DC29F8F41DBD289A147CE9DA3113B5F0B8C00A60B1CE1D7E819D7A431D7C90EA0E5F
def p384N : Nat := 0xFFFFFFFFFFFFFFFFFFFFFFFFFFFFFFFFFFFFFFFFFFFFFFFFC7634D81F4372DDF581A0DB248B0A77AECEC196ACCC52973

/-- Product and difference in the field. -/
def p384Mul (x y : Nat) : Nat := x * y % p384P
def p384Sub (x y : Nat) : Nat := (x + p384P - y % p384P) % p384P

/-- A point of the curve in Jacobian coordinates: (x / z^2, y / z^3), or the point at infinity where z = 0. -/
structure EcPoint where
  x : Nat
  y : Nat
  z : Nat
deriving DecidableEq, Repr

/-- Whether (x, y) is a point of the curve: y^2 = x^3 - 3 x + b. -/
def ecOn (x y : Nat) : Bool :=
  decide (x < p384P) && decide (y < p384P) && decide (p384Mul y y = p384Sub (x ^ 3 + p384B) (3 * x))

/-- Twice a point. -/
def EcPoint.dbl (a : EcPoint) : EcPoint :=
  let yy := p384Mul a.y a.y
  let s := p384Mul 4 (p384Mul a.x yy)
  let zz := p384Mul a.z a.z
  let m := p384Mul 3 (p384Mul (p384Sub a.x zz) (a.x + zz))
  let x := p384Sub (m * m) (2 * s)
  ⟨x, p384Sub (m * p384Sub s x) (8 * (yy * yy)), p384Mul 2 (a.y * a.z)⟩

/-- The sum of two points. -/
def EcPoint.add (a b : EcPoint) : EcPoint :=
  if a.z = 0 then b
  else if b.z = 0 then a
  else
    let az := p384Mul a.z a.z
    let bz := p384Mul b.z b.z
    let u := p384Mul a.x bz
    let s := p384Mul a.y (bz * b.z)
    let h := p384Sub (b.x * az) u
    let r := p384Sub (b.y * (az * a.z)) s
    if h = 0 then (if r = 0 then a.dbl else ⟨0, 1, 0⟩)
    else
      let hh := p384Mul h h
      let hhh := p384Mul hh h
      let v := p384Mul u hh
      let x := p384Sub (r * r) (hhh + 2 * v)
      ⟨x, p384Sub (r * p384Sub v x) (s * hhh), p384Mul h (a.z * b.z)⟩

/-- The 384 bits of a number, most significant first. -/
def bits384 (k : Nat) : List Bool := (List.range 384).map fun i => k.testBit (383 - i)

/-- u G + v Q. -/
def ecComb (u v : Nat) (q : EcPoint) : EcPoint :=
  ((bits384 u).zip (bits384 v)).foldl (fun a b =>
    let a := if b.1 then a.dbl.add ⟨p384Gx, p384Gy, 1⟩ else a.dbl
    if b.2 then a.add q else a) ⟨0, 1, 0⟩

/-- b^e modulo m, for e below 2^384. -/
def powMod (m b e : Nat) : Nat := (bits384 e).foldl (fun a i => if i then a * a % m * b % m else a * a % m) 1

/-- Whether a signature r ‖ s (16 Table 16.2) is that of a digest of 48 bytes under an uncompressed public key 0x04 ‖ X ‖ Y. -/
def ecdsaP384 (key digest sig : List Byte) : Bool :=
  let x := beNat (slice key 1 48)
  let y := beNat (slice key 49 48)
  let r := beNat (slice sig 0 48)
  let s := beNat (slice sig 48 48)
  let w := powMod p384N s (p384N - 2)
  let a := ecComb (beNat digest * w % p384N) (r * w % p384N) ⟨x, y, 1⟩
  let zz := p384Mul a.z a.z
  decide (key.length = 97) && decide (key.headD 0 = 4) && ecOn x y && decide (sig.length = 96) &&
  decide (0 < r) && decide (r < p384N) && decide (0 < s) && decide (s < p384N) && decide (a.z ≠ 0) &&
  (decide (a.x = p384Mul r zz) || (decide (r + p384N < p384P) && decide (a.x = p384Mul (r + p384N) zz)))

end Sys2Proof.Machine
end

