-- ==== Sys2Proof/Machine/WtOps.lean ====
section
/-! DEFINITION. The weight tier as commands use it (07): images and their extents, manifests, journal records and
their effects, haul acknowledgements, maps and layer swaps, resident weights, adapter slots. -/

namespace Sys2Proof.Machine

/-! ### Images and extents (07 R159, R166, R167, R176) -/

/-- Changes the weight tier. -/
def Dev.modWt (d : Dev) (f : WTier → WTier) : Dev := { d with wt := f d.wt }

/-- Whether an image carries a pair. -/
def Image.is (m : Image) (id gen : W32) : Bool := decide (m.id = id) && decide (m.gen = gen)

/-- The image of a pair; a pair in EMPTY has none. -/
def WTier.image? (w : WTier) (id gen : W32) : Option Image := w.images.find? fun m => m.is id gen

/-- Puts an image in place of the one of its pair. -/
def WTier.putImage (w : WTier) (m : Image) : WTier :=
  if (w.image? m.id m.gen).isSome then { w with images := w.images.map fun i => if i.is m.id m.gen then m else i }
  else { w with images := w.images ++ [m] }

/-- The logical slices of a rectangle. -/
def rectSlices (q : Rect) : List Nat := (List.range Config.nTiles).filter fun t => rectHolds q t

/-- The CRC-32C of a copy of a slice header or remap table: that of its sequence number in 8 bytes and of its entries (log 107). -/
def MetaCopy.sum (c : MetaCopy) : Nat := crc32c (leBytes 8 c.seq ++ c.body)

/-- Whether a copy stands: its CRC checks. -/
def MetaCopy.ok (c : MetaCopy) : Bool := decide (c.crc = c.sum)

/-- The copy to use, given which pages can be read: the one with the higher sequence number whose CRC checks (07 R159); true names copy B. -/
def MetaPair.pick (p : MetaPair) (ra rb : Bool) : Option Bool :=
  match ra && p.a.ok, rb && p.b.ok with
  | true, true => some (decide (p.a.seq < p.b.seq))
  | true, false => some false
  | false, true => some true
  | false, false => none

/-- The entries that a reading finds. -/
def MetaPair.read (p : MetaPair) (ra rb : Bool) : List Byte :=
  match p.pick ra rb with
  | some b => if b then p.b.body else p.a.body
  | none => []

/-- Writes the copy that is not in use, with the next sequence number (07 R159). -/
def MetaPair.write (p : MetaPair) (ra rb : Bool) (body : List Byte) : MetaPair :=
  let put (n : Nat) : MetaCopy := let c : MetaCopy := ⟨n, body, 0⟩; { c with crc := c.sum }
  match p.pick ra rb with
  | some true => { p with a := put (p.b.seq + 1) }
  | some false => { p with b := put (p.a.seq + 1) }
  | none => { p with a := put 1 }

/-- First page of extent 15 (07 Table 7.1). -/
abbrev page15 : Nat := 15 * 16384

/-- Whether `n` pages of a slice from `page` can be read. -/
def WTier.pagesOk (w : WTier) (t page n : Nat) : Bool := w.readable t (page * 4096) (n * 4096)

/-- Programming makes the codewords of a range of the medium right again. -/
def WTier.heal (w : WTier) (t a n : Nat) : WTier :=
  { w with weak := w.weak.filter fun e => match w.cwAddr e.1 with | some (u, b) => !(decide (u = t) && decide (b < a + n) && decide (a < b + 1024)) | none => true }

/-- A header entry: extent, IMAGE_ID, GEN, 1 for DOWNLOADING and 2 for OWNED (log 107). -/
def ownerBytes (o : Nat × Nat × W32 × W32 × Bool) : List Byte :=
  leBytes 1 o.2.1 ++ leBytes 4 o.2.2.1.toNat ++ leBytes 4 o.2.2.2.1.toNat ++ leBytes 1 (if o.2.2.2.2 then 1 else 2)

/-- The owners that the entries of the slice header of tile `t` give. -/
def ownersFrom (t : Nat) (b : List Byte) : List (Nat × Nat × W32 × W32 × Bool) := (List.range (b.length / 10)).map fun i =>
  (t, rdNat b (10 * i) 1, BitVec.ofNat 32 (rdNat b (10 * i + 1) 4), BitVec.ofNat 32 (rdNat b (10 * i + 5) 4), decide (rdNat b (10 * i + 9) 1 = 1))

/-- The page remaps that the entries of the table of tile `t` give: the page replaced, the pool page (log 107). -/
def remapFrom (t : Nat) (b : List Byte) : List (Nat × Nat × Nat) := (List.range (b.length / 8)).map fun i => (t, rdNat b (8 * i) 4, rdNat b (8 * i + 4) 4)

/-- Writes the slice header of tile `t`: pages 0 and 1 (07 Table 7.1). -/
def WTier.writeHdr (w : WTier) (t : Nat) : WTier :=
  let body := (w.owners.filter fun o => decide (o.1 = t)).flatMap ownerBytes
  let p := SMap.get (fun _ => MetaPair.reset) w.hdrs t
  { w with hdrs := SMap.set (fun _ => MetaPair.reset) w.hdrs t (p.write (w.pagesOk t page15 1) (w.pagesOk t (page15 + 1) 1) body) }

/-- Writes the page remap table of tile `t`: two copies of 8 pages from page 2 (07 Table 7.1). -/
def WTier.writeMap (w : WTier) (t : Nat) : WTier :=
  let body := (w.remap.filter fun e => decide (e.1 = t)).flatMap fun e => leBytes 4 e.2.1 ++ leBytes 4 e.2.2
  let p := SMap.get (fun _ => MetaPair.reset) w.maps t
  { w with maps := SMap.set (fun _ => MetaPair.reset) w.maps t (p.write (w.pagesOk t (page15 + 2) 8) (w.pagesOk t (page15 + 10) 8) body) }

/-- Changes the owners of extents; the header of every slice whose entries change is written (07 R159). -/
def WTier.setOwners (w : WTier) (os : List (Nat × Nat × W32 × W32 × Bool)) : WTier :=
  let of (l : List (Nat × Nat × W32 × W32 × Bool)) (t : Nat) := l.filter fun o => decide (o.1 = t)
  ((List.range Config.nTiles).filter fun t => decide (of w.owners t ≠ of os t)).foldl WTier.writeHdr { w with owners := os }

/-- Changes the page remaps of tile `t`, and writes its table. -/
def WTier.setRemap (w : WTier) (t : Nat) (f : List (Nat × Nat × Nat) → List (Nat × Nat × Nat)) : WTier := { w with remap := f w.remap }.writeMap t

/-- Gives extents of a rectangle an owner. -/
def WTier.own (w : WTier) (q : Rect) (xset : BitVec 15) (id gen : W32) (downloading : Bool) : WTier :=
  w.setOwners (w.owners ++ (rectSlices q).flatMap fun t => ((List.range 15).filter fun e => bit xset e).map fun e => (t, e, id, gen, downloading))

/-- Every extent a pair owns becomes FREE. -/
def WTier.disown (w : WTier) (id gen : W32) : WTier := w.setOwners (w.owners.filter fun o => !(decide (o.2.2.1 = id) && decide (o.2.2.2.1 = gen)))

/-- The extents of a pair leave DOWNLOADING and are OWNED. -/
def WTier.owned (w : WTier) (id gen : W32) : WTier :=
  w.setOwners (w.owners.map fun o => if decide (o.2.2.1 = id) && decide (o.2.2.2.1 = gen) then (o.1, o.2.1, id, gen, false) else o)

/-- The image and its owner entries go: the pair is EMPTY. -/
def WTier.dropImage (w : WTier) (id gen : W32) : WTier := { w.disown id gen with images := w.images.filter fun m => !(m.is id gen) }

/-- Owner of an extent of a slice (07 R159). -/
def WTier.owner (w : WTier) (t e : Nat) : Option Image :=
  match w.owners.find? fun o => decide (o.1 = t) && decide (o.2.1 = e) with
  | some o => w.image? o.2.2.1 o.2.2.2.1
  | none => none

/-- The TRIAL generation of an IMAGE_ID. -/
def WTier.trial (w : WTier) (id : W32) : Option Image := w.images.find? fun m => decide (m.id = id) && decide (m.st = .trial)

/-- The active generation of an IMAGE_ID: its TRIAL generation, otherwise its CONFIRMED one (07 R176). -/
def WTier.active (w : WTier) (id : W32) : Option Image :=
  match w.trial id with
  | some m => some m
  | none => w.images.find? fun m => decide (m.id = id) && decide (m.st = .confirmed)

/-- Whether an image is the revert target of a TRIAL generation. -/
def WTier.revertTarget (w : WTier) (m : Image) : Bool :=
  w.images.any fun i => decide (i.id = m.id) && decide (i.st = .trial) && decide (i.priorGen = m.gen)

/-- Values that IMAGE_ID and GEN never take (07 R166). -/
def pairBad (id gen : W32) : Bool := decide (id = 0) || decide (id = 0xFFFFFFFF) || decide (gen = 0) || decide (gen = 0xFFFFFFFF)

/-- Whether an entry of a map names an extent of a set. -/
def mapNames (v : W64) (xset : BitVec 15) : Bool :=
  (List.range 15).any fun e => let x := fld v (4 * e) 4; decide (x < 15) && bit xset x

/-- An image is mapped when a current or next map of a region names one of its extents (07 R177). -/
def Dev.mapped (d : Dev) (m : Image) : Bool :=
  (List.range Config.nRegions).any fun r => mapNames (d.xmap r) m.xset || mapNames (d.reg (Reg.WT_XMAP_NEXT + 8 * r)) m.xset

/-- Every mapped entry of a map names an extent of an image in TRIAL or CONFIRMED (07 R189, 09 R230). -/
def WTier.mapServes (w : WTier) (v : W64) : Bool :=
  (List.range 15).all fun e =>
    let x := fld v (4 * e) 4
    decide (x = 15) || w.images.any fun m => (decide (m.st = .trial) || decide (m.st = .confirmed)) && bit m.xset x

/-- Byte address within a slice of byte `o` of the image extent space (07 R168). -/
def Image.extAddr (m : Image) (o : Nat) : Nat := xsetExtent m.xset (o / 2 ^ 26) * 2 ^ 26 + o % 2 ^ 26

/-- Extents per slice. -/
def xcountOf (xset : BitVec 15) : Nat := xsetIndex xset 15

/-- The physical place of an address of a slice: its replacement page when one is mapped (07 R159). -/
def WTier.place (w : WTier) (t a : Nat) : Nat :=
  match w.remap.find? fun e => decide (e.1 = t) && decide (e.2.1 = a / 4096) with
  | some e => t * 2 ^ 30 + e.2.2 * 4096 + a % 4096
  | none => t * 2 ^ 30 + a

/-- Programs bytes from an address of a slice. -/
def WTier.program (w : WTier) (t a : Nat) (bs : List Byte) : WTier :=
  { w.heal t a bs.length with data := (bs.zipIdx).foldl (fun m e => m.write (w.place t (a + e.2)) e.1) w.data }

/-- Slice address of byte `o` of a shard. -/
def Image.shardAddr (m : Image) (s : Shard) (o : Nat) : Nat := xsetExtent m.xset s.x * 2 ^ 26 + s.page * 4096 + o

/-- Whether the stored bytes of shard `i` can be read and match its digest. -/
def WTier.shardOk (w : WTier) (m : Image) (i : Nat) : Bool :=
  match m.shards[i]? with
  | some s => w.readable s.slice (m.shardAddr s 0) s.len && decide (sha256 (w.bytes s.slice (m.shardAddr s 0) s.len) = s.digest)
  | none => true

/-! ### Manifests (07 R168, R169) -/

/-- Shard entry at an offset of a manifest (07 Table 7.4). -/
def parseShard (b : List Byte) (o : Nat) : Shard := ⟨rdNat b o 4, rdNat b (o + 4) 2, rdNat b (o + 6) 1, rdNat b (o + 8) 2, slice b (o + 16) 32⟩

/-- Adapter directory entry at an offset (07 Table 7.5). -/
def parseAdapter (b : List Byte) (o : Nat) : AdEnt := ⟨BitVec.ofNat 32 (rdNat b o 4), rdNat b (o + 4) 4, rdNat b (o + 8) 4⟩

/-- Whether two byte ranges meet. -/
def rangesMeet (a n b m : Nat) : Bool := decide (a < b + m) && decide (b < a + n)

/-- Whether two of a list are related. -/
def anyPair {α : Type} (f : α → α → Bool) : List α → Bool
  | [] => false
  | a :: l => l.any (f a) || anyPair f l

/-- The shards and adapters of a manifest for an image, or none when it is malformed (07 R169). -/
def parseManifest (m : Image) (b : List Byte) : Option (List Shard × List AdEnt) :=
  let ns := rdNat b 0x14 4
  let na := rdNat b 0x18 4
  let sh := (List.range ns).map fun i => parseShard b (64 + 48 * i)
  let ad := (List.range na).map fun i => parseAdapter b (64 + 48 * ns + 16 * i)
  let space := xcountOf m.xset * 2 ^ 26
  let headOk := decide (rdNat b 0 4 = 0x57484D31) && decide (rdNat b 4 2 = 1) && decide (rdNat b 6 1 = m.ikind.toNat) &&
    decide (rdNat b 7 1 = xcountOf m.xset) && decide (rdNat b 8 4 = m.id.toNat) && decide (rdNat b 12 4 = m.gen.toNat) &&
    decide (slice b 16 4 = [m.rect.b0, m.rect.b1, m.rect.c0, m.rect.c1].map (BitVec.ofNat 8 ·)) &&
    decide (1 ≤ ns) && decide (na ≤ 16384) && (decide (na = 0) || decide (m.ikind = 3)) &&
    decide (64 + 48 * ns + 16 * na = b.length) && decide (rdNat b 0x1C 4 = b.length) && decide (b.length ≤ 33554432)
  if headOk then
    let shardFine (s : Shard) : Bool := decide (1 ≤ s.len) && decide (s.len ≤ 4194304) && rectHolds m.rect s.slice &&
      decide (s.x < xcountOf m.xset) && decide (s.page * 4096 + s.len ≤ 67108864)
    let adFine (a : AdEnt) : Bool := decide (a.ad ≠ 0) && decide (a.ad ≠ 0xFFFFFFFF) && decide (a.xoff % 4096 = 0) &&
      decide (a.part % 16 = 0) && decide (16 ≤ a.part) && decide (a.part ≤ 3145728) && decide (a.xoff + a.part ≤ space)
    let meets (s u : Shard) : Bool := decide (s.slice = u.slice) && decide (s.x = u.x) && rangesMeet (s.page * 4096) s.len (u.page * 4096) u.len
    let manifest : Shard := ⟨b.length, m.rect.b0 * Config.lcols + m.rect.c0, 0, 0, []⟩
    if sh.all shardFine && ad.all adFine && !anyPair meets (manifest :: sh) && !anyPair (fun a c => decide (a.ad = c.ad)) ad then
      some (sh, ad)
    else none
  else none

/-! ### Journal copies (07 R173) -/

/-- Usable journal copies. -/
def Dev.jcopies (d : Dev) : BitVec 4 := BitVec.ofNat 4 (fld (d.reg Reg.WT_STATUS) 6 4)

/-- How many bits of a copy mask are set. -/
def copyCount (c : BitVec 4) : Nat := (List.range 4).countP fun k => bit c k

/-- A command may write a record: two copies remain (07 R173). -/
def Dev.jOk (d : Dev) : Bool := decide (copyCount d.jcopies ≥ 2)

/-- Replay is complete. -/
def Dev.jReady (d : Dev) : Bool := bit (d.reg Reg.WT_STATUS) 0

/-! ### The haul (07 R180 to R187) -/

/-- Whether a session stores: it is a MEMBER or the TAIL, has not stopped, and its pair is in reception. -/
def Session.stores (s : Session) (m : Image) : Bool :=
  decide (s.q.role ≠ .head) && !s.stopped && (decide (m.st = .downloading) || (decide (m.st = .bad) && s.q.repair))

/-- The manifest's SHARD value. -/
abbrev manifestNo : W32 := 0xFFFFFFFF

/-- Changes the receiving session of a SESSION value. -/
def Dev.modSession (d : Dev) (session : W32) (f : Session → Session) : Dev :=
  d.modWt fun w => { w with sessions := w.sessions.map fun s => if s.q.session = session ∧ s.q.role ≠ .head then f s else s }

/-- Changes the head role of a session. -/
def Dev.modHead (d : Dev) (session : W32) (f : Session → Session) : Dev :=
  d.modWt fun w => { w with sessions := w.sessions.map fun s => if s.q.session = session ∧ s.q.role = .head then f s else s }

/-- The receiving session of a SESSION value. -/
def Dev.session? (d : Dev) (session : W32) : Option Session := d.wt.sessions.find? fun s => decide (s.q.session = session) && decide (s.q.role ≠ .head)

/-- The head's session of a SESSION value. -/
def Dev.headOf (d : Dev) (session : W32) : Option Session := d.wt.sessions.find? fun s => decide (s.q.session = session) && decide (s.q.role = .head)

/-- The flows of a session: haul frames, and acknowledgements (12 R295, log 111). -/
def Session.frameFlow (s : Session) : Nat := 1025 + 2 * s.no
def Session.ackFlow (s : Session) : Nat := 1026 + 2 * s.no

/-- Sends an acknowledgement to the head (07 R185): a VC2 control packet. -/
def Dev.sendAck (d : Dev) (s : Session) (kind : Byte) (shard : W32) (status : W16) (jseq : W64) : Dev :=
  d.unitSend s.q.ackRoute 5 2 s.ackFlow (HaulAck.words ⟨s.q.session, d.id, kind, s.q.id, s.q.gen, shard, status, jseq⟩)

/-- SESSION_ERR: the session stops storing (07 R186). -/
def Dev.sessionErr (d : Dev) (s : Session) (shard : W32) (status : W16) : Dev :=
  ((d.sendAck s 4 shard status 0).modReg Reg.WT_ERR fun v => setBit v 4).modSession s.q.session fun s => { s with stopped := true }

/-- A NAK of a shard: its frames are ignored until it starts again; the third ends storing (07 R183, R186). -/
def Dev.nakShard (d : Dev) (s : Session) (shard : W32) : Dev :=
  let k := shard.toNat
  let n := ((s.naks.find? fun e => decide (e.1 = k)).map (·.2)).getD 0 + 1
  let d := (d.sendAck s 2 shard 0 0).modSession s.q.session fun s => { s with
    parts := s.parts.filter fun p => decide (p.1 ≠ shard)
    ignore := if k ∈ s.ignore then s.ignore else s.ignore ++ [k]
    naks := (s.naks.filter fun e => decide (e.1 ≠ k)) ++ [(k, n)] }
  if n ≥ 3 then d.sessionErr s shard St.DIGEST_MISMATCH else d

/-- Issues a DMA read (17 R392). -/
def Dev.issueDma (d : Dev) (use : DmaUse) : Dev :=
  { d with host := { d.host with dma := d.host.dma ++ [(d.host.nextDma, use)], nextDma := d.host.nextDma + 1 } }

/-- Whether a DMA read for a consumer is outstanding. -/
def Dev.dmaOut (d : Dev) (use : DmaUse) : Bool := d.host.dma.any fun e => decide (e.2 = use)

/-- Forgets the DMA reads of a consumer. -/
def Dev.dropDma (d : Dev) (use : DmaUse) : Dev := { d with host := { d.host with dma := d.host.dma.filter fun e => decide (e.2 ≠ use) } }

/-! ### Resident weights (07 R193) -/

/-- Copies a resident-weight range from the own slice into the scratchpad of its tile; true when it met an uncorrectable codeword. -/
def Dev.loadResident (d : Dev) (r : Nat) (x : Resident) : Dev × Bool :=
  let n := 64 * x.lines
  let bs := d.wt.readProg d.ctr (d.xmap r) x.t x.saddr n
  let (d, bad) := d.tierMeet x.t (progRanges (d.xmap r) x.saddr n)
  let d := if bad.isEmpty then d else bad.foldl (fun d p => d.uncorrectable x.t p) d.drawn
  (d.modTile x.t fun t => t.spadWrite (64 * x.line) bs, !bad.isEmpty)

/-- Copies resident-weight ranges of a region. -/
def Dev.loadResidents (d : Dev) (r : Nat) (xs : List Resident) : Dev × Bool :=
  xs.foldl (fun s x => match s.1.loadResident r x with | (d, bad) => (d, s.2 || bad)) (d, false)

/-! ### Layer swaps (07 R189 to R192) -/

/-- Whether a swap still names region `r`. -/
def Swap.names (w : Swap) (r : Nat) : Bool := bit w.mask r && !bit w.left r

/-- A swap naming region `r` is armed. -/
def Dev.swapArmed (d : Dev) (r : Nat) : Bool := d.wt.swaps.any fun w => w.names r

/-- Regions a swap still waits for. -/
def Swap.waits (w : Swap) : List Nat := (List.range Config.nRegions).filter fun r => w.names r && !bit w.copied r

/-- No step of the region is in progress: it is at a step boundary. -/
def Region.atBoundary (x : Region) : Bool := decide (x.phase = .idle) || decide (x.phase = .admitted)

/-- HOLD_ALL keeps a region from starting a step until the copy (07 R190). -/
def Dev.swapHolds (d : Dev) (r : Nat) : Bool := d.wt.swaps.any fun w => !w.rolling && w.names r && !bit w.copied r

/-- A step that starts now carries MIXED under an armed swap (07 R191). -/
def Dev.swapMixed (d : Dev) (r : Nat) : Bool := d.wt.swaps.any fun w => w.rolling && w.names r && w.tFirst.isSome && !w.waits.isEmpty

/-- Region `r` copies its map and waits for the reload of its resident weights. -/
def Dev.copyMap (d : Dev) (r : Nat) : Dev :=
  (d.setReg (Reg.WT_XMAP + 8 * r) (d.reg (Reg.WT_XMAP_NEXT + 8 * r))).modRegion r fun x => { x with reload := !x.residents.isEmpty }

/-- The copies a swap can make now (07 R190, R191). The first TAIL steps that a named region of a rolling swap starts at or after a copy
carry MIXED: after the last copy those that the rule names, before it steps that carry MIXED anyway. -/
def Dev.swapStep (d : Dev) (w : Swap) : Dev × Swap :=
  let ready := w.waits.filter fun r => (d.region r).atBoundary
  let now := if w.rolling then ready else if ready = w.waits then ready else []
  if now = [] then (d, w)
  else
    let d := now.foldl (fun d r => d.copyMap r) d
    let w : Swap := { w with copied := now.foldl (fun c r => setBit c r) w.copied, tFirst := some (w.tFirst.getD d.now) }
    let d := if w.rolling then
        ((List.range Config.nRegions).filter fun r => w.names r).foldl (fun d r => d.modRegion r fun x => { x with mixedLeft := max x.mixedLeft w.tail }) d
      else d
    (d, w)

/-- Every armed swap makes the copies it can make now. -/
def Dev.swapRun (d : Dev) : Dev :=
  d.wt.swaps.foldl (fun d w =>
    let dw := d.swapStep w
    dw.1.modWt fun t => { t with swaps := t.swaps.map fun u => if u = w then dw.2 else u }) d

/-! ### Adapter slots (07 R194) -/

/-- An adapter slot at a step boundary. -/
def AdSlot.boundary (a : AdSlot) : AdSlot :=
  let a := if a.evict then { a with st := .empty, ad := 0, evict := false, job := none } else a
  match a.st, a.job with
  | .loading, some j => if j.copied then { a with st := .ready, ad := j.ad, job := none } else a
  | .ready, some _ => { a with st := .loading, ad := 0 }
  | .empty, some _ => { a with st := .loading }
  | _, _ => a

/-- Changes adapter slot `k` of a region. -/
def Region.modAd (x : Region) (k : Nat) (f : AdSlot → AdSlot) : Region :=
  { x with adslots := (x.adslots.zipIdx).map fun e => if e.2 = k then f e.1 else e.1 }

/-! ### Slices of a half-bench (07 R197, 15 R345, R347) -/

/-- The logical tiles of half-bench `n`. -/
def halfTiles (n : Nat) : List Nat := (List.range 23).map fun i => n / 2 * Config.lcols + (n % 2) * 23 + i

/-- The shards of an image in the slice of tile `t`. -/
def shardsOf (m : Image) (t : Nat) : List Nat :=
  (List.range m.shards.length).filter fun i => match m.shards[i]? with | some s => decide (s.slice = t) | none => false

/-- Every shard in a slice is marked BAD (15 R345 item 7, R347). -/
def Dev.badSlice (d : Dev) (t : Nat) : Dev :=
  d.wt.images.foldl (fun d m =>
    if m.st = .empty then d else (shardsOf m t).foldl (fun d i => d.journal ⟨.badShard, m, i, none, 0, none, none⟩) d) d

/-- A shift of slices that power loss interrupted (15 R347): every shard in a slice of the shift is marked BAD, and the remap table reads
DONE (log 55). -/
def Dev.shiftCut (d : Dev) (n : Nat) : Dev :=
  let v := d.skip n
  if bit v 7 then
    let moved := (halfTiles n).filter fun u => decide (physCol (fld (skipDefault n) 0 6) (u % Config.lcols) ≠ physCol (fld v 0 6) (u % Config.lcols))
    let d := moved.foldl Dev.badSlice d
    { d with aon := { d.aon with skip := SMap.set skipDefault d.aon.skip n (clrBit v 7) } }
  else d

end Sys2Proof.Machine
end

