-- ==== Sys2Proof/Machine/LoadOps.lean ====
section
/-! DEFINITION. Program images (09): their layout and checks (R227, R228, Table 9.3), relocation (R232), the load (R231), the route
patch entry (R233), the configuration signature (R235). -/

namespace Sys2Proof.Machine

/-! ### Layout (09 R227, R228) -/

/-- A section: its entry in the table and its content. -/
structure Sect where
  kind : Nat
  tile : Nat
  dest : Nat
  bytes : List Byte
deriving DecidableEq, Repr

/-- The header and sections of an image. -/
structure Prog where
  h : Nat
  w : Nat
  seam : Nat
  ndev : Nat
  sects : List Sect
deriving DecidableEq, Repr

/-- Entry `i` of the section table; none when its content passes the image. -/
def parseSect (b : List Byte) (i : Nat) : Option Sect :=
  let o := 0x60 + 16 * i
  let off := rdNat b (o + 4) 4
  let len := rdNat b (o + 8) 4
  if off + len ≤ b.length then some ⟨rdNat b o 2, rdNat b (o + 2) 2, rdNat b (o + 12) 4, slice b off len⟩ else none

/-- All of a list of options, or none. -/
def allSome {α : Type} : List (Option α) → Option (List α)
  | [] => some []
  | none :: _ => none
  | some a :: l => (allSome l).map (a :: ·)

/-- The records of a section of `n` bytes each. -/
def Sect.recs (s : Sect) (n : Nat) : List (List Byte) := (List.range (s.bytes.length / n)).map fun i => slice s.bytes (n * i) n

/-- A range of scratchpad lines of a RESIDENT or ADSLOTS record. -/
def lineRangeOk (line lines : Nat) : Bool := decide (1 ≤ lines) && decide (line + lines ≤ Config.spadLines)

/-- A register that a REGS record may name (09 R228). -/
def regsOk (off : Nat) : Bool :=
  (decide (0x1000 ≤ off ∧ off < 0x6000) || decide (off = Reg.SCB_ENTRY) || decide (off = Reg.SCB_TVEC) || decide (off = Reg.SCB_WDOG)) &&
  match tileRow off with
  | some r => decide (r.rc = 0) && (decide (r.rw ≠ 0) || decide (r.w1c ≠ 0) || decide (r.act ≠ 0))
  | none => false

/-- A route patch entry of 128 bytes (09 Table 9.5). -/
def parseRoute (b : List Byte) : RouteEnt :=
  let n := rdNat b 0 1
  ⟨n, rdNat b 1 1, BitVec.ofNat 12 (rdNat b 2 2), (List.range n).map fun a =>
    let o := 28 * a
    ⟨BitVec.ofNat 128 (rdNat b (0x10 + o) 16), rdNat b (0x20 + o) 1, rdNat b (0x21 + o) 1, BitVec.ofNat 32 (rdNat b (0x22 + o) 4),
      decide (rdNat b (0x26 + o) 1 % 2 = 1)⟩⟩

/-- A well-formed route patch entry. -/
def RouteEnt.ok (e : RouteEnt) : Bool :=
  decide (e.nalt ≤ 4) && (decide (e.nalt = 0) || decide (e.active < e.nalt)) &&
  e.alts.all fun a => decide (a.hops ≤ 32) && decide (a.segn ≤ 4) && (!a.mcast || (decide (a.hops ≤ 8) && decide (a.nrcv ≤ 64)))

/-- Whether a section keeps the rules of its kind (09 Table 9.2). -/
def Sect.ok (s : Sect) (p : Prog) (nsect : Nat) : Bool :=
  let n := s.bytes.length
  let fills (k : Nat) : Bool := decide (n % k = 0)
  (decide (s.tile = 0xFFFF) || (decide (s.tile / Config.lcols < p.h) && decide (s.tile % Config.lcols < p.w))) &&
  match s.kind with
  | 1 => decide (s.dest % 4 = 0) && fills 4 && decide (s.dest + n ≤ 65536)
  | 2 => decide (s.dest + n ≤ 65536)
  | 3 => decide (s.dest + n ≤ Config.spadBytes)
  | 4 => fills 16 && (s.recs 16).all fun r => decide (rdNat r 0 4 % 64 = 0) && lineRangeOk (rdNat r 4 2) (rdNat r 6 2)
  | 5 => fills 40 && (s.recs 40).all fun r => decide (rdNat r 0 2 ≤ 1023)
  | 6 => decide (n = 0) || decide (n = 2568)
  | 7 => fills 128 && (s.recs 128).all fun r => (parseRoute r).ok
  | 8 => fills 16 && (s.recs 16).all fun r => regsOk (rdNat r 0 4)
  | 9 => fills 8 && (s.recs 8).all fun r =>
      let k := rdNat r 5 1
      let wd := rdNat r 7 1
      let x := (p.sects.map fun y => y.bytes.length).getD (rdNat r 4 1) 0
      decide (rdNat r 4 1 < nsect) && decide (1 ≤ k) && decide (k ≤ 6) && decide (1 ≤ wd) && decide (wd ≤ 32) &&
      decide (8 * rdNat r 0 4 + rdNat r 6 1 + wd ≤ 8 * x)
  | 10 => decide (s.tile = 0xFFFF) && (decide (n = 0) || decide (n = 8))
  | 11 => fills 8 && (s.recs 8).all fun r => lineRangeOk (rdNat r 0 2) (rdNat r 2 2)
  | _ => false

/-- The program of an image, or none when it breaks Tables 9.1, 9.2, 9.4 or 9.5. -/
def parseProg (b : List Byte) (length : Nat) : Option Prog :=
  let h := rdNat b 8 1
  let w := rdNat b 9 1
  let seam := rdNat b 0x0A 1
  let ndev := rdNat b 0x0C 2
  let ns := rdNat b 0x0E 2
  let headOk := decide (b.length = length) && decide (rdNat b 0x28 4 = length) && decide (rdNat b 0 4 = 0x54504731) && decide (rdNat b 4 2 = 1) &&
    decide (1 ≤ h ∧ h ≤ 24) && decide (1 ≤ w ∧ w ≤ 46) && (decide (seam = 0xFF) || decide (1 ≤ seam ∧ seam ≤ w - 1)) &&
    decide (1 ≤ ndev ∧ ndev ≤ 4096) && decide (1 ≤ ns ∧ ns ≤ 1024) && decide (0x60 + 16 * ns ≤ length)
  if headOk then
    match allSome ((List.range ns).map fun i => parseSect b i) with
    | some ss =>
      let p : Prog := ⟨h, w, seam, ndev, ss⟩
      if ss.all fun s => s.ok p ns then some p else none
    | none => none
  else none

/-! ### Relocation (09 R232) -/

/-- What replaces the content of a relocated field (09 Table 9.4); none for a pipeline position not below NDEV. -/
def relocValue (q : LoadReq) (ndev kind v : Nat) : Option Nat :=
  match kind with
  | 1 => some (v + q.b0 * Config.lcols + q.c0)
  | 2 => some (v + q.b0)
  | 3 => some (v + q.c0)
  | 4 => some (if v + q.c0 ≤ 22 then v + q.c0 else v + q.c0 - 23)
  | 5 => if v < ndev then some ((q.devs.map (·.toNat)).getD v 0) else none
  | _ => some (v + q.routeBase)

/-- One relocation record on the sections: PROGRAM_INVALID, RELOC_OVERFLOW, or the sections after it. -/
def relocOne (q : LoadReq) (ndev : Nat) (st : W16 × List Sect) (r : List Byte) : W16 × List Sect :=
  if st.1 ≠ St.OK then st
  else
    let off := rdNat r 0 4
    let sect := rdNat r 4 1
    let lsb := rdNat r 6 1
    let wd := rdNat r 7 1
    match st.2[sect]? with
    | none => (St.PROGRAM_INVALID, st.2)
    | some s =>
      let n := cdiv (lsb + wd) 8
      let old := rdNat s.bytes off n
      match relocValue q ndev (rdNat r 5 1) (old / 2 ^ lsb % 2 ^ wd) with
      | none => (St.PROGRAM_INVALID, st.2)
      | some v =>
        if v < 2 ^ wd then
          let new := old - old / 2 ^ lsb % 2 ^ wd * 2 ^ lsb + v * 2 ^ lsb
          (St.OK, st.2.set sect { s with bytes := s.bytes.take off ++ leBytes n new ++ s.bytes.drop (off + n) })
        else (St.RELOC_OVERFLOW, st.2)

/-- Applies every relocation record. -/
def relocAll (q : LoadReq) (p : Prog) : W16 × List Sect :=
  ((p.sects.filter fun s => decide (s.kind = 9)).flatMap fun s => s.recs 8).foldl (relocOne q p.ndev) (St.OK, p.sects)

/-! ### What the sections declare -/

/-- The tiles a section applies to. -/
def sectTiles (q : LoadReq) (p : Prog) (s : Sect) : List Nat :=
  if s.tile = 0xFFFF then (List.range p.h).flatMap fun i => (List.range p.w).map fun j => (q.b0 + i) * Config.lcols + q.c0 + j
  else [(q.b0 + s.tile / Config.lcols) * Config.lcols + q.c0 + s.tile % Config.lcols]

/-- The sections of a kind. -/
def ofKind (ss : List Sect) (k : Nat) : List Sect := ss.filter fun s => decide (s.kind = k)

/-- Resident-weight ranges. -/
def residentsOf (q : LoadReq) (p : Prog) (ss : List Sect) : List Resident :=
  (ofKind ss 4).flatMap fun s => (sectTiles q p s).flatMap fun t => (s.recs 16).map fun r => ⟨t, rdNat r 0 4, rdNat r 4 2, rdNat r 6 2⟩

/-- Adapter slots. -/
def adslotsOf (ss : List Sect) : List AdSlot :=
  (ofKind ss 11).flatMap fun s => (s.recs 8).map fun r => ⟨rdNat r 0 2, rdNat r 2 2, .empty, 0, none, false⟩

/-- Route patch entries with their numbers. -/
def routesOf (q : LoadReq) (ss : List Sect) : List (Nat × RouteEnt) :=
  (ofKind ss 7).flatMap fun s => ((s.recs 128).zipIdx).map fun e => (q.routeBase + s.dest + e.2, parseRoute e.1)

/-- The extent map of the image; without an XMAP section the map that the host put into WT_XMAP_NEXTr. -/
def Dev.xmapOf (d : Dev) (r : Nat) (ss : List Sect) : W64 :=
  match ((ofKind ss 10).filter fun s => decide (s.bytes.length = 8)).getLast? with
  | some s => BitVec.ofNat 64 (rdNat s.bytes 0 8 % 2 ^ 60)
  | none => d.reg (Reg.WT_XMAP_NEXT + 8 * r)

/-! ### The checks of a load (09 Table 9.3) -/

/-- The status of a load and, when it is OK, the program with its relocated sections. `recov` marks a recovery load of the region that
holds the program already (15 R345 item 8). -/
def Dev.loadCheck (d : Dev) (q : LoadReq) (recov : Bool) : W16 × Option (Prog × List Sect) :=
  let x := d.region q.r
  if x.st ≠ .empty ∧ recov = false then (St.REGION_BUSY, none)
  else
    let h := rdNat q.image 8 1
    let w := rdNat q.image 9 1
    let meets (y : Region) : Bool := decide (y.b0 < q.b0 + h) && decide (q.b0 < y.b0 + y.h) && decide (y.c0 < q.c0 + w) && decide (q.c0 < y.c0 + y.w)
    if q.b0 + h > Config.benches ∨ q.c0 + w > Config.lcols ∨ (d.regions.any fun e => decide (e.1 ≠ q.r) && decide (e.2.st ≠ .empty) && meets e.2) = true then
      (St.REGION_OVERLAP, none)
    else match parseProg q.image q.length with
      | none => (St.PROGRAM_INVALID, none)
      | some p =>
        let others := d.regions.foldl (fun s e => if e.1 = q.r ∨ e.2.st = .empty then s else s + e.2.adslots.length) 0
        if others + (adslotsOf p.sects).length > 512 ∨ q.devs.length < p.ndev then (St.PROGRAM_INVALID, none)
        else if sha256 (q.image.drop 0x60) ≠ slice q.image 0x30 32 then (St.DIGEST_MISMATCH, none)
        else if rdNat q.image 0x10 8 ≠ (d.reg Reg.HOST_FEAT0).toNat ∨ rdNat q.image 0x18 8 ≠ (d.reg Reg.HOST_FEAT1).toNat ∨
            rdNat q.image 0x20 8 ≠ (d.reg Reg.HOST_FEAT2).toNat then (St.FEATURE_MISMATCH, none)
        else if (p.seam ≠ 0xFF ∧ q.c0 + p.seam ≠ 23) ∨ (p.seam = 0xFF ∧ q.c0 ≤ 22 ∧ 23 < q.c0 + p.w) then (St.PLACEMENT_SEAM, none)
        else
          let rl := relocAll q p
          if rl.1 ≠ St.OK then (rl.1, none)
          else
            let ss := rl.2
            let rs := routesOf q ss
            let own (k : Nat) : Bool := recov && x.routes.contains k
            if rs.any fun e => decide (e.1 > 4095) || (decide ((d.route e.1).nalt ≠ 0) && !own e.1) then (St.ROUTE_INVALID, none)
            else if d.wt.mapServes (d.xmapOf q.r ss) = false then (St.IMAGE_STATE, none)
            else if (residentsOf q p ss).all fun e => xmapOk (d.xmapOf q.r ss) e.saddr (64 * e.lines) then (St.OK, some (p, ss))
            else (St.PROGRAM_INVALID, none)

/-! ### The load (09 R231) -/

/-- The Scarab is HALTED until the first STEP_START (09 R231). -/
def Tile.scbHalted (t : Tile) (fresh : Bool) : Tile :=
  { t with scb := { t.scb with mode := .halted, stall := .none, haltReq := false, fresh := fresh } }

/-- Every queue context of the tile is reset; its entries close and items in sending are abandoned. -/
def Tile.queuesReset (t : Tile) : Tile := { t.dropTx with qctx := [], reasm := [], qwait := false }

/-- Byte ranges of the arena, the directory area and the shadow area. -/
def Tile.kvRanges (t : Tile) : List (Nat × Nat) :=
  [(t.kvBase * 64, 4096 * t.kvFrames), (t.dirBase * 64, t.dirBytes),
    (64 * fld (t.reg Reg.WVL_SHADOW) 32 16, 64 * fld (t.reg Reg.WVL_SHADOW) 48 16)]

/-- The same ranges as the REGS records of a tile's sections configure them. -/
def Tile.kvRangesOf (t : Tile) (ss : List Sect) : List (Nat × Nat) :=
  ((ofKind ss 8).foldl (fun t s => (s.recs 16).foldl (fun t b =>
    let off := rdNat b 0 4
    if off = Reg.WVL_CFG ∨ off = Reg.WVL_DIR ∨ off = Reg.WVL_SHADOW then t.setReg off (BitVec.ofNat 64 (rdNat b 8 8)) else t) t) t).kvRanges

/-- Whether a scratchpad byte lies in a list of ranges. -/
def inRanges (rs : List (Nat × Nat)) (a : Nat) : Bool := rs.any fun r => decide (r.1 ≤ a) && decide (a < r.1 + r.2)

/-- Items 2 and 3 before the QUEUES records: memories of one tile. `keep` are the lines a recovery load leaves unwritten. -/
def Tile.loadMem (t : Tile) (r : Nat) (keep : List (Nat × Nat)) (ss : List Sect) : Tile :=
  let t := (t.scbHalted true).queuesReset
  let t : Tile := { t.setReg Reg.MESH_REGION (BitVec.ofNat 64 r) with
    spad := t.spad.filter fun e => inRanges keep e.1
    parInv := t.parInv.filter (inRanges keep)
    wvl := { t.wvl with unsync := [] } }
  ss.foldl (fun t s =>
    match s.kind with
    | 1 => { t with imem := t.imem.writeN s.dest s.bytes }
    | 2 => { t with dmem := t.dmem.writeN s.dest s.bytes }
    | 3 => { t with spad := (s.bytes.zipIdx).foldl (fun m e => if inRanges keep (s.dest + e.2) then m else m.write (s.dest + e.2) e.1) t.spad }
    | _ => t) t

/-- The QUEUES records by CONFIG (06 R153); one that CONFIG refuses leaves its context reset (log 33). -/
def Tile.loadQueues (t : Tile) (ss : List Sect) : Tile :=
  (ofKind ss 5).foldl (fun t s => (s.recs 40).foldl (fun t b =>
    let w (i : Nat) : W64 := BitVec.ofNat 64 (rdNat b (8 + 8 * i) 8)
    if qCheck (w 0) (w 1) = St.OK then t.setQc (rdNat b 0 2) (QCtx.ofWords (w 0) (w 1) (w 2) (w 3)) else t) t) t

/-- The router slot table of a tile (11, SLOTS). -/
def Tile.loadSlots (t : Tile) (ss : List Sect) : Tile :=
  ((ofKind ss 6).filter fun s => decide (s.bytes.length = 2568)).foldl (fun t s =>
    let t := t.modReg Reg.MESH_SLOTCFG fun v => setFld v 0 15 (rdNat s.bytes 0 8)
    (List.range 320).foldl (fun t i => t.setReg (Reg.MESH_SLOTTAB + 8 * i) (BitVec.ofNat 64 (rdNat s.bytes (8 + 8 * i) 8))) t) t

/-- The REGS records of one tile in image order. In a recovery load WVL_CFG and WVL_DIR stand already, with the frames in use (15 R345 item 8). -/
def Dev.loadRegs (d : Dev) (t : Nat) (ss : List Sect) (recov : Bool) : Dev :=
  (ofKind ss 8).foldl (fun d s => (s.recs 16).foldl (fun d b =>
    let off := rdNat b 0 4
    let v : W64 := BitVec.ofNat 64 (rdNat b 8 8)
    if recov = true ∧ (off = Reg.WVL_CFG ∨ off = Reg.WVL_DIR) ∧ (d.tile t).reg off = v then d else d.tileWrite t off fullMask v) d) d

/-- The configuration signature (09 R235). -/
def Dev.cfgSig (d : Dev) (q : LoadReq) (ndev : Nat) : W64 :=
  let block := leBytes 8 (d.reg Reg.HOST_FEAT0).toNat ++ leBytes 8 (d.reg Reg.HOST_FEAT1).toNat ++ leBytes 8 (d.reg Reg.HOST_FEAT2).toNat ++
    leBytes 8 (d.reg Reg.HOST_FEAT3).toNat ++ leBytes 1 q.b0 ++ leBytes 1 q.c0 ++ leBytes 2 ndev ++ List.replicate 28 0
  BitVec.ofNat 64 (rdNat (sha256 block) 0 8)

/-- Puts route patch entries in place. -/
def Dev.setRoutes (d : Dev) (rs : List (Nat × RouteEnt)) : Dev :=
  { d with routes := rs.foldl (fun m e => SMap.set (fun _ => RouteEnt.reset) m e.1 e.2) d.routes }

/-- What an unload does to the region's tiles, entries, maps and signature (16 R379). -/
def Dev.unload (d : Dev) (r : Nat) : Dev :=
  let x := d.region r
  let d := x.tileList.foldl (fun d t => d.modTile t fun y =>
    let y := ((y.scbHalted false).queuesReset).setReg Reg.MESH_REGION 0x7F
    let y := ((y.setReg Reg.WVL_CFG 0).setReg Reg.WVL_DIR 0).setReg Reg.WVL_SHADOW 0
    { y with wvl := { y.wvl with ft := [], unsync := [] } }) d
  let d := { d with routes := x.routes.foldl (fun m k => SMap.set (fun _ => RouteEnt.reset) m k RouteEnt.reset) d.routes }
  let un : W64 := 0xFFFFFFFFFFFFFFF
  let d := ((d.setReg (Reg.WT_XMAP + 8 * r) un).setReg (Reg.WT_XMAP_NEXT + 8 * r) un).setReg (Reg.HOST_CFGSIG + 8 * r) 0
  d.modRegion r fun y => { y with
    st := .empty, b0 := 0, c0 := 0, h := 0, w := 0, load := none, routes := [], residents := [], adslots := [], fetched := none,
    reload := false, badWords := [], mixedLeft := 0 }

/-- A load that an error interrupts leaves the region's tiles halted and the region without a program (09 R231). One that was loaded before
stays in FAULT, with the place and parameters that a recovery load needs (15 R345 item 8, log 108). -/
def Dev.loadFailed (d : Dev) (r : Nat) (recov : Bool) : Dev :=
  let x := d.region r
  let d := d.unload r
  if recov then
    let d := x.tileList.foldl (fun d t => d.modTile t fun y => y.setReg Reg.MESH_REGION (BitVec.ofNat 64 r)) d
    d.modRegion r fun y => { y with st := .fault, b0 := x.b0, c0 := x.c0, h := x.h, w := x.w, load := x.load }
  else d

/-- An accepted load (09 R231): its status. -/
def Dev.loadApply (d : Dev) (q : LoadReq) (p : Prog) (ss : List Sect) (recov : Bool) : Dev × W16 :=
  let x := d.region q.r
  let d := d.setRegion q.r { x with
    b0 := q.b0, c0 := q.c0, h := p.h, w := p.w, load := some q, routes := (routesOf q ss).map (·.1)
    residents := residentsOf q p ss, adslots := adslotsOf ss, reload := false, badWords := [] }
  let ts := (d.region q.r).tileList
  let mine (t : Nat) : List Sect := ss.filter fun s => (sectTiles q p s).contains t
  let d := ts.foldl (fun d t => d.modTile t fun y =>
    (y.loadMem q.r (if recov then y.kvRangesOf (mine t) else []) (mine t)).loadQueues (mine t)) d
  let d := ts.foldl (fun d t => d.loadRegs t (mine t) recov) d
  let d := ts.foldl (fun d t => d.modTile t fun y => y.loadSlots (mine t)) d
  let d := d.setRoutes (routesOf q ss)
  let xm := d.xmapOf q.r ss
  match ((d.setReg (Reg.WT_XMAP_NEXT + 8 * q.r) xm).setReg (Reg.WT_XMAP + 8 * q.r) xm).loadResidents q.r (residentsOf q p ss) with
  | (d, true) => (d.loadFailed q.r recov, St.LOAD_FAILED)
  | (d, false) =>
  let d := d.setReg (Reg.HOST_CFGSIG + 8 * q.r) (d.cfgSig q p.ndev)
  let d := if x.st = .empty then (d.setReg (Reg.SRV_LAST + 8 * q.r) 0).setReg (Reg.SRV_TDC + 8 * q.r) 0 else d
  (d.modRegion q.r fun x => { x with st := if recov then .fault else .stopped }, St.OK)

/-- Records a DMA error in HOST_DMAERR (17 R392): the first one keeps its ring pair, 0xFFF for no ring. -/
def Dev.dmaErr (d : Dev) (k : DmaErr) (pair : Nat) : Dev :=
  let b : Nat := match k with | .cpl => 0 | .timeout => 1 | .poison => 2
  d.modReg Reg.HOST_DMAERR fun v => if fld v 0 3 = 0 then setBit (setFld v 32 12 pair) b else setBit (setBit v b) 3

/-- The program section of a MODEL image: its first shard (07 R195, log 106), with the status of a pair that cannot be loaded; codewords are met
as by any read. -/
def Dev.modelProgram (d : Dev) (id gen : W32) : Dev × (W16 × List Byte) :=
  if pairBad id gen then (d, St.IMAGE_UNKNOWN, [])
  else match (d.wt.image? id gen).filter fun i => decide (i.ikind = 4) && (decide (i.st = .trial) || decide (i.st = .confirmed)) with
    | none => (d, St.IMAGE_STATE, [])
    | some i => match i.shards with
      | [] => (d, St.IMAGE_STATE, [])
      | s :: _ =>
        match d.tierMeet s.slice [(i.shardAddr s 0, s.len)] with
        | (d, []) => (d, St.OK, d.wt.bytes s.slice (i.shardAddr s 0) s.len)
        | (d, bad) => (bad.foldl (fun d p => d.uncorrectable s.slice p) d, St.LOAD_FAILED, [])

/-- The checks of a load, then its effect. -/
def Dev.loadChecked (d : Dev) (q : LoadReq) (recov : Bool) : Dev × W16 :=
  match d.loadCheck q recov with
  | (_, some (p, ss)) => d.loadApply q p ss recov
  | (st, none) => (d, st)

/-- A load: its image is read, by DMA or from a MODEL image, then checked, then it has its effect. -/
def Dev.loadImage (d : Dev) (q : LoadReq) (recov : Bool) : Dev × W16 :=
  let failed (d : Dev) : Dev := if recov then d.loadFailed q.r true else d
  match q.model, q.dmaFail with
  | some (id, gen), _ =>
    match d.modelProgram id gen with
    | (d, st, bs) =>
      if st = St.OK then d.loadChecked { q with image := bs, length := bs.length } recov
      else (if st = St.LOAD_FAILED then failed d else d, st)
  | none, some k => (failed (d.dmaErr k 0xFFF), St.LOAD_FAILED)
  | none, none => d.loadChecked q recov

end Sys2Proof.Machine
end

