-- ==== Sys2Proof/Machine/RouteOps.lean ====
section
/-! DEFINITION. The mesh (11): the outputs a router chooses (R273 to R275, R281), region enforcement (R282 to R284), slots (R277, R278), links with
their credit (R268, R285, R286), and one tile cycle of every router (R276). -/

namespace Sys2Proof

/-- Whether ROUTE still names a hop (11 R274). -/
def Packet.hopLeft (p : Packet) : Bool := decide (p.hopptr.toNat < p.hops.toNat)

/-- Segment `i` of a header: DIR and COUNT (11 R273). -/
def Packet.seg (p : Packet) (i : Nat) : Nat × Nat := (fld p.segs (8 * i) 2, fld p.segs (8 * i + 2) 6)

/-- Advances SEGPTR past segments of COUNT 0 (11 R273). -/
def Packet.skipSegs : Nat → Packet → Packet
  | 0, p => p
  | n + 1, p =>
    if p.segptr.toNat < p.segn.toNat ∧ (p.seg p.segptr.toNat).2 = 0 then Packet.skipSegs n { p with segptr := p.segptr + 1 } else p

/-- Whether no later segment moves the packet. -/
def Packet.lastSeg (p : Packet) : Bool :=
  (List.range p.segn.toNat).all fun i => decide (i ≤ p.segptr.toNat) || decide ((p.seg i).2 = 0)

/-- One hop taken: COUNT of the current segment is decremented. -/
def Packet.hop (p : Packet) : Packet :=
  let lo := 8 * p.segptr.toNat + 2
  { p with segs := setFld p.segs lo 6 (fld p.segs lo 6 - 1) }

/-- The output of a DIR code (11 R273). -/
def dirPort (d : Nat) : Port5 := match d with | 0 => .north | 1 => .east | 2 => .south | _ => .west

/-- The neighbour of tile `t` over an output; none where the grid ends. -/
def neighbour (t : Nat) (o : Port5) : Option (Nat × Port5) :=
  let b := t / Config.lcols
  let c := t % Config.lcols
  match o with
  | .north => if b = 0 then none else some (t - Config.lcols, .south)
  | .south => if b + 1 ≥ Config.benches then none else some (t + Config.lcols, .north)
  | .east => if c + 1 ≥ Config.lcols then none else some (t + 1, .west)
  | .west => if c = 0 then none else some (t - 1, .east)
  | _ => none

/-- The gateway that output `o` of tile `t` leads to. -/
def edgeGateway (t : Nat) (o : Port5) : Option Nat :=
  match o with
  | .north => if t / Config.lcols = 0 then some (colGateway (t % Config.lcols)) else none
  | .south => if t / Config.lcols + 1 = Config.benches then some (4 + colGateway (t % Config.lcols)) else none
  | _ => none

/-- First and last column of a gateway's span (11 R275). -/
def gatewaySpan (g : Nat) : Nat × Nat := match g % 4 with | 0 => (0, 11) | 1 => (12, 22) | 2 => (23, 34) | _ => (35, 45)

/-- The outputs of a packet at tile `t` that it reached by input `inp`; none is a misrouted packet (11 R273, R274, R281).
A packet that was at its on-die end before it came over a link is a copy of a rectangle multicast. -/
def Packet.outputs (p : Packet) (t : Nat) (inp : Port5) : Option (List (Port5 × Packet)) :=
  let b := t / Config.lcols
  let c := t % Config.lcols
  let copy := p.rmc && decide (p.segptr.toNat ≥ p.segn.toNat) && (match inp with | .local_ => false | .gateway => false | _ => true)
  let q := p.skipSegs 4
  if q.segptr.toNat < q.segn.toNat then
    let o := dirPort (q.seg q.segptr.toNat).1
    match neighbour t o, edgeGateway t o with
    | some _, _ => some [(o, q.hop)]
    | none, some _ => if q.hopLeft && q.lastSeg then some [(o, q.hop)] else none
    | none, none => none
  else if q.hopLeft then none
  else if q.rmc = false then (if q.dtile.toNat = t then some [(.local_, q)] else none)
  else
    let b0 := q.rb0.toNat
    let b1 := q.rb1.toNat
    let c0 := q.rc0.toNat
    let c1 := q.rc1.toNat
    let inside := decide (b0 ≤ b) && decide (b ≤ b1) && decide (c0 ≤ c) && decide (c ≤ c1)
    if q.regtag.toNat = 0x7F ∨ inside = false ∨ b1 ≥ Config.benches ∨ c1 ≥ Config.lcols then none
    else if copy = false ∧ q.dtile.toNat ≠ t then none
    else
      let root := !copy
      let row := root || decide (inp = .east) || decide (inp = .west)
      let out (o : Port5) (go : Bool) : List (Port5 × Packet) := if go then [(o, q)] else []
      some (out .local_ true ++
        out .east ((root || decide (inp = .west)) && decide (c < c1)) ++ out .west ((root || decide (inp = .east)) && decide (c0 < c)) ++
        out .north ((row || decide (inp = .south)) && decide (b0 < b)) ++ out .south ((row || decide (inp = .north)) && decide (b < b1)))

end Sys2Proof

namespace Sys2Proof.Machine

/-! ### Region enforcement and delivery (11) -/

/-- A packet discarded as misrouted or malformed at tile `t`. -/
def Dev.misroute (d : Dev) (t : Nat) : Dev := d.modTile t fun x => x.count Reg.MESH_MISROUTE 1

/-- A packet or copy discarded under R283 at tile `t`; it counts against the region its tag names (11 R284). -/
def Dev.boundDrop (d : Dev) (t r : Nat) : Dev :=
  let d := d.modTile t fun x => x.count Reg.MESH_BOUND_DROP 1
  if r < Config.nRegions then
    match (d.region r).tileList with
    | u :: _ => d.modTile u fun x => { x with exBound := true }
    | [] => d
  else d

/-- MESH_REGION of a tile. -/
def Tile.meshRegion (t : Tile) : Nat := fld (t.reg Reg.MESH_REGION) 0 7

/-- Delivery at the Local port (11 R274, R283). Items go to the queues, shadow records and acknowledgements to the tile's units; a packet of another
kind reaches its unit, which acts on it by a command of its own (log 44). -/
def Dev.deliver (d : Dev) (t : Nat) (k : Packet) : Dev :=
  let r := k.regtag.toNat
  if r = 0x7F then (if k.kind = 5 then d else d.boundDrop t r)
  else if (d.tile t).meshRegion ≠ r then d.boundDrop t r
  else if k.kind = 0 then d.modTile t fun x => { x with localIn := x.localIn ++ [{ k with words := k.payload }] }
  else if k.kind = 3 ∨ (k.kind = 6 ∧ k.nakType.toNat < 2 ∧ k.crcOk = true) then { d with unitIn := d.unitIn ++ [(t, k)] }
  else d

/-- Whether the region of tile `t` discards packets of tag `r` until it enters STOPPED: it is under a recovery abort (11 R287, 15 R343). -/
def Dev.abortDrops (d : Dev) (t r : Nat) : Bool :=
  decide (d.regionOf t = some r) && decide ((d.region r).st = .fault) &&
  match d.flt.recov with
  | some v => v.regions.contains r
  | none => false

/-- A packet header at router `t`: the header with the tag the source router gives it, and where the packet goes; nowhere when it is discarded (11 R272
to R274, R281 to R283, R287). -/
def Dev.route1 (d : Dev) (t : Nat) (inp : Port5) (k : Packet) : Dev × Packet × List (Port5 × Packet) :=
  let k := if inp = .local_ then { k with regtag := BitVec.ofNat 7 (d.tile t).meshRegion } else k
  let r := k.regtag.toNat
  let own := (d.tile t).meshRegion
  if k.malformed false || !kindVc k.kind.toNat k.vc.toNat then (d.misroute t, k, [])
  else if d.abortDrops t r then (d.count (Reg.SRV_ABORTDROP + 8 * r) 0 64 1, k, [])
  else if k.vc = 0 ∧ r ≠ 0x7F ∧ own ≠ r ∧ own ≠ 0x7F then (d.boundDrop t r, k, [])
  else match k.outputs t inp with
    | none => (d.misroute t, k, [])
    | some outs => (d, k, outs)

/-! ### Slots (11 R277, R278) -/

/-- MESH_SLOTCFG.EN of a tile. -/
def Tile.slotsOn (t : Tile) : Bool := bit (t.reg Reg.MESH_SLOTCFG) 14

/-- Entry `k` of output `o` of the slot table: the input and the queue it names (11 R277). -/
def Tile.slotEntry (t : Tile) (o : Port5) (k : Nat) : Option (Port5 × Nat) :=
  let oi : Nat := match o with | .north => 0 | .east => 1 | .south => 2 | .west => 3 | _ => 4
  let e := fld (t.reg (Reg.MESH_SLOTTAB + 512 * oi + 8 * (k / 4))) (16 * (k % 4)) 16
  let q := e / 8 % 1024
  match e % 8 with
  | 0 => some (.north, q)
  | 1 => some (.east, q)
  | 2 => some (.south, q)
  | 3 => some (.west, q)
  | 4 => some (.local_, q)
  | 5 => some (.gateway, q)
  | _ => none

/-- Tile cycles since the first cycle in which the router's view reached the epoch; none before it (11 R277). -/
def Dev.slotCyc (d : Dev) (t : Nat) : Option Nat := if (d.tile t).slot0 = 0 then none else some (d.cyc + 1 - (d.tile t).slot0)

/-- The current slot, and whether this is its first cycle: (n div SLOTCYC) mod PERIOD. -/
def Dev.slotNow (d : Dev) (t : Nat) : Option (Nat × Bool) :=
  let c := (d.tile t).reg Reg.MESH_SLOTCFG
  let len := cnt0 (fld c 8 6) 64
  (d.slotCyc t).map fun n => (n / len % cnt0 (fld c 0 8) 256, decide (n % len = 0))

/-- Whether a VC0 packet of `k` at `inp` comes after the first cycle of a slot of output `o` that names it. -/
def Dev.lateAt (d : Dev) (t : Nat) (inp : Port5) (k : Packet) (o : Port5) : Bool :=
  match d.slotNow t with
  | some (n, first) => !first && decide ((d.tile t).slotEntry o n = some (inp, k.dqid.toNat))
  | none => false

/-! ### Links (11 R268, R285, R286) -/

/-- Whether the fault manager holds the inputs of half-bench `n` and of its vertical links (15 R345 item 5). -/
def Dev.muxing (d : Dev) (n : Nat) : Bool :=
  match d.flt.recov with
  | some v => decide (v.stage = RecStage.empty) && match v.todo with | (b, col) :: _ => decide (2 * b + (if col < 24 then 0 else 1) = n) | [] => false
  | none => false

/-- Where output `o` of tile `t` leads: a node and its input. -/
def linkEnd (t o : Nat) : Option (Nat × Nat) :=
  let p : Port5 := dirPort o
  if o < 4 then
    match neighbour t p, edgeGateway t p with
    | some (u, i), _ => some (u, i.code)
    | none, some g => some (relay, 16 + g)
    | none, none => none
  else none

/-- Whether a link passes between two clock regions: every vertical hop, every hop to another half-bench, every gateway (11 R280, R285). -/
def crossing (t u : Nat) : Bool := decide (u = relay) || decide (halfOf t ≠ halfOf u)

/-- Whether a header is held out of a half-bench that is being muxed, at its inputs or at those of its vertical links (11 R286). -/
def Dev.linkHeld (d : Dev) (t u : Nat) : Bool := d.muxing (halfOf u) && decide (halfOf u ≠ halfOf t)

/-- Whether a gateway, which several edge routers share, has a packet of VC `v` still coming in: packets of one VC do not interleave (11 R276). -/
def Dev.gatewayBusy (d : Dev) (u i : Nat) (v : BitVec 2) : Bool := decide (u = relay) && d.flying.any fun f => f.at_ u i v && !f.pkt.whole

/-- Whether output `o` of tile `t` has a credit for flit `k` of a packet of VC `v`: 8 flits of the next input, or of the FIFO of a crossing. -/
def Dev.linkRoom (d : Dev) (t o : Nat) (v : BitVec 2) (k : Nat) : Bool :=
  match linkEnd t o with
  | none => true
  | some (u, i) => (decide (k ≠ 0) || !(d.linkHeld t u || d.gatewayBusy u i v)) && decide ((if crossing t u then d.inFifo u i v else d.heldAt u i v) < 8)

/-! ### One tile cycle (11 R276) -/

/-- The input a VC of an output was last served from. -/
def Tile.lastIn (t : Tile) (o : Nat) (v : BitVec 2) : Nat := SMap.get (fun _ => 5) t.rot (4 * o + v.toNat)

/-- The flit output `o` of tile `t` sends in this cycle. -/
def Dev.meshPick (d : Dev) (t o : Nat) : Option (Nat × Flight × Copy) :=
  choose d.flying t o 6 (d.tile t).slotsOn ((d.tile t).lastIn o) (d.linkRoom t o)

/-- Whether output `o` of tile `t` holds a flit for want of a crossing credit. -/
def Dev.meshWaits (d : Dev) (t o : Nat) : Bool :=
  match linkEnd t o with
  | some (u, i) => crossing t u && ([0, 1, 2, 3] : List (BitVec 2)).any fun v =>
      decide (8 ≤ d.inFifo u i v) && (nextOn d.flying t o 6 (d.tile t).slotsOn ((d.tile t).lastIn o v) v).isSome
  | none => false

/-- Whether another edge router has begun a packet of the VC into the same gateway in this cycle. -/
def Dev.lostGateway (d : Dev) (t : Nat) (m : Nat × Flight × Copy) : Bool :=
  match linkEnd t m.2.2.out with
  | some (u, i) => decide (m.2.2.sent = 0) && d.gatewayBusy u i m.2.1.pkt.vc
  | none => false

/-- A flit leaves: the first makes the packet known at the end of the link, the last one of a Local output delivers the packet. `i` is the packet's
place in the list. -/
def Dev.sendFlit (t : Nat) (d : Dev) (m : Nat × Flight × Copy) : Dev :=
  let (i, f, c) := m
  let v := f.pkt.vc
  let d := { d with flying := d.flying.modify i fun f => f.modCopy c.out fun c => { c with sent := c.sent + 1 } }
  let d := if v.toNat ≥ 2 then d.modTile t fun x => { x with rot := SMap.set (fun _ => 5) x.rot (4 * c.out + v.toNat) f.inp } else d
  match linkEnd t c.out with
  | none => if c.sent + 1 = f.pkt.flits then d.deliver t { c.hdr with words := f.pkt.words } else d
  | some (u, inp) =>
    if c.sent = 0 then
      if u = relay then d.relayIn inp c.hdr else { d with flying := d.flying ++ [⟨u, inp, c.hdr, none⟩] }
    else if u = relay then d.relayBody inp v (f.pkt.flitWords c.sent)
    else { d with flying := addFlit d.flying u inp v (f.pkt.flitWords c.sent) }

/-- The outputs of routers that have a packet. -/
def Dev.meshOuts (d : Dev) : List (Nat × Nat) :=
  (d.flying.flatMap fun f => if f.node < Config.nTiles then (f.outs.getD []).map fun c => (f.node, c.out) else []).dedup

/-- Routers whose view of Cicada time has reached their epoch begin to count (11 R277). -/
def Dev.epochs (d : Dev) : Dev :=
  let ts := (d.tiles.filter fun e =>
    decide (e.2.slot0 = 0) && decide (e.2.reg Reg.MESH_EPOCH ≠ 0) && decide ((e.2.reg Reg.MESH_EPOCH).toNat ≤ d.view e.1)).map (·.1)
  d.modTiles ts fun x => { x with slot0 := d.cyc + 1 }

/-- One cycle of every router: each output sends one flit of those that were there before (logs 16, 20). -/
def Dev.meshCycle (d : Dev) : Dev :=
  let d := ({ d with cyc := d.cyc + 1 } : Dev).epochs
  let outs := d.meshOuts
  let waits := (outs.filter fun e => d.meshWaits e.1 e.2).map (·.1)
  let d' := (outs.filterMap fun e => (d.meshPick e.1 e.2).map fun m => (e.1, m)).foldl (fun d m => if d.lostGateway m.1 m.2 then d else d.sendFlit m.1 m.2) d
  (d'.modTiles waits.dedup fun x => x.count Reg.MESH_XWAIT 1).clean

end Sys2Proof.Machine
end

