-- ==== Sys2Proof/Machine/ArrayOps.lean ====
section
/-! DEFINITION. What the array unit's commands share (03): upsets on reads, the start of an ACW, units of queue items,
decoding of activations and weight blocks, plane loads, one vector, drains. -/

namespace Sys2Proof.Machine

/-! ### Upsets on reads (06 R140, R141, 07 R165, 03 R73) -/

/-- Uncorrectable codewords, of a slice and a page each, on a read of tile `t`: a step it serves ends without rerun (15 Table 15.1). -/
def Dev.uncorrRead (d : Dev) (t : Nat) (ps : List (Nat × Nat)) : Dev × Bool :=
  let d := ps.foldl (fun d p => d.uncorrectable p.1 p.2) d
  match d.inStep t with
  | some r => (d.stepFail r, true)
  | none => (d, false)

/-- Reads `len` bytes through AG `n` for a unit of the tile; none when the unit waits or its step was ended. -/
def Dev.unitRead (d : Dev) (t n len : Nat) (array : Bool) : Dev × Option (List Byte) :=
  let o := d.agRead t n len array
  let (d1, stop1) := match o.parity with | some w => o.d.parityRead t w | none => (o.d, false)
  let (d2, stop2) := if stop1 || o.uncorr.isEmpty then (d1, stop1) else d1.uncorrRead t o.uncorr
  (d2, if stop2 then none else o.data)

/-- Writes one unit through AG `n`; none when it stopped, or when the merge of a partial word failed parity and the step was aborted, in
which case nothing is written (06 R133, R140). -/
def Dev.unitWrite (d : Dev) (t n : Nat) (bs : List Byte) (array : Bool) : Dev × Option (List Byte) :=
  let o := d.agWrite t n bs array
  match o.parity with
  | none => (o.d, o.data)
  | some w => match d.parityRead t w with
    | (d, true) => (d, none)
    | (d, false) => let o := d.agWrite t n bs array; (o.d, o.data)

/-- A plane or codebook parity error of array `j` (03 R73). -/
def Dev.planeParity (d : Dev) (t j : Nat) : Dev × Bool :=
  let d := d.modTile t fun x => x.modReg Reg.ARR_ERR fun v => setBit v (34 + j)
  match d.inStep t with
  | some r => (d.rerunError r t 1 j, true)
  | none => (d.recordTile t 1 1 St.PARITY_ERROR 0 j, false)

/-! ### The ACW queue (03 R58, R59) -/

/-- Changes the entry with an ID. -/
def Tile.modAcw (t : Tile) (id : Nat) (f : AcwEntry → AcwEntry) : Tile :=
  { t with acwQ := t.acwQ.map fun e => if e.id = id then f e else e }

/-- The entry with an ID. -/
def Tile.acwOf (t : Tile) (id : Nat) : Option AcwEntry := t.acwQ.find? fun e => decide (e.id = id)

/-- Planes a COMPUTE uses (03 R65): PSEL; the other one too when a fold has more than one pass, or when it is loaded for a following
ACW. -/
def Acw.planes (a : Acw) : List Bool :=
  if (if a.fold = 0 then a.loads else decide (a.passes > 1)) then [a.psel, !a.psel] else [a.psel]

/-- Two lists share a member. -/
def share {α : Type} [DecidableEq α] (l m : List α) : Bool := l.any fun x => m.contains x

/-- Units of an ACW: vectors of a COMPUTE, blocks of an XADD, outputs of a DRAIN, blocks of a WLOAD. -/
def Acw.total (a : Acw) : Nat :=
  if a.kind = kCOMPUTE then a.passes * a.rep
  else if a.kind = kDRAIN ∨ a.kind = kXADD then a.rep * a.na
  else if a.kind = kWLOAD then a.na
  else if a.kind = kCBLOAD then 1
  else 0

/-- Units whose adds are done. -/
def AcwEntry.entered (e : AcwEntry) : Nat := if e.added then e.prog + 1 else e.prog

/-- A COMPUTE or XADD has entered its last vector (03 R58). -/
def AcwEntry.enteredLast (e : AcwEntry) : Bool := e.done || decide (e.entered ≥ Acw.total e.acw)

/-- The last visit of row `row` by the `rep` vectors of a window whose rows repeat every `m`, from `base` (03 R57, R67). -/
def lastVisit (m base rep row : Nat) : Option Nat :=
  let i := (row % m + m - base % m) % m
  if i < rep then some (i + m * ((rep - 1 - i) / m)) else none

/-- The number of the last unit of an ACW that adds into row `row` of array `j`, or drains it (03 R57, R62, R63, R66, R67, R72). -/
def Acw.lastUnit (a : Acw) (j row : Nat) : Option Nat :=
  let pos := a.arrays.idxOf j
  if !a.arrays.contains j then none
  else if a.kind = kDRAIN ∨ a.kind = kXADD then
    if a.rowbase ≤ row ∧ row < a.rowbase + a.rep then some ((row - a.rowbase) * a.na + pos) else none
  else if a.kind ≠ kCOMPUTE then none
  else if a.fold = 0 then lastVisit (if a.quad then 32 else 128) a.rowbase a.rep row
  else if row < a.rowbase ∨ a.rowbase + a.rounds * a.rep ≤ row then none
  else
    let rnd := (row - a.rowbase) / a.rep
    if (if a.fold = 2 then pos = 0 else rnd * a.na + pos < a.nbn) then
      some (((rnd + 1) * a.krounds - 1) * a.rep + (row - a.rowbase) % a.rep)
    else none

/-- An ACW has still to add into row `row` of array `j`. -/
def AcwEntry.addsLeft (e : AcwEntry) (j row : Nat) : Bool :=
  !e.done && (Acw.kind e.acw == kCOMPUTE || Acw.kind e.acw == kXADD) &&
  match Acw.lastUnit e.acw j row with | some u => decide (e.entered ≤ u) | none => false

/-- An ACW has still to read row `row` of array `j` for a drain: a DRAIN that has not come to it, a COMPUTE that drains its rows
and has not sent the last output of it. -/
def AcwEntry.readsLeft (e : AcwEntry) (j row : Nat) : Bool :=
  !e.done && Acw.drains e.acw && match Acw.lastUnit e.acw j row with | some u => decide (e.prog ≤ u) | none => false

/-- The plane blocks an ACW loads in all (03 R65). -/
def Acw.blocksToLoad (a : Acw) : Nat :=
  if !a.loads then 0
  else if a.kind = kWLOAD ∨ a.fold ≠ 1 ∧ a.fold ≠ 2 then a.na
  else if a.fold = 1 then a.nbn * a.nbk
  else a.rounds * a.nbk

/-- Entry `b` has finished its loads that decode K4 (03 R58). -/
def AcwEntry.k4Loaded (b : AcwEntry) : Bool :=
  b.done || !(Acw.loads b.acw && Acw.wfmt b.acw == 10) || decide (b.loaded ≥ Acw.blocksToLoad b.acw)

/-- The conditions under which ACW `e` starts, behind the ACWs `pre` that started before it (03 R58). Two WLOADs of one plane of an
array keep their order, and a load that decodes K4 waits for earlier CBLOADs of its arrays (DEDUCED from R60, log 95). -/
def Acw.mayStart (pre : List AcwEntry) (a : Acw) : Bool :=
  let body (x : Acw) : Bool := x.kind == kCOMPUTE || x.kind == kXADD
  let shares (b : AcwEntry) : Bool := share (Acw.arrays b.acw) a.arrays
  (!a.fence || pre.isEmpty) &&
  (!(a.loads && a.wfmt == 10) || pre.all fun b => b.done || Acw.kind b.acw != kCBLOAD || !shares b) &&
  (if body a then
    ((pre.filter fun b => body b.acw).getLast?.all AcwEntry.enteredLast) &&
    (a.kind == kXADD || pre.all fun b => b.done || Acw.kind b.acw != kWLOAD || !shares b || !a.planes.contains (Acw.psel b.acw))
  else if a.kind = kWLOAD then
    pre.all fun b => b.done || !shares b ||
      !((Acw.kind b.acw == kCOMPUTE && !b.enteredLast && (Acw.planes b.acw).contains a.psel) ||
        (Acw.kind b.acw == kWLOAD && Acw.psel b.acw == a.psel))
  else if a.kind = kCBLOAD then pre.all AcwEntry.k4Loaded
  else true)

/-- The ACWs pushed before the one with an ID and not retired. -/
def Tile.acwBefore (t : Tile) (id : Nat) : List AcwEntry := t.acwQ.takeWhile fun e => decide (e.id ≠ id)

/-- An add into row `row` of array `j` by ACW `id` waits for a drain by an earlier ACW that has still to read it (03 R59). -/
def Tile.addHeld (t : Tile) (id j row : Nat) : Bool := (t.acwBefore id).any fun b => b.readsLeft j row

/-- A drain of row `row` of array `j` by ACW `id` waits for the last add into it by earlier ACWs (03 R59). -/
def Tile.drainHeld (t : Tile) (id j row : Nat) : Bool := (t.acwBefore id).any fun b => b.addsLeft j row

/-- The entries before the first that has not started, and that one. -/
def firstUnstarted : List AcwEntry → List AcwEntry → Option (List AcwEntry × AcwEntry)
  | _, [] => none
  | pre, e :: l => if e.started then firstUnstarted (pre ++ [e]) l else some (pre, e)

/-- The unit can act for an ACW: its AGs and its tile run. -/
def Tile.acwUsable (t : Tile) (e : AcwEntry) : Bool := e.ags.all (fun n => !(t.ag n).stopped) && !t.stopped

/-- The ACWs of a kind in progress, in queue order. -/
def Tile.acwRunning (t : Tile) (kind : Nat) : List AcwEntry :=
  t.acwQ.filter fun e => e.started && !e.done && Acw.kind e.acw == kind

/-- The first ACW that has not started, when it is of the kind and may start (03 R58, 04 R99). -/
def Tile.acwNext (t : Tile) (kind : Nat) : Option AcwEntry :=
  match firstUnstarted [] t.acwQ with
  | some (pre, e) =>
    if Acw.kind e.acw = kind ∧ Acw.mayStart pre e.acw = true ∧ t.atHead e.id e.ags = true ∧ t.acwUsable e = true then some e else none
  | none => none

/-- Marks an ACW as started. -/
def Tile.acwStart (t : Tile) (id : Nat) : Tile := t.modAcw id fun e => { e with started := true }

/-- An ACW is complete: it releases its tickets (04 R100). -/
def Tile.acwDone (t : Tile) (id : Nat) : Tile :=
  match t.acwOf id with
  | some e => e.ags.foldl (Tile.agRelease id) (t.modAcw id fun e => { e with done := true, item := [] })
  | none => t

/-- Repeats a step of an ACW until it is complete, waits, or its step was ended. -/
def Dev.acwLoop (t id total : Nat) (f : Dev → AcwEntry → Dev × Bool) : Nat → Dev → Dev
  | 0, d => d
  | n + 1, d =>
    match (d.tile t).acwOf id with
    | none => d
    | some e =>
      if e.prog ≥ total then d.modTile t fun x => x.acwDone id
      else
        let (d', ok) := f d e
        if ok then
          Dev.acwLoop t id total f n (d'.modTile t fun x => x.modAcw id fun e =>
            { e with prog := e.prog + 1, got := [], added := false, sent := 0 })
        else d'

/-! ### Units of queue items (06 R151) -/

/-- Bytes of the payload of an item. -/
def Tile.payload (t : Tile) (q : QCtx) (i : RxItem) : List Byte := t.itemWords q i 1 (i.words - 1)

/-- The words of an item, as reads of tile `t`. -/
def itemReads (t : Nat) (q : QCtx) (i : RxItem) : List (Nat × Nat × Nat) := (List.range i.words).map fun k => (t, q.addr (i.start + k), 16)

/-- The next unit of `size` bytes of the items an ACW consumes, and whether it is invalid: completed with zeros, or of an item
marked TRUNC. -/
def Dev.itemUnit (d : Dev) (t : Nat) (e : AcwEntry) (size : Nat) : Dev × Option (List Byte × Bool) :=
  let give (d : Dev) (bs : List Byte) (tr : Bool) : Dev × Option (List Byte × Bool) :=
    (d.modTile t fun x => x.modAcw e.id fun e => { e with item := bs.drop size, itemTrunc := tr },
      some (slice bs 0 size, tr || decide (bs.length < size)))
  if e.item ≠ [] then give d e.item e.itemTrunc
  else
    let x := d.tile t
    let q := x.qc (Acw.qid e.acw)
    match x.qTake (Acw.qid e.acw) with
    | none => (d, none)
    | some (i, y) =>
      let d := d.setTile t y
      let (d, stop) := Dev.spadChecks (itemReads t q i) d
      if stop then (d, none) else give d (x.payload q i) i.trunc

/-! ### Decoding (02 R26, R29, R30, 03 R49, R50) -/

/-- Element type (05 Table 5.2) of an array format; K4 apart. -/
def fmtTy (f : Nat) : Nat :=
  match f with
  | 0 => 0x0 | 1 => 0xE | 2 => 0x6 | 3 => 0x7 | 4 => 0x8 | 5 => 0x9 | 6 => 0xA | 7 => 0xB | 8 => 0xC | 9 => 0xD | 11 => 0x2 | _ => 0x3

/-- Element `i` of width `w` of a packed stream whose little-endian value is `x` (02 R26). -/
def packedAt (x w i : Nat) : Nat := x / 2 ^ (w * i) % 2 ^ w

/-- Scale bytes of an activation vector of `n` elements in sub-vectors of `sub` (03 R51, R67). -/
def actScales (f n sub : Nat) : Nat := if afmtScaled f then n / sub * cdiv sub 32 else 0

/-- The values of an activation vector. -/
def actVals (f n sub : Nat) (data scales : List Byte) : List Val :=
  let x := leNat data
  let w := if fmtFp f then 16 else 8
  (List.range n).map fun i =>
    let v := tyDecode (fmtTy f) (packedAt x w i)
    if afmtScaled f then scaled v ((scales.getD (i / sub * cdiv sub 32 + i % sub / 32) 0).toNat) else v

/-- A weight before its scale: a codebook entry for K4 (02 R29), else a decoded element. `sel` gives a column's codebook. -/
def weightVal (f : Nat) (cb : List Byte) (cbType : BitVec 4) (sel code : Nat) : Val :=
  if f = 10 then tyDecode (if bit cbType sel then 0x0 else 0x6) (cb.getD (16 * sel + code) 0).toNat
  else tyDecode (fmtTy f) code

/-- A plane from a block's values, scales and metadata (03 R49, R50). -/
def loadPlane (f : Nat) (sparse : Bool) (vals scales mta cb : List Byte) (cbType : BitVec 4) (sel : Nat → Nat) : Plane :=
  let kb := passDepth f sparse
  let x := leNat vals
  let m := leNat mta
  let at' (r n : Nat) : Val := weightVal f cb cbType (sel n) (packedAt x (wfmtBits f) (32 * r + n))
  let desc (g n : Nat) : Nat := packedAt m 4 (n * (kb / 4) + g)
  let bad (g n : Nat) : Bool := decide (desc g n % 4 ≥ desc g n / 4)
  let elems := (List.range kb).flatMap fun k => (List.range 32).map fun n =>
    if sparse then
      let g := k / 4
      if bad g n then none
      else if desc g n % 4 = k % 4 then some (at' (2 * g) n)
      else if desc g n / 4 = k % 4 then some (at' (2 * g + 1) n)
      else none
    else some (at' k n)
  { fmt := f, kb := kb, elems := elems, scales := if wfmtScaled f then scales else [],
    marked := if sparse then (List.range 32).filter fun n => (List.range (kb / 4)).any fun g => bad g n else [], seed := none }

/-- Weights of row `k` of a plane, one for each column; none where no product is formed. Unspecified contents are free
values (03 R73, log 14). -/
def Plane.row (p : Plane) (k : Nat) : List (Option Val) :=
  match p.seed with
  | some s => (List.range 32).map fun n =>
      let x := Config.freeAt s (32 * k + n)
      if x % 4 = 0 then none else if x % 4 = 1 then some (.nan false)
      else some (.ofInt (sInt 64 (x / 4)) (sInt 10 (x / 2 ^ 66)))
  | none =>
    let r := slice' (p.elems.drop (32 * k)) 32
    if p.scales = [] then r
    else (r.zip ((p.scales.drop (32 * (k / 32))).take 32)).map fun e => e.1.map fun v => scaled v e.2.toNat
where
  slice' (l : List (Option Val)) (n : Nat) : List (Option Val) := l.take n

/-! ### Plane loads (03 R65, R70) -/

/-- Plane `b` of an array, and putting it in place. -/
def Arr.pl (a : Arr) (b : Bool) : Plane := if b then a.p1 else a.p0
def Arr.setPl (a : Arr) (b : Bool) (p : Plane) : Arr := if b then { a with p1 := p } else { a with p0 := p }

/-- Operand `k` of the unit in progress: it has arrived, or is read through AG `n` now. -/
def Dev.operand (d : Dev) (t id k n len : Nat) (array : Bool) : Dev × Option (List Byte) :=
  match ((d.tile t).acwOf id).bind fun e => e.got[k]? with
  | some bs => (d, some bs)
  | none =>
    match d.unitRead t n len array with
    | (d, some bs) => (d.modTile t fun x => x.modAcw id fun e => { e with got := e.got ++ [bs] }, some bs)
    | (d, none) => (d, none)

/-- Loads one block into plane `b` of array `j`: values, scales, metadata, each from its AG. -/
def Dev.loadBlock (d : Dev) (t id : Nat) (a : Acw) (b : Bool) (j : Nat) : Dev × Bool :=
  match d.operand t id 0 a.agw (blockBytes a.wfmt) true with
  | (d, none) => (d, false)
  | (d, some vals) =>
    match if wfmtScaled a.wfmt then d.operand t id 1 a.agsw a.kb false else (d, some []) with
    | (d, none) => (d, false)
    | (d, some sc) =>
      match if a.sparse then d.operand t id (if wfmtScaled a.wfmt then 2 else 1) a.agm (metaBytes a.wfmt) false else (d, some []) with
      | (d, none) => (d, false)
      | (d, some mt) =>
        let x := (d.tile t).arr j
        let sel (n : Nat) : Nat := if a.cbcol then fld x.cbcol (2 * n) 2 else a.cbsel
        (d.modTile t fun y => (y.setArr j (x.setPl b (loadPlane a.wfmt a.sparse vals sc mt x.cb x.cbType sel))).modAcw id fun e =>
          { e with got := [], loaded := e.loaded + 1 }, true)

/-- Loads the blocks of a list in order: plane, array. -/
def Dev.loadBlocks (t id : Nat) (a : Acw) : List (Bool × Nat) → Dev → Dev × Bool
  | [], d => (d, true)
  | x :: xs, d =>
    match d.loadBlock t id a x.1 x.2 with
    | (d, true) => Dev.loadBlocks t id a xs d
    | (d, false) => (d, false)

/-! ### One vector (03 R48, R62 to R64, R67, R68, 02 R419) -/

/-- One source of products for a row: the array whose plane is used, where its activations lie in the vector, where its K
positions lie in the block, and how many positions lie below KT. -/
structure Part where
  arr : Nat
  off : Nat
  len : Nat
  k0 : Nat
  klim : Nat
deriving DecidableEq, Repr

/-- One row of one array that a vector adds into: its columns from `c0`, those below NT, and its parts. -/
structure Job where
  arr : Nat
  row : Nat
  c0 : Nat
  nc : Nat
  parts : List Part
deriving DecidableEq, Repr

/-- The blocks of pass `p`: array, K block, column block (03 R62, R63); a gated array has none. -/
def Acw.blocks (a : Acw) (p : Nat) : List (Nat × Nat × Nat) :=
  let rnd := p / a.krounds
  let kr := p % a.krounds
  match a.fold with
  | 1 => (a.arrays.zipIdx.map fun e => (e.1, kr, rnd * a.na + e.2)).filter fun b => decide (b.2.2 < a.nbn)
  | 2 => (a.arrays.zipIdx.map fun e => (e.1, kr * a.na + e.2, rnd)).filter fun b => decide (b.2.1 < a.nbk)
  | _ => a.arrays.map fun j => (j, 0, 0)

/-- Elements of an activation vector, and of its sub-vectors (03 R51, R63, R67). -/
def Acw.vecLen (a : Acw) : Nat := if a.fold = 2 then a.na * a.kb else if a.quad then 2 * a.kb else a.kb
def Acw.subLen (a : Acw) : Nat := if a.quad then a.kb / 2 else a.vecLen

/-- The rows that vector `i` of pass `p` adds into. -/
def Acw.jobs (a : Acw) (p i : Nat) : List Job :=
  let rnd := p / a.krounds
  let row := if a.fold = 0 then (a.rowbase + i) % 128 else a.rowbase + rnd * a.rep + i
  let bs := a.blocks p
  if a.fold = 2 then
    [{ arr := a.arrays.headD 0, row := row, c0 := 0, nc := min 32 (a.nt - 32 * rnd),
       parts := bs.map fun b => ⟨b.1, (b.2.1 % a.na) * a.kb, a.kb, 0, a.kt - b.2.1 * a.kb⟩ }]
  else if a.quad then
    let kq := a.kb / 2
    (List.range 4).flatMap fun q => bs.map fun b =>
      { arr := b.1, row := 32 * q + (a.rowbase + i) % 32, c0 := 16 * (q % 2), nc := min 16 a.nt, parts := [⟨b.1, q * kq, kq, kq * (q / 2), a.kt⟩] }
  else bs.map fun b =>
    { arr := b.1, row := row, c0 := 0, nc := min 32 (a.nt - 32 * b.2.2), parts := [⟨b.1, 0, a.kb, 0, a.kt - b.2.1 * a.kb⟩] }

/-- The enabled K positions of a part with their activation values and weight rows: below KT and not masked (03 R64, R68). Array row r
holds the KB ÷ 32 K positions that begin at r × KB ÷ 32, so its mask bit covers those: for a dense block of 4-bit weights 2r and
2r + 1 (DESIGN CHOICE, log 86; log 64 for SPARSE). The products use the values and scales the plane was loaded with, whatever WFMT
and SPARSE the COMPUTE names; K positions the plane does not hold form no product (DESIGN CHOICE, log 91). -/
def Tile.partRows (t : Tile) (a : Acw) (pl : Bool) (rmask : W32) (av : List Val) (p : Part) : List (Option (Val × List (Option Val))) :=
  let q := (t.arr p.arr).pl pl
  (List.range p.len).map fun k =>
    if k < p.klim ∧ bit rmask ((p.k0 + k) * 32 / a.kb) then some (av.getD (p.off + k) (.fin false 0 0), q.row (p.k0 + k)) else none

/-- Adds a row of products into the columns' sums; `wb` gives a column's window base. -/
def accRow (wb : Nat → Int) (v : Val) : Nat → List ColAcc → List (Option Val) → List ColAcc
  | n, c :: cs, w :: ws => (match w with | some w => c.add (wb n) v w | none => c) :: accRow wb v (n + 1) cs ws
  | _, cs, _ => cs

/-- One row of one array after a vector: clears at the first add, the sums of each unmasked column, and the flags. -/
def Tile.jobRun (t : Tile) (a : Acw) (pl : Bool) (rmask cmask : W32) (clear bad : Bool) (av : List Val) (j : Job) : Tile :=
  let cols := (List.range 32).filter fun n => decide (j.c0 ≤ n) && decide (n < j.c0 + j.nc) && bit cmask n
  let cm : W32 := cols.foldl setBit 0
  let fp := fmtFp a.afmt
  let x := t.arr j.arr
  let x := if clear then x.clearRow j.row cm a.wb fp else x
  let marked := j.parts.flatMap fun p => ((t.arr p.arr).pl pl).marked
  let rows := j.parts.flatMap (t.partRows a pl rmask av)
  let wbr (n : Nat) : Int := (x.grp j.row (n / 8)).wb
  let sums := if fp then [] else
    rows.foldl (fun cs r => match r with | some (v, ws) => accRow wbr v 0 cs ws | none => cs) (List.replicate 32 ColAcc.zero)
  let one (y : ArrF) (n : Nat) : ArrF :=
    let g := x.grp j.row (n / 8)
    let e := y.1.ent j.row n
    let mm := decide (a.wb (n / 8) ≠ g.wb)
    if g.fpPath ≠ fp then y.put j.row n e (false, false) mm true
    else
      let inv := bad || marked.contains n
      if fp then
        let ops := rows.map fun r => r.map fun q => (q.1, ((q.2.getD n none).getD (.fin false 0 0)))
        let ps := ops.map fun o => match o with | some (v, w) => fpMul32 v w | none => 0
        let finite := ops.all fun o => match o with | some (v, w) => !(v.isNan || v.isInf || w.isNan || w.isInf) | none => true
        let r := e.addFp (if a.quad then 4 else 5) ps finite
        y.put j.row n r.1 r.2 mm inv
      else
        let c := sums.getD n ColAcc.zero
        let r := e.addCol c
        y.put j.row n r.1 r.2 mm (inv || c.invalid)
  let y := cols.foldl one (x, (0 : BitVec 5))
  let t := (t.setArr j.arr y.1).arrFlag j.arr y.2
  j.parts.foldl (fun t p => t.setArr p.arr { t.arr p.arr with plane := pl }) t

/-! ### Drains (03 R66, R71) -/

/-- One array's share of an output: `n` columns from `c0` of a row. -/
def Tile.drainPart (t : Tile) (a : Acw) (j row c0 n : Nat) : Tile × List Byte :=
  if a.dfmt = 7 then
    let (bs, inv) := (t.arr j).drainXps row c0 n
    (if inv then t.arrNote j 8 else t, bs)
  else
    let (bs, sat) := (t.arr j).drain row c0 n a.dfmt a.oe
    (if sat then t.arrNote j 16 else t, bs)

/-- The bytes of one output from its parts: array, row, first column, columns. -/
def Tile.drainOut (a : Acw) : List (Nat × Nat × Nat × Nat) → Tile → Tile × List Byte
  | [], t => (t, [])
  | p :: ps, t =>
    let (t, b) := t.drainPart a p.1 p.2.1 p.2.2.1 p.2.2.2
    let (t, bs) := Tile.drainOut a ps t
    (t, b ++ bs)

/-- Sends one output to its destination (03 Table 3.5); false when the AG stopped. -/
def Dev.outPut (d : Dev) (t : Nat) (e : AcwEntry) (bs : List Byte) : Dev × Bool :=
  let a : Acw := e.acw
  match a.odst with
  | 1 => let (d, o) := d.unitWrite t a.ago bs true; (d, o.isSome)
  | 2 => (d.sendItem t a.qid bs, true)
  | 3 => (d.modTile t fun x => { x with wvl := { x.wvl with appendQ := x.wvl.appendQ ++ [⟨a.kvs, bs, e.id⟩] } }, true)
  | _ => (d, true)

/-- Emits outputs in order, counting those sent. -/
def Dev.outputs (t : Nat) (e : AcwEntry) : List (List (Nat × Nat × Nat × Nat)) → Dev → Dev × Bool
  | [], d => (d, true)
  | o :: os, d =>
    let (x, bs) := Tile.drainOut e.acw o (d.tile t)
    match (d.setTile t x).outPut t e bs with
    | (d, true) => Dev.outputs t e os (d.modTile t fun y => y.modAcw e.id fun e => { e with sent := e.sent + 1 })
    | (d, false) => (d, false)

/-- The outputs that follow vector `i` of pass `p`: at FOLD = NONE one for each row and array; a fold gives one segment after the
last K pass of its round (03 R66). In quadrant mode the rows of the four quadrants of one vector leave before those of the next
vector, in ascending row index and then array (DESIGN CHOICE, log 87). -/
def Acw.outs (a : Acw) (p i : Nat) : List (List (Nat × Nat × Nat × Nat)) :=
  let js := (a.jobs p i).map fun j => (j.arr, j.row, j.c0, j.nc)
  if !a.drains || p % a.krounds + 1 != a.krounds then []
  else if a.fold = 0 then js.map fun j => [j]
  else [js]

end Sys2Proof.Machine
end

