-- ==== Sys2Proof/Machine/Weevil.lean ====
section
/-! DEFINITION. The Weevil's commands (08): append, fetch, requests of other tiles, WVL_CMD, KV commands, claims, shadow pages. -/

namespace Sys2Proof.Machine

/-- A frame table or PTLB parity error (08 R202): a record, and the region's step ends without rerun; the site counts as defective
(15 R339). -/
def Dev.wvlParity (d : Dev) (t : Nat) : Dev :=
  let d := d.recordTile t 2 4 St.PARITY_ERROR 2 0
  match d.inStep t with
  | some r => (d.siteDefect t).stepFail r
  | none => d

/-! ### The append port (08 R203 to R206) -/

/-- Counts 16-byte words of a row that are discarded. -/
def Tile.spoil (t : Tile) (n : Nat) : Tile := t.count Reg.WVL_SPOIL (cdiv n 16)

/-- Sets a bit of WVL_ERR. -/
def Tile.wvlErr (t : Tile) (b : Nat) : Tile := t.modReg Reg.WVL_ERR fun v => setBit v b

/-- Records a changed entry (08 R206). -/
def Tile.pendAdd (t : Tile) (p : PendEnt) : Tile := { t with wvl := { t.wvl with pend := t.wvl.pend ++ [p] } }

/-- What R205 makes of an entry: a failure, or the frame of the tile that the row is written to. -/
inductive RowPlace where
  | fail (code : Nat)
  | at (frame : Nat)
deriving DecidableEq, Repr

/-- The cases of R205 for page `pg` of a slot homed on tile `t`. -/
def Dev.placeRow (d : Dev) (r t slot pg : Nat) : Dev × RowPlace :=
  let x := d.tile t
  if pg ≥ x.dirLen then (d, .fail 1)
  else
    let e := x.pte slot pg
    if pteV e = false then
      match x.freeFrame with
      | none => (d, .fail 1)
      | some f =>
        (d.setTile t ((((x.setFt f (mkFt 1 0 1)).setPte slot pg (mkPte false true f t)).pendAdd ⟨slot, pg, e, some f, none⟩).markWords (x.frameAddr f) 4096), .at f)
    else if d.frameOk r e false = false ∨ (pteShared e = false ∧ pteTile e ≠ t) then (d, .fail 2)
    else if pteShared e then
      let h := pteTile e
      let v := (d.tile h).ft (pteFrame e)
      if ftRef v > 1 ∨ h ≠ t then
        match x.freeFrame with
        | none => (d, .fail 1)
        | some f =>
          let page := (d.tile h).spad.readN ((d.tile h).frameAddr (pteFrame e)) 4096
          let x := (((x.kvWrite (x.frameAddr f) page).setFt f (mkFt 1 0 1)).setPte slot pg (mkPte false true f t)).pendAdd ⟨slot, pg, e, some f, some (h, pteFrame e)⟩
          let d := d.setTile t (x.count Reg.WVL_COW 1)
          (d.modTile h fun y =>
            let v := y.ft (pteFrame e)
            y.setFt (pteFrame e) (mkFt (ftRef v - 1) (ftCwd v + 1) (if ftRef v ≤ 1 then 2 else ftState v)), .at f)
      else (d.setTile t ((x.setPte slot pg (mkPte false true (pteFrame e) t)).pendAdd ⟨slot, pg, e, none, none⟩), .at (pteFrame e))
    else (d, .at (pteFrame e))

/-- What a row for page `pg` of a slot homed on `t` reads (08 R205): the directory header, the entry, and the page it copies. -/
def Dev.rowReads (d : Dev) (r t slot pg : Nat) : List (Nat × Nat × Nat) :=
  let x := d.tile t
  let e := x.pte slot pg
  let h := pteTile e
  let cow := pteV e && d.frameOk r e false && pteShared e && (decide (ftRef ((d.tile h).ft (pteFrame e)) > 1) || decide (h ≠ t)) && x.freeFrame.isSome
  (t, x.dirAddr slot, 16) :: (if pg < x.dirLen then
    (t, x.dirAddr slot + 16 + 4 * pg, 4) :: (if cow then [(h, (d.tile h).frameAddr (pteFrame e), 4096)] else []) else [])

/-- The first waiting row of tile `t` is appended (08 R203 to R205). A read that fails parity aborts the step (06 R140). -/
def Dev.appendRow (d : Dev) (t : Nat) (row : AppRow) : Dev :=
  let x := d.tile t
  let n := row.bytes.length
  let cfg := x.reg (Reg.WVL_KVS + 8 * row.kvs)
  let (e, j) := SMap.get (fun _ => ((0, 0) : Nat × Nat)) x.wvl.cursor row.kvs
  if e ≥ cnt0 (fld cfg 16 12) 4096 then d.setTile t ((x.spoil n).wvlErr 18)
  else match d.spadCheck t (fld cfg 0 16 * 64 + 8 * e) 8 with
  | (d, true) => d
  | (d, false) =>
    let x := d.tile t
    let ent : W64 := BitVec.ofNat 64 (x.spad.readNat (fld cfg 0 16 * 64 + 8 * e) 8)
    let slot := fld ent 0 16
    let next := if j + 1 ≥ cnt0 (fld ent 28 12) 4096 then (e + 1, 0) else (e, j + 1)
    let x := { x with wvl := { x.wvl with cursor := SMap.set (fun _ => ((0, 0) : Nat × Nat)) x.wvl.cursor row.kvs next } }
    let d := d.setTile t x
    let home := match d.regionOf t with
      | some r => if d.homeOf r slot = some t then some r else none
      | none => none
    match home with
    | none => d.setTile t ((x.spoil n).wvlErr 19)
    | some r =>
      let off := fld cfg 28 12
      let pos := x.clen slot + fld ent 16 12 + j
      match Dev.spadChecks (d.rowReads r t slot (pos / x.kvPpp)) d with
      | (d, true) => d
      | (d, false) =>
        match d.placeRow r t slot (pos / x.kvPpp) with
        | (d, .fail c) => d.modTile t fun y => (y.spoil n).setFail slot c
        | (d, .at f) =>
          let keep := min n (x.kvPosb - off)
          let a := x.frameAddr f + pos % x.kvPpp * x.kvPosb + off
          match d.mergeCheck t a keep with
          | (d, true) => d
          | (d, false) => d.modTile t fun y =>
            let y := y.kvWrite a (row.bytes.take keep)
            let y := if keep < n then (y.spoil (n - keep)).setTrunc slot else y
            y.setPlen slot (max (y.plen slot) (fld ent 16 12 + j + 1))

/-- APPEND_ROW. A parity error of the frame table ends the step (08 R202); one of the scratchpad aborts it for rerun (06 R140). -/
def Dev.appendNext (d : Dev) (t : Nat) (f : Upset) : Dev :=
  match (d.tile t).wvl.appendQ with
  | [] => d
  | row :: rest =>
    if f.frame then d.wvlParity t
    else ((d.upset f).modTile t fun x => { x with wvl := { x.wvl with appendQ := rest } }).appendRow t row

def execAppendRow (t : Nat) (f : Upset) (s : State) : Host.Outcome State Fault Refusal := onTile t s fun d => d.appendNext t f

/-! ### Fetches (08 R211 to R213) -/

def execWvlFqCommit (t : Nat) (s : State) : Host.Outcome State Fault Refusal := onTile t s fun d => d.modTile t Tile.fqCommit

/-- A faulting position (08 R212). -/
def Dev.fetchFault (d : Dev) (r : Option Nat) (t slot dest w : Nat) : Dev :=
  let d := d.modTile t fun x => ((x.spadWrite dest (List.replicate w 0)).count Reg.WVL_FETCH_FAULT 1).wvlErr 20
  match r with
  | some r => match d.homeOf r slot with
    | some h => d.modTile h fun x => x.setFail slot 2
    | none => d
  | none => d

/-- What the translation of position `p` reads: on a walk, the header and the entry in the home directory (08 R212). -/
def Dev.walkReads (d : Dev) (r t slot p : Nat) : List (Nat × Nat × Nat) :=
  let page := p / (d.tile t).kvPpp
  if ((d.tile t).ptlbFind slot page).any fun e => decide (p < e.clen) then []
  else match d.homeOf r slot with
    | none => []
    | some h =>
      let y := d.tile h
      (h, y.dirAddr slot, 16) :: (if page < y.dirLen then [(h, y.dirAddr slot + 16 + 4 * page, 4)] else [])

/-- One position of a fetch. The flag says that the step was ended by an upset. -/
def Dev.fetchPos (d : Dev) (t : Nat) (d0 d1 : W64) (i : Nat) : Dev × Bool :=
  let slot := fld d0 0 16
  let w := cnt0 (fld d1 12 12) 4096
  let st := if fld d1 46 14 = 0 then w else fld d1 46 14
  let dest := fld d1 24 22 + i * st
  let p := fld d0 32 32 + i
  match d.mergeCheck t dest w with
  | (d, true) => (d, true)
  | (d, false) =>
  match d.regionOf t with
  | none => (d.fetchFault none t slot dest w, false)
  | some r =>
    match Dev.spadChecks (d.walkReads r t slot p) d with
    | (d, true) => (d, true)
    | (d, false) =>
    match d.translate r t slot p with
    | (d, none) => (d.fetchFault (some r) t slot dest w, false)
    | (d, some e) =>
      let x := d.tile t
      let h := pteTile e
      let a := (d.tile h).frameAddr (pteFrame e) + p % x.kvPpp * x.kvPosb + fld d1 0 12
      match d.spadCheck h a w with
      | (d, true) => (d, true)
      | (d, false) => (d.modTile t fun y => y.spadWrite dest ((d.tile h).spad.readN a w), false)

/-- Positions of a fetch from `i` on. -/
def Dev.fetchGo (t : Nat) (d0 d1 : W64) : Nat → Nat → Dev → Dev × Bool
  | 0, _, d => (d, false)
  | n + 1, i, d =>
    match d.fetchPos t d0 d1 i with
    | (d, true) => (d, true)
    | (d, false) => Dev.fetchGo t d0 d1 n (i + 1) d

/-- FETCH: the first held fetch is executed. -/
def Dev.fetchRun (d : Dev) (t : Nat) (f : Upset) : Dev :=
  match (d.tile t).wvl.fq with
  | [] => d
  | (d0, d1) :: rest =>
    if f.frame then d.wvlParity t
    else
      match Dev.fetchGo t d0 d1 (cnt0 (fld d0 16 12) 4096) 0 (d.upset f) with
      | (d, true) => d
      | (d, false) => d.modTile t fun x =>
          ({ x with wvl := { x.wvl with fq := rest } } : Tile).modReg Reg.WVL_FDONE fun v => addCnt v 0 32 1

def execFetch (t : Nat) (f : Upset) (s : State) : Host.Outcome State Fault Refusal := onTile t s fun d => d.fetchRun t f

/-- What a request reads of the scratchpad of tile `t` (06 R140). -/
def Tile.reqReads (x : Tile) (t : Nat) : WvlReq → List (Nat × Nat × Nat)
  | .walk _ slot page =>
    if x.claims slot.toNat then (t, x.dirAddr slot.toNat, 16) :: (if page < x.dirLen then [(t, x.dirAddr slot.toNat + 16 + 4 * page, 4)] else []) else []
  | .read _ frame off n => if frame < x.kvFrames then [(t, x.frameAddr frame + off, n)] else []
  | _ => []

/-- WVL_REQ_ARRIVAL: a walk is answered with the entry and the header's CLEN and PLEN, a read with the bytes of the frame, a claim
from the lead's counter, and an answer to a claim reaches WVL_CLAIMED (08 R212, R220). -/
def Dev.wvlReq (d : Dev) (t : Nat) (q : WvlReq) : Dev :=
  let x := d.tile t
  match Dev.spadChecks (x.reqReads t q) d with
  | (d, true) => d
  | (d, false) =>
  match q with
  | .walk src slot page =>
    let s := slot.toNat
    let e : W32 := if x.claims s && decide (page < x.dirLen) then x.pte s page else 0
    d.emit (.wvlData src (leBytes 4 e.toNat ++ (if x.claims s then leBytes 4 (x.clen s) ++ leBytes 4 (x.plen s) else leBytes 8 0)))
  | .read src frame off n => d.emit (.wvlData src (if frame < x.kvFrames then x.spad.readN (x.frameAddr frame + off) n else List.replicate n 0))
  | .claim src => match d.claimServe t with | (d, i) => d.emit (.wvl src (.claimed i))
  | .claimed i => if x.wvl.claimOut ≠ 0 then d.claimGot t i else d

def execWvlReqArrival (t : Nat) (req : WvlReq) (s : State) : Host.Outcome State Fault Refusal := onTile t s fun d => d.wvlReq t req

/-! ### WVL_CMD (08 R213, R215) -/

/-- Whether a slot is homed on tile `t`. -/
def Dev.homedAt (d : Dev) (t slot : Nat) : Bool :=
  (d.tile t).claims slot && match d.regionOf t with
  | some r => decide (d.homeOf r slot = some t)
  | none => true

/-- A change of an entry of a slot made outside the KV commands is unsynchronised on every tile of the region (08 R215). -/
def Dev.markUnsync (d : Dev) (t slot : Nat) : Dev :=
  let ts := match d.regionOf t with | some r => (d.region r).tileList | none => [t]
  d.modTiles ts fun x => { x with wvl := { x.wvl with unsync := if slot ∈ x.wvl.unsync then x.wvl.unsync else x.wvl.unsync ++ [slot] }, exUnsync := true }

/-- The busy WVL_CMD operation `op` completes with a status. -/
def Dev.wvlCmd (d : Dev) (t op : Nat) (f : Nat → Nat → Dev × W16) : Dev :=
  let c := (d.tile t).reg Reg.WVL_CMD
  if bit c 32 ∧ fld c 12 3 = op then
    match f (fld c 16 16) (fld c 0 12) with
    | (d, st) => d.modTile t fun x => x.modReg Reg.WVL_CMD fun v => setFld (clrBit v 32) 48 16 st.toNat
  else d

/-- Shows a value in WVL_CMDDATA. -/
def Tile.cmdData (t : Tile) (v : W32) : Tile := t.setReg Reg.WVL_CMDDATA (BitVec.ofNat 64 v.toNat)

def Dev.readpte (d : Dev) (t : Nat) : Dev := d.wvlCmd t 0 fun slot page =>
  if d.homedAt t slot = false then (d, St.KV_SLOT_RANGE)
  else if page ≥ (d.tile t).dirLen then (d, St.LENGTH_EXCEEDS)
  else
    let d := (d.spadCheck t ((d.tile t).dirAddr slot + 16 + 4 * page) 4).1
    (d.modTile t fun x => x.cmdData (x.pte slot page), St.OK)

def execReadpte (t : Nat) (s : State) : Host.Outcome State Fault Refusal := onTile t s fun d => d.readpte t

def Dev.writepte (d : Dev) (t : Nat) : Dev := d.wvlCmd t 1 fun slot page =>
  if d.homedAt t slot = false then (d, St.KV_SLOT_RANGE)
  else if page ≥ (d.tile t).dirLen then (d, St.LENGTH_EXCEEDS)
  else ((d.modTile t fun x => (x.setPte slot page (BitVec.ofNat 32 (fld (x.reg Reg.WVL_CMDDATA) 0 32))).ptlbInv slot page).markUnsync t slot, St.OK)

def execWritepte (t : Nat) (s : State) : Host.Outcome State Fault Refusal := onTile t s fun d => d.writepte t

def Dev.ptlbInvCmd (d : Dev) (t : Nat) : Dev := d.wvlCmd t 2 fun slot page => (d.modTile t fun x => x.ptlbInv slot page, St.OK)

def execPtlbInv (t : Nat) (s : State) : Host.Outcome State Fault Refusal := onTile t s fun d => d.ptlbInvCmd t

def Dev.ptlbInvSlotCmd (d : Dev) (t : Nat) : Dev := d.wvlCmd t 3 fun slot _ =>
  (d.modTile t fun x =>
    let x := x.ptlbInvSlot slot
    { x with wvl := { x.wvl with unsync := x.wvl.unsync.filter fun k => decide (k ≠ slot) } }, St.OK)

def execPtlbInvSlot (t : Nat) (s : State) : Host.Outcome State Fault Refusal := onTile t s fun d => d.ptlbInvSlotCmd t

def Dev.readft (d : Dev) (t : Nat) : Dev := d.wvlCmd t 4 fun _ frame =>
  if frame ≥ (d.tile t).kvFrames then (d, St.LENGTH_EXCEEDS) else (d.modTile t fun x => x.cmdData (x.ft frame), St.OK)

def execReadft (t : Nat) (s : State) : Host.Outcome State Fault Refusal := onTile t s fun d => d.readft t

def execWvlCfgWrite (t : Nat) (v : W64) (s : State) : Host.Outcome State Fault Refusal :=
  onTile t s fun d => d.tileWrite t Reg.WVL_CFG fullMask v

def execWvlDirWrite (t : Nat) (v : W64) (s : State) : Host.Outcome State Fault Refusal :=
  onTile t s fun d => d.tileWrite t Reg.WVL_DIR fullMask v

/-! ### KV commands (08 R208 to R210) -/

/-- Pages of a slot in a range, with their entries. -/
def Tile.ptes (t : Tile) (slot first n : Nat) : List (Nat × W32) := (List.range n).map fun i => (first + i, t.pte slot (first + i))

/-- Any entry of a list is valid and PENDING. -/
def anyPending (es : List (Nat × W32)) : Bool := es.any fun e => pteV e.2 && ptePending e.2

/-- The frame a valid entry names, when a tile of region `r` holds it. -/
def Dev.frameOf (d : Dev) (r : Nat) (e : W32) : Option (Nat × Nat) :=
  let h := pteTile e
  if pteV e ∧ (d.region r).holds h = true ∧ pteFrame e < (d.tile h).kvFrames then some (h, pteFrame e) else none

/-- Invalidates translations of a slot in the PTLB of every tile of a region. -/
def Dev.kvInv (d : Dev) (r slot : Nat) (pages : List Nat) : Dev :=
  d.modTiles (d.region r).tileList fun x => x.ptlbDrop fun e => decide (e.slot = slot) && pages.contains e.page

/-- Runs a KV command's change at the home tiles, and queues their shadow records at once. -/
def Dev.kvChange (d : Dev) (ts : List Nat) (f : Dev → Dev) : Dev :=
  let d' := f (d.modTiles ts Tile.shadowAside)
  ts.foldl (fun e t => e.modTile t fun x => x.shadowNow (d.tile t)) d'

/-- A KV command reads the directory of a slot homed on `h`. A word that fails parity is handled by 06 R140, and the command goes on with the
stored data (DESIGN CHOICE, log 98). -/
def Dev.dirCheck (d : Dev) (h slot : Nat) : Dev := (d.spadCheck h ((d.tile h).dirAddr slot) (16 + 4 * (d.tile h).dirLen)).1

/-- KV_SHARE. -/
def Dev.kvShare (d : Dev) (m r src dst n : Nat) : Dev :=
  match d.homeOf r src, d.homeOf r dst with
  | some hs, some hd =>
    let d := (d.dirCheck hs src).dirCheck hd dst
    let s := d.tile hs
    let x := d.tile hd
    let es := s.ptes src 0 n
    let frames := es.filterMap fun e => d.frameOf r e.2
    if n = 0 ∨ n > s.dirLen ∨ n > x.dirLen then d.reply m St.LENGTH_EXCEEDS
    else if (x.ptes dst 0 x.dirLen).any (fun e => pteV e.2) ∨ x.clen dst ≠ 0 then d.reply m St.KV_BUSY
    else if anyPending es then d.reply m St.KV_PENDING
    else if frames.any fun f => let v := (d.tile f.1).ft f.2; decide (ftRef v + ftCwd v + frames.count f > 255) then d.reply m St.REFCOUNT_MAX
    else
      let d := d.kvChange (if hs = hd then [hs] else [hs, hd]) fun d =>
        let d := es.foldl (fun d e =>
          if pteV e.2 then
            let v := setBit e.2 1
            (d.modTile hs fun x => x.setPte src e.1 v).modTile hd fun x => x.setPte dst e.1 v
          else d.modTile hd fun x => x.setPte dst e.1 0) d
        let d := frames.foldl (fun d f => d.modTile f.1 fun x => let v := x.ft f.2; x.setFt f.2 (mkFt (ftRef v + 1) (ftCwd v) (ftState v))) d
        d.modTile hd fun x => x.setClen dst (min (s.clen src) (n * s.kvPpp))
      let pages := List.range n
      ((d.kvInv r src pages).kvInv r dst pages).reply m St.OK
  | _, _ => d.reply m St.KV_SLOT_RANGE

def execKvShare (m r : Nat) (src dst : BitVec 16) (n : Nat) (s : State) : Host.Outcome State Fault Refusal :=
  onHostR m 0x040B r s fun d => d.kvShare m r src.toNat dst.toNat n

/-- Frees entries of a slot homed on `h`: each valid one decrements its frame's REF and becomes zero. -/
def Dev.freeEntries (d : Dev) (r h slot : Nat) (es : List (Nat × W32)) : Dev :=
  es.foldl (fun d e =>
    if pteV e.2 then
      let d := match d.frameOf r e.2 with
        | some f => d.decFrame r f.1 f.2
        | none => d
      d.modTile h fun x => x.setPte slot e.1 0
    else d) d

/-- KV_FREE. -/
def Dev.kvFree (d : Dev) (m r slot first n : Nat) (f : Upset) : Dev :=
  match d.homeOf r slot with
  | none => d.reply m St.KV_SLOT_RANGE
  | some h =>
    let d := ((if f.frame then d.wvlParity h else d).upset f).dirCheck h slot
    let x := d.tile h
    let n := cnt0 n 4096
    let es := x.ptes slot first n
    if first + n > x.dirLen then d.reply m St.LENGTH_EXCEEDS
    else if anyPending es then d.reply m St.KV_PENDING
    else ((d.kvChange [h] fun d => d.freeEntries r h slot es).kvInv r slot (es.map (·.1))).reply m St.OK

def execKvFree (m r : Nat) (slot : BitVec 16) (first n : Nat) (f : Upset) (s : State) : Host.Outcome State Fault Refusal :=
  onHostR m 0x040C r s fun d => d.kvFree m r slot.toNat first n f

/-- Frees every entry of a slot homed on `h`, with CLEN and PLEN zero. -/
def Dev.freeSlot (d : Dev) (r h slot : Nat) : Dev :=
  let d := d.dirCheck h slot
  let x := d.tile h
  let es := x.ptes slot 0 x.dirLen
  let d := d.kvChange [h] fun d => (d.freeEntries r h slot es).modTile h fun x => (x.setClen slot 0).setPlen slot 0
  d.kvInv r slot (es.map (·.1))

/-- KV_FREE_SLOT. -/
def Dev.kvFreeSlot (d : Dev) (m r slot : Nat) : Dev :=
  match d.homeOf r slot with
  | none => d.reply m St.KV_SLOT_RANGE
  | some h =>
    let x := d.tile h
    let es := x.ptes slot 0 x.dirLen
    if anyPending es then d.reply m St.KV_PENDING
    else (d.freeSlot r h slot).reply m St.OK

def execKvFreeSlot (m r : Nat) (slot : BitVec 16) (s : State) : Host.Outcome State Fault Refusal :=
  onHostR m 0x040D r s fun d => d.kvFreeSlot m r slot.toNat

/-- Rebuilds the frame tables of tiles by counting the valid entries that name each frame (08 R225, 15 R345). -/
def Dev.rebuildFt (d : Dev) (r : Nat) (ts : List Nat) : Dev :=
  let named := (d.region r).tileList.flatMap fun t =>
    let x := d.tile t
    x.slotsHere.flatMap fun s => (x.ptes s 0 x.dirLen).filterMap fun e => d.frameOf r e.2
  ts.foldl (fun d t => d.modTile t fun x =>
    (List.range x.kvFrames).foldl (fun x f =>
      let n := named.count (t, f)
      x.setFt f (if n = 0 then 0 else mkFt n 0 1)) x) d

/-- Bytes of the shadow area of a tile. -/
def Tile.shBytes (t : Tile) : Nat := 64 * fld (t.reg Reg.WVL_SHADOW) 48 16
def Tile.shBase (t : Tile) : Nat := 64 * fld (t.reg Reg.WVL_SHADOW) 32 16

/-- One tile takes its arena and directories from a shadow area, with the lengths of step `S` (08 R225 items 2 and 3). -/
def Tile.restoreFrom (t : Tile) (data : List Byte) (step S : Nat) : Tile :=
  let arena := 4096 * t.kvFrames
  let t := t.kvWrite (t.kvBase * 64) (data.take arena)
  let t := t.kvWrite (t.dirBase * 64) ((data.drop arena).take t.dirBytes)
  t.slotsHere.foldl (fun t s => (t.setClen s (if step = S then t.clen s else t.plen s)).clearPending s) t

/-- A restore from the tile's own shadow area. -/
def Tile.restore (t : Tile) (S : Nat) : Tile := t.restoreFrom (t.spad.readN t.shBase t.shBytes) (t.reg Reg.WVL_SHSTEP).toNat S

/-- KV_RESTORE: its status, S, and the device after it. A rectangle other than that of the target region is refused with
COMMAND_INVALID (log 32). -/
def Dev.kvRestore (d : Dev) (rect : Rect) (r : Nat) : W16 × Nat × Dev :=
  let x := d.region r
  let ts := x.tileList
  if x.st = .empty ∨ rect ≠ ⟨x.b0, x.b0 + x.h - 1, x.c0, x.c0 + x.w - 1⟩ then (St.COMMAND_INVALID, 0, d)
  else if ts.any fun t => !bit ((d.tile t).reg Reg.WVL_SHADOW) 0 || decide ((d.tile t).reg Reg.WVL_SHSTEP = 0) then (St.SHADOW_ABSENT, 0, d)
  else
    let S := ts.foldl (fun s t => min s ((d.tile t).reg Reg.WVL_SHSTEP).toNat) (2 ^ 64 - 1)
    let d := (Dev.spadChecks (ts.map fun t => (t, (d.tile t).shBase, (d.tile t).shBytes)) d).1
    let d := (d.kvChange ts fun d => d.modTiles ts fun t => t.restore S).rebuildFt r ts
    (St.OK, S, d.modTiles ts fun t => t.ptlbDrop fun _ => true)

/-- The source device names the peer; nothing of it is needed here (08 R225). -/
def execKvRestore (m : Nat) (_src : BitVec 12) (rect : Rect) (r : Nat) (s : State) : Host.Outcome State Fault Refusal :=
  onHostR m 0x040E r s fun d => match d.kvRestore rect r with
    | (st, S, d) => if st = St.OK then d.replyFull m St.OK 0 [BitVec.ofNat 32 S, BitVec.ofNat 32 (S / 2 ^ 32), 0] [] else d.reply m st

/-! ### Claims (08 R220) -/

def execWvlClaim (t : Nat) (s : State) : Host.Outcome State Fault Refusal := onTile t s fun d => d.wvlClaim t

/-- WVL_CLAIMED: a read waits while a request is outstanding. -/
def Dev.wvlClaimedRead (d : Dev) (t : Nat) (who : Requester) : Dev :=
  if (d.tile t).wvl.claimOut ≠ 0 then d
  else match d.tileRead32 who t Reg.WVL_CLAIMED with
    | (d, v) => d.emit (.readData (BitVec.ofNat 64 v.toNat))

def execWvlClaimed (t : Nat) (who : Requester) (s : State) : Host.Outcome State Fault Refusal := onTile t s fun d => d.wvlClaimedRead t who

/-! ### Shadow pages (08 R222 to R224) -/

/-- SHADOW_SEND: the records that wait leave through route patch entry ROUTE. -/
def Dev.shadowSend (d : Dev) (t : Nat) : Dev :=
  let x := d.tile t
  if bit (x.reg Reg.WVL_SHADOW) 0 then
    (d.modTile t fun x => { x with wvl := { x.wvl with shadowQ := [] } }).sendShadow t x.wvl.shadowQ
  else d

def execShadowSend (t : Nat) (s : State) : Host.Outcome State Fault Refusal := onTile t s fun d => d.shadowSend t

/-- Stores 16-byte words at a shadow offset; words past the shadow area or the scratchpad are discarded (08 R223). -/
def Tile.shadowStore (t : Tile) (off : Nat) (bs : List Byte) : Tile :=
  let space := min t.shBytes (Config.spadBytes - t.shBase)
  let keep := bs.take ((space - off) / 16 * 16)
  let t := t.spadWrite (t.shBase + off) keep
  if keep.length < bs.length then (t.spoil (bs.length - keep.length)).wvlErr 22 else t

/-- A shadow record reaches its tile (08 R223). -/
def Dev.shadowArrival (d : Dev) (t : Nat) (src : BitVec 12) (q : ShadowRec) : Dev :=
  let d := d.modTile t fun x => { x with wvl := { x.wvl with shFrom := if src ∈ x.wvl.shFrom then x.wvl.shFrom else x.wvl.shFrom ++ [src] } }
  let off := q.offset.toNat
  match q.kind.toNat with
  | 0 => d.modTile t fun x => x.shadowStore off (slice q.data 0 (16 * cnt0 q.len.toNat 4096))
  | 1 => d.modTile t fun x =>
      let old := x.spad.readN (x.shBase + off) 16
      x.shadowStore off (leBytes 4 (fld q.value 0 32) ++ old.take 4 ++ old.drop 8)
  | 2 => (d.modTile t fun x => x.setReg Reg.WVL_SHSTEP q.value).emit (.shadowAck t src q.value)
  | _ => d

/-- SHADOW_RECORD_ARRIVAL: the next shadow packet from a device at the tile. -/
def execShadowRecordArrival (t : Nat) (src : BitVec 12) (sr : ShadowRec) (s : State) : Host.Outcome State Fault Refusal :=
  onTile t s fun d => match d.unitPkt t 3 fun k => decide (k.srcdev = src) with
    | some k => if k.shadow = sr then (d.unitTake t k).shadowArrival t src sr else d
    | none => d

def execShadowAckArrival (t : Nat) (step : W64) (s : State) : Host.Outcome State Fault Refusal :=
  onTile t s fun d => d.modTile t fun x => x.setReg Reg.WVL_SHACK step

/-- An acknowledgement of the newest END record is outstanding (08 R224). -/
def Tile.shWaits (t : Tile) : Bool := bit (t.reg Reg.WVL_SHADOW) 0 && decide ((t.reg Reg.WVL_SHACK).toNat < t.wvl.shStep)

/-- SHADOW_ACK_TIMEOUT. The class of the record is not stated: a free value (log 40). -/
def Dev.shadowTimeout (d : Dev) (t : Nat) : Dev :=
  if (d.tile t).shWaits then
    let d := d.modTile t fun x =>
      let x := (x.modReg Reg.WVL_SHADOW fun v => clrBit v 0).wvlErr 22
      { x with wvl := { x.wvl with shadowQ := [] } }
    (d.recordTile t (d.free % 256) 4 St.SHADOW_ABSENT 0 0).drawn
  else d

def execShadowAckTimeout (t : Nat) (s : State) : Host.Outcome State Fault Refusal := onTile t s fun d => d.shadowTimeout t

end Sys2Proof.Machine
end

