-- ==== Sys2Proof/Machine/FltOps.lean ====
section
/-! DEFINITION. Recoveries as the fault manager runs them (15): groups and the regions a frame names, opening, merging, HOLD and
RELEASE, lost slots, standby plans, alternates. -/

namespace Sys2Proof.Machine

/-! ### Groups (15 R341, R342) -/

/-- GROUP of region `r`. -/
def Dev.fltGroupOf (d : Dev) (r : Nat) : Nat := fld (d.reg (Reg.FLT_GROUP + 8 * r)) 0 16

/-- Member set of a group. -/
def Dev.members (d : Dev) (g : Nat) : BitVec 4096 := SMap.get (fun _ => (0 : BitVec 4096)) d.flt.groups g

/-- The regions with a program. -/
def Dev.loaded (d : Dev) : List Nat := (List.range Config.nRegions).filter fun r => decide ((d.region r).st ≠ .empty)

/-- The loaded regions that a FAULT frame names by SUBJECT and GROUP (15 Table 15.3). -/
def Dev.namedBy (d : Dev) (subject : BitVec 12) (group : Nat) : List Nat :=
  d.loaded.filter fun r =>
    let g := d.fltGroupOf r
    decide (g ≠ 0) && (if group = 0 then (d.members g).getLsbD subject.toNat else decide (g = group))

/-- The devices of the groups a recovery names, but for this one and, in a device recovery, the one lost. -/
def Dev.partners (d : Dev) (cls subject : Nat) (groups : List Nat) : List Nat :=
  let sets : List (BitVec 4096) := groups.flatMap fun g =>
    if g = 0 then (d.flt.groups.filter fun e => e.2.getLsbD subject).map (·.2) else [d.members g]
  (List.range 4096).filter fun i =>
    sets.any (fun s => s.getLsbD i) && decide (i ≠ d.id.toNat) && !(decide (cls = 6) && decide (i = subject))

/-- Recovery aborts of regions that are not in a recovery yet. -/
def Dev.abortAll (d : Dev) (rs : List Nat) : Dev := rs.foldl (fun d r => if (d.region r).st = .empty then d else d.recoveryAbort r) d

/-- WHERE of a cause: the tile of class TILE, the port of class LINK, otherwise 0 (15 Table 15.3). -/
def Cause.place (c : Cause) : Nat := if c.cls = 3 ∨ c.cls = 5 then c.loc else 0

/-- Adds what is new of a list. -/
def addNew (l m : List Nat) : List Nat := l ++ m.filter fun i => !l.contains i

/-- CLASS and SUBJECT that a recovery shows: those of its first cause. -/
def Recovery.cls (v : Recovery) : Nat := (v.causes.head?.map fun c => c.cls).getD 0
def Recovery.subject (v : Recovery) : Nat := (v.causes.head?.map fun c => c.subject).getD 0

/-- The groups that a recovery names. -/
def Recovery.groups (v : Recovery) : List Nat := v.causes.foldl (fun l c => addNew l c.groups) []

/-- Adds a cause to a list: its groups join those of the cause of the same class, subject and place, if there is one. -/
def addCause (cs : List Cause) (c : Cause) : List Cause :=
  let same (e : Cause) : Bool := decide (e.cls = c.cls) && decide (e.subject = c.subject) && decide (e.loc = c.loc)
  if cs.any same then cs.map fun e => if same e then { e with groups := addNew e.groups c.groups } else e else cs ++ [c]

/-- Sends the FAULT frames of causes of a recovery, one to each group a cause names. -/
def Dev.faultSend (d : Dev) (v : Recovery) (action : Nat) (cs : List Cause) : Dev :=
  cs.foldl (fun d c => c.groups.foldl (fun d g =>
    d.sendFrame ftFAULT (faultPayload c.cls action (BitVec.ofNat 12 c.subject) g v.recid c.place v.restarts)) d) d

/-- Puts the recovery in place. -/
def Dev.setRecov (d : Dev) (v : Option Recovery) : Dev := { d with flt := { d.flt with recov := v } }

/-- Remembers a SUBJECT with the time its frame was sent or came, for 100 ms (15 R342). -/
def Dev.sawSubject (d : Dev) (subject : Nat) (recid : W32) : Dev :=
  { d with flt := { d.flt with seenSubj := (subject, d.elapsed, recid) :: d.flt.seenSubj.filter fun e => decide (d.elapsed < e.2.1 + 100000000) } }

/-- Whether a frame of `recid` that names `subject` belongs to recovery `v` (15 R342). -/
def Dev.sameRecovery (d : Dev) (v : Recovery) (recid : W32) (subject : Nat) : Bool :=
  decide (v.recid = recid) ||
  ((v.causes.any fun c => decide (c.subject = subject)) &&
    d.flt.seenSubj.any fun e => decide (e.1 = subject) && decide (e.2.2 = v.recid) && decide (d.elapsed < e.2.1 + 100000000))

/-! ### Opening and ending a recovery (15 R343, R344, R356) -/

/-- A recovery is over: its report is kept, and its regions that are in FAULT enter STOPPED. -/
def Dev.closeRecovery (d : Dev) (v : Recovery) : Dev :=
  let d := v.regions.foldl (fun d r => if (d.region r).st = .fault then d.enterStopped r else d) d
  ({ d with flt := { d.flt with reports := d.flt.reports ++ [⟨v.recid, v.status, v.lost⟩] } } : Dev).setRecov none

/-- The device that opened a recovery sends RELEASE once every part of it is done (15 R344). -/
def Dev.tryRelease (d : Dev) : Dev :=
  match d.flt.recov with
  | some v =>
    if v.own = true ∧ v.stage = RecStage.waitParts ∧ (v.needParts.all fun i => v.parts.contains i) = true then
      (d.faultSend v 3 v.causes).closeRecovery v
    else d
  | none => d

/-- Tells the originator that the local part is done (15 R344). -/
def Dev.partDone (d : Dev) (recid : W32) : Dev := d.emit (.ctrl (BitVec.ofNat 12 (recid.toNat / 2 ^ 20)) recid)

/-- The local part of a recovery is done: the device that opened it waits for the other parts, another tells it so. -/
def Dev.waitParts (d : Dev) : Dev :=
  match d.flt.recov with
  | some v =>
    let d := d.setRecov (some { v with stage := RecStage.waitParts })
    if v.own then d.tryRelease else d.partDone v.recid
  | none => d

/-- The local part of a recovery starts again from the first item with every site and every displaced region (15 R356). -/
def Dev.restart (d : Dev) (v : Recovery) : Recovery :=
  { v with todo := v.sites, stage := RecStage.quiesced, parts := [], toLoad := (v.moved.filterMap d.regionOf).dedup }

/-- GROUP fields of the frames of a recovery of these regions; a region of group 0 sends none. -/
def Dev.groupsOf (d : Dev) (rs : List Nat) : List Nat := ((rs.map d.fltGroupOf).filter fun g => decide (g ≠ 0)).dedup

/-- Opens a recovery (15 R343), or merges its cause into the open one (15 R356). `sites` are failed sites, `rs` the regions of this
device concerned; a device recovery names GROUP 0. `rec` is the record of a merge and, with `own`, of the opening; a tile recovery opens
before its site has failed (15 R345, 16 R381). -/
def Dev.openRecovery (d : Dev) (cls subject loc : Nat) (sites : List (Nat × Nat)) (rs : List Nat) (own : Bool) (rec : ErrRec) : Dev :=
  let groups := if cls = 6 then [0] else d.groupsOf rs
  let c : Cause := ⟨cls, subject, loc, groups⟩
  let named := addNew rs ((groups.flatMap fun g => d.namedBy (BitVec.ofNat 12 subject) g).dedup)
  match d.flt.recov with
  | none =>
    let recid : W32 := BitVec.ofNat 32 (d.id.toNat * 2 ^ 20 + d.flt.recCtr % 2 ^ 20)
    let v : Recovery :=
      { recid := recid, causes := [c], sites := sites, todo := sites, moved := [], restored := [], lost := [], restarts := 0,
        stage := RecStage.quiesced, own := true, regions := named, parts := [], needParts := d.partners cls subject groups, toLoad := [],
        status := St.OK, relay := false }
    let d := { d with flt := { d.flt with recCtr := d.flt.recCtr + 1 } }
    let d := d.count Reg.FLT_CNT 0 16 1
    let d := if own then d.record { rec with action := 3, recid := recid } else d
    let d := (d.faultSend v 1 [c]).sawSubject subject recid
    (d.setRecov (some v)).abortAll named
  | some v =>
    let d := (d.count Reg.FLT_CNT 16 16 1).record { rec with action := 4, recid := v.recid }
    let w : Recovery := { v with causes := addCause v.causes c, regions := addNew v.regions named }
    if v.stage = RecStage.held then d
    else if v.restarts ≥ 3 then
      let d := (d.faultSend w 2 w.causes).count Reg.FLT_CNT 48 16 1
      (d.setRecov (some { w with stage := RecStage.held, status := St.RECOVERY_ESCALATED })).abortAll (named.filter fun r => !v.regions.contains r)
    else
      let w : Recovery := d.restart { w with
        sites := v.sites ++ sites.filter (fun s => !v.sites.contains s), restarts := v.restarts + 1
        needParts := addNew v.needParts (d.partners cls subject groups) }
      (((d.faultSend w 1 w.causes).sawSubject subject v.recid).setRecov (some w)).abortAll w.regions

/-- Goes on with a recovery that has no site to test: only other parts are left. -/
def Dev.noSites (d : Dev) : Dev :=
  match d.flt.recov with
  | some v => if v.stage = RecStage.quiesced ∧ v.todo.isEmpty then d.waitParts else d
  | none => d

/-! ### Lost slots (15 R348) -/

/-- Slots of region `r` homed on a tile, or with a valid entry that names it. -/
def Dev.slotsOn (d : Dev) (r t : Nat) : List Nat :=
  ((d.region r).tileList.flatMap fun h =>
    let x := d.tile h
    x.slotsHere.filter fun s => decide (h = t) || (x.ptes s 0 x.dirLen).any fun e => pteV e.2 && decide (pteTile e.2 = t)).dedup

/-- Slots of a region are lost: freed, CANCELLED, marked LOST and counted. -/
def Dev.loseSlots (d : Dev) (r : Nat) (slots : List Nat) : Dev :=
  let d := slots.foldl (fun d s =>
    let d := match d.homeOf r s with
      | some h => d.freeSlot r h s
      | none => d
    (d.setSlot s ⟨.cancelled, true⟩).count Reg.FLT_CNT 32 16 1) d
  match d.flt.recov with
  | some v => d.setRecov (some { v with lost := addNew v.lost slots })
  | none => d

/-! ### Standby plans (15 R351) -/

/-- One action of a plan: its status, and the device after it. -/
def Dev.planAct (d : Dev) (a : PlanAct) : W16 × Dev :=
  match a with
  | .unload r => if (d.region r).st = .fault then (St.OK, d.unload r) else (St.REGION_STATE, d)
  | .load q =>
    match d.loadImage q true with
    | (d, st) =>
      if st = St.OK then
        match d.flt.recov with
        | some v => (St.OK, d.setRecov (some { v with regions := addNew v.regions [q.r] }))
        | none => (St.OK, d)
      else (st, d)
  | .restore rect r =>
    match d.kvRestore rect r with
    | (st, _, d) =>
      if st = St.SHADOW_ABSENT then (st, d.loseSlots r (((d.region r).tileList.flatMap fun t => (d.tile t).slotsHere).dedup)) else (st, d)

/-- Runs actions in order; the first that fails ends the plan. -/
def Dev.planRun : List PlanAct → Dev → W16 × Dev
  | [], d => (St.OK, d)
  | a :: as, d =>
    match d.planAct a with
    | (st, d) => if st = St.OK then Dev.planRun as d else (st, d)

/-- The armed plan for a device runs and is disarmed. -/
def Dev.runPlan (d : Dev) (subject : Nat) : Dev :=
  match d.flt.plans.find? fun p => decide (p.1.toNat = subject) with
  | none => d
  | some p =>
    let d := { d with flt := { d.flt with plans := d.flt.plans.filter fun q => decide (q.1 ≠ p.1) } }
    match Dev.planRun p.2 d with
    | (st, d) =>
      match d.flt.recov with
      | some v => if st = St.OK then d else d.setRecov (some { v with status := st })
      | none => d

/-! ### Links (15 R353, R354) -/

/-- A LINK record of port `p`. -/
def linkRecord (p : Nat) (st : W16) : ErrRec := { errBase 5 6 st with port := BitVec.ofNat 16 p }

/-- The next alternate after the one in use, counting cyclically, whose first hop is a port in UP or DEGRADED. -/
def Dev.nextAlt (d : Dev) (e : RouteEnt) : Option Nat :=
  ((List.range e.nalt).map fun i => (e.active + 1 + i) % e.nalt).find? fun k =>
    decide (k ≠ e.active) && match e.alts[k]? with
    | some a => decide (a.hops ≠ 0) && !a.mcast && d.portUp (fld a.route 0 4)
    | none => false

/-- A port entered DOWN (15 R353): the entries whose path starts with it take another alternate, if FLT_CTL.AUTOALT is set. -/
def Dev.autoAlt (d : Dev) (p : Nat) : Dev :=
  if bit (d.reg Reg.FLT_CTL) 17 then
    d.routes.foldl (fun d e =>
      match d.routeAlt e.1 with
      | some a =>
        if a.hops ≠ 0 ∧ a.mcast = false ∧ fld a.route 0 4 = p then
          match d.nextAlt (d.route e.1) with
          | some k => d.setRoutes [(e.1, { d.route e.1 with active := k })]
          | none => d.record { linkRecord p St.LINK_DOWN with detail := e.1 }
        else d
      | none => d) d
  else d

end Sys2Proof.Machine
end

