-- ==== Sys2Proof/Machine/Fabric.lean ====
section
/-! DEFINITION. The fabric ports (12): link frames and credit, relay, the end-to-end check with its acknowledgements and resends,
training and status of ports. -/

namespace Sys2Proof.Machine

/-! ### Link frames that arrive (12 R289 to R292) -/

/-- The packets in progress at the input of port `p` are completed, and BODY flits of their VCs are discarded until the next HEAD (12 R291). -/
def Dev.completeAll (d : Dev) (p : Nat) : Dev := ([0, 1, 2, 3] : List (BitVec 2)).foldl (fun d v => d.relayCut p v) d

/-- `n` frames of port `p` count as dropped: counted, flagged, and the packets in progress are completed (12 R290, R291). -/
def Dev.frameDrop (d : Dev) (p n : Nat) : Dev :=
  let d := (d.count (Reg.PORT_CNT + 0x200 * p) 0 32 n).modReg (Reg.PORT_ERR + 0x200 * p) fun v => setBit v 0
  let d := d.modPort p fun x => { x with drops := List.replicate n d.now ++ x.drops.filter fun t => decide (d.now < t + 1000000000) }
  d.completeAll p

/-- Sequence number `a` is not after `b` modulo 2^16. -/
def seqLe (a b : BitVec 16) : Bool := decide ((b - a).toNat < 32768)

/-- A LINK slot of type 0 carries credit (12 R292): the flits in frames up to REFSEQ no longer count. -/
def Dev.takeCredit (d : Dev) (p : Nat) (b : BitVec 512) : Dev :=
  let ref := BitVec.ofNat 16 (fld b 64 16)
  d.modPort p fun x => { x with free := (List.range 4).map fun v => fld b (128 + 32 * v) 32, sent := x.sent.filter fun e => !seqLe e.1 ref }

/-- A HEAD slot: a packet that is still in progress on its VC is completed, and so is one whose header is malformed (12 R291, log 43). -/
def Dev.takeHead (d : Dev) (p : Nat) (v : BitVec 2) (b : BitVec 512) : Dev :=
  let k := Packet.ofHead b
  let bad := k.malformed true || decide (k.hops.toNat > 32) || decide (k.vc ≠ v)
  let d := (d.relayCut p v).relayIn p { k with vc := v }
  if bad then d.relayCut p v else d

/-- One slot of a frame that is taken. -/
def Dev.takeSlot (p : Nat) (d : Dev) (s : Nat × BitVec 512) : Dev :=
  if s.1 = 1 then (if fld s.2 0 3 = 0 then d.takeCredit p s.2 else d)
  else if 12 ≤ s.1 then d.relayBody p (BitVec.ofNat 2 s.1) ((List.range 4).map fun i => s.2.extractLsb' (128 * i) 128)
  else if 8 ≤ s.1 then d.takeHead p (BitVec.ofNat 2 s.1) s.2
  else d

/-- LINK_FRAME_ARRIVAL: a frame that fails its check takes the place of the next sequence number (log 45); the frames a jump in FSEQ skips count as
dropped; then the slots are taken, or the frame is dropped for a reserved code. -/
def Dev.linkFrame (d : Dev) (p : Nat) (fr : LinkFrame) : Dev :=
  if d.portCarries p = false then d
  else
    let fec := Reg.PORT_FEC + 0x200 * p
    let d := if optical p then (d.count fec 0 32 fr.fecCorr).count fec 32 32 fr.fecUncorr else d
    let x := d.port p
    if !fr.crcOk p || (optical p && decide (fr.fecUncorr ≠ 0)) then
      (d.setPort p { x with rxSeq := x.rxSeq.map (· + 1) }).frameDrop p 1
    else
      let skipped := match x.rxSeq with | some e => (fr.fseq - e).toNat | none => 0
      let d := if skipped ≠ 0 then d.frameDrop p skipped else d
      let d := d.modPort p fun x => { x with rxSeq := some (fr.fseq + 1) }
      if fr.reserved p then d.frameDrop p 1
      else ((fr.slots p).foldl (Dev.takeSlot p) (d.modPort p fun x => { x with taken := fr.fseq })).clean

def execLinkFrameArrival (p : Nat) (fr : LinkFrame) (s : State) : Host.Outcome State Fault Refusal := onPort p s fun d => d.linkFrame p fr

/-! ### Link frames that leave (12 R289, R292, R296) -/

/-- The source that VC `v` of a port was last served from. -/
def Port.lastSrc (x : Port) (v : BitVec 2) : Nat := SMap.get (fun _ => 23) x.rot v.toNat

/-- Whether credit allows a flit of VC `v`: the flits of that VC in frames after REFSEQ number fewer than FREE (12 R292). -/
def Port.credit (x : Port) (v : BitVec 2) : Bool := decide ((x.sent.filter fun e => decide (e.2 = v.toNat)).length < x.free.getD v.toNat 0)

/-- The flit that port `p` sends next. -/
def Dev.portPick (d : Dev) (p : Nat) : Option (Nat × Flight × Copy) :=
  choose d.flying relay p 24 (d.portSlots p) (d.port p).lastSrc fun v _ => (d.port p).credit v

/-- Fills `n` slots of the frame that port `p` sends: their codes and flits. -/
def Dev.fillSlots (p : Nat) : Nat → Dev → Dev × List (Nat × BitVec 512)
  | 0, d => (d, [])
  | n + 1, d =>
    let s := match d.portPick p with
      | none => (d, (0, 0))
      | some (i, f, c) =>
        let v := f.pkt.vc
        let d := { d with flying := d.flying.modify i fun f => f.modCopy p fun c => { c with sent := c.sent + 1 } }
        let d := d.modPort p fun x => { x with
          sent := x.sent ++ [(x.txSeq, v.toNat)], rot := if v.toNat ≥ 2 then SMap.set (fun _ => 23) x.rot v.toNat f.inp else x.rot }
        (d, ((if c.sent = 0 then 8 else 12) + v.toNat, f.flit c))
    let r := Dev.fillSlots p n s.1
    (r.1, s.2 :: r.2)

/-- Port `p` sends a frame; a LINK slot, when there is one, is its first. -/
def Dev.frameSend (d : Dev) (p : Nat) (link : Option (BitVec 512)) : Dev :=
  let first : List (Nat × BitVec 512) := match link with | some b => [(1, b)] | none => []
  let r := Dev.fillSlots p (frameSlots p - first.length) d
  let x := r.1.port p
  ((r.1.setPort p { x with txSeq := x.txSeq + 1 }).emit (.portOut p (frameBytes p x.txSeq (first ++ r.2)))).clean

/-- Whether port `p` has a packet whose header has left and whose end has not. -/
def Dev.portBusy (d : Dev) (p : Nat) : Bool :=
  d.flying.any fun f => decide (f.node = relay) && match f.copyTo p with | some c => decide (0 < c.sent) && decide (c.sent < f.pkt.flits) | none => false

/-- One frame time of the ports: each that carries traffic, or ends its packets before it stops, sends a frame (log 20). -/
def Dev.portCycle (d : Dev) : Dev :=
  (List.range Config.nPorts).foldl (fun d p => if d.portCarries p || (d.port p).idling then d.frameSend p none else d) d

/-- What the block does with no command waiting: one tile cycle of the mesh and one frame of every port (log 20). -/
def Dev.cycle (d : Dev) : Dev := d.meshCycle.portCycle

/-- Whether the haul engine withholds VC3 credits of port `p`: its staging buffer of 16 MiB is full, and frames come over that port (07 R182). -/
def Dev.haulFull (d : Dev) (p : Nat) : Bool :=
  let l := d.unitIn.filter fun e => decide (e.1 = 0x7FF) && decide (e.2.kind = 4)
  decide ((l.length + 1) * 2112 > 0x1000000) && l.any fun e => decide (fld e.2.rpath (4 * (e.2.hops.toNat - 1)) 4 = p)

/-- Free flits of the receive buffer of port `p` on VC `v` (12 Table 12.1, R292). -/
def Dev.rxFree (d : Dev) (p : Nat) (v : BitVec 2) : Nat :=
  if v = 3 ∧ d.haulFull p = true then 0 else (if optical p then 16384 else 256) - d.heldAt relay p v

/-- FREE of every VC of port `p`. -/
def Dev.rxFrees (d : Dev) (p : Nat) : List Nat := (List.range 4).map fun v => d.rxFree p (BitVec.ofNat 2 v)

/-- The LINK slot that carries the credit of port `p`: REFSEQ in bytes 8 and 9, FREE_v in bytes 16 + 4v to 19 + 4v (12 R292). -/
def Dev.creditSlot (d : Dev) (p : Nat) : BitVec 512 :=
  BitVec.ofNat 512 (packFields ((64, 0) :: (16, (d.port p).taken.toNat) :: (48, 0) :: (d.rxFrees p).map fun n => (32, n)))

/-- A LINK slot is due: a FREE has grown by 16 since the last one, or 1 µs has passed (12 R292). -/
def Dev.creditDue (d : Dev) (p : Nat) : Bool :=
  let x := d.port p
  decide (x.credAt + 1000 ≤ d.elapsed) || (d.rxFrees p).zipIdx.any fun e => decide (x.credSent.getD e.2 0 + 16 ≤ e.1)

/-- CREDIT_UPDATE_SEND: a frame with a LINK slot. -/
def Dev.creditSend (d : Dev) (p : Nat) : Dev :=
  if d.portCarries p && d.creditDue p then
    (d.modPort p fun x => { x with credSent := d.rxFrees p, credAt := d.elapsed }).frameSend p (some (d.creditSlot p))
  else d

def execCreditUpdateSend (p : Nat) (s : State) : Host.Outcome State Fault Refusal := onPort p s fun d => d.creditSend p

/-- PORT_SLOT_START (12 R296): in the first ns of a slot the first VC0 packet of the source its entry names starts, when none is on its way. -/
def Dev.portSlotStart (d : Dev) (p : Nat) : Dev :=
  match d.portClock, d.portSrc p with
  | some n, some src =>
    let hs := heads d.flying relay p 0
    if d.portCarries p = true ∧ d.portSlots p = true ∧ n % d.portSlotNs p = 0 ∧ (hs.any fun h => h.2.2.go) = false then
      match hs.find? fun h => decide (h.2.1.inp = src) with
      | some h => { d with flying := d.flying.modify h.1 fun f => f.modCopy p fun c => { c with go := true } }
      | none => d
    else d
  | _, _ => d

def execPortSlotStart (p : Nat) (s : State) : Host.Outcome State Fault Refusal := onPort p s fun d => d.portSlotStart p

/-! ### The end-to-end check (12 R299 to R302) -/

/-- Hops of a string reversed: hop k of the result is hop n − 1 − k (12 R302). -/
def retrace (rpath : W128) (n : Nat) : W128 :=
  (List.range n).foldl (fun r k => setFld r (4 * k) 4 (fld rpath (4 * (n - 1 - k)) 4)) 0

/-- An ACK (type 0) or NAK (type 1) of sequence `n` that goes back along the path of a packet (12 R302). SRCTILE names a device unit (log 46). -/
def Dev.nakPacket (d : Dev) (k : Packet) (type : BitVec 2) (n : W32) : Packet :=
  ({ packet0 with
    route := retrace k.rpath k.hopptr.toNat, hops := k.hopptr, dtile := k.srctile, ddev := k.srcdev, sflow := k.sflow
    regtag := 0x7F, vc := 1, kind := 6, srcdev := d.id, srctile := 0x7FF, len := 2, ackfloor := n, nakType := type } : Packet).sealed false

/-- Sends it through gateway 0. -/
def Dev.sendNak (d : Dev) (k : Packet) (type : BitVec 2) (n : W32) : Dev := d.unitOut (d.nakPacket k type n)

/-- A NAK of sequence `n`, at most one per flow in 2 µs (12 R302). -/
def Dev.nakOnce (d : Dev) (k : Packet) (n : W32) : Dev :=
  if d.naks.any fun e => decide (e.1 = k.flow) && decide (d.now < e.2 + 2000) then d
  else ({ d with naks := (k.flow, d.now) :: d.naks.filter fun e => decide (d.now < e.2 + 2000) && decide (e.1 ≠ k.flow) } : Dev).sendNak k 1 n

/-- Replaces a receive flow entry. -/
def Dev.setRx (d : Dev) (f : RxFlow) : Dev := { d with rxFlows := d.rxFlows.map fun e => if e.key = f.key then f else e }

/-- Receive flow entry of a flow. -/
def Dev.rxFlow (d : Dev) (k : FlowKey) : Option RxFlow := d.rxFlows.find? fun e => decide (e.key = k)

/-- Sends the ACK of X − 1 of an entry (12 R302). -/
def Dev.ackNow (d : Dev) (f : RxFlow) : Dev := (d.setRx { f with unacked := 0 }).sendNak f.back 0 (f.x - 1)

/-- An entry accepts a packet: X advances, and the sixteenth accept since the last ACK sends one. -/
def Dev.acceptIn (d : Dev) (f : RxFlow) (k : Packet) : Dev :=
  let f : RxFlow := { f with
    x := k.flowseq + 1, unacked := f.unacked + 1, oldest := if f.unacked = 0 then d.now else f.oldest, back := k, last := d.now }
  let d := (d.setRx f).accepted k
  if f.unacked ≥ 16 then d.ackNow f else d

/-- E2E_PACKET_ARRIVAL: the cases of R301 in their order. -/
def Dev.e2eArrival (d : Dev) (k : Packet) : Dev :=
  let d := { d with rxIn := d.rxIn.erase k }
  if k.crcOk = false then d.count Reg.PORT_E2ECNT 0 16 1
  else match d.rxFlow k.flow with
    | none =>
      if k.flowseq ≠ k.ackfloor then (d.count Reg.PORT_E2ECNT 32 16 1).nakOnce k k.ackfloor
      else if d.rxFlows.length ≥ 16384 then d.count Reg.PORT_E2ECNT 48 16 1
      else
        let f : RxFlow := ⟨k.flow, k.flowseq, 0, d.now, k, d.now⟩
        ({ d with rxFlows := d.rxFlows ++ [f] } : Dev).acceptIn f k
    | some f =>
      let g : RxFlow := { f with last := d.now }
      if k.flowseq = f.x then d.acceptIn f k
      else if (k.flowseq - f.x).toNat ≥ 2 ^ 31 then ((d.count Reg.PORT_E2ECNT 16 16 1).setRx g).ackNow { g with back := k }
      else ((d.count Reg.PORT_E2ECNT 32 16 1).setRx g).nakOnce k f.x

/-- The packet of a flow that is checked next: those of one flow and path come in order (11 R269). -/
def Dev.rxNext (d : Dev) (k : Packet) : Option Packet := d.rxIn.find? fun q => decide (q.flow = k.flow)

def execE2ePacketArrival (pkt : Packet) (s : State) : Host.Outcome State Fault Refusal :=
  onDev s fun d => if d.rxNext pkt = some pkt then d.e2eArrival pkt else d

/-- ACK_SEND: 2 µs after the oldest accept that no ACK covers (12 R302). -/
def execAckSend (f : FlowKey) (s : State) : Host.Outcome State Fault Refusal :=
  onDev s fun d => match d.rxFlow f with
    | some e => if e.unacked ≠ 0 ∧ e.oldest + 2000 ≤ d.now then d.ackNow e else d
    | none => d

/-- FLOW_ENTRY_EXPIRY: 1 ms without a packet, with every accept acknowledged (12 R301). -/
def execFlowEntryExpiry (f : FlowKey) (s : State) : Host.Outcome State Fault Refusal :=
  onDev s fun d => match d.rxFlow f with
    | some e => if e.unacked = 0 ∧ e.last + 1000000 ≤ d.now then { d with rxFlows := d.rxFlows.filter fun g => decide (g.key ≠ f) } else d
    | none => d

/-! ### The source of a flow (12 R300, R303, R304) -/

/-- The copies a flow holds, oldest first. -/
def Dev.heldOf (d : Dev) (f : FlowKey) : List Held :=
  (if f.tile = 0x7FF then d.unitHeld else (d.tile f.tile.toNat).replay).filter fun h => decide (h.key = f)

/-- Keeps the copies that satisfy a test, and gives each a new form. -/
def Dev.mapHeld (d : Dev) (f : FlowKey) (g : Held → Option Held) : Dev :=
  let go (l : List Held) : List Held := l.filterMap fun h => if h.key = f then g h else some h
  if f.tile = 0x7FF then { d with unitHeld := go d.unitHeld }
  else d.modTile f.tile.toNat fun x => { x with replay := go x.replay }

/-- The source standing of a flow. -/
def Dev.txFlow (d : Dev) (f : FlowKey) : TxFlow := (d.txFlows.find? fun e => decide (e.key = f)).getD ⟨f, 0, []⟩

/-- Puts the standing of a flow in place. -/
def Dev.setTx (d : Dev) (e : TxFlow) : Dev := { d with txFlows := d.txFlows.filter (fun g => decide (g.key ≠ e.key)) ++ [e] }

/-- Receivers of a tree (12 R294). -/
def Packet.nrcv (k : Packet) : Nat :=
  (List.range k.hops.toNat).foldl (fun s i =>
    s + if bit k.loc i then (List.range (i + 1)).foldl (fun q j => q * popcount16 (fld k.route (16 * j) 16)) 1 else 0) 0

/-- Whether sequence `s` is at or before `n` modulo 2^32. -/
def flowLe (s n : W32) : Bool := decide ((n - s).toNat < 2 ^ 31)

/-- Whether this device has the flow as a source. -/
def Dev.ownFlow (d : Dev) (f : FlowKey) : Bool := decide (f.dev = d.id) && (decide (f.tile.toNat < Config.nTiles) || decide (f.tile = 0x7FF))

/-- ACK_ARRIVAL: frees the copies up to `n`; a multicast copy is freed once NRCV receivers acknowledged it (12 R303, R304). -/
def Dev.ackArrival (d : Dev) (f : FlowKey) (n : W32) (src : BitVec 12) : Dev :=
  let e := d.txFlow f
  let acks := (n, src) :: e.acks.filter fun a => decide (a.2 ≠ src) || !flowLe a.1 n
  let srcs (s : W32) : Nat := ((acks.filter fun a => flowLe s a.1).map (·.2)).dedup.length
  let gone (h : Held) : Bool := if h.pkt.mcast then decide (srcs h.seq ≥ Packet.nrcv h.pkt) else flowLe h.seq n
  let old := d.heldOf f
  let freed := old.any gone
  let d := d.mapHeld f fun h => if gone h then none else some h
  let keep := (d.heldOf f).any fun h => h.pkt.mcast
  let d := d.setTx ⟨f, if freed then 0 else e.timeouts, if keep then acks else []⟩
  if f.tile = 0x7FF then d else d.txRun f.tile.toNat

/-- The NAK-kind packet from `src` that reaches the holder of flow `f` next, when it is of type `type` and carries `n` (12 R302). -/
def Dev.nakNext (d : Dev) (f : FlowKey) (type : BitVec 2) (n : W32) (src : BitVec 12) : Option Packet :=
  match d.unitPkt f.tile.toNat 6 fun k => decide (k.srcdev = src) && decide (k.sflow = f.sflow) && decide (k.nakType.toNat < 2) with
  | some k => if d.ownFlow f = true ∧ k.nakType = type ∧ k.ackfloor = n then some k else none
  | none => none

def execAckArrival (f : FlowKey) (n : W32) (src : BitVec 12) (s : State) : Host.Outcome State Fault Refusal :=
  onDev s fun d => match d.nakNext f 0 n src with
    | some k => (d.unitTake f.tile.toNat k).ackArrival f n src
    | none => d

/-- The packet as it is sent again: RESEND set, the header formed from the alternate in use (12 R303). What a tile holds is read from the lines of its
window (12 R300). -/
def Dev.resent (d : Dev) (h : Held) (floor : W32) : Packet :=
  let k := match d.routeAlt h.route with
    | some a => if a.hops = 0 then h.pkt else h.pkt.onRoute (d.route h.route).ddev a
    | none => h.pkt
  let x := d.tile h.key.tile.toNat
  let ws := (h.lines.drop 1).flatMap fun l => (List.range 4).map fun i => BitVec.ofNat 128 (x.spad.readNat (64 * l + 16 * i) 16)
  ({ k with resend := true, ackfloor := floor, words := if h.lines.isEmpty then k.words else ws } : Packet).sealed false

/-- Resends the copies from sequence `n` on in order (12 R303): those of a tile through its router, those of a unit through a gateway. A read of the
window that fails parity in a step aborts it (06 R140). -/
def Dev.resend (d : Dev) (f : FlowKey) (n : W32) : Dev :=
  let l := d.heldOf f
  let floor := match l with | h :: _ => h.seq | [] => n
  let again := l.filter fun h => flowLe n h.seq
  match Dev.spadChecks (again.flatMap fun h => (h.lines.drop 1).map fun a => (f.tile.toNat, 64 * a, 64)) d with
  | (d, true) => d
  | (d, false) =>
    let d := again.foldl (fun d h =>
      let k := d.resent h floor
      if f.tile = 0x7FF then d.unitOut k else { d with flying := d.flying ++ [⟨f.tile.toNat, 4, k, none⟩] }) d
    let d := d.mapHeld f fun h => if flowLe n h.seq then some { h with sent := d.now } else some h
    d.count Reg.PORT_RESEND 0 64 again.length

def execNakArrival (f : FlowKey) (n : W32) (src : BitVec 12) (s : State) : Host.Outcome State Fault Refusal :=
  onDev s fun d => match d.nakNext f 1 n src with
    | some k => (d.unitTake f.tile.toNat k).resend f n
    | none => d

/-- A flow is broken (12 R303, 15 R354): its copies are discarded, and a recovery of class LINK opens for its region. -/
def Dev.flowBreak (d : Dev) (f : FlowKey) : Dev :=
  let p := match d.heldOf f with
    | h :: _ => if h.pkt.mcast then (maskPorts (fld h.pkt.route 0 16)).headD 0 else fld h.pkt.route 0 4
    | [] => 0
  let d := (d.mapHeld f fun _ => none).setTx ⟨f, 0, []⟩
  let d := d.count Reg.PORT_DROPCNT 48 16 1
  let er := linkRecord p St.FLOW_BROKEN
  match (if f.tile = 0x7FF then none else d.regionOf f.tile.toNat) with
  | some r =>
    let er := { er with ltile := BitVec.ofNat 16 f.tile.toNat, region := BitVec.ofNat 8 r, site := d.siteOf f.tile.toNat }
    (d.openRecovery 5 d.id.toNat p [] [r] true er).noSites
  | none => d.record er

/-- PORT_E2ECFG.RTO in ns and BREAK. -/
def Dev.rto (d : Dev) : Nat := 1000 * cnt0 (fld (d.reg Reg.PORT_E2ECFG) 0 16) 20
def Dev.breakN (d : Dev) : Nat := cnt0 (fld (d.reg Reg.PORT_E2ECFG) 16 8) 256

/-- RESEND_TIMEOUT: RTO has passed since the oldest held send (12 R303). -/
def Dev.resendTimeout (d : Dev) (f : FlowKey) : Dev :=
  match d.heldOf f with
  | [] => d
  | h :: _ =>
    if d.now < h.sent + d.rto then d
    else
      let e := d.txFlow f
      if e.timeouts + 1 ≥ d.breakN then d.flowBreak f
      else (d.setTx { e with timeouts := e.timeouts + 1 }).resend f h.seq

def execResendTimeout (f : FlowKey) (s : State) : Host.Outcome State Fault Refusal :=
  onDev s fun d => if d.ownFlow f then d.resendTimeout f else d

/-! ### Training and status (12 R305 to R307) -/

/-- Takes the copies for port `p` that satisfy a test from the crossbar. -/
def Dev.dropCopies (d : Dev) (p : Nat) (f : Copy → Bool) : Dev :=
  ({ d with flying := d.flying.map fun e =>
    if e.node = relay then { e with outs := e.outs.map fun l => l.filter fun c => !(decide (c.out = p) && f c) } else e } : Dev).clean

/-- A port stops (12 R307): packets that have not started are discarded, packets in progress at the input are completed; those whose header has left go
to their end, and IDLE frames follow. -/
def Dev.portStop (d : Dev) (p : Nat) : Dev :=
  let n := (d.flying.filter fun f => decide (f.node = relay) && match f.copyTo p with | some c => decide (c.sent = 0) | none => false).length
  let d := (d.portDiscard p n).dropCopies p fun c => decide (c.sent = 0)
  (d.modPort p fun x => { x with idling := true }).completeAll p

/-- The port as it begins to train: nothing of it is on its way. -/
def Dev.portFresh (d : Dev) (p : Nat) : Dev := (d.dropCopies p fun _ => true).setPort p { Port.reset with credAt := d.elapsed }

/-- A port enters DOWN (12 R306, R307, 15 R353). -/
def Dev.portDown (d : Dev) (p : Nat) (st : W16) : Dev :=
  let d := (((d.setPortState p 4).portStop p).modPort p fun x => { x with downAt := d.elapsed })
  (d.record (linkRecord p st)).autoAlt p

/-- PORT_ENABLE: EN is set; a DISABLED port trains (12 R305). Without OPT_EN an optical port has no EN to set (14 R337). -/
def Dev.portEnable (d : Dev) (p : Nat) : Dev :=
  if optical p && !d.pwr.optEn then d else
  let d := d.modReg (Reg.PORT_CTL + 0x200 * p) fun v => setBit v 0
  if d.portState p = 0 then (d.setPortState p 1).portFresh p else d

def execPortEnable (p : Nat) (s : State) : Host.Outcome State Fault Refusal := onPort p s fun d => d.portEnable p

/-- TRAINING_COMPLETE: UP on 8 lanes, or on 4 where NARROW_OK allows it on an electrical port (12 R305). A port in DOWN retrains. -/
def Dev.trained (d : Dev) (p : Nat) (narrow : Bool) (margin : Byte) : Dev :=
  let st := d.portState p
  let may := (decide (st = 1) || decide (st = 4)) && d.portEn p && !(d.port p).idling &&
    (!narrow || (!optical p && bit (d.reg (Reg.PORT_CTL + 0x200 * p)) 1))
  if may then
    let v := 2 + (if narrow then 4 else 8) * 8 + (if narrow then 128 else 0) + margin.toNat * 256
    (d.portFresh p).setReg (Reg.PORT_STATUS + 0x200 * p) (BitVec.ofNat 64 v)
  else d

def execTrainingComplete (p : Nat) (narrow : Bool) (margin : Byte) (s : State) : Host.Outcome State Fault Refusal :=
  onPort p s fun d => d.trained p narrow margin

/-- TRAINING_TIMEOUT: 1 s without UP (12 R305). -/
def Dev.trainFail (d : Dev) (p : Nat) : Dev :=
  let st := d.portState p
  if d.portEn p = true ∧ (st = 1 ∨ st = 4) then
    let d := d.modReg (Reg.PORT_ERR + 0x200 * p) fun v => setBit v 1
    if st = 1 then d.portDown p St.LINK_DOWN else d.record (linkRecord p St.LINK_DOWN)
  else d

def execTrainingTimeout (p : Nat) (s : State) : Host.Outcome State Fault Refusal := onPort p s fun d => d.trainFail p

/-- PORT_DISABLE: EN is cleared (12 R307). -/
def Dev.portDisable (d : Dev) (p : Nat) : Dev :=
  if d.portEn p then
    let d := d.modReg (Reg.PORT_CTL + 0x200 * p) fun v => clrBit v 0
    if d.portState p = 0 then d else d.portStop p
  else d

def execPortDisable (p : Nat) (s : State) : Host.Outcome State Fault Refusal := onPort p s fun d => d.portDisable p

/-- PORT_IDLE_DONE: the 1 µs of IDLE frames after the last packet is over: DISABLED when EN is clear, or DOWN kept; EN set again in between trains
(12 R307). A port in DOWN, whose peer gives no credit any more, does not wait for packets (log 112). -/
def Dev.portIdleDone (d : Dev) (p : Nat) : Dev :=
  if (d.port p).idling = false ∨ (d.portBusy p = true ∧ d.portState p ≠ 4) then d
  else
    let d := (d.dropCopies p fun _ => true).modPort p fun x => { x with idling := false }
    if d.portEn p = false then (d.setReg (Reg.PORT_STATUS + 0x200 * p) 0).portFresh p
    else if d.portState p = 4 then d
    else (d.setPortState p 1).portFresh p

def execPortIdleDone (p : Nat) (s : State) : Host.Outcome State Fault Refusal := onPort p s fun d => d.portIdleDone p

/-- ERRLIM_CHECK: more than ERRLIM frame drops within one second (12 R306); 0 is never. -/
def Dev.errlimCheck (d : Dev) (p : Nat) : Dev :=
  let lim := fld (d.reg (Reg.PORT_CTL + 0x200 * p)) 16 16
  let n := ((d.port p).drops.filter fun t => decide (d.now < t + 1000000000)).length
  if d.portState p = 2 ∧ lim ≠ 0 ∧ n > lim then
    ((d.setPortState p 3).modReg (Reg.PORT_ERR + 0x200 * p) fun v => setBit v 2).record (linkRecord p St.LINK_DOWN)
  else d

def execErrlimCheck (p : Nat) (s : State) : Host.Outcome State Fault Refusal := onPort p s fun d => d.errlimCheck p

/-- LOSS_OF_SIGNAL: no signal for 1 µs (12 R306). -/
def execLossOfSignal (p : Nat) (s : State) : Host.Outcome State Fault Refusal :=
  onPort p s fun d => if d.portUp p then d.portDown p St.LINK_DOWN else d

/-- A port output holds a flit for want of credit. -/
def Dev.stalled (d : Dev) (p : Nat) : Bool :=
  ([0, 1, 2, 3] : List (BitVec 2)).any fun v =>
    !(d.port p).credit v && (nextOn d.flying relay p 24 (d.portSlots p) ((d.port p).lastSrc v) v).isSome

/-- CREDIT_STALL: an output has held a flit for want of credit for 10 ms (12 R298). -/
def execCreditStall (p : Nat) (s : State) : Host.Outcome State Fault Refusal :=
  onPort p s fun d =>
    if d.stalled p then
      (d.modReg (Reg.PORT_ERR + 0x200 * p) fun v => setBit v 3).record (linkRecord p St.LINK_STALL)
    else d

end Sys2Proof.Machine
end

