-- ==== Sys2Proof/Machine/PwrOps.lean ====
section
/-! DEFINITION. The energy ledger as the step sequencer uses it (14 R328 to R332): windows, budgets, estimates, admission. -/

namespace Sys2Proof.Machine

/-! ### Windows and budgets (14 R328, R329) -/

/-- Length of a window in µs (14 PWR_WIN: 0 = 1,000). -/
def Dev.winUs (d : Dev) : Nat := cnt0 (fld (d.reg Reg.PWR_WIN) 0 17) 1000

/-- Cicada time at which the current window began. -/
def Dev.winStart (d : Dev) : Nat :=
  let base := (d.reg Reg.PWR_WINBASE).toNat
  let w := d.winUs * 1000
  if d.now < base then base - cdiv (base - d.now) w * w else base + (d.now - base) / w * w

/-- The part of its length that the current window lasts: cut short by a pending PWR_WIN (14 R329). -/
def Dev.winPart (d : Dev) : Nat × Nat :=
  let w := d.winUs * 1000
  match d.pwr.pend.win with
  | some (_, ts) => if d.winStart < ts ∧ ts < d.winStart + w then (ts - d.winStart, w) else (1, 1)
  | none => (1, 1)

/-- LIMIT in watts. -/
def Dev.limitW (d : Dev) : Nat := fld (d.reg Reg.PWR_LIMIT) 0 12

/-- Budget of the device in the current window, in whole µJ. -/
def Dev.bDev (d : Dev) : Nat := d.limitW * d.winUs * d.winPart.1 / d.winPart.2

/-- BUDGET of region `r` for a whole window: 0 = none. -/
def Dev.bReg (d : Dev) (r : Nat) : Nat := fld (d.reg (Reg.PWR_REGCFG + 8 * r)) 0 40

/-- Energy recorded for region `r`. -/
def Dev.regE (d : Dev) (r : Nat) : Nat := (d.reg (Reg.PWR_REGE + 8 * r)).toNat

/-- In-flight estimates of the regions other than `r` (14 R330). -/
def Dev.inFlight (d : Dev) (r : Nat) : Nat :=
  d.regions.foldl (fun s q =>
    if q.1 = r then s
    else match q.2.adm with
      | some a => if a.waiting then s else
          s + (if q.2.phase = .running ∨ q.2.phase = .aborted then a.est - (d.regE q.1 - q.2.eStep) else a.est)
      | none => s) 0

/-- The two conditions of admission (14 R330), against the window's budgets prorated to its length. -/
def Dev.energyFits (d : Dev) (r e : Nat) : Bool :=
  let ur := SMap.get (fun _ => (0 : Nat)) d.pwr.uReg r
  let p := d.winPart
  decide ((d.pwr.uDev + d.inFlight r + e) * p.2 ≤ d.limitW * d.winUs * p.1) && (decide (d.bReg r = 0) || decide ((ur + e) * p.2 ≤ d.bReg r * p.1))

/-- MODE of region `r`: false WAIT, true SLOW. -/
def Dev.slowMode (d : Dev) (r : Nat) : Bool := bit (d.reg (Reg.PWR_REGCFG + 8 * r)) 40

/-- SLOWCODE. -/
def Dev.slowCode (d : Dev) : Nat := fld (d.reg Reg.PWR_LIMIT) 28 6

/-- A SLOW switch is armed or in force (14 PWR_STATUS.SLOW). -/
def Dev.slowOn (d : Dev) : Bool := d.pwr.slowInForce || (d.cic.fsw.isSome && decide (d.cic.fswBy = .slow))

/-- A step that is not admitted under SLOW (14 R331): it is admitted with a switch to SLOWCODE, or waits. -/
def Dev.trySlow (d : Dev) : Dev × Bool :=
  if d.cic.fsw.isSome = true ∧ d.cic.fswBy = .host then (d, false)
  else if d.slowOn then ({ d with pwr := { d.pwr with slowUsed := true } }, true)
  else if d.freqCode ≤ d.slowCode then (d, false)
  else
    let d := d.armFsw d.nextSync d.slowCode .slow
    ({ d with pwr := { d.pwr with slowUsed := true } }, true)

/-- The code that the profile in force gives: 18 under burst-off (14 R335). -/
def Dev.profCode (d : Dev) : Nat := if bit (d.reg Reg.PWR_STATUS) 3 then 18 else d.pwr.live.code

/-- A window ends and another began at `t` (14 R328, R331, R332): an overrun of its budget `b` is counted, the usage starts at zero, SLOW ends
after a whole window in which no step needed it, and the waiting steps are to be checked against the new window. -/
def Dev.rollWindow (d : Dev) (b t : Nat) : Dev :=
  let d := if d.pwr.uDev > b then d.count Reg.PWR_CNT 32 16 1 else d
  let back := d.pwr.slowInForce && !d.pwr.slowUsed && d.cic.fsw.isNone
  let d := if back then d.armFsw d.nextSync d.profCode .power else d
  { d with pwr := { d.pwr with uDev := 0, uReg := [], slowUsed := false, winAt := t, recheck := true } }

/-- A window whose end has come is over. -/
def Dev.windowNow (d : Dev) : Dev := if d.winStart = d.pwr.winAt then d else d.rollWindow (d.limitW * d.winUs) d.winStart

/-- The energy ledger's answer to a presented step (14 R330, R331): the device, ADMIT, the estimate, and whether the step waits. A request at a
window boundary is checked against the new window. -/
def Dev.present (d : Dev) (r energy : Nat) : Dev × Nat × Nat × Bool :=
  if energy = 0 then (d, 3, 0, false)
  else
    let d := d.windowNow
    let e := min energy d.bDev
    let d := if e < energy then d.count Reg.PWR_CNT 0 16 1 else d
    if d.energyFits r e then (d, 0, e, false)
    else if d.slowMode r then
      match d.trySlow with
      | (d, true) => (d, 2, e, false)
      | (d, false) => (d, 1, e, true)
    else (d, 1, e, true)

/-- At a step boundary: a step that used more than its ENERGY is counted (14 R332). -/
def Dev.energyBoundary (d : Dev) (r e0 energy : Nat) : Dev :=
  let used := d.regE r - e0
  if used > energy then
    d.modReg (Reg.PWR_OVERRUN + 8 * r) fun v => addCnt (addCnt v 0 24 1) 24 40 (used - energy)
  else d

end Sys2Proof.Machine
end

