-- ==== Sys2Proof/Machine/Cicada.lean ====
section
/-! DEFINITION. Cicada time and the ring (13): the counter and its views, ring frames, joining and leaving, the master, measurement
windows, frequency switches, cycle stretching and margins. -/

namespace Sys2Proof.Machine

/-! ### The counter and its views (13 R309, R310) -/

/-- CIC_CTL.MODE: false DIST, true COUNT. -/
def Dev.countMode (d : Dev) : Bool := bit (d.reg Reg.CIC_CTL) 0

/-- The view of half-bench `n` follows the counter within its mode's accuracy, which is a free value (log 15), and never decreases. One that
a reload met ahead of the counter holds until the counter reaches it. -/
def Dev.viewNear (d : Dev) (n acc : Nat) : Dev :=
  let old := SMap.get (fun _ => 0) d.cic.views n
  let v := d.now + Config.freeAt d.ctr n % (2 * acc + 1) - acc
  if d.cic.viewHold.contains n = true ∧ d.now < old then d
  else { d with cic := { d.cic with
    views := SMap.set (fun _ => 0) d.cic.views n (max old v), viewHold := d.cic.viewHold.filter fun k => decide (k ≠ n) } }

/-- The view of half-bench `n` reloads from the counter; one that is ahead of it holds. -/
def Dev.viewLoad (d : Dev) (n : Nat) : Dev :=
  let old := SMap.get (fun _ => 0) d.cic.views n
  if d.now < old then { d with cic := { d.cic with viewHold := addNew d.cic.viewHold [n] } }
  else { d with cic := { d.cic with views := SMap.set (fun _ => 0) d.cic.views n d.now } }

/-- Every view moves on. -/
def Dev.viewsRun (d : Dev) : Dev :=
  let acc := if d.countMode then 4 else 2
  ((List.range Config.nHalfBenches).foldl (fun d n => d.viewNear n acc) d).drawn

/-- Gives the counter a value in 1/64 ns, modulo 2^64 ns. -/
def Dev.setCount (d : Dev) (u : Nat) : Dev :=
  ({ d with cic := { d.cic with frac := u % 64 } } : Dev).setReg Reg.CIC_TIME (BitVec.ofNat 64 (u / 64))

/-- The counter in 1/64 ns. -/
def Dev.count64 (d : Dev) : Nat := 64 * d.now + d.cic.frac

/-- A tile's view has moved on by `n` ns, which its watchdog counts unless the Scarab is HALTED or waits for STEP_START (04 R107,
13 R310). -/
def Tile.wdogTick (t : Tile) (n : Nat) : Tile :=
  if t.scb.mode = .halted ∨ t.waitsStart = true then t else { t with scb := { t.scb with wdogNs := t.scb.wdogNs + n } }

/-- The voltages of the core rails at a frequency code (14 R326): the recorded ones; where none is recorded, 0.90 V for a rising code, and no
move for a falling one. -/
def Dev.railsTo (d : Dev) (code : Nat) : List (Nat × Nat) :=
  (List.range Config.nHalfBenches).filterMap fun n =>
    match d.pwr.recV.find? fun e => decide (e.1 = 64 * n + code) with
    | some e => some (n, e.2)
    | none => if code > d.freqCode then some (n, 140) else none

/-- One ns of the core rails (14 R326): in the 20 µs before a switch to a rising code they set out for its voltages; each slews at 20 mV/µs, one
step of 2.5 mV in 125 ns, until it is there. -/
def Dev.railsRun (d : Dev) : Dev :=
  let goal := match d.cic.fsw with
    | some (t, code) => if code > d.freqCode ∧ d.now < t ∧ t ≤ d.now + 20000 then d.railsTo code else d.pwr.slewTo
    | none => d.pwr.slewTo
  if goal.isEmpty ∨ d.elapsed % 125 ≠ 0 then { d with pwr := { d.pwr with slewTo := goal } }
  else
    let d := goal.foldl (fun d e => d.modReg (Reg.PWR_VCORE + 8 * e.1) fun v =>
      let v := fld v 0 8
      BitVec.ofNat 64 (if v < e.2 then v + 1 else if e.2 < v then v - 1 else v)) d
    { d with pwr := { d.pwr with slewTo := goal.filter fun e => decide (fld (d.reg (Reg.PWR_VCORE + 8 * e.1)) 0 8 ≠ e.2) } }

/-- A T_J that comes while CIC_CTL.JOIN is clear opens nothing (13 R311). -/
def Dev.joinMissed (d : Dev) : Dev :=
  match d.cic.tJ with
  | some t => if t ≤ d.now ∧ bit (d.reg Reg.CIC_CTL) 1 = false then { d with cic := { d.cic with tJ := none } } else d
  | none => d

/-- CICADA_TICK (13 R309): one ns passes; a slew of the counter adds or removes at most one ns in any 1,024 ns. -/
def Dev.tick (d : Dev) : Dev :=
  let may := decide (d.cic.slew ≠ 0) && decide (d.cic.slewGap = 0)
  let c : Int := if may then max (-64) (min 64 d.cic.slew) else 0
  let u := (((d.count64 + 64 : Nat) : Int) + c).toNat
  let d := { d with cic := { d.cic with
    slew := d.cic.slew - c, slewGap := if may then 1023 else d.cic.slewGap - 1, ns := d.cic.ns + 1 } }
  let old := d.view
  let d := (d.setCount u).viewsRun.joinMissed.railsRun
  let d := { d with
    aon := { d.aon with since := d.aon.since + 1 }
    hive := { d.hive with upNs := d.hive.upNs + 1 } }
  d.tiles.foldl (fun d e => d.modTile e.1 fun x => x.wdogTick (d.view e.1 - old e.1)) d

def execCicadaTick (s : State) : Host.Outcome State Fault Refusal := onDev s fun d => d.tick

/-- VIEW_RELOAD (13 R310): in COUNT mode, at a multiple of 1,024 ns, each view takes the counter unless that moves it back. -/
def execViewReload (s : State) : Host.Outcome State Fault Refusal :=
  onDev s fun d =>
    if d.countMode = true ∧ d.now % 1024 = 0 then (List.range Config.nHalfBenches).foldl Dev.viewLoad d else d

/-- CIC_SET (13 R309). -/
def Dev.cicSet (d : Dev) (v : W64) : Dev :=
  if d.cicBit 0 = true ∨ d.loaded.isEmpty = false then d.cicErr 6 else d.setCount (64 * v.toNat)

def execCicSet (v : W64) (s : State) : Host.Outcome State Fault Refusal := onDev s fun d => d.cicSet v

/-! ### Ring frames (13 R312, R313) -/

/-- MASTERID. -/
def Dev.masterId (d : Dev) : BitVec 12 := BitVec.ofNat 12 (fld (d.reg Reg.CIC_STATUS) 16 12)

/-- Names the master; bit MASTER says whether it is this device. -/
def Dev.setMaster (d : Dev) (m : BitVec 12) : Dev :=
  (d.modReg Reg.CIC_STATUS fun v => setFld v 16 12 m.toNat).setCicBit 2 (decide (m = d.id))

/-- Whether a device is named master, as far as this one knows (13 R318). -/
def Dev.masterPref (d : Dev) (dev : BitVec 12) : Bool := if dev = d.id then bit (d.reg Reg.CIC_CTL) 2 else d.cic.prefs.contains dev

/-- Device `a` ranks above device `b` as master: a named one above one that is not, else the lower ID (13 R318). -/
def Dev.outranks (d : Dev) (a b : BitVec 12) : Bool :=
  if d.masterPref a = d.masterPref b then decide (a < b) else d.masterPref a

/-- A master that finds a device ranked above it hands over by a MASTER frame (13 R318). -/
def Dev.handOver (d : Dev) (dev : BitVec 12) : Dev :=
  if d.cicBit 0 && d.cicBit 2 && d.outranks dev d.id then (d.sendFrame ftMASTER (leBytes 2 dev.toNat)).setMaster dev else d

/-- Forwards a frame that came in (13 R313): a joined device sends it on with HOPS one higher, its payload changed where the kind asks it, and
its CRC anew, complemented where the incoming one failed; not one that returns to its SRC or whose HOPS reaches 1,023. In a quiet interval
it waits. -/
def Dev.forward (d : Dev) (fr : RingFrame) (payload : List Byte) : Dev :=
  let w := rdNat fr.bytes 4 2
  let out := ringSeal (slice fr.bytes 0 4 ++ leBytes 2 (w / 1024 * 1024 + fr.hops + 1) ++ payload) (!fr.crcOk)
  if d.cicBit 0 = true ∧ fr.src ≠ d.id ∧ fr.hops + 1 < 1023 then
    if d.ringQuiet then { d with cic := { d.cic with copies := d.cic.copies ++ [(out, 1)] } } else d.transmit out
  else d

/-- A frame at SYNC_IN under the row of type `ty` (13 R313): it is forwarded; one with a bad CRC is dropped and counted; `act` is done on the
first good copy of another device's frame of that type. A frame of a TYPE that Table 13.3 does not list is invalid: it is forwarded and
nothing more is done (log 103). -/
def Dev.ringIn (d : Dev) (ty : Byte) (fr : RingFrame) (payload : List Byte) (act : Dev → Dev) : Dev :=
  if fr.type ≠ ty ∧ fr.type ≠ 0 ∧ fr.type ≤ 8 then d
  else
    let d := d.forward fr (if fr.type = ty then payload else fr.payload)
    if fr.crcOk = false then ((d.cicErr 0).count Reg.CIC_RINGCNT 32 32 1).ringFault
    else if (fr.src = d.id ∧ d.cicBit 0 = true) ∨ fr.type ≠ ty then d
    else
      let key := (fr.src.toNat, fr.fid.toNat)
      let fresh := d.cic.seen.filter fun e => decide (d.elapsed < e.2.2 + 1000000)
      if fresh.any fun e => decide (e.1 = key.1) && decide (e.2.1 = key.2) then d
      else
        let d := { d with cic := { d.cic with seen := fresh ++ [(key.1, key.2, d.elapsed)] } }
        act (if ty = ftMASTER then d else d.handOver fr.src)

/-- A 64-bit payload field. -/
def ringU64 (fr : RingFrame) (off : Nat) : Nat := rdNat fr.payload off 8

/-- CIC_OUTDLY in 1/64 ns. -/
def Dev.outDly (d : Dev) : Nat := fld (d.reg Reg.CIC_OUTDLY) 0 32

/-- MARK_SEND: the master sends the mark of now, with its own output segment in ACC (13 Table 13.3, R314). -/
def execMarkSend (s : State) : Host.Outcome State Fault Refusal :=
  onDev s fun d =>
    if d.cicBit 2 = true ∧ d.ringQuiet = false then
      let fr := ringFrame ftMARK d.id d.cic.fid (leBytes 8 d.now ++ leBytes 4 d.outDly)
      ({ d with cic := { d.cic with fid := d.cic.fid + 1 } } : Dev).transmit fr
    else d

/-- FRAME_COPY_SEND: the next copy that waits leaves, outside quiet intervals (13 R313). The first copy of the device's own BARRIER that a quiet
interval held back counts its arrival now (13 R319). -/
def execFrameCopySend (s : State) : Host.Outcome State Fault Refusal :=
  onDev s fun d =>
    match d.cic.copies with
    | (fr, n) :: rest =>
      if d.ringQuiet then d
      else
        let d' := ({ d with cic := { d.cic with copies := if n ≤ 1 then rest else rest ++ [(fr, n - 1)] } } : Dev).transmit fr
        if n = 3 ∧ fr.type = ftBARRIER then d'.barArrive (rdNat fr.payload 0 4) else d'
    | [] => d

/-- The counter corrects an offset in 1/64 ns: a step while no region is loaded and the time is not locked, else a slew (13 R315). -/
def Dev.correct (d : Dev) (off : Int) : Dev :=
  if d.cicBit 1 = false ∧ d.loaded.isEmpty = true then
    ({ d with cic := { d.cic with slew := 0 } } : Dev).setCount (((d.count64 : Nat) : Int) + off).toNat
  else { d with cic := { d.cic with slew := off } }

/-- Sets the counts of marks within ±2 ns and outside ±16 ns in a row. -/
def Dev.markCounts (d : Dev) (good badm : Nat) : Dev := { d with cic := { d.cic with good := good, badm := badm } }

/-- A mark while the time is not locked: three in a row within ±2 ns lock it. -/
def Dev.markUnlocked (d : Dev) (off : Int) : Dev :=
  let good := if off.natAbs ≤ 128 then d.cic.good + 1 else 0
  let d' := (d.markCounts good 0).correct off
  if good ≥ 3 then d'.setCicBit 1 true else d'

/-- A mark while the time is locked: within ±16 ns it is followed; the third in a row outside enters HOLDOVER. -/
def Dev.markLocked (d : Dev) (off : Int) : Dev :=
  if off.natAbs ≤ 1024 then (d.markCounts d.cic.good 0).correct off
  else if d.cic.badm ≥ 2 then (d.markCounts d.cic.good (d.cic.badm + 1)).enterHoldover 2
  else d.markCounts d.cic.good (d.cic.badm + 1)

/-- HOLDOVER ends, a mark is counted as applied. -/
def Dev.markTaken (d : Dev) : Dev :=
  let d' := d.setCicBit 3 false
  ({ d' with cic := { d'.cic with measured := false } } : Dev).count Reg.CIC_RINGCNT 0 32 1

/-- A good mark with offset `off` at a joined device that is not the master (13 R315): in HOLDOVER only the first one after a window is
taken. -/
def Dev.markGood (d : Dev) (src : BitVec 12) (off : Int) : Dev :=
  let d1 := (d.setReg Reg.CIC_OFFSET (BitVec.ofNat 64 (BitVec.ofInt 32 off).toNat)).modReg Reg.CIC_STATUS fun v => setFld v 16 12 src.toNat
  if d.cicBit 3 && !d.cic.measured then d1
  else if d.cicBit 1 then d1.markTaken.markLocked off
  else d1.markTaken.markUnlocked off

/-- A signed difference of two counts in 1/64 ns; the counter counts modulo 2^64 ns (13 R309). -/
def countDiff (a b : Nat) : Int := (BitVec.ofNat 70 a - BitVec.ofNat 70 b).toInt

/-- MARK (13 R313, R315): the comma came `arr` 1/64 ns after the counter's last step, and the frame spends `dwell` 1/64 ns in the device. -/
def execMark (fr : RingFrame) (arr dwell : Nat) (s : State) : Host.Outcome State Fault Refusal :=
  onDev s fun d =>
    let acc := rdNat fr.payload 8 4
    let pl := fr.payload.take 8 ++ leBytes 4 (acc + dwell + d.outDly) ++ fr.payload.drop 12
    d.ringIn ftMARK fr pl fun d =>
      if d.cicBit 0 = true ∧ d.cicBit 2 = false then d.markGood fr.src (countDiff (64 * ringU64 fr 0 + acc) (d.count64 + arr % 64)) else d

/-- FREQ: arms the switch with a lead of at least 20 µs (13 R322). -/
def execFreq (fr : RingFrame) (s : State) : Host.Outcome State Fault Refusal :=
  onDev s fun d => d.ringIn ftFREQ fr fr.payload fun d =>
    let ts := ringU64 fr 0
    let code := rdNat fr.payload 8 1 % 64
    if code > 28 then d.cicErr 4 else if ts < d.now + 20000 then d.cicErr 3 else d.armFsw ts code .host

/-- BARRIER: an arrival (13 R319). -/
def execBarrier (fr : RingFrame) (s : State) : Host.Outcome State Fault Refusal :=
  onDev s fun d => d.ringIn ftBARRIER fr fr.payload fun d => d.barArrive (rdNat fr.payload 0 4)

/-! ### Joining, leaving, measuring (13 R314, R317) -/

/-- Every device knows of a join or leave at `t`: no frame is sent from 1 µs before to 5 µs after it. -/
def Dev.joinQuiet (d : Dev) (t : Nat) : Dev := d.addQuiet (t - 1000) (t + 5000)

/-- JOIN_AT. -/
def execJoinAt (fr : RingFrame) (s : State) : Host.Outcome State Fault Refusal :=
  onDev s fun d => d.ringIn ftJOIN_AT fr fr.payload fun d =>
    let d := d.joinQuiet (ringU64 fr 0)
    if rdNat fr.payload 8 2 % 4096 = d.id.toNat then { d with cic := { d.cic with tJ := some (ringU64 fr 0) } } else d

/-- The master lets a device join or leave: JOIN_AT or LEAVE_AT 20 µs ahead, and a window 1 µs after it (13 R314, R317). -/
def Dev.sendJoin (d : Dev) (ty : Byte) (dev : BitVec 12) : Dev :=
  let t := d.lead20
  ((d.sendFrame ty (leBytes 8 t ++ leBytes 2 dev.toNat)).joinQuiet t).askWindow (t + 1000)

/-- LEAVE_AT: the frame; the master answers a device's request by sending it (13 R317). -/
def execLeaveAt (fr : LeaveIn) (s : State) : Host.Outcome State Fault Refusal :=
  onDev s fun d =>
    match fr with
    | .frame fr => d.ringIn ftLEAVE_AT fr fr.payload fun d =>
      let d := d.joinQuiet (ringU64 fr 0)
      if rdNat fr.payload 8 2 % 4096 = d.id.toNat then { d with cic := { d.cic with tL := some (ringU64 fr 0), wantLeave := false } } else d
    | .ask dev => if d.cicBit 0 = true ∧ d.cicBit 2 = true then d.sendJoin ftLEAVE_AT dev else d

/-- MEASURE_AT. -/
def execMeasureAt (fr : RingFrame) (s : State) : Host.Outcome State Fault Refusal :=
  onDev s fun d => d.ringIn ftMEASURE_AT fr fr.payload fun d => d.planWindow (ringU64 fr 0)

/-- MASTER: the frame names the new master; a joined device is found to have MASTER_PREF or not, and the master hands over to one above it
(13 R318). -/
def execMaster (fr : MasterIn) (s : State) : Host.Outcome State Fault Refusal :=
  onDev s fun d =>
    match fr with
    | .frame fr => d.ringIn ftMASTER fr fr.payload fun d => d.setMaster (BitVec.ofNat 12 (rdNat fr.payload 0 2))
    | .pref dev named =>
      let ps := d.cic.prefs.filter fun i => decide (i ≠ dev)
      ({ d with cic := { d.cic with prefs := if named then ps ++ [dev] else ps } } : Dev).handOver dev

/-- MEASUREMENT_WINDOW: `half` is half the mean round trip less the turnaround, in 1/64 ns (13 R314, R315). -/
def execMeasurementWindow (half : Nat) (s : State) : Host.Outcome State Fault Refusal :=
  onDev s fun d =>
    match d.cic.tW with
    | some t =>
      if d.cicBit 0 = true ∧ d.now ≥ t + 4000 then
        ({ d with cic := { d.cic with tW := none, measured := true } } : Dev).setReg Reg.CIC_OUTDLY (BitVec.ofNat 64 (half % 2 ^ 32))
      else d
    | none => d

/-- BYPASS_OPEN: at T_J, only if CIC_CTL.JOIN is set then (13 R311, R317). -/
def execBypassOpen (s : State) : Host.Outcome State Fault Refusal :=
  onDev s fun d =>
    match d.cic.tJ with
    | some t =>
      if d.now < t then d
      else if bit (d.reg Reg.CIC_CTL) 1 then
        ({ d with cic := { d.cic with tJ := none }, aon := { d.aon with bypass := false } } : Dev).setCicBit 0 true
      else d.joinMissed
    | none => d

/-- The bypass closes: the device is out of the ring, and no longer its master. -/
def Dev.closeBypass (d : Dev) : Dev := (({ d with aon := { d.aon with bypass := true } } : Dev).setCicBit 0 false).setCicBit 2 false

/-- BYPASS_CLOSE: at T_L (13 R311, R317). -/
def execBypassClose (s : State) : Host.Outcome State Fault Refusal :=
  onDev s fun d =>
    match d.cic.tL with
    | some t => if d.now ≥ t then ({ d with cic := { d.cic with tL := none } } : Dev).closeBypass else d
    | none => d

/-- MARK_TIMEOUT: no mark for 24 µs. With JOIN set outside the ring the device is the first member and master; the highest-ranked
remaining device with TLOCK takes over; every other device sets MASTERLOSS and writes a RING record (13 R317, R318, 15 Table 15.1). -/
def Dev.markTimeout (d : Dev) (highest : Bool) : Dev :=
  if d.cicBit 0 = false then
    if bit (d.reg Reg.CIC_CTL) 1 then (({ d with aon := { d.aon with bypass := false } } : Dev).setCicBit 0 true).setMaster d.id else d
  else if d.cicBit 2 then d
  else if highest ∧ d.cicBit 1 = true then (d.sendFrame ftMASTER (leBytes 2 d.id.toNat)).setMaster d.id
  else (d.cicErr 7).ringFault

def execMarkTimeout (highest : Bool) (s : State) : Host.Outcome State Fault Refusal := onDev s fun d => d.markTimeout highest

/-- SYNC_IN_LOS: no signal for 100 ns (13 R315). -/
def execSyncInLos (s : State) : Host.Outcome State Fault Refusal :=
  onDev s fun d => if d.cicBit 3 = true ∨ d.cicBit 0 = false then d.cicErr 1 else d.enterHoldover 1

/-- CIC_JOIN_CLEAR: JOIN is cleared; a joined device asks the master for LEAVE_AT, or as master sends it (13 R317). -/
def Dev.joinClear (d : Dev) : Dev :=
  let d := d.modReg Reg.CIC_CTL fun v => clrBit v 1
  if d.cicBit 0 = false then d
  else if d.cicBit 2 then
    let t := d.lead20
    let d := d.sendJoin ftLEAVE_AT d.id
    { d with cic := { d.cic with tL := some t } }
  else ({ d with cic := { d.cic with wantLeave := true } } : Dev).emit (.askLeave d.masterId)

def execCicJoinClear (s : State) : Host.Outcome State Fault Refusal := onDev s fun d => d.joinClear

/-- RING_ADMIT (13 R317, 16 R378): the joined master admits a device. A device that is not the master refuses as well (log 32). -/
def execRingAdmit (m : Nat) (dev : BitVec 12) (s : State) : Host.Outcome State Fault Refusal :=
  onHost m 0x0501 s fun d =>
    if d.cicBit 0 = false ∨ d.cicBit 2 = false then d.reply m St.REGION_STATE else (d.sendJoin ftJOIN_AT dev).reply m St.OK

/-! ### Frequency switches (13 R322, R323, 14 R326, R331) -/

/-- CIC_FSW: a write of CODE and SCOPE arms a switch at CIC_FSW_TIME; a write with a CODE above 28 and one without its lead are discarded. -/
def Dev.cicFsw (d : Dev) (code : BitVec 6) (scope : Bool) : Dev :=
  let ts := (d.reg Reg.CIC_FSW_TIME).toNat
  if code.toNat > 28 then d.cicErr 4
  else if ts < d.now + (if scope then 50000 else 20000) then d.cicErr 3
  else
    let d := (d.modReg Reg.CIC_FSW fun v => putBit (setFld v 0 6 code.toNat) 6 scope).armFsw ts code.toNat .host
    if scope then d.sendFrame ftFREQ (leBytes 8 ts ++ leBytes 1 code.toNat) else d

def execCicFsw (code : BitVec 6) (scope : Bool) (s : State) : Host.Outcome State Fault Refusal := onDev s fun d => d.cicFsw code scope

/-- FREQUENCY_SWITCH: at T_S the regions run at the new code (13 R323). SLOW is in force after a switch that SLOW armed, and over after
any other. -/
def Dev.freqSwitch (d : Dev) : Dev :=
  match d.cic.fsw with
  | some (t, code) =>
    if d.now < t then d
    else
      let slow := decide (d.cic.fswBy = .slow)
      let goal := d.railsTo code
      let d := if code > d.freqCode then goal.foldl (fun d e => d.setReg (Reg.PWR_VCORE + 8 * e.1) (BitVec.ofNat 64 e.2)) d else d
      let d := { d with
        cic := { d.cic with fsw := none, fswBy := .host }
        pwr := { d.pwr with slowInForce := slow, held := [], slewTo := if code < d.freqCode then goal else [] } }
      ((d.modReg Reg.CIC_STATUS fun v => setFld v 32 6 code).modReg Reg.CIC_FSW fun v => clrBit v 7).modReg Reg.PWR_STATUS fun v => putBit v 4 slow
  | none => d

def execFrequencySwitch (s : State) : Host.Outcome State Fault Refusal := onDev s fun d => d.freqSwitch

/-! ### Stretching and margins (13 R320, R321) -/

/-- CYCLE_STRETCH: a cycle of region `n` stretched by 1/8, 2/8 or 3/8 is counted. -/
def execCycleStretch (n eighths : Nat) (s : State) : Host.Outcome State Fault Refusal :=
  onUnit Config.nHalfBenches n s fun d =>
    if eighths = 0 ∨ eighths > 3 then d else d.count (Reg.CIC_RSTAT + 8 * n) (16 * (eighths - 1)) 16 1

/-- MARGIN_SAMPLE: the four slacks of region `n` lower the least slacks seen. -/
def execMarginSample (n : Nat) (slack : W32) (s : State) : Host.Outcome State Fault Refusal :=
  onUnit Config.nHalfBenches n s fun d => d.modReg (Reg.CIC_MARGIN + 8 * n) fun v =>
    (List.range 4).foldl (fun v m => setFld v (8 * m) 8 (min (fld v (8 * m) 8) (fld slack (8 * m) 8))) v

end Sys2Proof.Machine
end

