-- ==== Sys2Proof/Machine/StepOps.lean ====
section
/-! DEFINITION. The course of a step (10): descriptors, checks and masks, admission, STEP_START, the boundary, token records. -/

namespace Sys2Proof.Machine

/-! ### Configuration of a region (10 SRV_RCFG, SRV_RCFG2) -/

def Dev.etile (d : Dev) (r : Nat) : Nat := fld (d.reg (Reg.SRV_RCFG + 8 * r)) 0 11
def Dev.egline (d : Dev) (r : Nat) : Nat := fld (d.reg (Reg.SRV_RCFG + 8 * r)) 16 16
def Dev.rtline (d : Dev) (r : Nat) : Nat := fld (d.reg (Reg.SRV_RCFG + 8 * r)) 32 16
def Dev.nmax (d : Dev) (r : Nat) : Nat := cnt0 (fld (d.reg (Reg.SRV_RCFG + 8 * r)) 48 15) 16384
def Dev.pmax (d : Dev) (r : Nat) : Nat := fld (d.reg (Reg.SRV_RCFG2 + 8 * r)) 0 32
def Dev.stepns (d : Dev) (r : Nat) : Nat := fld (d.reg (Reg.SRV_RCFG2 + 8 * r)) 32 32

/-- Byte of the egress bank of a step (10 R260). -/
def Dev.bank (d : Dev) (r step : Nat) : Nat := 64 * (d.egline r + step % 2 * cdiv (d.nmax r) 2)

/-! ### Fields of a ragged entry (10 Table 10.5) -/

def ragSlot (e : W128) : Nat := fld e 0 16
def ragTenant (e : W128) : Nat := fld e 16 16
def ragNew (e : W128) : Nat := cnt0 (fld e 64 12) 4096
def ragEmit (e : W128) : Bool := bit e 76
def ragFinal (e : W128) : Bool := bit e 77
def ragAd (e : W128) : Nat := fld e 80 10
def ragCause (e : W128) : Nat := fld e 90 6

/-! ### Descriptors (10 R244 to R246, 17 R392) -/

/-- Descriptors of a region that are posted and neither consumed nor in hand. -/
def Dev.stepsPosted (d : Dev) (r : Nat) : Nat :=
  match d.pairOf r rkSTEP with
  | some p => let x := d.region r; (d.ring p).posted - x.fins.length - (if x.adm.isSome then 1 else 0) - (if x.fetched.isSome then 1 else 0)
  | none => 0

/-- Issues the DMA read of the next descriptor when a RUNNING region has one posted and none in hand (10 R256). -/
def Dev.fetchAhead (d : Dev) (r : Nat) : Dev :=
  let x := d.region r
  if x.st = .running ∧ x.fetched.isNone = true ∧ d.dmaOut (.step r) = false ∧ d.dmaOut (.stepBad r) = false ∧ 0 < d.stepsPosted r then d.issueDma (.step r) else d

/-- An ingress record that breaks Table 10.8. -/
def Region.ingBad (x : Region) (i : IngRec) : Bool :=
  decide (i.addr.toNat % 16 ≠ 0) || !x.holds i.dtile.toNat || decide (fld i.len 12 4 ≠ 0) || decide (fld i.dqid 10 6 ≠ 0) || decide (fld i.flags 1 7 ≠ 0) || i.rsv

/-- A reserved bit set in the descriptor or in an entry of its ragged table (10 Tables 10.4, 10.5). -/
def stepRsv (i : StepIn) : Bool := i.rsv || decide (fld i.flags 4 12 ≠ 0) || (i.rag.take i.nent.toNat).any fun e => bit e 79

/-- The check of a descriptor (10 R246). -/
def Dev.stepCheck (d : Dev) (r : Nat) (i : StepIn) : W16 :=
  if i.step = 0 ∨ i.step.toNat ≤ (d.reg (Reg.SRV_LAST + 8 * r)).toNat then St.STEP_ORDER
  else if i.nent.toNat > d.nmax r then St.LENGTH_EXCEEDS
  else if stepRsv i = true ∨ i.rtab.toNat % 16 ≠ 0 ∨ i.energy = 0xFFFFFFFFFFFFFFFF then St.STEP_INVALID
  else if 0 < i.ning.toNat ∧ ((d.pairOf r rkINGRESS).isNone = true ∨ ((i.ing.take i.ning.toNat).any (d.region r).ingBad) = true) then St.STEP_INVALID
  else St.OK

/-- Ingress records of a step that are not posted yet (10 R252). -/
def Dev.ingMissing (d : Dev) (r : Nat) (i : StepIn) : Bool :=
  match d.pairOf r rkINGRESS with
  | some p => decide ((d.ring p).posted < i.ning.toNat + ((d.region r).fins.foldl (fun s f => s + f.ning) 0))
  | none => false

/-- A refused step (10 R246): its descriptor is consumed, its completion carries the status, the region stops. -/
def Dev.stepRefuse (d : Dev) (r : Nat) (i : StepIn) (st : W16) : Dev :=
  let bytes := d.completion r i.step st 0 i.usertag 0 0 0
  let d := d.modRegion r fun x => { x with fetched := none, fins := x.fins ++ [⟨bytes, false, [], true, 0, false, 0, false⟩] }
  (d.enterStopped r).runFins r

/-! ### Masks and reservations (10 R248, R253) -/

/-- Reservations held against a tenant by the steps of all regions. -/
def Dev.reserved (d : Dev) (k : Nat) : Nat :=
  d.regions.foldl (fun s e => match e.2.adm with
    | some a => (a.resv.filter fun v => decide (v.1 = k)).foldl (fun s v => s + v.2.1) s
    | none => s) 0

/-- What masking has made of the entries so far: entries with MCAUSE, reservations, positions taken. -/
structure Masking where
  rag : List W128
  resv : List (Nat × Nat × Nat)
  pos : Nat
deriving DecidableEq, Repr

/-- The charge of an entry (10 R253). -/
def Tenant.charge (x : Tenant) (e : W128) : Nat := ragNew e * x.pcost.toNat + (if ragEmit e then x.tcost.toNat else 0)

/-- MCAUSE of an entry: the first cause of Table 10.6 that applies. -/
def Dev.maskCause (d : Dev) (r : Nat) (s : Masking) (e : W128) : Nat :=
  let slot := ragSlot e
  let ad := ragAd e
  let ten := d.tenant (ragTenant e)
  let held := d.reserved (ragTenant e) + (s.resv.filter fun v => decide (v.1 = ragTenant e)).foldl (fun a v => a + v.2.1) 0
  if bit e 78 then 1
  else if slot = 0xFFFF ∨ (512 ≤ ad ∧ ad ≤ 1022) then 2
  else if s.rag.any fun f => decide (ragSlot f = slot) then 3
  else if (d.slot slot).st = .cancelled then 4
  else if (d.slot slot).st = .complete then 5
  else if ad < 512 ∧ ((d.region r).adslots[ad]?.any fun a => decide (a.st = .ready)) = false then 6
  else if d.pmax r ≠ 0 ∧ s.pos + ragNew e > d.pmax r then 7
  else if ten.charge e + held > ten.balance.toNat then 8
  else 0

/-- One entry in ascending order. -/
def Dev.maskOne (d : Dev) (r : Nat) (s : Masking) (e : W128) : Masking :=
  let c := d.maskCause r s e
  let e' := setFld e 90 6 c
  if c = 0 then ⟨s.rag ++ [e'], s.resv ++ [(ragTenant e, (d.tenant (ragTenant e)).charge e, s.rag.length)], s.pos + ragNew e⟩
  else { s with rag := s.rag ++ [e'] }

/-- Notes that region `r` names the tenants of a table; true when another region has named one of them (09 R238). -/
def Dev.nameTenants (d : Dev) (r : Nat) (rag : List W128) : Dev × Bool :=
  let ks := (rag.map ragTenant).eraseDups
  let exposed := ks.any fun k => (d.tenant k).named.any fun q => decide (q ≠ r)
  (ks.foldl (fun d k =>
    let x := d.tenant k
    d.setTenant k { x with named := if r ∈ x.named then x.named else x.named ++ [r] }) d, exposed)

/-- The step is admitted: the table with MCAUSE goes to line RTLINE of every tile (10 R249). -/
def Dev.admitDone (d : Dev) (r : Nat) : Dev :=
  let x := d.region r
  match x.adm with
  | none => d
  | some a =>
    let bs := a.inp.rag.flatMap fun e => leBytes 16 e.toNat
    let d := d.setRegion r { x with adm := some { a with waiting := false }, phase := .admitted }
    d.modTiles x.tileList fun t => t.spadWrite (64 * d.rtline r) bs

/-- Masks, reserves and presents a checked step (10 R248, R253, R255). -/
def Dev.admitStep (d : Dev) (r : Nat) (i : StepIn) : Dev :=
  let rag := i.rag.take i.nent.toNat
  let s := rag.foldl (d.maskOne r) ⟨[], [], 0⟩
  let (d, exposed) := d.nameTenants r rag
  let nm := s.rag.countP fun e => decide (ragCause e ≠ 0)
  let (d, course, est, waits) := d.present r i.energy.toNat
  let a : Adm := ⟨{ i with rag := s.rag, ing := i.ing.take i.ning.toNat }, s.resv, nm, course, est, waits, exposed⟩
  let d := d.modRegion r fun x => { x with fetched := none, adm := some a, rerun := 0 }
  (if waits then { d with pwr := { d.pwr with waitQ := d.pwr.waitQ.filter (fun q => decide (q ≠ r)) ++ [r] } } else d.admitDone r).fetchAhead r

/-! ### STEP_START (10 R256, 08 R219, 05 R129, 11 R277) -/

/-- The dispatch list of a tile of the attention group (08 R219): none when it exceeds DCAP. -/
def Tile.dispatch (t : Tile) (nent : Nat) : Option Tile :=
  let c := t.reg Reg.WVL_DCFG
  let rag := (List.range nent).map fun i => BitVec.ofNat 128 (t.spad.readNat (64 * fld c 48 16 + 16 * i) 16)
  let us := dispatchUnits rag (cnt0 (fld c 4 12) 4096)
  if us.length > cnt0 (fld c 32 16) 65536 then none
  else
    let bs := us.flatMap fun u => leBytes 2 u.1 ++ leBytes 2 u.2.1 ++ leBytes 4 u.2.2
    some (({ t with wvl := { t.wvl with nUnits := us.length } } : Tile).spadWrite (64 * fld c 16 16) bs)

/-- What STEP_START does in one tile. At the first STEP_START after a load a HALTED Scarab starts at SCB_ENTRY; one that waits after an
abort restarts there (04 R75, R108, 09 R231). -/
def Tile.stepStart (t : Tile) (step : W64) (rerun epoch : Nat) : Tile :=
  let first := t.scb.fresh
  let t := ((t.setReg Reg.SCB_STEP step).setReg Reg.SCB_RERUN (BitVec.ofNat 64 rerun)).event 3
  let t := (List.range 16).foldl (fun t s => t.modReg (Reg.VE_RNG + 8 * s) fun v => setFld v 0 32 0) t
  let t := (t.setReg Reg.WVL_FDONE 0).setReg Reg.MESH_EPOCH (BitVec.ofNat 64 epoch)
  let t : Tile := { t with
    wvl := { t.wvl with cursor := [], claimCtr := 0, nUnits := 0 }
    slot0 := 0, exWindow := false, exQueue := false, exBound := false, exUnsync := !t.wvl.unsync.isEmpty
    tdcBase := (t.reg Reg.SPAD_TDC).toNat + (t.reg Reg.WVL_STEAL).toNat
    scb := { t.scb with wdogNs := 0, fresh := false } }
  if (first ∧ t.scb.mode = .halted) ∨ t.scb.mode = .wait then t.scbStart else t

/-- Every group tile builds its dispatch list; each that exceeds DCAP records it, and the step ends without rerun (08 R219). A ragged-table
copy that fails parity aborts the step (06 R140). -/
def Dev.dispatchAll (d : Dev) (r nent : Nat) : Dev :=
  match Dev.spadChecks ((d.group r).map fun t => (t, 64 * fld ((d.tile t).reg Reg.WVL_DCFG) 48 16, 16 * nent)) d with
  | (d, true) => d
  | (d, false) =>
  let (d, bad) := (d.group r).foldl (fun (s : Dev × List Nat) t =>
    match (s.1.tile t).dispatch nent with
    | some x => (s.1.setTile t x, s.2)
    | none => (s.1.modTile t fun x => x.modReg Reg.WVL_ERR fun v => setBit v 21, s.2 ++ [t])) (d, [])
  if bad.isEmpty then d else (bad.foldl (fun d t => d.recordTile t 2 4 St.LENGTH_EXCEEDS 2 0) d).stepFail r

/-- The ingress frames of the step reach the Local ports of their tiles in record order (10 R252). -/
def Dev.ingress (d : Dev) (r : Nat) (i : StepIn) : Dev :=
  (i.ing.zip i.frames).foldl (fun d e =>
    let len := cnt0 (fld e.1.len 0 12) 4096
    let hd := itemHeader len (bit e.1.flags 0) d.id.toNat 0x7FF e.1.iseq.toNat
    let ws := hd :: (List.range len).map fun k => BitVec.ofNat 128 (rdNat e.2 (16 * k) 16)
    let base := { packet0 with
      dtile := BitVec.ofNat 11 e.1.dtile.toNat, dqid := BitVec.ofNat 10 e.1.dqid.toNat, regtag := BitVec.ofNat 7 r,
      srcdev := d.id, srctile := 0x7FF }
    d.modTile e.1.dtile.toNat fun t => { t with localIn := t.localIn ++ (chunks251 (len + 1) ws).map base.withWords }) d

/-- A run of the step starts: the first, or the rerun `n`. -/
def Dev.runStart (d : Dev) (r n : Nat) : Dev :=
  let x := d.region r
  match x.adm with
  | none => d
  | some a =>
    let epoch := cdiv (d.now + 2048) 1024 * 1024
    let d := d.modTile (d.etile r) fun t => t.spadClear (d.bank r a.inp.step.toNat) (64 * cdiv (d.nmax r) 2)
    let d := d.modTiles x.tileList fun t => t.stepStart a.inp.step n epoch
    let d := d.modRegion r fun x => { x with phase := .running, rerun := n, startT := d.now, e0 := d.regE r, eStep := if n = 0 then d.regE r else x.eStep }
    (d.ingress r a.inp).dispatchAll r a.inp.nent.toNat

/-- STEP_START: an admitted step starts unless a swap or a reload holds the region (07 R190, R193). It raises a trace point that the manual
does not name: a free value (16 R384, log 51). -/
def Dev.stepStart (d : Dev) (r : Nat) : Dev :=
  let x := d.region r
  if x.phase = .admitted ∧ (x.st = .running ∨ x.st = .stopping) ∧ x.reload = false ∧ d.swapHolds r = false then
    let d := (d.modRegion r fun x => { x with mixed := d.swapMixed r || decide (x.mixedLeft ≠ 0), mixedLeft := x.mixedLeft - 1 }).runStart r 0
    let c := d.ctr
    d.drawn.trace (Config.freeAt c 0 % 1024) (Config.freeAt c 1 % 65536) ((List.range 16).map fun i => BitVec.ofNat 8 (Config.freeAt c (2 + i)))
  else d

/-- Whether a packet that a tile of region `r` of this device sent is left in a router, in a gateway or its FIFO, or held at a Local port (11 R287). -/
def Dev.undrained (d : Dev) (r : Nat) : Bool :=
  let mine (p : Packet) : Bool := decide (p.srcdev = d.id) && decide (p.srctile.toNat < Config.nTiles) && (d.region r).holds p.srctile.toNat
  d.flying.any (fun f => mine f.pkt && (decide (f.node < Config.nTiles) || decide (16 ≤ f.inp))) || d.gwIn.any (fun g => mine g.2) ||
    d.tiles.any fun e => e.2.localIn.any mine

/-- STEP_RERUN_START (01 R18, 06 R140): resident ranges that hold a failing word are reloaded, and the step runs again; a reload
that meets an uncorrectable codeword ends the step (07 R165). -/
def Dev.rerunStart (d : Dev) (r : Nat) : Dev :=
  let x := d.region r
  if x.phase = .aborted ∧ d.undrained r = false then
    let bad := x.residents.filter fun e => x.badWords.any fun w => decide (w.1 = e.t) && decide (64 * e.line ≤ w.2) && decide (w.2 < 64 * (e.line + e.lines))
    match d.loadResidents r bad with
    | (d, true) => d.stepFail r
    | (d, false) => (d.modRegion r fun x => { x with badWords := [] }).runStart r (x.rerun + 1)
  else d

/-! ### The step boundary (10 R257, R258) -/

/-- A tile is done (10 R257). -/
def Dev.tileDone (d : Dev) (t : Nat) : Bool :=
  let x := d.tile t
  x.waitsStart && x.acwQ.isEmpty && x.vecQ.isEmpty && x.wvl.fq.isEmpty && x.wvl.appendQ.isEmpty && !d.sending t none

/-- An acknowledgement of the newest shadow END record is outstanding (08 R224). -/
def Tile.shadowDue (t : Tile) : Bool := bit (t.reg Reg.WVL_SHADOW) 0 && decide ((t.reg Reg.WVL_SHACK).toNat < t.wvl.shStep)

/-- The exclusion bits of the step that commits (09 R238). -/
def Dev.exclBits (d : Dev) (r tdc : Nat) (mixed tenant : Bool) : Nat :=
  let ts := (d.region r).tileList.map d.tile
  let b (p : Bool) (k : Nat) : Nat := if p then 2 ^ k else 0
  b (decide (0 < tdc)) 0 + b (ts.any (·.exWindow)) 1 + b (ts.any (·.exQueue)) 2 + b mixed 3 + b (ts.any (·.exUnsync)) 4 +
  b (ts.any (·.exBound)) 5 + b tenant 6

/-- What the Weevil reports of an entry's slot before the commit: FAIL and TRUNC (08 R217). -/
def Dev.kvReport (d : Dev) (r : Nat) (e : W128) : Nat × Bool :=
  match d.homeOf r (ragSlot e) with
  | some h => ((d.tile h).kvFail (ragSlot e), (d.tile h).kvTrunc (ragSlot e))
  | none => (0, false)

/-- FINAL of entry `i` (10 R261): unmasked, and FINAL_REQ or END. -/
def Dev.finalOf (d : Dev) (r step i : Nat) (e : W128) : Bool :=
  decide (ragCause e = 0) && (ragFinal e || bit ((d.tile (d.etile r)).spad.read (d.bank r step + 32 * i + 4)) 1)

/-- The token record of entry `i` (10 R261). -/
def Dev.tokenOf (d : Dev) (r : Nat) (a : Adm) (excl i : Nat) (e : W128) (kv : Nat × Bool) : Tok :=
  let t := d.tile (d.etile r)
  let at_ := d.bank r a.inp.step.toNat + 32 * i
  let padd := t.spad.readNat (at_ + 8) 4
  let plen := t.spad.readNat (at_ + 12) 4
  let masked := decide (ragCause e ≠ 0)
  let status : W16 :=
    if masked then (if ragCause e = 4 ∧ (d.slot (ragSlot e)).lost = true then St.SEQUENCE_LOST else St.SEQ_MASKED)
    else if kv.1 = 1 then St.KV_FULL
    else if kv.1 = 2 then St.KV_PTE_INVALID
    else if bit (t.spad.read (at_ + 4)) 0 = false then St.NO_RECORD
    else if padd + plen > Config.spadBytes then St.LENGTH_EXCEEDS
    else St.OK
  let ok := decide (status = St.OK)
  let flags := (if d.finalOf r a.inp.step.toNat i e then 1 else 0) + (if masked then 2 else 0) + (if kv.2 then 4 else 0) + (if ok && decide (0 < plen) then 8 else 0)
  { step := a.inp.step, slot := BitVec.ofNat 16 (ragSlot e), status := status, token := if ok then BitVec.ofNat 32 (t.spad.readNat at_ 4) else 0
    flags := BitVec.ofNat 8 flags, mcause := BitVec.ofNat 8 (ragCause e), excl := BitVec.ofNat 8 excl, user := BitVec.ofNat 32 (fld e 96 32)
    payload := if ok then t.spad.readN padd plen else [], pbytes := 0, nbuf := 0, pbuf := 0 }

/-- Charges the reservations of entries that commit without a Weevil FAIL (10 R254). -/
def Dev.charge (d : Dev) (resv : List (Nat × Nat × Nat)) (failed : Nat → Bool) : Dev :=
  resv.foldl (fun d v =>
    if failed v.2.2 then d
    else
      let x := d.tenant v.1
      let d := d.setTenant v.1 { x with balance := BitVec.ofNat 48 (x.balance.toNat - v.2.1) }
      d.count Reg.SRV_TENSHORT 0 64 (v.2.1 - x.balance.toNat)) d

/-- What the boundary of a step reads before it commits (06 R140): the directory headers and entries that the step changed, the token
records of the entries that emit one, and their payloads. -/
def Dev.boundaryReads (d : Dev) (r : Nat) (a : Adm) : List (Nat × Nat × Nat) :=
  let et := d.etile r
  let x := d.tile et
  let kv := (d.region r).tileList.flatMap fun t =>
    let y := d.tile t
    y.touched.map (fun s => (t, y.dirAddr s, 16)) ++ y.wvl.pend.map fun p => (t, y.dirAddr p.slot + 16 + 4 * p.page, 4)
  kv ++ a.inp.rag.zipIdx.flatMap fun e =>
    let at_ := d.bank r a.inp.step.toNat + 32 * e.2
    let padd := x.spad.readNat (at_ + 8) 4
    let plen := x.spad.readNat (at_ + 12) 4
    if ragEmit e.1 then (et, at_, 32) :: (if padd + plen ≤ Config.spadBytes then [(et, padd, plen)] else []) else []

/-- A shadow word that fails parity as its record is formed, after the step is over (06 R140). -/
def Dev.shadowCheck (d : Dev) (t : Nat) : Dev :=
  let x := d.tile t
  if bit (x.reg Reg.WVL_SHADOW) 0 then
    match x.wvl.dirty.findSome? fun w => x.badWord (x.unshadow w) 16 with
    | some w => d.parityOutside t w
    | none => d
  else d

/-- The tiles' part of the boundary (10 R258 item 1, 08 R217, R222, 06 R155). -/
def Dev.commitTiles (d : Dev) (r : Nat) (step : W64) : Dev :=
  let ts := (d.region r).tileList
  let d := ts.foldl (fun d t => (d.wvlCommit t).shadowCheck t) d
  d.modTiles ts fun t => ((t.ftCommit).shadowEnd step).modQctx QCtx.boundary

/-- Items 1 to 3 of the boundary, and the token records, completion and replies that items 4 to 6 write (10 R258): the held cancels are decided
and a STOPPING region is STOPPED at item 3, and their replies follow the completion. -/
def Dev.commit (d : Dev) (r : Nat) (a : Adm) : Dev :=
  let x := d.region r
  let step := a.inp.step
  let es := a.inp.rag.zipIdx
  let kvs := a.inp.rag.map fun e => d.kvReport r e
  let tdc := (x.tileList.foldl (fun s t => s + ((d.tile t).reg Reg.SPAD_TDC).toNat + ((d.tile t).reg Reg.WVL_STEAL).toNat - (d.tile t).tdcBase) 0)
  let excl := d.exclBits r tdc x.mixed a.tenant
  let toks := es.filterMap fun e => if ragEmit e.1 then some (d.tokenOf r a excl e.2 e.1 (kvs.getD e.2 (0, false))) else none
  let finals := es.filterMap fun e => if ragEmit e.1 && d.finalOf r step.toNat e.2 e.1 then some (ragSlot e.1) else none
  let d := d.commitTiles r step
  let d := d.setReg (Reg.SRV_EXCL + 8 * r) (BitVec.ofNat 64 (excl + step.toNat % 2 ^ 32 * 2 ^ 32))
  let d := d.modReg (Reg.SRV_TDC + 8 * r) fun v => addCnt (setFld v 0 32 (min tdc (2 ^ 32 - 1))) 32 32 tdc
  let d := d.charge a.resv fun i => decide ((kvs.getD i (0, false)).1 ≠ 0)
  let d := finals.foldl (fun d k => d.setSlot k { d.slot k with st := .complete }) d
  let (d, cvs) := d.decideCancels r
  let (d, svs) := if x.st = .stopping then d.stopped r else (d, [])
  let vs := cvs ++ svs
  let d := (d.setReg (Reg.SRV_LAST + 8 * r) step).energyBoundary r x.e0 a.inp.energy.toNat
  let d := if d.stepns r ≠ 0 ∧ d.now - x.startT > d.stepns r then d.count (Reg.SRV_OVERRUN + 8 * r) 0 64 1 else d
  let bytes := d.completion r step St.OK x.rerun a.inp.usertag a.nmasked toks.length a.course
  let fin : Finish := ⟨bytes, true, vs, !bit a.inp.flags 3, a.inp.ning.toNat, bit a.inp.flags 1, a.inp.barrier, bit a.inp.flags 2⟩
  d.modRegion r fun x => { x with
    adm := none, phase := .idle, rerun := 0, toks := toks, tokTotal := toks.length, tokTrunc := false, fins := x.fins ++ [fin]
    adslots := x.adslots.map AdSlot.boundary, badWords := [] }

/-- STEP_BOUNDARY (10 R257, R258): every tile is done, the shadow waits and the token records of the step before are over. -/
def Dev.stepBoundary (d : Dev) (r : Nat) : Dev :=
  let x := d.region r
  match x.adm with
  | none => d
  | some a =>
    if x.phase = .running ∧ (x.tileList.all fun t => d.tileDone t && !(d.tile t).shadowDue) = true ∧ x.toks = [] then
      match Dev.spadChecks (d.boundaryReads r a) d with
      | (d, true) => d
      | (d, false) =>
      ((d.commit r a).runFins r).swapRun.fetchAhead r
    else d

/-! ### Token records (10 R262, R263) -/

/-- The first 31 bytes of a token record (10 Table 10.11). -/
def Tok.bytes (k : Tok) : List Byte :=
  leBytes 8 k.step.toNat ++ leBytes 2 k.slot.toNat ++ leBytes 2 k.status.toNat ++ leBytes 4 k.token.toNat ++ [k.flags, k.mcause, k.excl] ++
  leBytes 1 k.nbuf ++ leBytes 4 k.user.toNat ++ leBytes 4 k.pbytes ++ leBytes 2 k.pbuf ++ [0]

/-- A usable buffer (10 R262). -/
def BufDesc.ok (b : BufDesc) : Bool := decide (1 ≤ b.len.toNat) && decide (b.len.toNat % 64 = 0) && decide (b.len.toNat ≤ 16777216)

/-- Fills posted buffers in ring order with what is left of a payload; each is consumed once it is filled (R244). -/
def Dev.fillBufs (r p : Nat) : List BufDesc → Dev → Tok → Dev × Tok
  | [], d, k => (d, k)
  | b :: bs, d, k =>
    let g := d.ring p
    if k.payload = [] ∨ k.nbuf ≥ 255 ∨ g.posted = 0 then (d, k)
    else
      let slot := g.h2dCons.toNat % g.h2dSize
      if BufDesc.ok b then
        let bs' := k.payload.take b.len.toNat
        Dev.fillBufs r p bs ((d.emit (.dmaWrite b.addr.toNat bs')).h2dTake p 1)
          { k with payload := k.payload.drop b.len.toNat, pbytes := k.pbytes + bs'.length, nbuf := k.nbuf + 1, pbuf := if k.nbuf = 0 then slot else k.pbuf }
      else Dev.fillBufs r p bs ((d.h2dTake p 1).count (Reg.SRV_EGSPOIL + 8 * r) 0 64 1) k

/-- TOKEN_RECORD_WRITE: the payload fills buffers, then the record is written; it waits for buffers or for room in the ring. -/
def Dev.tokenWrite (d : Dev) (r : Nat) (bufs : List BufDesc) : Dev :=
  match (d.region r).toks, d.pairOf r rkEGRESS with
  | k :: rest, some p =>
    let (d, k) := d.fillBufs r p bufs k
    if k.payload = [] ∧ (d.ring p).room = true then
      let d := (d.modRegion r fun x => { x with toks := rest }).d2hPut p k.bytes
      (d.runFins r).swapRun.fetchAhead r
    else d.modRegion r fun x => { x with toks := k :: rest }
  | _, _ => d

/-- A truncated record makes the status of its step's completion TRUNCATED, which is always written (10 R258, R259). -/
def Finish.truncated (f : Finish) : Finish :=
  { f with bytes := f.bytes.take 8 ++ leBytes 2 St.TRUNCATED.toNat ++ f.bytes.drop 10, write := true }

/-- The token records that wait are those of the last step that committed (10 R263): its completion shows TRUNCATED. -/
def truncLast (fs : List Finish) : List Finish :=
  match fs with
  | [] => []
  | f :: fs => if f.commit && !(fs.any (·.commit)) then f.truncated :: fs else f :: truncLast fs

/-- RX_WAIT_EXPIRY (10 R263): under TRUNCATE a payload without a buffer ends; under HOLD the wait is shown and the ring's interrupt sent. -/
def Dev.rxExpiry (d : Dev) (r : Nat) : Dev :=
  match (d.region r).toks, d.pairOf r rkEGRESS with
  | k :: rest, some p =>
    let g := d.ring p
    let noBuf := decide (k.payload ≠ []) && (decide (g.posted = 0) || decide (k.nbuf ≥ 255))
    if g.d.rxWait = 0xFFFFFFFF then d
    else if bit g.d.flags 0 then
      if noBuf || (decide (k.payload = []) && !g.room) then
        (d.modReg (Reg.SRV_STATE + 8 * r) fun v => setBit v 5).irq (if g.d.vector.toNat < 2048 then g.d.vector.toNat else 2048)
      else d
    else if noBuf then
      let d := d.count (Reg.SRV_EGSPOIL + 8 * r) 0 64 (cdiv k.payload.length 16)
      d.modRegion r fun x => { x with
        toks := { k with payload := [], status := St.TRUNCATED } :: rest, tokTrunc := true
        fins := truncLast x.fins }
    else d
  | _, _ => d

/-! ### Deciding an admission -/

/-- A step whose DMA reads failed (17 R392): it ends without commit with STEP_FAILED, an error record is written, and the region is in
FAULT. Its number and USERTAG lay in the data that did not arrive: free values (log 40). -/
def Dev.stepUnread (d : Dev) (r : Nat) : Dev :=
  let c := d.ctr
  let bytes := d.completion r (BitVec.ofNat 64 (Config.freeAt c 0)) St.STEP_FAILED 0 (BitVec.ofNat 32 (Config.freeAt c 1)) 0 0 0
  let d := d.drawn.record { errBase 2 10 St.STEP_FAILED with region := BitVec.ofNat 8 r, action := 2 }
  ((d.modRegion r fun x => { x with fins := x.fins ++ [⟨bytes, false, [], true, 0, false, 0, false⟩] }).toFault r).runFins r

/-- Nothing stands before the next step of a RUNNING region. -/
def Region.ready (x : Region) : Bool :=
  decide (x.st = .running) && decide (x.phase = .idle) && x.adm.isNone && !(x.fins.any (·.hold) || (decide (x.toks = []) && !x.fins.isEmpty))

/-- STEP_ADMISSION (10 R246 to R256). -/
def Dev.stepAdmission (d : Dev) (r : Nat) : Dev :=
  let x := d.region r
  match x.fetched with
  | none => if d.dmaOut (.stepBad r) && x.ready then d.stepUnread r else d
  | some i =>
    if x.ready = false then d
    else
      let st := d.stepCheck r i
      if st ≠ St.OK then d.stepRefuse r i st
      else if d.ingMissing r i = true ∨ (bit i.flags 0 = true ∧ d.barReached i.barrier.toNat = false) then d
      else d.admitStep r i

end Sys2Proof.Machine
end

