-- ==== Sys2Proof/Machine/DevVal.lean ====
section
/-! DEFINITION. What the registers of BAR0 read as: those whose fields show other state (07 WT_STATUS, 10 SRV_STATE, 15 FLT_STATUS and
FLT_SKIP, 16 HIVE_STATUS and HIVE_LOCKRES, 17 HOST_RSTCAUSE), and the rest from the register file. -/

namespace Sys2Proof.Machine

/-- Code of a serving state (10 Table 10.1). -/
def RState.code : RState → Nat
  | .empty => 0 | .stopped => 1 | .running => 2 | .stopping => 3 | .held => 4 | .fault => 5

/-- Code of a latch owner (16 R365). -/
def Owner.code : Owner → Nat
  | .nobody => 0 | .west => 1 | .east => 2

/-- Whether no refresh has arrived for 400 µs or more (16 R365). -/
def Dev.stale (d : Dev) : Bool := decide (d.aon.owner ≠ .nobody) && decide (d.aon.since ≥ 400000)

/-- HIVE_STATUS (16). -/
def Dev.hiveStatus (d : Dev) : W64 :=
  BitVec.ofNat 64 (d.aon.owner.code + 4 * d.stale.toNat + 8 * (d.seamF false).toNat + 16 * (d.seamF true).toNat +
    32 * d.hive.negMaj.isSome.toNat + 64 * d.hive.mismatch.toNat + 2 ^ 16 * d.aon.epoch.toNat + 2 ^ 32 * d.hive.fwver.toNat)

/-- WT_STATUS (07). -/
def Dev.wtStatus (d : Dev) : W64 :=
  setFld (putBit (d.reg Reg.WT_STATUS) 1 (!d.wt.verifying.isEmpty)) 3 3 d.wt.sessions.length

/-- A boundary that waits for token records (10 R263). -/
def Dev.egWait (d : Dev) (r : Nat) : Bool :=
  let x := d.region r
  decide (x.phase = .running) && decide (x.toks ≠ []) && x.tileList.all fun t => d.tileDone t

/-- An admission that waits for ingress records (10 R252). -/
def Dev.ingWait (d : Dev) (r : Nat) : Bool :=
  let x := d.region r
  match x.fetched with
  | some i => decide (x.phase = .idle) && d.ingMissing r i
  | none => false

/-- SRV_STATEr (10). -/
def Dev.srvState (d : Dev) (r : Nat) : W64 :=
  let x := d.region r
  let step := match x.adm with | some a => a.inp.step.toNat % 2 ^ 32 | none => 0
  (d.reg (Reg.SRV_STATE + 8 * r) &&& 0x28) |||
    BitVec.ofNat 64 (x.st.code + 16 * (d.egWait r).toNat + 64 * (d.ingWait r).toNat + 128 * x.rerun + 2 ^ 32 * step)

/-- FLT_STATUS (15). -/
def Dev.fltStatus (d : Dev) : W64 :=
  match d.flt.recov with
  | some v => BitVec.ofNat 64 (1 + (if v.stage = RecStage.held then 2 else 0) + 4 * (v.restarts % 4) + 16 * v.cls + 2 ^ 32 * v.recid.toNat)
  | none => 0

/-- What a 64-bit register of BAR0 reads as to the host, before any read side effect. -/
def Dev.devVal (d : Dev) (a : Nat) : W64 :=
  if a = Reg.HIVE_STATUS then d.hiveStatus
  else if a = Reg.HIVE_LOCKRES then BitVec.ofNat 64 (d.hive.lockRes.getD 4 0).toNat
  else if a = Reg.HOST_RSTCAUSE then BitVec.ofNat 64 d.aon.rstcause.toNat
  else if a = Reg.WT_STATUS then d.wtStatus
  else if a = Reg.FLT_STATUS then d.fltStatus
  else if Reg.FLT_SKIP ≤ a ∧ a < Reg.FLT_SKIP + 8 * Config.nHalfBenches then BitVec.ofNat 64 (d.skip ((a - Reg.FLT_SKIP) / 8)).toNat
  else if Reg.SRV_STATE ≤ a ∧ a < Reg.SRV_STATE + 8 * Config.nRegions then d.srvState ((a - Reg.SRV_STATE) / 8)
  else d.reg a

end Sys2Proof.Machine
end

