-- ==== Sys2Proof/Machine/Journal.lean ====
section
/-! DEFINITION. The journal (07 R170 to R175): commit records, their three stages and their effects, checkpoints, replay. -/

namespace Sys2Proof.Machine

/-! ### Commit records (07 Tables 7.6 to 7.8) -/

/-- Number of a state (07 Table 7.8). -/
def ImgState.num : ImgState → Nat
  | .empty => 0
  | .downloading => 1
  | .downloaded => 2
  | .verified => 3
  | .trial => 4
  | .confirmed => 5
  | .retired => 6
  | .bad => 7
  | .incomplete => 8

/-- The state of a number in a record. -/
def ImgState.ofNum (n : Nat) : ImgState :=
  match n with
  | 1 => .downloading | 2 => .downloaded | 3 => .verified | 4 => .trial | 5 => .confirmed | 6 => .retired | 7 => .bad | _ => .empty

/-- RKIND of a kind (07 Table 7.7). -/
def RKind.code : RKind → Nat
  | .downloaded => 0x01
  | .activate => 0x02
  | .confirm => 0x03
  | .trialBoot => 0x04
  | .revert => 0x05
  | .retire => 0x06
  | .reclaim => 0x07
  | .badShard => 0x08
  | .repaired => 0x09
  | .checkpoint => 0x0A
  | .state => 0x0B

/-- The kind of an RKIND; none for a reserved one. -/
def RKind.ofCode (n : Nat) : Option RKind :=
  [RKind.downloaded, .activate, .confirm, .trialBoot, .revert, .retire, .reclaim, .badShard, .repaired, .checkpoint, .state].find? fun k => decide (k.code = n)

/-- Bytes 0x00 to 0xEF of a record: its kind, its SEQ, the image it concerns with STATE after it, and its parameter, which is BOOTS for TRIAL_BOOT
and PARAM for every other kind. -/
def recBody (k : RKind) (seq : Nat) (m : Image) (st param : Nat) : List Byte :=
  leBytes 4 0x57444A31 ++ leBytes 2 1 ++ leBytes 1 k.code ++ [0] ++ leBytes 8 seq ++ leBytes 4 m.id.toNat ++ leBytes 4 m.gen.toNat ++
  [m.ikind] ++ leBytes 1 st ++ leBytes 1 (if k = .activate then m.trialLimit.toNat else 0) ++ leBytes 1 (if k = .trialBoot then param else 0) ++
  leBytes 4 m.priorGen.toNat ++ leBytes 4 m.xset.toNat ++ leBytes 1 m.rect.b0 ++ leBytes 1 m.rect.b1 ++ leBytes 1 m.rect.c0 ++ leBytes 1 m.rect.c1 ++
  leBytes 4 m.shards.length ++ leBytes 4 m.mbytes ++ slice m.mdigest 0 32 ++ leBytes 32 (if k = .trialBoot then 0 else param) ++ List.replicate 128 0

/-- The 256 bytes of a journal page's record: the body, its CRC-32C, COMMIT. -/
def recPage (body : List Byte) (commit : Byte) : List Byte := body ++ leBytes 4 (crc32c body) ++ List.replicate 11 0 ++ [commit]

/-- A valid body: MAGIC, VERSION and CRC check. -/
def recOk (b : List Byte) : Bool :=
  decide (b.length = 256) && decide (rdNat b 0 4 = 0x57444A31) && decide (rdNat b 4 2 = 1) && decide (rdNat b 0xF0 4 = crc32c (b.take 0xF0))

/-- COMMIT of a page reads 0xA5. -/
def recCommitted (b : List Byte) : Bool := decide (b.getD 255 0 = 0xA5)

/-- SEQ of a record. -/
def recSeq (b : List Byte) : Nat := rdNat b 8 8

/-- The image a record concerns, as the record gives it. -/
def recImage (b : List Byte) : Image :=
  ⟨BitVec.ofNat 32 (rdNat b 0x10 4), BitVec.ofNat 32 (rdNat b 0x14 4), b.getD 0x18 0, ImgState.ofNum (rdNat b 0x19 1),
    ⟨rdNat b 0x24 1, rdNat b 0x25 1, rdNat b 0x26 1, rdNat b 0x27 1⟩, BitVec.ofNat 15 (rdNat b 0x20 4), rdNat b 0x2C 4, slice b 0x30 32, [], [], false, [],
    BitVec.ofNat 32 (rdNat b 0x1C 4), if b.getD 0x1A 0 = 0 then 3 else b.getD 0x1A 0, b.getD 0x1B 0, [], .empty, BitVec.ofNat 64 (recSeq b)⟩

/-- The parameter of a record. -/
def recParamOf (k : RKind) (b : List Byte) : Nat := if k = .trialBoot then rdNat b 0x1B 1 else rdNat b 0x50 32

/-- The parameter that a record of an image carries: BAD_SHARD adds the state before, STATE holds BOOTS, TRIAL_LIMIT and, in the byte that
BAD_SHARD uses for it, the state before of an image in BAD (log 107). -/
def recParam (k : RKind) (m : Image) (param : Nat) : Nat :=
  match k with
  | .badShard => param % 2 ^ 32 + 2 ^ 32 * (if m.st = .bad then m.before else m.st).num
  | .state => m.boots.toNat + 256 * m.trialLimit.toNat + 2 ^ 32 * m.before.num
  | _ => param

/-- The change a record makes to the standing of images (07 Table 7.7). `m` is the image as the record names it. -/
def WTier.applyRec (w : WTier) (k : RKind) (m : Image) (param : Nat) (seq : W64) : WTier :=
  let cur : Image := { (w.image? m.id m.gen).getD m with lastSeq := seq }
  match k with
  | .downloaded => (w.putImage { cur with st := .downloaded }).owned m.id m.gen
  | .activate => w.putImage { cur with st := .trial, priorGen := m.priorGen, trialLimit := m.trialLimit, boots := 0 }
  | .confirm =>
    let w := w.putImage { cur with st := .confirmed, priorGen := 0 }
    { w with images := w.images.map fun i => if decide (cur.priorGen ≠ 0) && i.is m.id cur.priorGen then { i with st := .retired } else i }
  | .trialBoot => w.putImage { cur with boots := BitVec.ofNat 8 param }
  | .revert => w.putImage { cur with st := .retired }
  | .retire => w.putImage { cur with st := .retired }
  | .reclaim => w.dropImage m.id m.gen
  | .badShard =>
    let i := param % 2 ^ 32
    w.putImage { cur with
      st := .bad
      before := ImgState.ofNum (param / 2 ^ 32 % 256)
      badShards := if i ∈ cur.badShards then cur.badShards else cur.badShards ++ [i] }
  | .repaired => w.putImage { cur with st := cur.before, badShards := [] }
  | .checkpoint => w
  | .state => w

/-- A record may still be written: the standing it starts from holds (07 Table 7.7). -/
def WTier.recLegal (w : WTier) (p : JPend) : Bool :=
  match p.kind, w.image? p.img.id p.img.gen with
  | .checkpoint, _ => true
  | .state, _ => true
  | _, none => false
  | .downloaded, some i => decide (i.st = .downloading)
  | .activate, some i => decide (i.st = .verified) && (w.trial i.id).isNone
  | .confirm, some i => decide (i.st = .trial)
  | .trialBoot, some i => decide (i.st = .trial)
  | .revert, some i => decide (i.st = .trial)
  | .retire, some i => decide (i.st = .downloaded) || decide (i.st = .verified) || decide (i.st = .confirmed) || decide (i.st = .bad)
  | .reclaim, some i => decide (i.st = .retired)
  | .badShard, some _ => true
  | .repaired, some i => decide (i.st = .bad)

/-! ### The copies (07 R170, R172, R173) -/

/-- The tiles whose slices hold journal copies (07 R170). -/
def journalTiles : List Nat := [0, 23, 23 * Config.lcols, 23 * Config.lcols + 23]

/-- Journal pages of a copy (07 Table 7.1). -/
def journalPages : Nat := 8174

/-- The page of a record: the area of 8,174 pages from page 18 is used circularly (log 107). -/
def jpage (seq : Nat) : Nat := 18 + (seq - 1) % journalPages

/-- What page `p` of copy `k` holds. -/
def WTier.jread (w : WTier) (k p : Nat) : List Byte := SMap.get (fun _ => []) w.jpages (8192 * k + p)

/-- Programs page `p` of copy `k`. -/
def WTier.jput (w : WTier) (k p : Nat) (b : List Byte) : WTier :=
  { w.heal (journalTiles.getD k 0) ((page15 + p) * 4096) 4096 with jpages := SMap.set (fun _ => []) w.jpages (8192 * k + p) b }

/-- The copies of a mask. -/
def copiesOf (c : BitVec 4) : List Nat := (List.range 4).filter fun k => bit c k

/-- Programs COMMIT = 0xA5 into copy `k` of the record at page `p`, with body `b`. -/
def WTier.jcommit (w : WTier) (b : List Byte) (p : Nat) (k : Nat) : WTier := w.jput k p (recPage (b.take 0xF0) 0xA5)

/-- Copies that cannot be read or programmed are lost: the device goes on with those that remain (07 R173). -/
def Dev.loseCopies (d : Dev) (lost : BitVec 4) : Dev :=
  if lost = 0 then d
  else (((d.modWt fun w => { w with jlost := w.jlost ||| lost }).modReg Reg.WT_STATUS fun v => setFld v 6 4 (d.jcopies &&& ~~~lost).toNat).modReg
    Reg.WT_ERR fun v => setBit v 2).record { errBase 4 7 St.JOURNAL_FAULT with detail := lost.toNat }

/-- The image that the record at the front is written for, and its parameter. -/
def WTier.recSubject (w : WTier) (p : JPend) : Image × Nat :=
  let cur := (w.image? p.img.id p.img.gen).getD p.img
  let m := if p.kind = .activate then { cur with priorGen := p.img.priorGen, trialLimit := p.img.trialLimit } else cur
  (m, recParam p.kind m p.param)

/-- The body of the next record. -/
def Dev.nextBody (d : Dev) (p : JPend) : List Byte :=
  let (m, param) := d.wt.recSubject p
  let seq := d.reg Reg.WT_JSEQ + 1
  recBody p.kind seq.toNat m (match (d.wt.applyRec p.kind m param seq).image? m.id m.gen with | some i => i.st.num | none => 0) param

/-- Stage 1: the body goes into every usable copy with COMMIT = 0 (07 R172). -/
def Dev.stage1 (d : Dev) (p : JPend) : Dev :=
  let seq := (d.reg Reg.WT_JSEQ).toNat + 1
  let b := d.nextBody p
  d.modWt fun w => { (copiesOf d.jcopies).foldl (fun w k => w.jput k (jpage seq) (recPage b 0)) w with jstage := 1 }

/-- A record is in force: WT_JSEQ, and its change takes place (07 R172). -/
def Dev.inForce (d : Dev) (p : JPend) : Dev :=
  let (m, param) := d.wt.recSubject p
  let seq := d.reg Reg.WT_JSEQ + 1
  let d := (d.modWt fun w => { w.applyRec p.kind m param seq with jsince := if p.kind = .checkpoint then 0 else w.jsince + 1 }).setReg Reg.WT_JSEQ seq
  if p.kind = .badShard then (d.modReg Reg.WT_ERR fun v => setBit v 1).logEvent 4 else d

/-- Stage 2: COMMIT goes into copy 0, or the lowest copy that remains (log 107); the record is in force from then on. -/
def Dev.stage2 (d : Dev) (p : JPend) : Dev :=
  let seq := (d.reg Reg.WT_JSEQ).toNat + 1
  match copiesOf d.jcopies with
  | k :: _ => (d.modWt fun w => { w.jcommit (w.jread k (jpage seq)) (jpage seq) k with jstage := 2 }).inForce p
  | [] => d

/-- Stage 3: COMMIT goes into the other copies. The record is the one of WT_JSEQ. -/
def Dev.stage3 (d : Dev) : Dev :=
  let seq := (d.reg Reg.WT_JSEQ).toNat
  d.modWt fun w => { (copiesOf d.jcopies).foldl (fun w k => w.jcommit (w.jread k (jpage seq)) (jpage seq) k) w with jq := w.jq.drop 1, jstage := 0 }

/-- A record that is written whole in one go: during the replay (07 R175 item 6). -/
def Dev.recordNow (d : Dev) (k : RKind) (m : Image) (param : Nat) : Dev :=
  let p : JPend := ⟨k, m, param, none, 0, none, none⟩
  if d.jcopies = 0 then d else (((d.modWt fun w => { w with jq := p :: w.jq }).stage1 p).stage2 p).stage3

/-- What follows a record whose stages are done: the allocation, the reply, IMAGE_DONE (07 R172, R177, R184). -/
def Dev.afterRecord (d : Dev) (p : JPend) : Dev :=
  let d := match p.alloc with
    | some i => d.modWt fun w => (w.putImage i).own i.rect i.xset i.id i.gen true
    | none => d
  let d := match p.session with
    | some q => match d.session? q with
      | some s => d.sendAck s 3 0 0 (d.reg Reg.WT_JSEQ)
      | none => d
    | none => d
  match p.reply with
  | some m => d.replyFull m p.status 0 (match p.alloc with | some i => [i.xset.setWidth 32, 0, 0] | none => []) []
  | none => d

/-- No image: what a CHECKPOINT names. -/
def noImage : Image := ⟨0, 0, 0, .empty, ⟨0, 0, 0, 0⟩, 0, 0, [], [], [], false, [], 0, 0, 0, [], .empty, 0⟩

/-- The STATE records and the CHECKPOINT that a journal filled to 75 % receives, before any other record (07 R174). -/
def Dev.checkpoint (d : Dev) : Dev :=
  if 4 * d.wt.jsince ≥ 3 * journalPages ∧ (d.wt.jq.any fun p => decide (p.kind = .checkpoint)) = false then
    let first := (d.reg Reg.WT_JSEQ).toNat + 1
    d.modWt fun w => { w with
      jq := w.images.map (fun m => (⟨.state, m, 0, none, 0, none, none⟩ : JPend)) ++
        [⟨.checkpoint, noImage, first + 2 ^ 64 * w.images.length, none, 0, none, none⟩] ++ w.jq }
  else d

/-- The first waiting record is not written: the reply, and SESSION_ERR for a haul (07 Table 7.12). -/
def Dev.recordFault (d : Dev) (p : JPend) (st : W16) : Dev :=
  let d := d.modWt fun w => { w with jq := w.jq.drop 1, jstage := 0 }
  let d := match p.session with
    | some q => match d.session? q with
      | some s => if st = St.JOURNAL_FAULT then d.sessionErr s manifestNo st else d
      | none => d
    | none => d
  d.replyOpt p.reply st

/-- JOURNAL_COMMIT: the next stage of the first waiting record; `fail` are the copies that cannot be programmed in it. With no copy left
the record is not written. -/
def Dev.commitRecord (d : Dev) (fail : BitVec 4) : Dev :=
  match d.wt.jq with
  | [] => d
  | p :: _ =>
    if d.wt.jstage = 0 ∧ d.wt.recLegal p = false then d.recordFault p St.IMAGE_STATE
    else
      let d := d.loseCopies (fail &&& d.jcopies)
      if d.wt.jstage = 2 then (d.stage3.afterRecord p).checkpoint
      else if d.jcopies = 0 then d.recordFault p St.JOURNAL_FAULT
      else if d.wt.jstage = 0 then d.stage1 p
      else d.stage2 p

/-- A rebuilt slice makes its journal copy usable again: it takes the pages of the lowest other copy that is usable (07 R173, R197). -/
def Dev.copyBack (d : Dev) (t : Nat) : Dev :=
  match journalTiles.findIdx? fun u => decide (u = t) with
  | some k =>
    match (copiesOf d.jcopies).find? fun j => decide (j ≠ k) with
    | some j =>
      let pages := d.wt.jpages.filterMap fun e => if e.1 / 8192 = j then some (e.1 % 8192, e.2) else none
      let mine (e : Nat × List Byte) : Bool := decide (e.1 / 8192 = k)
      (d.modWt fun w => { w with
        jlost := clrBit w.jlost k
        jpages := pages.foldl (fun m e => SMap.set (fun _ => []) m (8192 * k + e.1) e.2) (w.jpages.filter fun e => !mine e) }).modReg
          Reg.WT_STATUS fun v => setBit v (6 + k)
    | none => d
  | none => d

/-! ### Replay (07 R175) -/

/-- The manifest of an image as the medium holds it: its shards and adapters, when it can be read and matches MDIGEST. -/
def WTier.withManifest (w : WTier) (m : Image) : Image :=
  let t := m.rect.b0 * Config.lcols + m.rect.c0
  let bs := w.bytes t (m.extAddr 0) m.mbytes
  if w.readable t (m.extAddr 0) m.mbytes = true ∧ sha256 bs = m.mdigest then
    match parseManifest m bs with
    | some (sh, ad) => { m with shards := sh, adapters := ad, manOk := true }
    | none => m
  else m

/-- The valid records of copy `k`. -/
def WTier.jvalid (w : WTier) (k : Nat) : List (List Byte) := w.jpages.filterMap fun e => if e.1 / 8192 = k ∧ recOk e.2 = true then some e.2 else none

/-- The records in force, in SEQ order: committed in a usable copy, with the body of the lowest copy that holds a valid one (07 R175 item 2). -/
def WTier.recordsInForce (w : WTier) (ok : List Nat) : List (List Byte) :=
  let done := (ok.flatMap fun k => (w.jvalid k).filter recCommitted).map recSeq
  let all : SMap (List Byte) := ok.reverse.foldl (fun m k => (w.jvalid k).foldl (fun m b => SMap.set (fun _ => []) m (recSeq b) b) m) []
  (all.filter fun e => done.contains e.1).map (·.2)

/-- The SEQ from which a replay applies records: that of the first STATE record of the newest CHECKPOINT whose STATE records are all in force
(07 R174). -/
def replayFrom (rs : List (List Byte)) : Nat :=
  let seqs := rs.map recSeq
  let good (b : List Byte) : Bool :=
    decide (rdNat b 6 1 = RKind.code .checkpoint) && (List.range (rdNat b 0x58 4)).all fun i => seqs.contains (rdNat b 0x50 8 + i)
  match (rs.filter good).getLast? with
  | some b => rdNat b 0x50 8
  | none => 0

/-- One record of the replay. A STATE record is the standing of its image; the shards of an image in BAD are those that fail now (log 107). -/
def WTier.replayRec (w : WTier) (b : List Byte) : WTier :=
  match RKind.ofCode (rdNat b 6 1) with
  | none => w
  | some k =>
    let m0 := recImage b
    let m := if (w.image? m0.id m0.gen).isSome then m0 else w.withManifest m0
    let param := recParamOf k b
    if k = .state then
      w.putImage { m with
        boots := BitVec.ofNat 8 param, trialLimit := BitVec.ofNat 8 (param / 256), before := ImgState.ofNum (param / 2 ^ 32 % 256)
        badShards := if m.st = .bad then (List.range m.shards.length).filter fun i => !(w.shardOk m i) else [] }
    else w.applyRec k m param (BitVec.ofNat 64 (recSeq b))

/-- Places of a slice that hold the device's own records: header, remap table, and the journal area of the four journal slices. -/
def ownPage (t page : Nat) : Bool :=
  decide (page15 ≤ page) && (decide (page < page15 + 18) || (journalTiles.contains t && decide (page < page15 + 8192)))

/-- The codewords with wrong bits in places that `f` selects: slice, page, bits. -/
def WTier.weakWhere (w : WTier) (f : Nat → Nat → Bool) : List (Nat × Nat × Nat) :=
  w.weak.filterMap fun e => match w.cwAddr e.1 with
    | some (t, a) => if f t (a / 4096) then some (t, a / 4096, e.2) else none
    | none => none

/-- Reads places outside a step: uncorrectable codewords are recorded, and one in a journal area loses that copy (07 R163, R165, R173). -/
def Dev.readWhere (d : Dev) (f : Nat → Nat → Bool) : Dev :=
  let (d, bad) := d.cwMeet (d.wt.weakWhere f)
  let d := bad.foldl (fun d p => d.uncorrectable p.1 p.2) d
  let lost := bad.foldl (fun (c : BitVec 4) p =>
    match journalTiles.findIdx? fun u => decide (u = p.1) with
    | some k => if page15 + 18 ≤ p.2 ∧ p.2 < page15 + 8192 then setBit c k else c
    | none => c) 0
  d.loseCopies (lost &&& d.jcopies)

/-- Items 1 to 3 of a replay, and the report of item 4 (07 R175): headers and remap tables, the records in force in the usable copies, which then
hold them committed, and the standing they give. Extents in DOWNLOADING without a DOWNLOADED record in force are reported INCOMPLETE; records
of a reserved kind are logged. -/
def Dev.replayRead (d : Dev) : Dev :=
  let d := (d.modReg Reg.WT_STATUS fun v => setFld v 6 4 15).loseCopies d.wt.jlost
  let d := d.readWhere ownPage
  let ok := copiesOf d.jcopies
  let w := d.wt
  let owners := w.hdrs.flatMap fun e => ownersFrom e.1 (e.2.read (w.pagesOk e.1 page15 1) (w.pagesOk e.1 (page15 + 1) 1))
  let remap := w.maps.flatMap fun e => remapFrom e.1 (e.2.read (w.pagesOk e.1 (page15 + 2) 8) (w.pagesOk e.1 (page15 + 10) 8))
  let rs := w.recordsInForce ok
  let w : WTier := { w with owners := owners, remap := remap, images := [] }
  let w := rs.foldl (fun w b => ok.foldl (fun w k => w.jcommit b (jpage (recSeq b)) k) w) w
  let start := replayFrom rs
  let w := (rs.filter fun b => decide (start ≤ recSeq b)).foldl WTier.replayRec w
  let w : WTier := { w with images := w.images.map fun m => if m.st = .downloading then { m with st := .incomplete } else m }
  let cut := (w.owners.filterMap fun o => if o.2.2.2.2 && (w.image? o.2.2.1 o.2.2.2.1).isNone then some (o.2.2.1, o.2.2.2.1) else none).eraseDups
  let last := (rs.getLast?.map recSeq).getD 0
  let w : WTier := { w with
    images := w.images ++ cut.map fun p => { noImage with id := p.1, gen := p.2, st := .incomplete }
    replayed := true
    jsince := rs.countP fun b => decide (start ≤ recSeq b ∧ rdNat b 6 1 ≠ RKind.code .state ∧ rdNat b 6 1 ≠ RKind.code .checkpoint) }
  let d := ({ d with wt := w } : Dev).setReg Reg.WT_JSEQ (BitVec.ofNat 64 last)
  (rs.filter fun b => decide (start ≤ recSeq b) && (RKind.ofCode (rdNat b 6 1)).isNone).foldl (fun d _ => d.logEvent 4) d

/-- TRIAL_BOOT, or REVERT with cause 1 at the limit (07 R175 item 6). -/
def Dev.trialBoot (d : Dev) (m : Image) : Dev :=
  if m.st = .trial then
    if m.boots = m.trialLimit then d.recordNow .revert m 1 else d.recordNow .trialBoot m (m.boots.toNat + 1)
  else d

/-- Items 4 to 6 (07 R175): INCOMPLETE images are EMPTY, extents of no image are FREE, VERIFIED images read DOWNLOADED and are verified in the
background, boots of TRIAL images are counted; JREADY. Shards of an interrupted slice shift are marked BAD (15 R347). -/
def Dev.replayEnd (d : Dev) : Dev :=
  let w := d.wt
  let w : WTier := { w with images := (w.images.filter fun m => decide (m.st ≠ .incomplete)).map fun m => if m.st = .verified then { m with st := .downloaded } else m }
  let w := w.setOwners (w.owners.filter fun o => (w.image? o.2.2.1 o.2.2.2.1).isSome && !o.2.2.2.2)
  let w : WTier := { w with verifying := (w.images.filter fun m => decide (m.st = .downloaded)).map fun m => ⟨m.id, m.gen, none⟩ }
  let d : Dev := { d with wt := w }
  let d := w.images.foldl Dev.trialBoot d
  let d := (d.modReg Reg.WT_STATUS fun v => setBit v 0).checkpoint
  (List.range Config.nHalfBenches).foldl Dev.shiftCut d

end Sys2Proof.Machine
end

