-- ==== Sys2Proof/Machine/Fault.lean ====
section
/-! DEFINITION. The fault manager's commands (15): FAULT frames, tile recoveries, device recoveries, groups, standby plans, queries. -/

namespace Sys2Proof.Machine

/-! ### FAULT frames (15 Table 15.3) -/

/-- Fields of a FAULT payload. -/
def fCls (fr : RingFrame) : Nat := rdNat fr.payload 0 1
def fAct (fr : RingFrame) : Nat := rdNat fr.payload 1 1
def fSubject (fr : RingFrame) : BitVec 12 := BitVec.ofNat 12 (rdNat fr.payload 2 2)
def fGroup (fr : RingFrame) : Nat := rdNat fr.payload 4 2
def fRecid (fr : RingFrame) : W32 := BitVec.ofNat 32 (rdNat fr.payload 6 4)
def fWhere (fr : RingFrame) : Nat := rdNat fr.payload 10 2
def fRestart (fr : RingFrame) : Nat := rdNat fr.payload 12 1

/-- A FAULT frame under the row of an ACTION: one of a valid class and that ACTION has its effect; one whose CLASS or ACTION is invalid is
forwarded and nothing more is done (log 103). One of the ring class touches no region: the master answers it with a measurement window (13
R314, 15 Table 15.1). -/
def Dev.faultIn (d : Dev) (fr : RingFrame) (action : Nat) (act : Dev → Dev) : Dev :=
  let c := fCls fr
  let valid := decide (fAct fr ≤ 3) && (decide (c = 3) || decide (c = 5) || decide (c = 6) || decide (c = 7))
  if valid = true ∧ fAct fr ≠ action then d
  else d.ringIn ftFAULT fr fr.payload fun d =>
    if valid = false then d
    else if c = 7 then (if d.cicBit 0 && d.cicBit 2 then d.askWindow d.lead20 else d)
    else act d

/-- The cause that a frame names. -/
def fCause (fr : RingFrame) : Cause := ⟨fCls fr, (fSubject fr).toNat, fWhere fr, [fGroup fr]⟩

/-- A recovery that another device's frame names. -/
def Dev.joined (d : Dev) (fr : RingFrame) (stage : RecStage) (status : W16) : Recovery :=
  { recid := fRecid fr, causes := [fCause fr], sites := [], todo := [], moved := [], restored := [], lost := [], restarts := fRestart fr,
    stage := stage, own := false, regions := d.namedBy (fSubject fr) (fGroup fr), parts := [], needParts := [], toLoad := [], status := status,
    relay := false }

/-- The local part of a QUIESCE: its regions are aborted, a plan for the lost device runs, and a recovery without sites of its own here is
done with its part (15 R343, R344, R351). -/
def Dev.localPart (d : Dev) (fr : RingFrame) (rs : List Nat) : Dev :=
  let d := d.abortAll rs
  (if fCls fr = 6 then d.runPlan (fSubject fr).toNat else d).noSites

/-- QUIESCE (15 R343, R356): it opens a recovery of another device here, adds to the one held, or restarts it with a higher RESTART. -/
def Dev.quiesce (d : Dev) (fr : RingFrame) : Dev :=
  let named := d.namedBy (fSubject fr) (fGroup fr)
  let subject := (fSubject fr).toNat
  match d.flt.recov with
  | none => ((d.sawSubject subject (fRecid fr)).setRecov (some (d.joined fr RecStage.quiesced St.OK))).localPart fr named
  | some v =>
    let new := named.filter fun r => !v.regions.contains r
    if v.stage = RecStage.held then d.abortAll new
    else if d.sameRecovery v (fRecid fr) subject then
      let w : Recovery := { v with causes := addCause v.causes (fCause fr), regions := addNew v.regions named }
      let d := d.sawSubject subject v.recid
      if v.recid = fRecid fr ∧ fRestart fr > v.restarts then
        let need := if v.own then addNew v.needParts (addNew [fr.src.toNat] (d.partners (fCls fr) subject [fGroup fr])) else []
        (d.setRecov (some (d.restart { w with restarts := fRestart fr, needParts := need }))).localPart fr w.regions
      else
        let d := (d.setRecov (some w)).abortAll new
        let d := if fCls fr = 6 then d.runPlan subject else d
        if v.own then d else d.partDone (fRecid fr)
    else (d.abortAll new).partDone (fRecid fr)

def execFaultQuiesce (fr : RingFrame) (s : State) : Host.Outcome State Fault Refusal := onDev s fun d => d.faultIn fr 1 fun d => d.quiesce fr

/-- HOLD: the named regions stay in FAULT, and the recovery is held (15 R356). -/
def Dev.faultHold (d : Dev) (fr : RingFrame) : Dev :=
  let named := d.namedBy (fSubject fr) (fGroup fr)
  match d.flt.recov with
  | some v =>
    if d.sameRecovery v (fRecid fr) (fSubject fr).toNat then
      d.setRecov (some { v with stage := RecStage.held, status := St.RECOVERY_ESCALATED, regions := addNew v.regions named })
    else d
  | none => d.setRecov (some (d.joined fr RecStage.held St.RECOVERY_ESCALATED))

def execFaultHold (fr : RingFrame) (s : State) : Host.Outcome State Fault Refusal := onDev s fun d => d.faultIn fr 2 fun d => d.faultHold fr

/-- RELEASE: the named regions that are in FAULT enter STOPPED (15 R344). Regions of a recovery this device still runs wait for its own
end. -/
def Dev.release (d : Dev) (fr : RingFrame) : Dev :=
  let named := d.namedBy (fSubject fr) (fGroup fr)
  let stop (d : Dev) (rs : List Nat) : Dev := rs.foldl (fun d r => if (d.region r).st = .fault then d.enterStopped r else d) d
  match d.flt.recov with
  | some v =>
    if v.own = false ∧ d.sameRecovery v (fRecid fr) (fSubject fr).toNat = true then (stop d named).closeRecovery v
    else stop d (named.filter fun r => !v.regions.contains r)
  | none => stop d named

def execFaultRelease (fr : RingFrame) (s : State) : Host.Outcome State Fault Refusal := onDev s fun d => d.faultIn fr 3 fun d => d.release fr

/-- NOTICE: no region is touched; the master answers one of the ring class with a measurement window (13 R314). -/
def execFaultNotice (fr : RingFrame) (s : State) : Host.Outcome State Fault Refusal :=
  onDev s fun d => d.faultIn fr 0 fun d => d

/-! ### Tile recovery (15 R345) -/

/-- The half-bench of a site. -/
def siteHalf (b col : Nat) : Nat := 2 * b + (if col < 24 then 0 else 1)

/-- The logical tile at a site; none at a skipped site. -/
def Dev.tileAt (d : Dev) (b col : Nat) : Option Nat :=
  let n := siteHalf b col
  (halfTiles n).find? fun t => decide (physCol (fld (d.skip n) 0 6) (t % Config.lcols) = col)

/-- A record of class TILE for a site; the manual names no UNIT for it: a free value (log 40). -/
def Dev.siteRecord (d : Dev) (b col : Nat) (st : W16) : ErrRec :=
  let t? := d.tileAt b col
  { errBase 3 (d.free % 13) st with
    site := BitVec.ofNat 16 (col + 64 * b)
    ltile := match t? with | some t => BitVec.ofNat 16 t | none => 0xFFFF
    region := match t?.bind d.regionOf with | some r => BitVec.ofNat 8 r | none => 0xFF }

/-- TILE_RECOVERY: the fault manager opens the recovery of a site that is judged failed (15 R339, R345 item 1). The status of the record of a merge is not stated: a free value. -/
def Dev.tileRecovery (d : Dev) (b col : Nat) : Dev :=
  match d.tileAt b col with
  | none => d
  | some t =>
    if d.flt.defects.contains t = false then d else
    let rs := match d.regionOf t with | some r => [r] | none => []
    let d := { d with flt := { d.flt with defects := d.flt.defects.filter fun u => decide (u ≠ t) } }
    d.drawn.openRecovery 3 d.id.toNat t [(b, col)] rs false (d.siteRecord b col (BitVec.ofNat 16 d.free))

def execTileRecovery (b col : Nat) (s : State) : Host.Outcome State Fault Refusal :=
  if col < 48 then onUnit Config.benches b s fun d => d.tileRecovery b col else .fault .noSuchUnit

/-- Items 9 and 10 of R345: SHADOW_RESYNC to the devices whose shadow lay in a failed site, then RELEASE once all parts are done. -/
def Dev.recoveryTail (d : Dev) (v : Recovery) : Dev :=
  let srcs := (v.restored.flatMap fun t => (d.tile t).wvl.shFrom).dedup
  let d := srcs.foldl (fun d i => d.emit (.resync i)) d
  ((d.modTiles v.restored fun t => { t with wvl := { t.wvl with shFrom := [] } }).setRecov (some v)).waitParts

/-- Goes on after a site: to the next site, to the loads, or to the end. -/
def Dev.nextSite (d : Dev) (v : Recovery) : Dev :=
  let v : Recovery := { v with todo := v.todo.drop 1 }
  if v.todo.isEmpty = false then d.setRecov (some { v with stage := RecStage.quiesced })
  else if v.toLoad.isEmpty then d.recoveryTail v
  else d.setRecov (some { v with stage := RecStage.reload })

/-- A second site of a half-bench whose spare is used fails: a device recovery that names this device (15 R346). -/
def Dev.spareExhausted (d : Dev) (v : Recovery) (b col : Nat) : Dev :=
  let own := d.id.toNat
  let c : Cause := ⟨6, own, 0, [0]⟩
  let w : Recovery := { v with
    causes := c :: v.causes, todo := [], toLoad := [], regions := addNew v.regions (d.namedBy d.id 0)
    needParts := addNew v.needParts (d.partners 6 own [0]), status := St.SPARE_EXHAUSTED, relay := true }
  let d := d.record { errBase 6 (d.free % 13) St.SPARE_EXHAUSTED with site := BitVec.ofNat 16 (col + 64 * b), action := 3, recid := v.recid }
  let d := ((d.drawn.count Reg.FLT_CNT 0 16 1).faultSend w 1 [c]).sawSubject own v.recid
  ((d.setRecov (some w)).abortAll (d.loaded.filter fun r => !v.regions.contains r)).waitParts

/-- The failed site's column becomes the skipped column of its half-bench (15 R345 items 3 and 4). -/
def Dev.remap (d : Dev) (v : Recovery) (n col t : Nat) : Dev :=
  let s := fld (d.skip n) 0 6
  let moved := (halfTiles n).filter fun u => decide (physCol s (u % Config.lcols) ≠ physCol col (u % Config.lcols))
  let shown := (moved.filterMap d.regionOf).dedup
  let groups := d.groupsOf shown
  let rs := addNew shown ((groups.flatMap fun g => d.namedBy d.id g).dedup)
  let new : Cause := ⟨3, d.id.toNat, t, groups.filter fun g => !v.groups.contains g⟩
  let w : Recovery := { v with
    causes := addCause v.causes { new with groups := groups }, moved := addNew v.moved moved, restored := addNew v.restored [t]
    regions := addNew v.regions rs, needParts := addNew v.needParts (d.partners 3 d.id.toNat groups), toLoad := addNew v.toLoad shown
    stage := RecStage.empty }
  let d := d.faultSend w 1 [new]
  let d := { d with aon := { d.aon with skip := SMap.set skipDefault d.aon.skip n (BitVec.ofNat 8 (col + 64 + 128)) } }
  (d.setRecov (some w)).abortAll (rs.filter fun r => !v.regions.contains r)

/-- BIST_COMPLETE: the scan BIST of the first site to test ends (15 R345 items 2 to 4). -/
def Dev.bistComplete (d : Dev) (pass : Bool) : Dev :=
  match d.flt.recov with
  | none => d
  | some v =>
    match v.todo with
    | [] => d
    | (b, col) :: _ =>
      if v.stage ≠ RecStage.quiesced then d
      else
        let n := siteHalf b col
        match d.tileAt b col with
        | none => d.setRecov (some { v with stage := RecStage.empty })
        | some t =>
          let r? := d.regionOf t
          if pass then
            let d := match r? with | some r => d.rebuildFt r [t] | none => d
            d.nextSite { v with toLoad := addNew v.toLoad (match r? with | some r => [r] | none => []) }
          else
            let d := (d.record { d.siteRecord b col St.SITE_FAILED with action := 3, recid := v.recid }).drawn
            if bit (d.skip n) 6 then d.spareExhausted v b col
            else if bit (d.reg Reg.FLT_CTL) 16 = false then
              d.nextSite { v with status := St.SITE_FAILED, regions := v.regions.filter fun r => decide (r? ≠ some r) }
            else d.remap v n col t

def execBistComplete (pass : Bool) (s : State) : Host.Outcome State Fault Refusal := onDev s fun d => d.bistComplete pass

/-- The failed tile's arena and directories (15 R345 item 6, R348): from the buddy's shadow area, or lost. Arena bytes that are not
restored are free values (log 14). -/
def Dev.restoreTile (d : Dev) (r t : Nat) (sh : Option ShadowCopy) : Dev :=
  let x := d.tile t
  let on := bit (x.reg Reg.WVL_SHADOW) 0
  let last := (d.reg (Reg.SRV_LAST + 8 * r)).toNat
  match (if on then sh else none) with
  | some c =>
    let d := d.modTile t fun x => x.restoreFrom c.data c.step.toNat c.step.toNat
    if c.step.toNat < last then d.loseSlots r (d.slotsOn r t) else d
  | none =>
    let seed := d.ctr
    let lost := d.slotsOn r t
    let d := d.modTile t fun x =>
      (x.spadWrite (64 * x.kvBase) ((List.range (4096 * x.kvFrames)).map fun i => BitVec.ofNat 8 (Config.freeAt seed i))).spadWrite
        (64 * x.dirBase) (List.replicate x.dirBytes 0)
    d.drawn.loseSlots r lost

/-- No flit is left inside half-bench `n` and on its vertical links (15 R345 item 5). -/
def Dev.halfClear (d : Dev) (n : Nat) : Bool :=
  let ts := halfTiles n
  let from_ (e : Flight) : Bool := match neighbour e.node (dirPort e.inp) with
    | some u => decide (e.inp < 4) && e.outs.isNone && ts.contains u.1 && decide (e.inp % 2 = 0)
    | none => false
  let inside (e : Flight) : Bool := decide (e.node < Config.nTiles) && ((ts.contains e.node && (decide (e.inp < 4) || e.outs.isSome)) || from_ e)
  !(d.flying.any inside) && ts.all fun t => (d.tile t).localIn.isEmpty

/-- HALF_BENCH_EMPTY: no flit is left in the half-bench; the muxes are set, arenas move with their tiles, the failed tile is restored,
and frame tables are rebuilt (15 R345 items 5 and 6). `sh` is what the buddy delivers. -/
def Dev.halfBenchEmpty (d : Dev) (sh : Option ShadowCopy) : Dev :=
  match d.flt.recov with
  | none => d
  | some v =>
    if v.stage ≠ RecStage.empty ∨ (match v.todo with | s :: _ => d.halfClear (siteHalf s.1 s.2) | [] => true) = false then d
    else
      let d := match v.restored.getLast? with
        | some t => (match d.regionOf t with | some r => d.restoreTile r t sh | none => d)
        | none => d
      let d := v.moved.foldl (fun d t =>
        match d.regionOf t with
        | some r => (d.rebuildFt r [t]).modTile t fun x => x.ptlbDrop fun _ => true
        | none => d) d
      match d.flt.recov with
      | some v => d.setRecov (some { v with stage := RecStage.slices })
      | none => d

def execHalfBenchEmpty (sh : Option ShadowCopy) (s : State) : Host.Outcome State Fault Refusal := onDev s fun d => d.halfBenchEmpty sh

/-- A slice that could not be copied: its image data is not in the new slice, where every page reads as one never programmed until the host
repairs it; no page is replaced; extent 15 is rebuilt from what the device holds (07 R197). -/
def Dev.loseSlice (d : Dev) (t : Nat) : Dev :=
  d.modWt fun w => (({ w with data := w.data.filter fun e => decide (e.1 / 2 ^ 30 ≠ t) } : WTier).setRemap t fun r => r.filter fun e => decide (e.1 ≠ t)).writeHdr t

/-- SLICE_SHIFT_DONE: the slices of the moved tiles are rebuilt, and the remap table reads DONE. `clean` says that the failed site's
slice read cleanly; otherwise the host repairs its shards (07 R197, 15 R345 item 7). -/
def Dev.sliceShiftDone (d : Dev) (clean : Bool) : Dev :=
  match d.flt.recov with
  | none => d
  | some v =>
    match v.todo with
    | [] => d
    | (b, col) :: _ =>
      if v.stage ≠ RecStage.slices then d
      else
        let n := siteHalf b col
        let d := { d with aon := { d.aon with skip := SMap.set skipDefault d.aon.skip n (clrBit (d.skip n) 7) } }
        let d := match v.restored.getLast? with | some t => if clean then d else (d.badSlice t).loseSlice t | none => d
        let d := d.modWt fun w => { w with weak := w.weak.filter fun e => !(v.moved.contains (e.1 / 2 ^ 20)) }
        let d := v.moved.foldl Dev.copyBack d
        d.nextSite v

def execSliceShiftDone (clean : Bool) (s : State) : Host.Outcome State Fault Refusal := onDev s fun d => d.sliceShiftDone clean

/-- RECOVERY_LOAD: a region is loaded again from its stored parameters; `q` carries what the DMA read of the image delivers (15 R345
item 8). A load that fails leaves the region in FAULT. -/
def Dev.recoveryLoad (d : Dev) (r : Nat) (q : LoadReq) : Dev :=
  match d.flt.recov, (d.region r).load with
  | some v, some l =>
    if v.toLoad.contains r = false ∨ (v.stage ≠ RecStage.slices ∧ v.stage ≠ RecStage.reload) then d
    else
      match d.loadImage { l with image := q.image, dmaFail := q.dmaFail } true with
      | (d, st) =>
        let w : Recovery := { v with toLoad := v.toLoad.filter fun k => decide (k ≠ r) }
        let w : Recovery := if st = St.OK then w else { w with status := St.LOAD_FAILED, regions := w.regions.filter fun k => decide (k ≠ r) }
        if w.toLoad.isEmpty ∧ w.stage = RecStage.reload then d.recoveryTail w else d.setRecov (some w)
  | _, _ => d

def execRecoveryLoad (r : Nat) (q : LoadReq) (s : State) : Host.Outcome State Fault Refusal := onRegion r s fun d => d.recoveryLoad r q

/-- SHADOW_RESYNC: the tiles that shadow to `src` send whole arenas and directories after their next boundary (15 R345 item 9). -/
def execShadowResync (src : BitVec 12) (s : State) : Host.Outcome State Fault Refusal :=
  onDev s fun d => d.tiles.foldl (fun d e => d.modTile e.1 fun x =>
    let c := x.reg Reg.WVL_SHADOW
    if bit c 0 ∧ fld c 4 12 = src.toNat then { x with wvl := { x.wvl with shWhole := true } } else x) d

/-- LOCAL_PART_DONE: another device has finished its part (15 R344). -/
def execLocalPartDone (dev : BitVec 12) (recid : W32) (s : State) : Host.Outcome State Fault Refusal :=
  onDev s fun d =>
    match d.flt.recov with
    | some v => if v.own ∧ v.recid = recid then (d.setRecov (some { v with parts := addNew v.parts [dev.toNat] })).tryRelease else d
    | none => d

/-! ### Device recovery (15 R350, R352) -/

/-- Ports whose FLT_PEER names a device. -/
def Dev.peerPorts (d : Dev) (dev : BitVec 12) : List Nat :=
  (List.range Config.nPorts).filter fun p =>
    let v := d.reg (Reg.FLT_PEER + 8 * p)
    bit v 12 && decide (fld v 0 12 = dev.toNat)

/-- FLT_CTL.DLOSS in ns. -/
def Dev.dloss (d : Dev) : Nat := 1000000 * cnt0 (fld (d.reg Reg.FLT_CTL) 0 16) 5

/-- Every port to a device has been DOWN for FLT_CTL.DLOSS. -/
def Dev.peerDown (d : Dev) (dev : BitVec 12) : Bool :=
  (d.peerPorts dev).all fun p => decide (d.portState p = 4) && decide ((d.port p).downAt + d.dloss ≤ d.elapsed)

/-- DEVICE_LOSS: every port to a device has been DOWN for FLT_CTL.DLOSS (15 R350). -/
def Dev.deviceLoss (d : Dev) (dev : BitVec 12) : Dev :=
  if (d.peerPorts dev).isEmpty ∨ d.peerDown dev = false then d
  else
    let known := match d.flt.recov with
      | some v => v.causes.any fun c => decide (c.cls = 6) && decide (c.subject = dev.toNat)
      | none => false
    if known then d
    else
      let d := d.openRecovery 6 dev.toNat 0 [] [] true { errBase 6 6 St.DEVICE_LOST with detail := dev.toNat }
      match d.flt.recov with
      | some v => if v.stage = RecStage.quiesced then ((d.ringNotice dev v.recid).runPlan dev.toNat).noSites else d
      | none => d

def execDeviceLoss (dev : BitVec 12) (s : State) : Host.Outcome State Fault Refusal := onDev s fun d => d.deviceLoss dev

/-- RING_KEEPALIVE_LAPSE: JOINED is cleared and the bypass closes (15 R352). -/
def execRingKeepaliveLapse (s : State) : Host.Outcome State Fault Refusal := onDev s Dev.closeBypass

/-! ### Commands (15 R358) -/

/-- FLT_GROUP. Group 0 is no group: COMMAND_INVALID (log 32). -/
def Dev.fltGroupCmd (d : Dev) (m g plen : Nat) (members : BitVec 4096) : Dev :=
  if g = 0 then d.reply m St.COMMAND_INVALID
  else if plen ≠ 512 then d.reply m St.LENGTH_EXCEEDS
  else if (List.range Config.nRegions).any fun r => decide (d.fltGroupOf r = g) && decide ((d.region r).st = .running) then d.reply m St.REGION_STATE
  else ({ d with flt := { d.flt with groups := SMap.set (fun _ => (0 : BitVec 4096)) d.flt.groups g members } } : Dev).reply m St.OK

def execFltGroup (m : Nat) (g : BitVec 16) (plen : Nat) (members : BitVec 4096) (s : State) : Host.Outcome State Fault Refusal :=
  onHostM m 0x0502 (groupFits plen members) s fun d => d.fltGroupCmd m g.toNat plen members

/-- STANDBY_ARM. -/
def execStandbyArm (m : Nat) (dev : BitVec 12) (acts : List PlanAct) (s : State) : Host.Outcome State Fault Refusal :=
  onHost m 0x0503 s fun d =>
    if acts.isEmpty ∨ acts.length > 8 then d.reply m St.LENGTH_EXCEEDS
    else if d.flt.plans.any fun p => decide (p.1 = dev) then d.reply m St.REGION_STATE
    else ({ d with flt := { d.flt with plans := d.flt.plans ++ [(dev, acts)] } } : Dev).reply m St.OK

/-- STANDBY_DISARM. -/
def execStandbyDisarm (m : Nat) (dev : BitVec 12) (s : State) : Host.Outcome State Fault Refusal :=
  onHost m 0x0504 s fun d =>
    if d.flt.plans.any fun p => decide (p.1 = dev) then
      ({ d with flt := { d.flt with plans := d.flt.plans.filter fun p => decide (p.1 ≠ dev) } } : Dev).reply m St.OK
    else d.reply m St.REGION_STATE

/-- The reports held, the open recovery's last. -/
def Dev.allReports (d : Dev) : List Report :=
  d.flt.reports ++ match d.flt.recov with
  | some v => [⟨v.recid, v.status, v.lost⟩]
  | none => []

/-- FLT_QUERY: a report and a range of records; the places of the report's fields in the reply are the model's (log 30). -/
def Dev.fltQuery (d : Dev) (m : Nat) (recid : W32) (first : W64) (count : Nat) : Dev :=
  let rep : Option Report := if recid = 0 then d.allReports.getLast? else d.allReports.find? fun x => decide (x.recid = recid)
  let recs := (d.flt.recs.filter fun e => decide (first.toNat ≤ e.rseq.toNat) && decide (e.rseq.toNat < first.toNat + count)).map ErrRec.bytes
  let answer (x : Report) : Dev :=
    d.replyItems m [x.recid, BitVec.ofNat 32 (x.status.toNat + 2 ^ 16 * x.lost.length), BitVec.ofNat 32 recs.length] (x.lost.map (leBytes 2) ++ recs)
  match rep with
  | some x => answer x
  | none => if recid = 0 then answer ⟨0, St.OK, []⟩ else d.reply m St.IMAGE_UNKNOWN

def execFltQuery (m : Nat) (recid : W32) (first : W64) (count : Nat) (s : State) : Host.Outcome State Fault Refusal :=
  onHost m 0x0702 s fun d => d.fltQuery m recid first count

end Sys2Proof.Machine
end

