-- ==== Sys2Proof/Machine/Power.lean ====
section
/-! DEFINITION. Power (14): the voltage loop, the ledger's counters, windows and budgets, capping, the thermal monitor, burst-off,
and the profiles of the profile store (14 R337, 17 R396 to R399). -/

namespace Sys2Proof.Machine

/-! ### The voltage loop (14 R325, R326) -/

/-- AVS_LOOP: rail `n` with the least slack of its region, every 10 µs. It resumes when a rail that a switch moves is there. -/
def Dev.avsLoop (d : Dev) (n slack : Nat) : Dev :=
  if d.pwr.slewTo.any fun e => decide (e.1 = n) then d else
  let a := Reg.PWR_VCORE + 8 * n
  let v := fld (d.reg a) 0 8
  let target := fld (d.reg Reg.PWR_AVS) 0 8
  let hyst := fld (d.reg Reg.PWR_AVS) 8 8
  let low := SMap.get (fun _ => (0 : Nat)) d.pwr.lowUs n
  let held := SMap.get (fun _ => (0 : Nat)) d.pwr.held n
  let put (low held : Nat) : Dev :=
    { d with pwr := { d.pwr with lowUs := SMap.set (fun _ => 0) d.pwr.lowUs n low, held := SMap.set (fun _ => 0) d.pwr.held n held } }
  let keep (low : Nat) : Dev :=
    let d := put low (held + 10)
    if held + 10 ≥ 1000 then { d with pwr := { d.pwr with recV := (64 * n + d.freqCode, v) :: d.pwr.recV.filter fun e => decide (e.1 ≠ 64 * n + d.freqCode) } } else d
  if slack < target then
    if v < 140 then (put 0 0).setReg a (BitVec.ofNat 64 (v + 1))
    else if low + 10 ≥ 1000 then
      ((keep 0).modReg Reg.PWR_ERR fun e => setBit e 2).record { errBase 8 9 St.AVS_LIMIT with detail := n }
    else keep (low + 10)
  else if slack > target + hyst ∧ v > 0 then (put 0 0).setReg a (BitVec.ofNat 64 (v - 1))
  else keep 0

def execAvsLoop (n slack : Nat) (s : State) : Host.Outcome State Fault Refusal := onUnit Config.nHalfBenches n s fun d => d.avsLoop n slack

/-! ### The ledger (14 R327) -/

/-- A share of rail energy `e` for one tile: its activity over the activity of all that share the rail. -/
def railShare (e a total : Nat) : Rat := if total = 0 then 0 else (e : Rat) * (a : Rat) / (total : Rat)

/-- Rail output energy of tile `x` in a period. -/
def tileEnergy (s : EnergySample) (x : TileActivity) : Rat :=
  let rail (k : Nat) : Nat := s.rails.getD k 0
  let h := halfOf x.t
  let half := (s.tiles.filter fun y => decide (halfOf y.t = h)).foldl (fun n y => n + y.act) 0
  railShare (rail h) x.act half + railShare (rail 48) x.bank (s.tiles.foldl (fun n y => n + y.bank) 0) +
  railShare (rail 49) x.wt (s.tiles.foldl (fun n y => n + y.wt) 0)

/-- Adds to a counter that never wraps (00 R6). -/
def Dev.addMicro (d : Dev) (a n : Nat) : Dev := d.modReg a fun v => addCnt v 0 64 n

/-- REGION_ENERGY_UPDATE: the counters after 10 µs. A fraction of a µJ is rounded down or up: a free value (log 48). -/
def Dev.energyUpdate (d : Dev) (s : EnergySample) : Dev :=
  let out : Nat := s.rails.foldl (fun a b => a + b) 0
  let d := d.addMicro Reg.PWR_DEVE s.vin
  let d := { d with pwr := { d.pwr with uDev := d.pwr.uDev + s.vin } }
  let d := (List.range 54).foldl (fun d k => d.addMicro (Reg.PWR_RAILE + 8 * k) (s.rails.getD k 0)) d
  d.loaded.foldl (fun d r =>
    let x := d.region r
    let e : Rat := (s.tiles.filter fun y => x.holds y.t).foldl (fun n y => n + tileEnergy s y) 0
    let q : Rat := if out = 0 then 0 else e * (s.vin : Rat) / (out : Rat)
    let n := q.floor.toNat + (if q.den = 1 then 0 else d.free % 2)
    let u := SMap.get (fun _ => (0 : Nat)) d.pwr.uReg r
    ({ d with pwr := { d.pwr with uReg := SMap.set (fun _ => 0) d.pwr.uReg r (u + n) } } : Dev).drawn.addMicro (Reg.PWR_REGE + 8 * r) n) d

def execRegionEnergyUpdate (e : EnergySample) (s : State) : Host.Outcome State Fault Refusal := onDev s fun d => d.energyUpdate e

/-! ### Windows (14 R328, R330 to R332) -/

/-- A waiting step at a window boundary (14 R331). -/
def Dev.recheck (d : Dev) (r : Nat) : Dev :=
  let x := d.region r
  match x.adm with
  | some a =>
    if a.waiting then
      let d := d.count Reg.PWR_CNT 16 16 1
      let e := min a.inp.energy.toNat d.bDev
      if d.energyFits r e then (d.setRegion r { x with adm := some { a with est := e } }).admitDone r else d
    else d
  | none => d

/-- The waiting steps are checked against the new window, in the order they asked. -/
def Dev.recheckAll (d : Dev) : Dev :=
  let q := d.pwr.waitQ
  let d := q.foldl Dev.recheck { d with pwr := { d.pwr with recheck := false } }
  { d with pwr := { d.pwr with waitQ := q.filter fun r => match (d.region r).adm with | some a => a.waiting | none => false } }

/-- ENERGY_WINDOW_BOUNDARY: a window whose end has come is over, and the waiting steps are checked against the one that began. -/
def Dev.windowBoundary (d : Dev) : Dev :=
  let d := d.windowNow
  if d.pwr.recheck then d.recheckAll else d

def execEnergyWindowBoundary (s : State) : Host.Outcome State Fault Refusal := onDev s fun d => d.windowBoundary

/-- PWR_WIN_WRITE: a legal length waits for the next synchronised count (14 R329). -/
def Dev.pwrWinWrite (d : Dev) (v : W64) : Dev :=
  let w := fld v 0 17
  if w = 0 ∨ (100 ≤ w ∧ w ≤ 100000) then { d with pwr := { d.pwr with pend := { d.pwr.pend with win := some (w, d.nextSync) } } }
  else d.modReg Reg.PWR_ERR fun e => setBit e 0

def execPwrWinWrite (v : W64) (s : State) : Host.Outcome State Fault Refusal := onDev s fun d => d.pwrWinWrite v

/-- Sum of the region budgets, with `b` for region `r`. -/
def Dev.budgetSum (d : Dev) (r b : Nat) : Nat :=
  (List.range Config.nRegions).foldl (fun s q => s + if q = r then b else fld (d.reg (Reg.PWR_REGCFG + 8 * q)) 0 40) 0

/-- PWR_BUDGET_WRITE (14 R328): PWR_LIMIT, whose LIMIT waits for the next synchronised count, or PWR_REGCFGr. A write that gives one
field a value its table refuses changes none (00 R7). -/
def Dev.pwrBudgetWrite (d : Dev) (a : Nat) (v : W64) : Dev :=
  if a = Reg.PWR_LIMIT then
    let l := fld v 0 12
    let cap := fld (d.reg Reg.PWR_LIMIT) 16 12
    if l = 0 ∨ cap < l ∨ 28 < fld v 28 6 then d
    else if d.budgetSum Config.nRegions 0 > l * d.winUs then d.modReg Reg.PWR_ERR fun e => setBit e 1
    else
      let d := { d with pwr := { d.pwr with pend := { d.pwr.pend with limit := some (l, d.nextSync) } } }
      d.modReg Reg.PWR_LIMIT fun x => setFld x 28 6 (fld v 28 6)
  else if Reg.PWR_REGCFG ≤ a ∧ a < Reg.PWR_REGCFG + 8 * Config.nRegions ∧ a % 8 = 0 then
    let r := (a - Reg.PWR_REGCFG) / 8
    if d.budgetSum r (fld v 0 40) > d.limitW * d.winUs then d.modReg Reg.PWR_ERR fun e => setBit e 1
    else d.setReg a (v &&& 0x1FFFFFFFFFF)
  else d

def execPwrBudgetWrite (a : Nat) (v : W64) (s : State) : Host.Outcome State Fault Refusal := onDev s fun d => d.pwrBudgetWrite a v

/-! ### Profiles (14 R337, 17 R396, R398) -/

/-- The fields of profile `p` in force; a profile without a valid copy is not used. -/
def Dev.profile (d : Dev) (p : Nat) : Option ProfRec := if p < 4 then (storeItem d.aon.store p).best.map ProfRec.ofRec else none

/-- The LIVE power fields of a profile are in force: those with a register go there, but for CODE. -/
def Dev.liveFields (d : Dev) (q : ProfRec) : Dev :=
  let d := { d with pwr := { d.pwr with live := q } }
  let d := d.modReg Reg.PWR_LIMIT fun v => setFld (setFld (setFld v 0 12 q.limit) 16 12 q.cap) 28 6 q.slow
  d.modReg Reg.PWR_TEMP fun v => setFld v 0 8 q.twarn

/-- A pending change whose synchronised count has come. -/
def due {α : Type} (now : Nat) (p : Option (α × Nat)) : Option (α × Nat) :=
  match p with
  | some (a, t) => if t ≤ now then some (a, t) else none
  | none => none

/-- A new window length from the synchronised count `t` on: it cuts the running window short (14 R329). -/
def Dev.applyWin (d : Dev) (w t : Nat) : Dev :=
  let b := d.bDev
  let ends := decide (d.pwr.winAt ≠ t)
  let d := { d with pwr := { d.pwr with pend := { d.pwr.pend with win := none } } }
  let d := (d.setReg Reg.PWR_WIN (BitVec.ofNat 64 w)).setReg Reg.PWR_WINBASE (BitVec.ofNat 64 t)
  if ends then (d.rollWindow b t).recheckAll else d

/-- A selected profile's LIVE fields (17 R398). BURSTOFF ends with the profile that caused it. -/
def Dev.applyProfile (d : Dev) (p : Nat) : Dev :=
  let d := { d with pwr := { d.pwr with pend := { d.pwr.pend with prof := none, limit := none, burstOff := none, burstOn := none } } }
  let d := d.modReg Reg.PWR_STATUS fun v => setFld (clrBit v 3) 0 2 p
  match d.profile p with
  | some q => d.liveFields q
  | none => d

/-- BURSTOFF: LIMIT becomes 1,600 W (14 R335). -/
def Dev.applyBurstOff (d : Dev) : Dev :=
  let d := { d with pwr := { d.pwr with pend := { d.pwr.pend with burstOff := none } } }
  (d.modReg Reg.PWR_STATUS fun v => setBit v 3).modReg Reg.PWR_LIMIT fun v => setFld v 0 12 1600

/-- The profile's values return (14 R335). -/
def Dev.applyBurstOn (d : Dev) : Dev :=
  let d := { d with pwr := { d.pwr with pend := { d.pwr.pend with burstOn := none } } }
  (d.modReg Reg.PWR_STATUS fun v => clrBit v 3).modReg Reg.PWR_LIMIT fun v => setFld v 0 12 d.pwr.live.limit

/-- LIMIT written by the host takes effect. -/
def Dev.applyLimit (d : Dev) (l : Nat) : Dev :=
  let d := { d with pwr := { d.pwr with pend := { d.pwr.pend with limit := none } } }
  d.modReg Reg.PWR_LIMIT fun v => setFld v 0 12 l

/-- SYNCHRONISED_COUNT (14 R329): the changes whose synchronised count has come take effect, those of burst-off as the profile change leaves
them. -/
def Dev.syncCount (d : Dev) : Dev :=
  let p := d.pwr.pend
  let d := match due d.now p.win with | some w => d.applyWin w.1 w.2 | none => d
  let d := match due d.now p.limit with | some l => d.applyLimit l.1 | none => d
  let d := match due d.now p.prof with | some q => d.applyProfile q.1 | none => d
  let d := match d.pwr.pend.burstOff with | some t => if t ≤ d.now then d.applyBurstOff else d | none => d
  match d.pwr.pend.burstOn with | some t => if t ≤ d.now then d.applyBurstOn else d | none => d

def execSynchronisedCount (s : State) : Host.Outcome State Fault Refusal := onDev s fun d => d.syncCount

/-- Whether the fields of a record lie inside 17 Table 17.5. -/
def profOk (q : ProfRec) : Bool :=
  decide (100 ≤ q.limit) && decide (q.limit ≤ 1850) && decide (q.limit ≤ q.cap) && decide (q.cap ≤ 1850) && decide (q.code ≤ 28) &&
  decide (q.slow ≤ 28) && decide (60 ≤ q.twarn) && decide (q.twarn ≤ 105) && decide (30 ≤ q.lidmax) && decide (q.lidmax ≤ 60)

/-- Writes the override record; the one committed later applies (17 R397, R399). -/
def Dev.setOverride (d : Dev) (sel : Byte) : Dev :=
  { d with aon := { d.aon with store := storePut d.aon.store 4 (leBytes 9 0 ++ [sel] ++ leBytes 10 0) } }

/-- SEL of the override record in force. -/
def Dev.override (d : Dev) : Option Byte := (storeItem d.aon.store 4).best.map profSel

/-- SELECT: LIVE fields of profile `p` at the next synchronised count, its CODE by a device-scope switch at that count. -/
def Dev.selectProfile (d : Dev) (p : Nat) : Dev :=
  let t := d.nextSync
  let d := { d with pwr := { d.pwr with pend := { d.pwr.pend with prof := some (p, t) } } }
  match d.profile p with
  | some q => if q.code = d.freqCode then d else d.armFsw t q.code .power
  | none => d

/-- SET_PROFILE (17 R398). -/
def Dev.setProfile (d : Dev) (m : Nat) (q : ProfileReq) : Dev :=
  let p := q.profile.toNat
  if p > 3 ∨ (q.write = true ∧ (profOk q.prof = false ∨ p = 3)) ∨ (q.select = true ∧ q.sel.toNat > 3 ∧ q.sel ≠ 0xFF) then d.reply m St.PROFILE_INVALID
  else
    let d := if q.write then { d with aon := { d.aon with store := storePut d.aon.store p (ProfRec.fields q.prof 0) } } else d
    let d := if q.select then (d.setOverride q.sel).selectProfile p else d
    d.reply m St.OK

def execSetProfile (m : Nat) (q : ProfileReq) (s : State) : Host.Outcome State Fault Refusal :=
  onHostM m 0x0600 (ProfileReq.fits q) s fun d => d.setProfile m q

/-- PROFILE_QUERY (17 R398): the four profiles, the override, PSRC; their places in the reply are the model's (log 30). -/
def execProfileQuery (m : Nat) (s : State) : Host.Outcome State Fault Refusal :=
  onHost m 0x0601 s fun d =>
    let item (k n : Nat) : List Byte := slice ((storeItem d.aon.store k).best.getD profBlank) 0 n
    let sel : Byte := d.override.getD 0xFF
    d.replyFull m St.OK 0 [] ((List.range 4).flatMap (fun k => item k 14) ++ item 4 4 ++ [sel] ++ leBytes 1 (fld (d.reg Reg.HOST_STATUS) 3 2))

/-! ### Capping and temperature (14 R333 to R335) -/

/-- POWER_GUARD: the average of 20 µs. -/
def Dev.powerGuard (d : Dev) (avg : Nat) : Dev :=
  let cap := fld (d.reg Reg.PWR_LIMIT) 16 12
  let capping := bit (d.reg Reg.PWR_STATUS) 2
  let on := decide (avg > cap) || capping
  let d := if capping then d.count Reg.PWR_CNT 48 16 1 else d
  let quiet := if capping && decide (100 * avg < 95 * cap) then d.pwr.capQuiet + 20 else 0
  let stop := decide (quiet ≥ 100)
  let d := { d with
    pwr := { d.pwr with capQuiet := if stop then 0 else quiet }
    aon := { d.aon with vinHist := (avg :: d.aon.vinHist).take 50 } }
  d.modReg Reg.PWR_STATUS fun v => putBit v 2 (on && !stop)

def execPowerGuard (avg : Nat) (s : State) : Host.Outcome State Fault Refusal := onDev s fun d => d.powerGuard avg

/-- Every loaded region enters FAULT, its step ended without commit or rerun (14 R334). -/
def Dev.tripRegion (d : Dev) (r : Nat) : Dev :=
  if (d.region r).adm.isSome then d.stepFail r else d.toFault r

/-- Whether a logical tile lies in the East half. -/
def eastTile (t : Nat) : Bool := decide (t % Config.lcols ≥ 23)

/-- Stops the clocks of every tile, or starts those of a half that SEAM_FAULT does not hold (16 R369). -/
def Dev.clocks (d : Dev) (stop : Bool) : Dev :=
  (List.range Config.nTiles).foldl (fun d t => d.modTile t fun x => { x with stopped := stop || d.seamF (eastTile t) }) d

/-- THERM_N is released once the hottest junction is below 100 °C and TRIP is clear; the tiles' clocks run again then (log 49). -/
def Dev.thermRelease (d : Dev) : Dev :=
  if d.aon.thermN = true ∧ d.aon.trip = false ∧ (d.aon.tj.all fun t => decide (t < 100)) = true then
    ({ d with aon := { d.aon with thermN := false } } : Dev).clocks false
  else d

/-- ALERT_N is asserted (17 R401). -/
def Dev.alert (d : Dev) : Dev := { d with aon := { d.aon with alertN := true } }

/-- The trip at 110 °C (14 R334). -/
def Dev.thermTrip (d : Dev) : Dev :=
  if d.aon.thermN ∧ d.aon.trip = true then d
  else
    let d := ({ d with aon := { d.aon with thermN := true, trip := true } } : Dev).modReg Reg.PWR_ERR fun e => setBit e 4
    let d := d.loaded.foldl Dev.tripRegion d
    ((d.record { errBase 2 9 St.THERMAL_TRIP with action := 2 }).clocks true).alert

/-- The warning of region `n` (14 R334). -/
def Dev.thermWarn (d : Dev) (n tj : Nat) : Dev :=
  let tw := fld (d.reg Reg.PWR_TEMP) 0 8
  if tj ≥ tw then
    let d := if bit (d.reg Reg.PWR_ERR) 3 then d else d.alert
    ({ d with pwr := { d.pwr with stretch := if n ∈ d.pwr.stretch then d.pwr.stretch else d.pwr.stretch ++ [n] } } : Dev).modReg Reg.PWR_ERR fun e => setBit e 3
  else if tj + 5 ≤ tw then { d with pwr := { d.pwr with stretch := d.pwr.stretch.filter fun k => decide (k ≠ n) } }
  else d

/-- Burst-off under profile 2 (14 R335); the monitor runs every 10 µs. -/
def Dev.burst (d : Dev) (tcase : Nat) : Dev :=
  let st := d.reg Reg.PWR_STATUS
  let q := d.pwr.live
  let cool := if tcase + 3 ≤ q.lidmax then d.pwr.caseCool + 10 else 0
  let d := { d with pwr := { d.pwr with caseCool := cool } }
  if bit st 3 then
    if cool ≥ 1000000 ∧ d.pwr.pend.burstOn = none then
      ({ d with pwr := { d.pwr with pend := { d.pwr.pend with burstOn := some d.nextSync } } } : Dev).armFsw d.nextSync q.code .power
    else d
  else if fld st 0 2 = 2 ∧ tcase > q.lidmax ∧ d.pwr.pend.burstOff = none then
    ({ d with pwr := { d.pwr with pend := { d.pwr.pend with burstOff := some d.nextSync } } } : Dev).armFsw d.nextSync 18 .power
  else d

/-- THERMAL_MONITOR: junction temperatures of the 48 regions and the case temperature, in °C. -/
def Dev.thermal (d : Dev) (tj : List Nat) (tcase : Nat) : Dev :=
  let hot := tj.foldl max 0
  let d := { d with aon := { d.aon with tj := tj, tcase := tcase } }
  let d := d.modReg Reg.PWR_STATUS fun v => setFld (setFld v 16 8 hot) 24 8 tcase
  let d := (tj.zipIdx).foldl (fun d e => d.thermWarn e.2 e.1) d
  let d := if hot ≥ 110 then d.thermTrip else d.thermRelease
  d.burst tcase

def execThermalMonitor (tj : List Nat) (tcase : Nat) (s : State) : Host.Outcome State Fault Refusal := onDev s fun d => d.thermal tj tcase

end Sys2Proof.Machine
end

