-- ==== Sys2Proof/Machine/Weight.lean ====
section
/-! DEFINITION. The weight-tier commands (07): refresh, the journal, images, the haul, scrub, layer swap, adapter slots. -/

namespace Sys2Proof.Machine

/-- An image-family command: it waits until replay is complete (16 R377, 07 R175). -/
def onHostJ (m op : Nat) (s : State) (f : Dev → Dev) : Host.Outcome State Fault Refusal :=
  onUnit Config.nMailboxes m s fun d => if d.accepts m op (fun _ => true) && d.jReady then f (d.begin_ m) else d

/-! ### Refresh (07 R163, R164) -/

/-- The lowest free page of the replacement pool of slice `t`. -/
def WTier.poolPage (w : WTier) (t : Nat) : Option Nat :=
  let used := (w.remap.filter fun e => decide (e.1 = t)).map (·.2.2)
  ((List.range 8192).find? fun i => !used.contains (15 * 16384 + 8192 + i)).map fun i => 15 * 16384 + 8192 + i

/-- WT_PAGE_REFRESH: the corrected data goes to a pool page, then the remap table names it; with no free page POOL. A page that has become
uncorrectable is not refreshed. -/
def Dev.refreshPage (d : Dev) : Dev :=
  match d.wt.refreshQ with
  | [] => d
  | (t, page) :: rest =>
    let d := d.modWt fun w => { w with refreshQ := rest }
    if d.wt.readable t (page * 4096) 4096 = false then d.uncorrectable t page
    else match d.wt.poolPage t with
    | some pp =>
      let bs := d.wt.bytes t (page * 4096) 4096
      (d.modWt fun w =>
        let w : WTier := { w with data := w.data.writeN (t * 2 ^ 30 + pp * 4096) bs, weak := w.weak.filter fun e => decide (e.1 / 4 ≠ t * 2 ^ 18 + pp) }
        w.setRemap t fun r => (r.filter fun e => !(decide (e.1 = t) && decide (e.2.1 = page))) ++ [(t, page, pp)]).count Reg.WT_REFRESH 0 64 1
    | none =>
      (d.modReg Reg.WT_ERR fun v => setBit v 3).record { errBase 4 7 St.NO_SPACE with
        site := d.siteOf t, ltile := BitVec.ofNat 16 t, detail := page }

def execWtPageRefresh (s : State) : Host.Outcome State Fault Refusal := onDev s Dev.refreshPage

/-! ### The journal (07 R172 to R175) -/

/-- The authority programs journal pages (16 R367). -/
def execJournalCommit (fail : BitVec 4) (s : State) : Host.Outcome State Fault Refusal :=
  onDev s fun d => if d.jReady && d.authority then d.commitRecord fail else d

/-- JOURNAL_REPLAY starts with PHASE WAIT_FW (17 Table 17.4). -/
def execJournalReplay (s : State) : Host.Outcome State Fault Refusal :=
  onDev s fun d =>
    if 2 ≤ fld (d.reg Reg.HOST_STATUS) 0 3 ∧ d.jReady = false then (if d.wt.replayed then d.replayEnd else d.replayRead) else d

/-! ### Image commands (07 Table 7.9) -/

/-- Whether an extent of some slice of a rectangle belongs to an image other than a RETIRED one. -/
def WTier.extBusy (w : WTier) (ts : List Nat) (e : Nat) : Bool :=
  ts.any fun t => match w.owner t e with
    | some m => decide (m.st ≠ .retired)
    | none => false

/-- Whether an extent of some slice has an owner. -/
def WTier.extTaken (w : WTier) (ts : List Nat) (e : Nat) : Bool := ts.any fun t => w.owners.any fun o => decide (o.1 = t) && decide (o.2.1 = e)

/-- The extents an allocation takes: those it names, or the lowest usable ones, FREE extents first (log 29). -/
def WTier.chooseExt (w : WTier) (q : AllocReq) : Option (BitVec 15) :=
  let ts := rectSlices q.rect
  match q.xset with
  | some x => some x
  | none =>
    let usable := (List.range 15).filter fun e => !(w.extBusy ts e)
    let order := (usable.filter fun e => !(w.extTaken ts e)) ++ usable.filter fun e => w.extTaken ts e
    if q.xcount = 0 ∨ order.length < q.xcount then none else some ((order.take q.xcount).foldl (fun v e => setBit v e) 0)

/-- A rectangle of logical slices (07 R167). -/
def rectOk (q : Rect) : Bool := decide (q.b0 ≤ q.b1) && decide (q.b1 < Config.benches) && decide (q.c0 ≤ q.c1) && decide (q.c1 < Config.lcols)

/-- IMAGE_ALLOC: EMPTY to DOWNLOADING, a RECLAIM record first for each RETIRED image whose extents are taken. -/
def Dev.imageAlloc (d : Dev) (m : Nat) (q : AllocReq) : Dev :=
  let w := d.wt
  if pairBad q.id q.gen ∨ q.ikind = 0 ∨ 5 ≤ q.ikind.toNat then d.reply m St.IMAGE_UNKNOWN
  else if (w.image? q.id q.gen).isSome then d.reply m St.IMAGE_EXISTS
  else
    match if rectOk q.rect then w.chooseExt q else none with
    | none => d.reply m St.NO_SPACE
    | some xset =>
      let ts := rectSlices q.rect
      let es := (List.range 15).filter fun e => bit xset e
      let gone := w.images.filter fun i => decide (i.st = .retired) && ts.any fun t => es.any fun e =>
        w.owners.any fun o => decide (o = (t, e, i.id, i.gen, false))
      if es = [] ∨ w.images.length + 1 > 1024 + gone.length then d.reply m St.NO_SPACE
      else if es.any fun e => w.extBusy ts e then d.reply m St.EXTENT_BUSY
      else
        let i : Image := ⟨q.id, q.gen, q.ikind, .downloading, q.rect, xset, q.mbytes.toNat, q.mdigest, [], [], false, [], 0, 0, 0, [], .empty, 0⟩
        match gone.reverse with
        | [] => (d.modWt fun w => (w.putImage i).own i.rect xset i.id i.gen true).replyFull m St.OK 0 [xset.setWidth 32, 0, 0] []
        | g :: gs =>
          if d.jOk then
            (gs.reverse.foldl (fun d g => d.journal ⟨.reclaim, g, 0, none, 0, none, none⟩) d).journal ⟨.reclaim, g, 0, some m, St.OK, none, some i⟩
          else d.reply m St.JOURNAL_FAULT

def execImageAlloc (m : Nat) (q : AllocReq) (s : State) : Host.Outcome State Fault Refusal :=
  onHostJ m 0x0200 s fun d => d.imageAlloc m q

/-- A command on a pair the device holds: the pair is checked under R166, an unheld pair is in EMPTY. -/
def Dev.onImage (d : Dev) (m : Nat) (id gen : W32) (f : Image → Dev) : Dev :=
  if pairBad id gen then d.reply m St.IMAGE_UNKNOWN
  else match d.wt.image? id gen with
    | some i => f i
    | none => d.reply m St.IMAGE_STATE

/-- Queues the record of a command, which replies once it is in force; with fewer than two copies JOURNAL_FAULT (07 R173). -/
def Dev.recordFor (d : Dev) (m : Nat) (k : RKind) (i : Image) (param : Nat) : Dev :=
  if d.jOk then d.journal ⟨k, i, param, some m, St.OK, none, none⟩ else d.reply m St.JOURNAL_FAULT

/-- IMAGE_VERIFY starts: the reply follows VERIFY_COMPLETE. -/
def Dev.imageVerify (d : Dev) (m : Nat) (id gen : W32) : Dev :=
  d.onImage m id gen fun i =>
    if i.st = .downloaded then d.modWt fun w => { w with verifying := w.verifying ++ [⟨id, gen, some m⟩] } else d.reply m St.IMAGE_STATE

def execImageVerify (m : Nat) (id gen : W32) (s : State) : Host.Outcome State Fault Refusal :=
  onHostJ m 0x0203 s fun d => d.imageVerify m id gen

/-- The first shard of an image that fails: it holds an uncorrectable codeword, or its digest differs. -/
def WTier.firstBad (w : WTier) (i : Image) : Option Nat := (List.range i.shards.length).find? fun k => !w.shardOk i k

/-- What a verification reads of the shards of an image: the slice and range of each of the first `n`. -/
def Image.shardReads (i : Image) (n : Nat) : List (Nat × Nat × Nat) := (i.shards.take n).map fun s => (s.slice, i.shardAddr s 0, s.len)

/-- VERIFY_COMPLETE: VERIFIED when every digest matches, else BAD with BAD_SHARD for the first shard that fails (07 R163, R165, R177). -/
def Dev.verifyDone (d : Dev) (id gen : W32) : Dev :=
  let vs := d.wt.verifying.filter fun v => decide (v.id = id) && decide (v.gen = gen)
  if vs = [] then d
  else
    let m := vs.findSome? (·.m)
    let d := d.modWt fun w => { w with verifying := w.verifying.filter fun v => !(decide (v.id = id) && decide (v.gen = gen)) }
    match d.wt.image? id gen with
    | none => d.replyOpt m St.IMAGE_STATE
    | some i =>
      if i.st ≠ .downloaded then d.replyOpt m St.IMAGE_STATE
      else
        let fb := d.wt.firstBad i
        let met := (i.shardReads ((fb.map (· + 1)).getD i.shards.length)).flatMap fun x => (d.wt.weakIn x.1 x.2.1 x.2.2).map fun e => (x.1, e.1, e.2)
        let (d, lost) := d.cwMeet met
        match fb with
        | none => (d.modWt fun w => w.putImage { i with st := .verified }).replyOpt m St.OK
        | some k =>
          let d := lost.foldl (fun d p => d.uncorrNote p.1 p.2) d
          d.journal ⟨.badShard, i, k, m, if lost.isEmpty then St.DIGEST_MISMATCH else St.UNCORRECTABLE, none, none⟩

def execVerifyComplete (id gen : W32) (cells : List CellErr) (s : State) : Host.Outcome State Fault Refusal :=
  onDev s fun d => (d.modWt fun w => w.ail cells).verifyDone id gen

/-- IMAGE_ACTIVATE: VERIFIED to TRIAL; the active generation becomes the revert target. -/
def Dev.imageActivate (d : Dev) (m : Nat) (id gen : W32) (limit : Byte) : Dev :=
  d.onImage m id gen fun i =>
    let prior := d.wt.active id
    let above := match prior with | some a => decide (a.gen.toNat < gen.toNat) | none => true
    if i.st = .verified ∧ (d.wt.trial id).isNone = true ∧ above = true then
      d.recordFor m .activate { i with
        trialLimit := if limit = 0 then 3 else limit
        priorGen := match prior with | some a => a.gen | none => 0 } 0
    else d.reply m St.IMAGE_STATE

def execImageActivate (m : Nat) (id gen : W32) (limit : Byte) (s : State) : Host.Outcome State Fault Refusal :=
  onHostJ m 0x0204 s fun d => d.imageActivate m id gen limit

/-- IMAGE_CONFIRM: TRIAL to CONFIRMED; the revert target retires. -/
def Dev.imageConfirm (d : Dev) (m : Nat) (id gen : W32) : Dev :=
  d.onImage m id gen fun i =>
    if i.st = .confirmed then d.reply m St.OK
    else if i.st = .trial then
      let target := if i.priorGen = 0 then none else d.wt.image? id i.priorGen
      if (match target with | some t => d.mapped t | none => false) = true then d.reply m St.EXTENT_BUSY
      else d.recordFor m .confirm i 0
    else d.reply m St.IMAGE_STATE

def execImageConfirm (m : Nat) (id gen : W32) (s : State) : Host.Outcome State Fault Refusal :=
  onHostJ m 0x0205 s fun d => d.imageConfirm m id gen

/-- IMAGE_REVERT: TRIAL to RETIRED, cause 2. -/
def Dev.imageRevert (d : Dev) (m : Nat) (id gen : W32) : Dev :=
  d.onImage m id gen fun i =>
    if i.st ≠ .trial then d.reply m St.IMAGE_STATE
    else if d.mapped i then d.reply m St.EXTENT_BUSY
    else d.recordFor m .revert i 2

def execImageRevert (m : Nat) (id gen : W32) (s : State) : Host.Outcome State Fault Refusal :=
  onHostJ m 0x0206 s fun d => d.imageRevert m id gen

/-- IMAGE_RETIRE: DOWNLOADING to EMPTY without a record; DOWNLOADED, VERIFIED, CONFIRMED or BAD to RETIRED. -/
def Dev.imageRetire (d : Dev) (m : Nat) (id gen : W32) : Dev :=
  d.onImage m id gen fun i =>
    if i.st = .trial ∨ i.st = .retired ∨ d.wt.revertTarget i = true then d.reply m St.IMAGE_STATE
    else if d.mapped i then d.reply m St.EXTENT_BUSY
    else if i.st = .downloading then (d.modWt fun w => w.dropImage id gen).reply m St.OK
    else d.recordFor m .retire i 0

def execImageRetire (m : Nat) (id gen : W32) (s : State) : Host.Outcome State Fault Refusal :=
  onHostJ m 0x0207 s fun d => d.imageRetire m id gen

/-- Standing of one generation as IMAGE_QUERY returns it: GEN, STATE, BOOTS, TRIAL_LIMIT, zero, PRIOR_GEN, zero, SEQ (log 30). -/
def Image.standing (i : Image) : List Byte :=
  leBytes 4 i.gen.toNat ++ leBytes 1 i.st.num ++ leBytes 1 i.boots.toNat ++ leBytes 1 i.trialLimit.toNat ++ leBytes 1 0 ++
  leBytes 4 i.priorGen.toNat ++ leBytes 4 0 ++ leBytes 8 i.lastSeq.toNat

/-- IMAGE_QUERY of a pair, or of every generation of an IMAGE_ID. It neither writes the journal nor reads the tier, so it does not wait for
JREADY (17 R394) and shows INCOMPLETE during the replay (07 Table 7.8). -/
def Dev.imageQuery (d : Dev) (m : Nat) (id : W32) (gen : Option W32) : Dev :=
  let found := d.wt.images.filter fun i => decide (i.id = id) && match gen with | some g => decide (i.gen = g) | none => true
  let bad : Bool := match gen with | some g => pairBad id g | none => pairBad id 1
  if bad = true ∨ found = [] then d.reply m St.IMAGE_UNKNOWN
  else d.replyItems m [] (found.map Image.standing)

def execImageQuery (m : Nat) (id : W32) (gen : Option W32) (s : State) : Host.Outcome State Fault Refusal :=
  onHost m 0x0208 s fun d => d.imageQuery m id gen

/-! ### The haul (07 R180 to R187) -/

/-- A storing device starts a session: nothing of the pair is acknowledged in it yet (07 R187). -/
def Dev.startStoring (d : Dev) (q : HaulReq) : Dev :=
  match d.wt.image? q.id q.gen with
  | some i =>
    if i.st = .downloading then d.modWt fun w => w.putImage { i with stored := [], manOk := false, shards := [], adapters := [] }
    else if i.st = .bad then d.modWt fun w => w.putImage { i with stored := [] }
    else d
  | none => d

/-- HAUL_OPEN. A MEMBER that has not allocated the pair forwards only. -/
def Dev.haulOpen (d : Dev) (m : Nat) (q : HaulReq) : Dev :=
  if pairBad q.id q.gen then d.reply m St.IMAGE_UNKNOWN
  else if d.wt.sessions.length ≥ 4 then d.reply m St.SESSION_LIMIT
  else
    let img := d.wt.image? q.id q.gen
    let storing := match img with
      | some i => decide (i.st = .downloading) || (decide (i.st = .bad) && q.repair)
      | none => false
    let mustStore := decide (q.role = .tail) || (decide (q.role = .member) && img.isSome)
    if mustStore && !storing then d.reply m St.IMAGE_STATE
    else
      let no := ((List.range 4).find? fun i => d.wt.sessions.all fun s => decide (s.no ≠ i)).getD 0
      let d := d.modWt fun w => { w with sessions := w.sessions ++ [⟨q, [], [], [], [], false, false, no, none⟩] }
      let d := if q.role = .head then d.issueDma (.haul q.session) else d.startStoring q
      d.reply m St.OK

def execHaulOpen (m : Nat) (q : HaulReq) (s : State) : Host.Outcome State Fault Refusal :=
  onHostJ m 0x0201 s fun d => d.haulOpen m q

/-- HAUL_CLOSE ends every role of the device in a session; one that is not open answers IMAGE_STATE (log 32). -/
def Dev.haulClose (d : Dev) (m : Nat) (session : W32) : Dev :=
  if (d.wt.sessions.any fun s => decide (s.q.session = session)) = true then
    ((d.modWt fun w => { w with sessions := w.sessions.filter fun s => decide (s.q.session ≠ session) }).dropDma (.haul session)).reply m St.OK
  else d.reply m St.IMAGE_STATE

def execHaulClose (m : Nat) (session : W32) (s : State) : Host.Outcome State Fault Refusal :=
  onHostJ m 0x0202 s fun d => d.haulClose m session

/-- HAUL_HEAD_SEND: the frame whose DMA read is complete goes to the downstream hop, and the next one is read. -/
def Dev.headSend (d : Dev) (session : W32) (fr : HaulFrame) : Dev :=
  match d.headOf session with
  | some s =>
    if s.frame.map HaulFrame.ofBytes = some fr then
      ((d.modHead session fun s => { s with frame := none }).unitSend s.q.down 4 3 s.frameFlow fr.words).issueDma (.haul session)
    else d
  | none => d

def execHaulHeadSend (session : W32) (frame : HaulFrame) (s : State) : Host.Outcome State Fault Refusal :=
  onDev s fun d => d.headSend session frame

/-- Bytes a frame carries, and its flags. -/
def frameLen (fr : HaulFrame) : Nat := fld fr.len 0 12
def frameLast (fr : HaulFrame) : Bool := bit fr.flags 0
def frameResent (fr : HaulFrame) : Bool := bit fr.flags 1

/-- A malformed frame (07 Table 7.11); the shard index is checked once the manifest is known. -/
def frameBad (fr : HaulFrame) (i : Option Image) : Bool :=
  decide (frameLen fr = 0) || decide (frameLen fr > 2048) || decide (fr.offset.toNat % 2048 ≠ 0) ||
  (decide (fr.shard ≠ manifestNo) && match i with
    | some i => i.manOk && decide (i.shards.length ≤ fr.shard.toNat)
    | none => false)

/-- The end of a manifest: it is NAKed, refused with MANIFEST_INVALID, or known (07 R169). -/
def Dev.manifestEnd (d : Dev) (s : Session) (i : Image) (bs : List Byte) : Dev :=
  if sha256 bs ≠ i.mdigest ∨ bs.length ≠ i.mbytes then d.nakShard s manifestNo
  else match parseManifest i bs with
    | none => d.sessionErr s manifestNo St.MANIFEST_INVALID
    | some (sh, ad) =>
      let i := { i with shards := sh, adapters := ad, manOk := true }
      (d.modWt fun w => (w.program (i.rect.b0 * Config.lcols + i.rect.c0) (i.extAddr 0) bs).putImage i).modSession s.q.session fun s =>
        { s with landed := s.landed ++ [manifestNo.toNat] }

/-- The end of a shard: it matches its digest and is being programmed, or is NAKed (07 R183). -/
def Dev.shardEnd (d : Dev) (s : Session) (shard : W32) (x : Shard) (bs : List Byte) : Dev :=
  if bs.length = x.len ∧ sha256 bs = x.digest then d.modSession s.q.session fun s => { s with landed := s.landed ++ [shard.toNat] }
  else d.nakShard s shard

/-- A storing device takes the data of a frame in (07 R183, R184, R186). -/
def Dev.storeFrame (d : Dev) (s : Session) (i : Image) (fr : HaulFrame) : Dev :=
  let k := fr.shard.toNat
  let isMan := decide (fr.shard = manifestNo)
  if (if isMan then i.manOk else i.manOk && (i.stored.contains k || s.landed.contains k || (decide (i.st = .bad) && !i.badShards.contains k))) then d
  else if s.ignore.contains k && !(decide (fr.offset = 0) && frameResent fr) then d
  else if !isMan && !i.manOk then d.nakShard s fr.shard
  else
    let got := ((s.parts.find? fun p => decide (p.1 = fr.shard)).map (·.2)).getD []
    if fr.offset.toNat ≠ got.length then d.nakShard s fr.shard
    else
      let bs := got ++ slice fr.data 0 (frameLen fr)
      let d := d.modSession s.q.session fun s => { s with
        ignore := s.ignore.filter fun j => decide (j ≠ k)
        parts := (s.parts.filter fun p => decide (p.1 ≠ fr.shard)) ++ (if frameLast fr then [] else [(fr.shard, bs)]) }
      if isMan then (if frameLast fr then d.manifestEnd s i bs else d)
      else match i.shards[k]? with
        | none => d
        | some x =>
          let keep := (slice fr.data 0 (frameLen fr)).take (x.len - got.length)
          let d := d.modWt fun w => w.program x.slice (i.shardAddr x got.length) keep
          if frameLast fr then d.shardEnd s fr.shard x bs else d

/-- A haul frame that a unit holds as packet `k`: counted bad, or forwarded unchanged by a MEMBER and then stored by a device that holds the pair. -/
def Dev.frameArrival (d : Dev) (k : Packet) (fr : HaulFrame) : Dev :=
  match d.session? fr.session with
  | none => d.count Reg.WT_HAUL_BAD 0 64 1
  | some s =>
    let i := (d.wt.image? s.q.id s.q.gen).filter fun i => s.stores i && decide (fr.id = i.id) && decide (fr.gen = i.gen)
    if frameBad fr i then d.count Reg.WT_HAUL_BAD 0 64 1
    else
      let d := if s.q.role = .member then d.unitSend s.q.down 4 3 s.frameFlow k.payload else d
      match i with
      | some i => d.storeFrame s i fr
      | none => d

/-- HAUL_FRAME_ARRIVAL: the next haul packet that the haul engine has staged. -/
def execHaulFrameArrival (frame : HaulFrame) (s : State) : Host.Outcome State Fault Refusal :=
  onDev s fun d => match d.unitPkt 0x7FF 4 fun _ => true with
    | some k => if k.haul = some frame then (d.unitTake 0x7FF k).frameArrival k frame else d
    | none => d

/-- Every shard to be stored has been acknowledged with SHARD_OK. -/
def Image.whole (i : Image) : Bool :=
  if i.st = .bad then i.badShards.all fun k => i.stored.contains k
  else i.manOk && i.stored.contains manifestNo.toNat && (List.range i.shards.length).all fun k => i.stored.contains k

/-- SHARD_OK: every page of a matching shard is programmed (07 R183, R184). -/
def Dev.shardOkSend (d : Dev) (session shard : W32) : Dev :=
  match d.session? session with
  | none => d
  | some s =>
    if s.landed.contains shard.toNat then
      let d := (d.modSession session fun s => { s with landed := s.landed.filter fun k => decide (k ≠ shard.toNat) }).sendAck s 1 shard 0 0
      match d.wt.image? s.q.id s.q.gen with
      | none => d
      | some i =>
        let i := { i with stored := i.stored ++ [shard.toNat] }
        let d := d.modWt fun w => w.putImage i
        if i.whole then
          if d.jOk then d.journal ⟨if i.st = .bad then .repaired else .downloaded, i, 0, none, 0, some session, none⟩
          else d.sessionErr s manifestNo St.JOURNAL_FAULT
        else d
    else d

def execShardOk (session shard : W32) (s : State) : Host.Outcome State Fault Refusal :=
  onDev s fun d => d.shardOkSend session shard

/-- HAUL_ACK_ARRIVAL: the head places the acknowledgement on its ring (07 R185). -/
def Dev.haulAckArrival (d : Dev) (a : HaulAck) : Dev :=
  match d.headOf a.session with
  | some s =>
    let d := d.emit (.ackRing s.q.ackRing a)
    if a.kind = 4 then d.modReg Reg.WT_ERR fun v => setBit v 4 else d
  | none => d

def execHaulAckArrival (ack : HaulAck) (s : State) : Host.Outcome State Fault Refusal :=
  onDev s fun d => match d.unitPkt 0x7FF 5 fun _ => true with
    | some k => if k.haulAck = ack then (d.unitTake 0x7FF k).haulAckArrival ack else d
    | none => d

/-! ### Scrub (07 R188) -/

/-- The images whose shards a pass reads. -/
def WTier.scrubbed (w : WTier) : List Image :=
  w.images.filter fun m => decide (m.st = .verified) || decide (m.st = .trial) || decide (m.st = .confirmed) || decide (m.st = .bad)

/-- The shards that a pass reads whose digests differ, and that are not marked BAD. -/
def WTier.scrubBad (w : WTier) : List (Image × Nat) :=
  w.scrubbed.flatMap fun m => ((List.range m.shards.length).filter fun k => !(w.shardOk m k) && !m.badShards.contains k).map fun k => (m, k)

/-- Pages that a pass reads: those of the shards, the journal copies, the remap tables. -/
def WTier.scrubReads (w : WTier) (t page : Nat) : Bool :=
  (ownPage t page && decide (page15 + 2 ≤ page)) || w.scrubbed.any fun m => (m.shardAt t page).isSome

/-- SCRUB_PASS_START: the pass reads every codeword of its pages and checks every digest (07 R163, R165, R188). -/
def Dev.scrubStart (d : Dev) (cells : List CellErr) : Dev :=
  let d := d.modWt fun w => w.ail cells
  if d.jReady ∧ fld (d.reg Reg.WT_SCRUB_CTL) 0 16 ≠ 0 ∧ bit (d.reg Reg.WT_STATUS) 2 = false then
    let d := (d.modReg Reg.WT_STATUS fun v => setBit v 2).readWhere d.wt.scrubReads
    (d.wt.scrubBad.filter fun b => !(d.wt.jq.any fun p => decide (p.kind = .badShard) && p.img.is b.1.id b.1.gen && decide (p.param = b.2))).foldl
      (fun d b => d.journal ⟨.badShard, b.1, b.2, none, 0, none, none⟩) d
  else d

def execScrubPassStart (cells : List CellErr) (s : State) : Host.Outcome State Fault Refusal := onDev s fun d => d.scrubStart cells

/-- SCRUB_PASS_COMPLETE. -/
def Dev.scrubEnd (d : Dev) : Dev :=
  if bit (d.reg Reg.WT_STATUS) 2 then (d.modReg Reg.WT_STATUS fun v => clrBit v 2).count Reg.WT_SCRUB_PASS 0 32 1 else d

def execScrubPassComplete (s : State) : Host.Outcome State Fault Refusal := onDev s Dev.scrubEnd

/-! ### Layer swap (07 R189 to R193) -/

/-- LAYER_SWAP: the checks of R189, then the swap is armed. -/
def Dev.layerSwap (d : Dev) (m : Nat) (mask : W64) (rolling : Bool) (tail : Byte) : Dev :=
  let rs := (List.range Config.nRegions).filter fun r => bit mask r
  let next (r : Nat) : W64 := d.reg (Reg.WT_XMAP_NEXT + 8 * r)
  if rolling && !d.feature 1 then d.reply m St.FEATURE_OFF
  else if rs.any fun r => d.swapArmed r then d.reply m St.SWAP_ARMED
  else if rs.any fun r => decide ((d.region r).st = .empty) || decide ((d.region r).st = .fault) then d.reply m St.REGION_STATE
  else if rs.all fun r => d.wt.mapServes (next r) && (d.region r).residents.all fun x => xmapOk (next r) x.saddr (64 * x.lines) then
    (d.modWt fun w => { w with swaps := w.swaps ++ [⟨mask, rolling, if rolling then tail.toNat else 0, 0, 0, none, m⟩] }).swapRun
  else d.reply m St.IMAGE_STATE

def execLayerSwap (m : Nat) (mask : W64) (mode : Bool) (tail : Byte) (s : State) : Host.Outcome State Fault Refusal :=
  onHostJ m 0x0209 s fun d => d.layerSwap m mask mode tail

/-- LAYER_SWAP_REPLY: after the last copy or departure, and under HOLD_ALL after the reload (07 R190 to R192). -/
def Dev.layerSwapReply (d : Dev) (m : Nat) : Dev :=
  let d := d.swapRun
  match d.wt.swaps.find? fun w => decide (w.m = m) with
  | none => d
  | some w =>
    let loading := !w.rolling && (List.range Config.nRegions).any fun r => w.names r && (d.region r).reload
    if w.waits = [] ∧ loading = false then
      let d := d.modWt fun t => { t with swaps := t.swaps.filter fun u => decide (u.m ≠ m) }
      if w.left = 0 then d.reply m St.OK
      else d.replyFull m St.REGION_STATE 0 [BitVec.ofNat 32 (fld w.left 0 32), BitVec.ofNat 32 (fld w.left 32 32), 0] []
    else d

def execLayerSwapReply (m : Nat) (s : State) : Host.Outcome State Fault Refusal :=
  onUnit Config.nMailboxes m s fun d => d.layerSwapReply m

/-- RESIDENT_WEIGHT_RELOAD_DONE: every resident range of the region is read from the new map (07 R193). A reload that meets an uncorrectable
codeword leaves the region in FAULT, and a step that waits for it ends without rerun (07 R165, log 105). -/
def Dev.reloadDone (d : Dev) (r : Nat) : Dev :=
  if (d.region r).reload then
    match d.loadResidents r (d.region r).residents with
    | (d, bad) =>
      let d := d.modRegion r fun x => { x with reload := false }
      if bad then (d.toFault r).endStep r St.STEP_FAILED else d
  else d

def execResidentWeightReloadDone (r : Nat) (s : State) : Host.Outcome State Fault Refusal := onRegion r s fun d => d.reloadDone r

/-! ### Adapter slots (07 R194) -/

/-- ADAPTER_LOAD: the checks, then the copy starts: at once in an EMPTY slot, at the next boundary in a READY one. -/
def Dev.adapterLoad (d : Dev) (m r slot : Nat) (id gen ad : W32) : Dev :=
  let x := d.region r
  if d.feature 5 = false then d.reply m St.FEATURE_OFF
  else if x.st = .empty then d.reply m St.REGION_STATE
  else match x.adslots[slot]? with
    | none => d.reply m St.COMMAND_INVALID
    | some a => d.onImage m id gen fun i =>
      if i.ikind ≠ 3 ∨ (i.st ≠ .trial ∧ i.st ≠ .confirmed) then d.reply m St.IMAGE_STATE
      else match i.adapters.find? fun e => decide (e.ad = ad) with
        | none => d.reply m St.ADAPTER_UNKNOWN
        | some e =>
          if (x.tileList.all fun t => rectHolds i.rect t) = false then d.reply m St.ADAPTER_SHAPE
          else if e.part > 64 * a.lines then d.reply m St.LENGTH_EXCEEDS
          else
            (d.modRegion r fun x => x.modAd slot fun a => { a with
              job := some ⟨id, gen, ad, e.xoff, e.part, false⟩, evict := false
              st := if a.st = .empty then .loading else a.st
              ad := if a.st = .empty then 0 else a.ad }).reply m St.OK

def execAdapterLoad (m r slot : Nat) (id gen ad : W32) (s : State) : Host.Outcome State Fault Refusal :=
  onHostR m 0x020A r s fun d => d.adapterLoad m r slot id gen ad

/-- The part of one tile: PART bytes from XOFF of its own slice. Corrected and uncorrectable codewords are met as by any read; no step is
served (07 R163, R165). -/
def Dev.adapterPart (d : Dev) (t at_ : Nat) (i : Image) (j : AdJob) : Dev :=
  let rs := (List.range 15).filterMap fun x =>
    let lo := max j.xoff (x * 2 ^ 26)
    let hi := min (j.xoff + j.part) ((x + 1) * 2 ^ 26)
    if lo < hi then some (i.extAddr lo, hi - lo) else none
  let bs := rs.flatMap fun x => d.wt.read d.ctr t x.1 x.2
  let (d, bad) := d.tierMeet t rs
  let d := if bad.isEmpty then d else bad.foldl (fun d p => d.uncorrectable t p) d.drawn
  d.modTile t fun y => y.spadWrite at_ bs

/-- ADAPTER_COPY_DONE: each tile has copied PART bytes from XOFF of its own slice into the slot. -/
def Dev.adapterCopied (d : Dev) (r slot : Nat) : Dev :=
  let x := d.region r
  match x.adslots[slot]? with
  | some a =>
    match a.job with
    | some j =>
      if a.st = .loading ∧ j.copied = false then
        match d.wt.image? j.id j.gen with
        | some i =>
          let d := x.tileList.foldl (fun d t => d.adapterPart t (64 * a.line) i j) d
          d.modRegion r fun x => x.modAd slot fun a => { a with job := some { j with copied := true } }
        | none => d
      else d
    | none => d
  | none => d

def execAdapterCopyDone (r slot : Nat) (s : State) : Host.Outcome State Fault Refusal := onRegion r s fun d => d.adapterCopied r slot

/-- ADAPTER_EVICT: the slot is EMPTY from the next step boundary. -/
def Dev.adapterEvict (d : Dev) (m r slot : Nat) : Dev :=
  let x := d.region r
  if d.feature 5 = false then d.reply m St.FEATURE_OFF
  else if x.st = .empty then d.reply m St.REGION_STATE
  else if slot < x.adslots.length then
    (d.modRegion r fun x => x.modAd slot fun a => { a with evict := true, job := none }).reply m St.OK
  else d.reply m St.COMMAND_INVALID

def execAdapterEvict (m r slot : Nat) (s : State) : Host.Outcome State Fault Refusal :=
  onHostR m 0x020B r s fun d => d.adapterEvict m r slot

end Sys2Proof.Machine
end

