-- ==== Sys2Proof/Machine/Serving.lean ====
section
/-! DEFINITION. Program and serving commands (09, 10, 15 R355, 16 R379). -/

namespace Sys2Proof.Machine

/-! ### Programs (09 R229 to R234, 16 R379) -/

/-- REGION_LOAD waits for JREADY (17 Table 17.4). -/
def Dev.regionLoad (d : Dev) (m : Nat) (q : LoadReq) : Dev := match d.loadImage q false with | (d, st) => d.reply m st

def execRegionLoad (m : Nat) (q : LoadReq) (s : State) : Host.Outcome State Fault Refusal :=
  if q.r < Config.nRegions then onHostJ m 0x0300 s fun d => d.regionLoad m q else .fault .noSuchUnit

/-- REGION_UNLOAD. -/
def Dev.regionUnload (d : Dev) (m r : Nat) : Dev :=
  let x := d.region r
  if x.st ≠ .stopped ∧ x.st ≠ .fault then d.reply m St.REGION_STATE
  else if d.swapArmed r then d.reply m St.SWAP_ARMED
  else (d.unload r).reply m St.OK

def execRegionUnload (m r : Nat) (s : State) : Host.Outcome State Fault Refusal :=
  onHostR m 0x0301 r s fun d => d.regionUnload m r

/-- ROUTE_SELECT: ACTIVE of every listed entry, or none when an entry has no such alternate (log 32). -/
def Dev.routeSelect (d : Dev) (m : Nat) (sel : List RouteSel) : Dev :=
  if sel.all fun s => decide (s.entry < 4096) && decide (s.alt.toNat < (d.route s.entry).nalt) then
    (d.setRoutes (sel.map fun s => (s.entry, { d.route s.entry with active := s.alt.toNat }))).reply m St.OK
  else d.reply m St.ROUTE_INVALID

def execRouteSelect (m : Nat) (sel : List RouteSel) (s : State) : Host.Outcome State Fault Refusal :=
  onHost m 0x0500 s fun d => d.routeSelect m sel

/-! ### Rings (10 R242 to R244) -/

/-- A ring descriptor that breaks Table 10.3. -/
def RingDesc.bad (g : RingDesc) : Bool :=
  decide (g.kind.toNat > 3) || (decide (g.kind ≠ 0) &&
    (decide (g.region.toNat ≥ Config.nRegions) || decide (g.h2dLog2 = 0) || decide (g.h2dLog2.toNat > 16) ||
    (if g.kind = 2 then decide (g.d2hLog2 ≠ 0) else decide (g.d2hLog2 = 0) || decide (g.d2hLog2.toNat > 16) || decide (g.d2hBase.toNat % 64 ≠ 0)) ||
    (decide (g.vector.toNat ≥ 2048) && decide (g.vector ≠ 0xFFFF)) || decide (g.h2dBase.toNat % 64 ≠ 0) || decide (g.idxAddr.toNat % 8 ≠ 0)))

/-- A region that is RUNNING, STOPPING or HELD. -/
def Region.serving (x : Region) : Bool := decide (x.st = .running) || decide (x.st = .stopping) || decide (x.st = .held)

/-- RING_CONFIG. A descriptor of kind DISABLED has no other fields (log 34). -/
def Dev.ringConfig (d : Dev) (m pair : Nat) (g : RingDesc) : Dev :=
  let old := (d.ring pair).d
  let other := match d.pairOf g.region.toNat g.kind.toNat with | some p => decide (p ≠ pair) | none => false
  if pair ≥ Config.nPairs ∨ RingDesc.bad g = true ∨ (g.kind ≠ 0 ∧ other = true) then d.reply m St.RING_INVALID
  else if old.kind ≠ 0 ∧ (d.region old.region.toNat).serving = true then d.reply m St.REGION_STATE
  else (d.setRing pair { Ring.reset with d := if g.kind = 0 then ringDesc0 else g }).reply m St.OK

def execRingConfig (m pair : Nat) (d : RingDesc) (s : State) : Host.Outcome State Fault Refusal :=
  onHostM m 0x0400 (fun x => decide (RingDesc.ofBytes x.payload = d)) s fun x => x.ringConfig m pair d

/-- RING_DOORBELL: the host's H2D producer index. -/
def Dev.ringDoorbell (d : Dev) (pair : Nat) (idx : W32) : Dev :=
  let g := d.ring pair
  let d := d.setRing pair { g with h2dProd := idx }
  if g.d.kind.toNat = rkSTEP then d.fetchAhead g.d.region.toNat else d

def execRingDoorbell (pair : Nat) (idx : W32) (s : State) : Host.Outcome State Fault Refusal :=
  onUnit Config.nPairs pair s fun d => d.ringDoorbell pair idx

/-- D2H_CONSUMER_INDEX: entries that waited for room are written. -/
def Dev.d2hConsumer (d : Dev) (pair : Nat) (idx : W32) : Dev :=
  let g := d.ring pair
  let d := d.setRing pair { g with d2hCons := idx }
  if g.d.kind.toNat = rkSTEP then (d.runFins g.d.region.toNat).swapRun.fetchAhead g.d.region.toNat else d

def execD2hConsumerIndex (pair : Nat) (idx : W32) (s : State) : Host.Outcome State Fault Refusal :=
  onUnit Config.nPairs pair s fun d => d.d2hConsumer pair idx

/-- RING_INTERRUPT_MODERATION: once IMOD ns have passed since the last message, the ring's merged interrupts are sent as one (17 R391). -/
def Dev.ringModerate (d : Dev) (pair : Nat) : Dev :=
  let g := d.ring pair
  if g.irq = 0 ∨ d.elapsed < g.irqAt then d else d.ringMessage pair

def execRingInterruptModeration (pair : Nat) (s : State) : Host.Outcome State Fault Refusal :=
  onUnit Config.nPairs pair s fun d => d.ringModerate pair

/-! ### The course of a step (10 R246 to R263) -/

/-- STEP_DESCRIPTOR_FETCH: the DMA read issued for the region is complete, and a RUNNING region holds the descriptor. -/
def Dev.stepFetch (d : Dev) (r : Nat) (i : StepIn) : Dev :=
  if d.dmaOut (.step r) then
    let d := d.dropDma (.step r)
    if (d.region r).st = .running ∧ (d.region r).fetched.isNone = true then d.modRegion r fun x => { x with fetched := some i } else d
  else d

def execStepDescriptorFetch (r : Nat) (d : StepIn) (s : State) : Host.Outcome State Fault Refusal :=
  onRegion r s fun x => x.stepFetch r d

def execStepAdmission (r : Nat) (s : State) : Host.Outcome State Fault Refusal := onRegion r s fun d => d.stepAdmission r

def execStepStart (r : Nat) (s : State) : Host.Outcome State Fault Refusal := onRegion r s fun d => d.stepStart r

def execStepBoundary (r : Nat) (s : State) : Host.Outcome State Fault Refusal := onRegion r s fun d => d.stepBoundary r

def execTokenRecordWrite (r : Nat) (bufs : List BufDesc) (s : State) : Host.Outcome State Fault Refusal :=
  onRegion r s fun d => d.tokenWrite r bufs

def execRxWaitExpiry (r : Nat) (s : State) : Host.Outcome State Fault Refusal := onRegion r s fun d => d.rxExpiry r

/-- STEP_ABORT: the running step comes to its abort point, for a rerun or without one (01 R18, 10 Table 10.1). -/
def Dev.stepAbort (d : Dev) (r : Nat) (rerun : Bool) : Dev :=
  if (d.region r).phase = .running then (if rerun then d.stepTrouble r else d.stepFail r) else d

def execStepAbort (r : Nat) (rerun : Bool) (s : State) : Host.Outcome State Fault Refusal := onRegion r s fun d => d.stepAbort r rerun

def execStepRerunStart (r : Nat) (s : State) : Host.Outcome State Fault Refusal := onRegion r s fun d => d.rerunStart r

/-! ### Region commands (10 R265 to R267) -/

/-- REGION_START. -/
def Dev.regionStart (d : Dev) (m r : Nat) : Dev :=
  let x := d.region r
  if x.st ≠ .stopped then d.reply m St.REGION_STATE
  else if (d.pairOf r rkSTEP).isNone || (d.pairOf r rkEGRESS).isNone then d.reply m St.RING_INVALID
  else if x.holds (d.etile r) = false ∨ d.rtline r + cdiv (d.nmax r) 4 > Config.spadLines ∨ d.egline r + 2 * cdiv (d.nmax r) 2 > Config.spadLines then
    d.reply m St.LENGTH_EXCEEDS
  else ((d.modRegion r fun x => { x with st := .running }).fetchAhead r).reply m St.OK

def execRegionStart (m r : Nat) (s : State) : Host.Outcome State Fault Refusal :=
  onHostR m 0x0401 r s fun d => d.regionStart m r

/-- REGION_STOP. -/
def Dev.regionStop (d : Dev) (m r : Nat) : Dev :=
  let x := d.region r
  match x.st with
  | .empty => d.reply m St.REGION_STATE
  | .fault => d.reply m St.REGION_STATE
  | .stopped => d.reply m St.OK
  | _ =>
    let d := d.modRegion r fun x => { x with stopM := x.stopM ++ [m] }
    if x.adm.isSome then d.modRegion r fun x => { x with st := .stopping } else (d.enterStopped r).swapRun

def execRegionStop (m r : Nat) (s : State) : Host.Outcome State Fault Refusal :=
  onHostR m 0x0402 r s fun d => d.regionStop m r

/-- REGION_RESUME. -/
def Dev.regionResume (d : Dev) (m r : Nat) : Dev :=
  if (d.region r).st = .held then ((d.modRegion r fun x => { x with st := .running }).fetchAhead r).reply m St.OK
  else d.reply m St.REGION_STATE

def execRegionResume (m r : Nat) (s : State) : Host.Outcome State Fault Refusal :=
  onHostR m 0x0403 r s fun d => d.regionResume m r

/-- REGION_ABORT. A region held by an escalated recovery is no longer held (15 R356). -/
def Dev.regionAbortCmd (d : Dev) (m r : Nat) : Dev :=
  if (d.region r).st = .empty then d.reply m St.REGION_STATE
  else
    let d := ((d.regionAbort r).enterStopped r).swapRun
    let d := match d.flt.recov with
      | some c => if c.stage = RecStage.held ∧ c.regions.contains r = true then { d with flt := { d.flt with recov := none } } else d
      | none => d
    d.reply m St.OK

def execRegionAbort (m r : Nat) (s : State) : Host.Outcome State Fault Refusal :=
  onHostR m 0x0404 r s fun d => d.regionAbortCmd m r

/-! ### Sequences (10 R250, R264, 15 R355) -/

/-- The step in progress of a region names a slot. -/
def Region.namesSlot (x : Region) (slot : Nat) : Bool :=
  match x.adm with
  | some a => a.inp.rag.any fun e => decide (ragSlot e = slot)
  | none => false

/-- SEQ_CANCEL: decided at once, or held until the boundary of the step that names the slot. -/
def Dev.seqCancel (d : Dev) (m r slot : Nat) : Dev :=
  if slot = 0xFFFF then d.reply m St.KV_SLOT_RANGE
  else if (d.region r).namesSlot slot then d.modRegion r fun x => { x with cancels := x.cancels ++ [(m, slot)] }
  else d.cancelNow m slot

def execSeqCancel (m r : Nat) (slot : BitVec 16) (s : State) : Host.Outcome State Fault Refusal :=
  onHostR m 0x0405 r s fun d => d.seqCancel m r slot.toNat

/-- SEQ_RESET: OPEN, LOST cleared. -/
def Dev.seqReset (d : Dev) (m slot : Nat) : Dev :=
  if slot = 0xFFFF then d.reply m St.KV_SLOT_RANGE
  else if d.regions.any fun e => e.2.namesSlot slot then d.reply m St.KV_BUSY
  else (d.setSlot slot Slot.reset).reply m St.OK

def execSeqReset (m : Nat) (slot : BitVec 16) (s : State) : Host.Outcome State Fault Refusal :=
  onHost m 0x0406 s fun d => d.seqReset m slot.toNat

/-- SEQ_ROLLBACK: CLEN becomes `n`, and every page at or beyond ceil(n ÷ PPP) is freed. -/
def Dev.seqRollback (d : Dev) (m r slot n : Nat) : Dev :=
  let x := d.region r
  if x.st ≠ .stopped ∧ x.st ≠ .fault then d.reply m St.REGION_STATE
  else match d.homeOf r slot with
    | none => d.reply m St.KV_SLOT_RANGE
    | some h =>
      let t := d.tile h
      if n > t.clen slot then d.reply m St.LENGTH_EXCEEDS
      else
        let first := cdiv n t.kvPpp
        let es := t.ptes slot first (t.dirLen - first)
        let d := d.kvChange [h] fun d => (d.freeEntries r h slot es).modTile h fun t => t.setClen slot n
        (d.kvInv r slot (es.map (·.1))).reply m St.OK

def execSeqRollback (m r : Nat) (slot : BitVec 16) (n : Nat) (s : State) : Host.Outcome State Fault Refusal :=
  onHostR m 0x0407 r s fun d => d.seqRollback m r slot.toNat n

/-! ### Tenants (10 R253, R254) -/

/-- TENANT_SET: the entry is written, and no region has named the tenant since (09 R238). -/
def execTenantSet (m : Nat) (tenant : BitVec 16) (balance : BitVec 48) (pcost tcost : Byte) (s : State) : Host.Outcome State Fault Refusal :=
  onHost m 0x0408 s fun d => (d.setTenant tenant.toNat ⟨balance, pcost, tcost, []⟩).reply m St.OK

/-- TENANT_CREDIT. -/
def Dev.tenantCredit (d : Dev) (m k amount : Nat) : Dev :=
  let x := d.tenant k
  (d.setTenant k { x with balance := BitVec.ofNat 48 (min (x.balance.toNat + amount) (2 ^ 48 - 1)) }).reply m St.OK

def execTenantCredit (m : Nat) (tenant : BitVec 16) (amount : BitVec 48) (s : State) : Host.Outcome State Fault Refusal :=
  onHost m 0x0409 s fun d => d.tenantCredit m tenant.toNat amount.toNat

/-- TENANT_QUERY: BALANCE in 8 bytes, PCOST, TCOST, 6 zero bytes, the reservations in 8 bytes (log 30). -/
def Dev.tenantQuery (d : Dev) (m k : Nat) : Dev :=
  let x := d.tenant k
  d.replyFull m St.OK 0 [] (leBytes 8 x.balance.toNat ++ [x.pcost, x.tcost] ++ List.replicate 6 0 ++ leBytes 8 (d.reserved k))

def execTenantQuery (m : Nat) (tenant : BitVec 16) (s : State) : Host.Outcome State Fault Refusal :=
  onHost m 0x040A s fun d => d.tenantQuery m tenant.toNat

end Sys2Proof.Machine
end

