-- ==== Sys2Proof/Machine/Hive.lean ====
section
/-! DEFINITION. The Hive (16): core resets, firmware, the authority latch, locks, mailboxes, negotiation, log and trace rings, and
debug unlock (17 R403). -/

namespace Sys2Proof.Machine

/-! ### Locks (16 R370, R371) -/

/-- Index of a requester: 0 to 3 for the cores, 4 for the host. -/
def lockIdx : LockReq → Nat
  | .core k => k.toNat
  | .host => 4

/-- Epoch of requester `k` (16 HIVE_EPOCH). -/
def Dev.epochOf (d : Dev) (k : Nat) : Nat := fld (d.reg Reg.HIVE_EPOCH) (12 * k) 12

/-- The epoch of requester `k` advances, modulo 4,096. -/
def Dev.epochUp (d : Dev) (k : Nat) : Dev := d.modReg Reg.HIVE_EPOCH fun v => setFld v (12 * k) 12 (fld v (12 * k) 12 + 1)

/-- Register of lock `n`. -/
def lockReg (n : Nat) : Nat := Reg.HIVE_LOCK + 8 * n

/-- A lock as requester `k` leaves it when it is reset: one that it holds is ABANDONED; owner and epoch stay for diagnosis. -/
def abandonLock (k : Nat) (v : W64) : W64 := if fld v 0 2 = 1 ∧ fld v 2 3 = k then clrBit (setFld v 0 2 2) 5 else v

/-- Each lock that requester `k` holds becomes ABANDONED. -/
def Dev.abandon (d : Dev) (k : Nat) : Dev := (List.range 64).foldl (fun d n => d.modReg (lockReg n) (abandonLock k)) d

/-- Result of the last lock command of requester `k` (16 HIVE_LOCKRES). -/
def Dev.lockResult (d : Dev) (k : Nat) (st : W16) : Dev := { d with hive := { d.hive with lockRes := d.hive.lockRes.set k st } }

/-- ACQUIRE (16 R370). -/
def Dev.lockAcquire (d : Dev) (k n : Nat) : Dev :=
  let take (repair : Nat) : W64 := BitVec.ofNat 64 (1 + 4 * k + 32 * repair + 2 ^ 16 * d.epochOf k)
  match fld (d.reg (lockReg n)) 0 2 with
  | 0 => (d.setReg (lockReg n) (take 0)).lockResult k St.ACQUIRED
  | 1 => d.lockResult k St.LOCK_HELD
  | _ => (d.setReg (lockReg n) (take 1)).lockResult k St.ACQUIRED_ABANDONED

def execLockAcquire (who : LockReq) (n : BitVec 6) (s : State) : Host.Outcome State Fault Refusal :=
  onDev s fun d => d.lockAcquire (lockIdx who) n.toNat

/-- RELEASE (16 R370): the owner's lock becomes FREE, with result OK (log 52). -/
def Dev.lockRelease (d : Dev) (k n : Nat) : Dev :=
  let v := d.reg (lockReg n)
  if fld v 0 2 = 1 ∧ fld v 2 3 = k then (d.setReg (lockReg n) (clrBit (setFld v 0 2 0) 5)).lockResult k St.OK
  else d.lockResult k St.LOCK_NOT_OWNER

def execLockRelease (who : LockReq) (n : BitVec 6) (s : State) : Host.Outcome State Fault Refusal :=
  onDev s fun d => d.lockRelease (lockIdx who) n.toNat

/-! ### Core resets (16 R360) -/

/-- Core `k` returns to its entry point: its epoch advances, its locks become ABANDONED, a log record is written. -/
def Dev.coreReset (d : Dev) (k : Nat) : Dev := ((d.epochUp k).abandon k).logEvent 5

/-- HIVE_WATCHDOG: core `k` has not refreshed the watchdog for 10 ms. -/
def execHiveWatchdog (k : Nat) (s : State) : Host.Outcome State Fault Refusal := onUnit Config.nCores k s fun d => d.coreReset k

/-- UNCORRECTABLE_HIVE_MEMORY_ERROR: the core that read it is reset (16 R359). -/
def execUncorrectableHiveMemoryError (k : Nat) (s : State) : Host.Outcome State Fault Refusal :=
  onUnit Config.nCores k s fun d => d.coreReset k

/-! ### Firmware (16 R362 to R364) -/

/-- A host write or doorbell is discarded and counted (16 HIVE_CNT.WRLOST). -/
def Dev.wrLost (d : Dev) : Dev := d.count Reg.HIVE_CNT 0 16 1

/-- HOST_STATUS.PHASE. -/
def Dev.phase (d : Dev) : Nat := fld (d.reg Reg.HOST_STATUS) 0 3
def Dev.setPhase (d : Dev) (p : Nat) : Dev := d.modReg Reg.HOST_STATUS fun v => setFld v 0 3 p

/-- BUSY: a load is in progress and staging is locked. -/
def Dev.fwBusy (d : Dev) : Bool := bit (d.reg Reg.HIVE_FW) 17

/-- HIVE_FW_GO (16 R363). A GO before the boot ROM waits for firmware is checked once it does (17 Table 17.4). -/
def Dev.fwGo (d : Dev) : Dev :=
  if d.fwBusy || d.hive.run then d.wrLost
  else
    let d := d.modReg Reg.HIVE_FW fun v => setBit v 17
    if d.phase = 2 ∨ d.phase = 5 then d.setPhase 3 else d

def execHiveFwGo (s : State) : Host.Outcome State Fault Refusal := onDev s Dev.fwGo

/-- Bytes of the staging memory. -/
def Dev.fwBytes (d : Dev) (off n : Nat) : List Byte := d.hive.staging.readN off n
def Dev.fwNat (d : Dev) (off n : Nat) : Nat := leNat (d.fwBytes off n)

/-- The checks of R363 item 3 on the image in staging. -/
def Dev.fwCheck (d : Dev) : W16 :=
  let len := d.fwNat 8 4
  let entry := d.fwNat 0x10 4
  let pub := d.fwBytes 0x20 97
  if d.fwNat 0 4 ≠ 0x48574631 ∨ len % 16 ≠ 0 ∨ len < 4096 ∨ 1048576 < len ∨ entry % 4 ≠ 0 ∨ entry < 0x200 ∨ len - 4 < entry then St.FW_INVALID
  else if sha384 pub ≠ Config.fwKeyDigest then St.FW_KEY
  else if ecdsaP384 pub (sha384 (d.fwBytes 0 0x100 ++ d.fwBytes 0x200 (len - 0x200))) (d.fwBytes 0x100 96) = false then St.FW_SIGNATURE
  else St.OK

/-- The image of `len` bytes in the staging memory, copied into a shared memory; its other bytes stay. -/
def Dev.fwImage (d : Dev) (len : Nat) (m : Memory) : Memory :=
  d.hive.staging.filter (fun e => decide (e.1 < len)) ++ m.filter fun e => decide (len ≤ e.1)

/-- The image in staging goes into both shared memories and runs in all four cores from ENTRY on. -/
def Dev.fwStart (d : Dev) : Dev :=
  ({ d with hive := { d.hive with
    shared := d.hive.shared.map (d.fwImage (d.fwNat 8 4)), entry := BitVec.ofNat 32 (d.fwNat 0x10 4)
    run := true, upNs := 0, fwver := BitVec.ofNat 32 (d.fwNat 4 4), ifmaj := BitVec.ofNat 8 (d.fwNat 0xC 1), ifmin := BitVec.ofNat 8 (d.fwNat 0xD 1)
    miss := [0, 0], claiming := [false, false], nack := [0, 0], demoted := [false, false] } } : Dev).setPhase 4

/-- FW_CHECK_COMPLETE (16 R363 items 4 and 5): both boot ROMs have checked the same image. -/
def Dev.fwChecked (d : Dev) : Dev :=
  if d.fwBusy = true ∧ d.phase = 3 then
    let st := d.fwCheck
    let d := d.modReg Reg.HIVE_FW fun v => clrBit (setFld v 0 16 st.toNat) 17
    if st = St.OK then d.fwStart else d.setPhase 5
  else d

def execFwCheckComplete (s : State) : Host.Outcome State Fault Refusal := onDev s Dev.fwChecked

/-- Negotiation is cleared (16 R377). -/
def Dev.negClear (d : Dev) : Dev := { d with hive := { d.hive with negMaj := none, negMin := 0, mismatch := false, agreed := 0 } }

/-- FW_RELOAD (16 R364). The phase is WAIT_FW while the cores wait for GO (log 52). -/
def Dev.fwReload (d : Dev) (m : Nat) : Dev :=
  if ((List.range Config.nRegions).any fun r => (d.region r).serving) || !d.wt.sessions.isEmpty then d.reply m St.REGION_STATE
  else
    let d := d.reply m St.OK
    let d := (List.range Config.nCores).foldl (fun d k => (d.epochUp k).abandon k) d
    let d := { d with
      hive := { d.hive with run := false, fwver := 0, began := [], noReply := [], late := [], payloads := [] }
      aon := { d.aon with owner := .nobody } }
    d.negClear.setPhase 2

def execFwReload (m : Nat) (s : State) : Host.Outcome State Fault Refusal := onHost m 0x0102 s fun d => d.fwReload m

/-! ### The authority latch (16 R365 to R369) -/

/-- The pair of a half as an owner, and its index. -/
def pairOwner (east : Bool) : Owner := if east then .east else .west
def pairIdx (east : Bool) : Nat := if east then 1 else 0

/-- LATCH_REFRESH: the owner's refresh reaches the latch, or goes unacknowledged; the second in a row demotes the owner. -/
def Dev.latchRefresh (d : Dev) (east ack : Bool) : Dev :=
  let i := pairIdx east
  if d.hive.run = false ∨ d.aon.owner ≠ pairOwner east ∨ d.hive.demoted.getD i false = true ∨ d.seamF east = true then d
  else if ack then { d with
    aon := { d.aon with since := 0 }
    hive := { d.hive with nack := d.hive.nack.set i 0 } }
  else
    let n := d.hive.nack.getD i 0 + 1
    { d with hive := { d.hive with nack := d.hive.nack.set i n, demoted := if n ≥ 2 then d.hive.demoted.set i true else d.hive.demoted } }

def execLatchRefresh (east ack : Bool) (s : State) : Host.Outcome State Fault Refusal := onDev s fun d => d.latchRefresh east ack

/-- HOST_STATUS.AUTHPREF: true names East. -/
def Dev.authPref (d : Dev) : Bool := bit (d.reg Reg.HOST_STATUS) 5

/-- Whether a pair claims (16 R366, R368): after a start the preferred pair, and the other one 2 ms later; a pair that misses heartbeats. -/
def Dev.claims (d : Dev) (east : Bool) : Bool :=
  d.hive.run && !d.seamF east &&
  (d.hive.claiming.getD (pairIdx east) false || (decide (d.aon.owner = .nobody) && (decide (d.authPref = east) || decide (d.hive.upNs ≥ 2000000))))

/-- What the latch accepts of a claim with expected epoch `x` (16 R365). -/
def Dev.claimOk (d : Dev) (x : BitVec 16) : Bool := decide (d.aon.owner = .nobody) || (d.stale && decide (d.aon.epoch = x))

/-- A record in force gets its COMMIT in all usable copies (16 R368 item 1, 07 R172); its mailbox is answered by item 2. -/
def Dev.finishRecords (d : Dev) : Dev :=
  match d.wt.jq with
  | p :: _ => if d.wt.jstage = 2 then d.stage3.afterRecord { p with reply := none } else d
  | [] => d

/-- A number that names no mailbox: commands that lost their mailbox and go on in other units answer there. -/
abbrev noMbox : Nat := 64

/-- Nothing goes on for a mailbox any more: what a unit still does for it gives no reply, records not in force are not written. -/
def Dev.mboxForget (d : Dev) : Dev :=
  { d with
    wt := { d.wt with
      jq := d.wt.jq.filter fun p => p.reply.isNone
      jstage := 0
      verifying := d.wt.verifying.map fun v => { v with m := none }
      swaps := d.wt.swaps.map fun w => { w with m := noMbox } }
    regions := d.regions.map fun e => (e.1, { e.2 with stopM := [], cancels := e.2.cancels.map fun c => (noMbox, c.2) })
    host := { d.host with dma := d.host.dma.filter fun e => match e.2 with | .payload _ _ _ => false | _ => true } }

/-- Every mailbox in RUNNING ends with AUTHORITY_LOST (16 R368 item 2). -/
def Dev.authorityLost (d : Dev) : Dev :=
  let d := d.mboxForget
  let d := { d with hive := { d.hive with began := [], noReply := [], late := [], payloads := [] } }
  (List.range Config.nMailboxes).foldl (fun d m => if d.mbState m = 2 then d.reply m St.AUTHORITY_LOST else d) d

/-- The cores of a pair are reset, and it restarts as the deputy (16 R368 item 3). -/
def Dev.pairReset (d : Dev) (east : Bool) : Dev :=
  let i := pairIdx east
  let d := (d.coreReset (2 * i)).coreReset (2 * i + 1)
  { d with hive := { d.hive with
    miss := d.hive.miss.set i 0, claiming := d.hive.claiming.set i false, nack := d.hive.nack.set i 0, demoted := d.hive.demoted.set i false } }

/-- A pair takes the latch. -/
def Dev.latchTake (d : Dev) (east : Bool) : Dev :=
  let i := pairIdx east
  { d with
    aon := { d.aon with owner := pairOwner east, epoch := d.aon.epoch + 1, since := 0 }
    hive := { d.hive with claiming := d.hive.claiming.set i false, nack := d.hive.nack.set i 0, demoted := d.hive.demoted.set i false } }

/-- LATCH_CLAIM: a failed claim changes nothing; a new authority completes the journal, ends the RUNNING mailboxes and resets the
former pair's cores. -/
def Dev.latchClaim (d : Dev) (east : Bool) (x : BitVec 16) : Dev :=
  if d.claims east && d.claimOk x then
    let former := d.aon.owner
    let d := ((d.latchTake east).logEvent 3).finishRecords.authorityLost
    if former = pairOwner (!east) then d.pairReset (!east) else d
  else d

def execLatchClaim (east : Bool) (x : BitVec 16) (s : State) : Host.Outcome State Fault Refusal := onDev s fun d => d.latchClaim east x

/-- HEARTBEAT_MISS: a pair misses a heartbeat of the other; after the third in a row it claims. -/
def Dev.heartbeatMiss (d : Dev) (east : Bool) : Dev :=
  let i := pairIdx east
  if d.hive.run then
    let n := d.hive.miss.getD i 0 + 1
    let go := decide (n ≥ 3) && !d.seamF east
    { d with hive := { d.hive with miss := d.hive.miss.set i n, claiming := if go then d.hive.claiming.set i true else d.hive.claiming } }
  else d

def execHeartbeatMiss (east : Bool) (s : State) : Host.Outcome State Fault Refusal := onDev s fun d => d.heartbeatMiss east

/-- HEARTBEAT: the heartbeat of a pair reaches the other: its miss count is 0 and its claiming ends. -/
def Dev.heartbeat (d : Dev) (east : Bool) : Dev :=
  let i := pairIdx (!east)
  { d with hive := { d.hive with miss := d.hive.miss.set i 0, claiming := d.hive.claiming.set i false } }

def execHeartbeat (east : Bool) (s : State) : Host.Outcome State Fault Refusal := onDev s fun d => d.heartbeat east

/-- The logical tiles of a half. -/
def tilesOfHalf (east : Bool) : List Nat := (List.range Config.nTiles).filter fun t => decide (eastTile t = east)

/-- The loaded regions with a tile in a half. -/
def Dev.regionsOfHalf (d : Dev) (east : Bool) : List Nat :=
  d.loaded.filter fun r => (d.region r).tileList.any fun t => decide (eastTile t = east)

/-- SEAM_FAULT (16 R369): the pair claims no more, its half's tiles are held, regions with a tile there enter FAULT; the authority, if
there is one, writes the record. -/
def Dev.seamFault (d : Dev) (east : Bool) : Dev :=
  if d.seamF east then d
  else
    let d := d.modReg Reg.HIVE_STATUS fun v => setBit v (if east then 4 else 3)
    let d := { d with hive := { d.hive with claiming := d.hive.claiming.set (pairIdx east) false } }
    let d := (d.regionsOfHalf east).foldl Dev.tripRegion d
    let held := d.modTiles (tilesOfHalf east) fun t => { t with stopped := true }
    let d := if d.seamF (!east) then held else held.alert
    if d.authority then d.record (errBase 9 11 St.SEAM_FAULT) else d

def execSeamFault (east : Bool) (s : State) : Host.Outcome State Fault Refusal := onDev s fun d => d.seamFault east

/-! ### Mailboxes (16 R372 to R376) -/

/-- MAILBOX_DOORBELL: FREE to POSTED; else discarded and counted. -/
def Dev.doorbell (d : Dev) (m : Nat) : Dev :=
  if d.mbState m = 0 then
    let d := d.setMbState m 1
    { d with hive := { d.hive with order := d.hive.order ++ [m] } }
  else d.wrLost

def execMailboxDoorbell (m : Nat) (s : State) : Host.Outcome State Fault Refusal := onUnit Config.nMailboxes m s fun d => d.doorbell m

/-- HIVE_MBOXFREE: each DONE mailbox whose bit is set becomes FREE. -/
def Dev.mboxFree (d : Dev) (v : W32) : Dev :=
  (List.range Config.nMailboxes).foldl (fun d m => if bit v m = true ∧ d.mbState m = 3 then d.setMbState m 0 else d) d

def execHiveMboxfree (v : W32) (s : State) : Host.Outcome State Fault Refusal := onDev s fun d => d.mboxFree v

/-- Opcodes of 16 Table 16.4. -/
def opKnown (op : Nat) : Bool :=
  decide (op % 256 < match op / 256 with | 1 => 3 | 2 => 12 | 3 => 2 | 4 => 15 | 5 => 5 | 6 => 2 | 7 => 5 | _ => 0)

/-- The restricted set of 16 R377. -/
def opRestricted (op : Nat) : Bool := decide (op / 256 = 7) || (decide (0x0100 ≤ op) && decide (op ≤ 0x0102))

/-- Opcodes whose REGION names a region; all others carry 0xFF (log 53). -/
def opRegion (op : Nat) : Bool :=
  [0x020A, 0x020B, 0x0300, 0x0301, 0x0401, 0x0402, 0x0403, 0x0404, 0x0405, 0x0407, 0x040B, 0x040C, 0x040D, 0x040E].contains op

/-- PLEN that an opcode requires, where the manual fixes it: payloads of a stated size, and commands without one (log 53). -/
def opPlen (op param0 : Nat) : Option Nat :=
  match op with
  | 0x0100 => some 64
  | 0x0400 => some 64
  | 0x0600 => some (if param0 / 256 % 2 = 1 then 32 else 0)
  | 0x0704 => some 96
  | _ => if [0x0101, 0x0102, 0x0301, 0x0401, 0x0402, 0x0403, 0x0404, 0x0601, 0x0703].contains op then some 0 else none

/-- The feature an opcode needs (16 R377). -/
def opFeature (op : Nat) : Option Nat :=
  match op with
  | 0x040E => some 0
  | 0x020A => some 5
  | 0x020B => some 5
  | 0x0703 => some 4
  | 0x0704 => some 4
  | _ => none

/-- The checks of R374, in order; the reserved bits of an indirect payload are checked when it has arrived. -/
def Dev.mbCheck (d : Dev) (m : Nat) : W16 :=
  let op := d.mbOpcode m
  let maj := d.mbNat m 0 1
  let plen := d.mbPlen m
  let region := d.mbRegion m
  let res := opRestricted op
  let badMaj := match d.hive.negMaj with | some a => decide (a.toNat ≠ maj) | none => false
  let badPlen := match opPlen op (d.mbNat m 16 4) with | some n => decide (plen ≠ n) | none => false
  let badReg := if opRegion op then decide (region ≥ Config.nRegions) else decide (region ≠ 0xFF)
  let badAddr := d.mbIndirect m && decide ((d.mbAddr m).toNat % 64 ≠ 0)
  let badBits := decide (d.mbNat m 12 4 / 1024 ≠ 0) || (!d.mbIndirect m && (d.message m).reserved)
  if plen > 65504 then St.LENGTH_INVALID
  else if !res && badMaj then St.VERSION_MISMATCH
  else if opKnown op = false then St.UNKNOWN_OPCODE
  else if !res && d.hive.negMaj.isNone then (if d.hive.mismatch then St.VERSION_MISMATCH else St.NOT_NEGOTIATED)
  else if plen > 4064 ∧ d.mbIndirect m = false then St.LENGTH_EXCEEDS
  else if badBits = true ∨ badReg = true ∨ badPlen = true ∨ badAddr = true then St.COMMAND_INVALID
  else match opFeature op with
    | some i => if d.feature i then St.OK else St.FEATURE_OFF
    | none => St.OK

/-- Commands of family 0x02 that write the journal or name an image pair. -/
def opImage (op : Nat) : Bool := decide (op / 256 = 2) && decide (op ≠ 0x0209)

/-- Whether a command waits for one that runs (16 R376): same region, journal or image pair (log 53), family 0x01 or 0x06. REGION_ABORT
takes effect at once, also while a REGION_STOP or a SEQ_CANCEL of its region waits (10 R266). -/
def cmdConflict (op region op2 region2 : Nat) : Bool :=
  let fam (o : Nat) : Bool := decide (o / 256 = 1) || decide (o / 256 = 6)
  fam op || fam op2 || (opImage op && opImage op2) ||
  (decide (region ≠ 0xFF) && decide (region = region2) && !(decide (op = 0x0404) && (decide (op2 = 0x0402) || decide (op2 = 0x0405))))

/-- The region that a message names: REGION, or that of the descriptor for RING_CONFIG. -/
def Dev.namedRegion (d : Dev) (m : Nat) : Nat :=
  let x := d.message m
  if x.op = 0x0400 ∧ x.payload ≠ [] then (x.payload.getD 1 0).toNat else x.region

/-- MAILBOX_TAKE: the authority takes the first POSTED message once no command that runs stands in its way; a failed check is its
reply, else the command runs, its payload fetched first under INDIRECT. -/
def Dev.mailboxTake (d : Dev) : Dev :=
  match d.hive.order with
  | [] => d
  | m :: rest =>
    let with_ (op r : Nat) : Bool := cmdConflict (d.mbOpcode m) (d.namedRegion m) op r
    let busy := ((List.range Config.nMailboxes).any fun k => decide (d.mbState k = 2) && with_ (d.mbOpcode k) (d.namedRegion k)) ||
      d.hive.late.any fun e => with_ e.2.op e.2.region
    if d.authority = false ∨ busy = true then d
    else
      let d := ({ d with hive := { d.hive with order := rest } } : Dev).setMbState m 2
      let st := d.mbCheck m
      if st ≠ St.OK then d.reply m st
      else if d.mbIndirect m = true ∧ d.mbPlen m ≠ 0 then d.issueDma (.payload m (d.mbAddr m) (d.mbPlen m))
      else d

def execMailboxTake (s : State) : Host.Outcome State Fault Refusal := onDev s Dev.mailboxTake

/-! ### Negotiation (16 R377, R378) -/

/-- HELLO. The reply carries FWVER, IFMAJ with IFMIN, and the boot ROM version (log 30); after a mismatch nothing is agreed. -/
def Dev.hello (d : Dev) (m : Nat) (q : HelloReq) : Dev :=
  let w : List W32 := [d.hive.fwver, BitVec.ofNat 32 (d.hive.ifmaj.toNat + 256 * d.hive.ifmin.toNat), Config.bootRomVersion]
  let bits : BitVec 256 := q.feats &&& Config.fwFeatures d.hive.fwver &&& 0x7F
  if q.maj = d.hive.ifmaj then
    let d := { d with hive := { d.hive with
      negMaj := some q.maj, negMin := if q.min.toNat ≤ d.hive.ifmin.toNat then q.min else d.hive.ifmin, mismatch := false, agreed := bits } }
    d.replyFull m St.OK 0 w (leBytes 32 bits.toNat)
  else
    let d := { d with hive := { d.hive with negMaj := none, negMin := 0, mismatch := true, agreed := 0 } }
    d.replyFull m St.VERSION_MISMATCH 0 w (leBytes 32 bits.toNat)

def execHello (m : Nat) (q : HelloReq) (s : State) : Host.Outcome State Fault Refusal := 
  onHostM m 0x0100 (fun x => decide (HelloReq.ofBytes x.payload = q)) s fun d => d.hello m q

/-- DEVICE_QUERY: HIVE_STATUS, FWVER, the agreed bitmap, WT_STATUS; their places are the model's (log 30). -/
def execDeviceQuery (m : Nat) (s : State) : Host.Outcome State Fault Refusal :=
  onHost m 0x0101 s fun d =>
    d.replyFull m St.OK 0 [d.hive.fwver] (leBytes 8 d.hiveStatus.toNat ++ leBytes 32 d.hive.agreed.toNat ++ leBytes 8 d.wtStatus.toNat)

/-! ### Log and trace (16 R382 to R384) -/

/-- A ring that keeps the ranges of R383; there are 2,048 vectors (17 R385). -/
def LogReq.ok (q : LogReq) : Bool := decide (q.addr.toNat % 64 = 0) && (decide (q.addr = 0) || (decide (6 ≤ q.log2) && decide (q.log2 ≤ 16) && decide (q.vector < 2048)))

/-- The ring of a request; address 0 disables it. -/
def LogReq.ring (q : LogReq) : Option DevRing := if q.addr = 0 then none else some ⟨q, 0, 0⟩

/-- LOG_CONFIG: buffered records move to the new ring. A value outside R383 is COMMAND_INVALID (log 32). -/
def Dev.logConfig (d : Dev) (m : Nat) (q : LogReq) : Dev :=
  if LogReq.ok q then (({ d with hive := { d.hive with logRing := LogReq.ring q } } : Dev).logFlush).reply m St.OK else d.reply m St.COMMAND_INVALID

def execLogConfig (m : Nat) (q : LogReq) (s : State) : Host.Outcome State Fault Refusal := onHost m 0x0700 s fun d => d.logConfig m q

/-- LOG_CONSUMER_INDEX: room is freed, and buffered records move. -/
def Dev.logConsumer (d : Dev) (idx : W32) : Dev :=
  ({ d with hive := { d.hive with logRing := d.hive.logRing.map fun g => { g with cons := idx } } } : Dev).logFlush

def execLogConsumerIndex (idx : W32) (s : State) : Host.Outcome State Fault Refusal := onDev s fun d => d.logConsumer idx

/-- TRACE_CONFIG: the trace ring, or with the query flag the descriptions of the trace points. -/
def Dev.traceConfig (d : Dev) (m : Nat) (query : Bool) (q : LogReq) : Dev :=
  if query then d.replyItems m [] Config.tracePoints
  else if LogReq.ok q then ({ d with hive := { d.hive with traceRing := LogReq.ring q } } : Dev).reply m St.OK
  else d.reply m St.COMMAND_INVALID

def execTraceConfig (m : Nat) (query : Bool) (q : LogReq) (s : State) : Host.Outcome State Fault Refusal :=
  onHostM m 0x0701 (queryFits query) s fun d => d.traceConfig m query q

/-- TRACE_CONSUMER_INDEX. -/
def Dev.traceConsumer (d : Dev) (idx : W32) : Dev :=
  { d with hive := { d.hive with traceRing := d.hive.traceRing.map fun g => { g with cons := idx } } }

def execTraceConsumerIndex (idx : W32) (s : State) : Host.Outcome State Fault Refusal := onDev s fun d => d.traceConsumer idx

/-! ### Debug unlock (17 R403) -/

/-- DEBUG_CHALLENGE: a new nonce, which is a free value, and the serial number; an older nonce is void. -/
def Dev.debugChallenge (d : Dev) (m : Nat) : Dev :=
  let c := d.ctr
  let nonce : List Byte := (List.range 32).map fun i => BitVec.ofNat 8 (Config.freeAt c i)
  ({ d.drawn with hive := { d.hive with nonce := some nonce } } : Dev).replyFull m St.OK 0 [] (nonce ++ leBytes 8 Config.serial.toNat)

def execDebugChallenge (m : Nat) (s : State) : Host.Outcome State Fault Refusal := onHost m 0x0703 s fun d => d.debugChallenge m

/-- Whether a signature unlocks a scope under the nonce in hand. -/
def Dev.unlocks (d : Dev) (scope : BitVec 3) (sig : List Byte) : Bool :=
  match d.hive.nonce with
  | some n => decide (d.hive.fails < 3) && ecdsaP384 Config.debugKey (sha384 (n ++ leBytes 8 Config.serial.toNat ++ leBytes 1 scope.toNat)) sig
  | none => false

/-- DEBUG_UNLOCK: each nonce serves one; a refusal counts as a failure. -/
def Dev.debugUnlock (d : Dev) (m : Nat) (scope : BitVec 3) (sig : List Byte) : Dev :=
  let ok := d.unlocks scope sig
  let h := d.hive
  let d := { d with hive := { h with nonce := none, scope := if ok then h.scope ||| scope else h.scope, fails := if ok then h.fails else h.fails + 1 } }
  d.reply m (if ok then St.OK else St.DEBUG_DENIED)

def execDebugUnlock (m : Nat) (scope : BitVec 3) (sig : List Byte) (s : State) : Host.Outcome State Fault Refusal :=
  onHostM m 0x0704 (unlockFits scope sig) s fun d => d.debugUnlock m scope sig

end Sys2Proof.Machine
end

