-- ==== Sys2Proof/Machine/DevReg.lean ====
section
/-! DEFINITION. Reads and writes of BAR0 registers and of the registers of tiles by the host or a Scarab (00 R3, R7, 04 R89, 17 R386,
R387): captures, read side effects, and the own effect of each register. -/

namespace Sys2Proof.Machine

/-! ### Reads -/

/-- The read side effect of a BAR0 register. -/
def Dev.devAfterRead (d : Dev) (a : Nat) : Dev :=
  match devRow a with
  | some r => if r.rc = 0 then d else d.setReg a (r.afterRead (d.reg a))
  | none => d

/-- A 32-bit read of BAR0 (04 R89). An offset that no map assigns reads zero (17 R386). -/
def Dev.devRead32 (d : Dev) (off : Nat) : Dev × W32 :=
  let a := off / 8 * 8
  if (devRow a).isNone ∨ off % 4 ≠ 0 then (d, 0)
  else if off % 8 = 0 then
    let v := d.devVal a
    ({ d.devAfterRead a with hostCap := some (a, v) }, lo32 v)
  else
    match d.hostCap with
    | some (k, v) => (d, if k = a then hi32 v else hi32 (d.devVal a))
    | none => (d, hi32 (d.devVal a))

/-- A 64-bit read of BAR0. -/
def Dev.devRead64 (d : Dev) (a : Nat) : Dev × W64 := if (devRow a).isNone then (d, 0) else (d.devAfterRead a, d.devVal a)

/-! ### Effects of writes -/

/-- CIC_CTL (13 R310, R317): a change of MODE while a region is RUNNING, STOPPING or HELD discards the write; clearing JOIN leaves the ring. -/
def Dev.cicCtlWrite (d : Dev) (n : W64) : Dev :=
  let old := d.reg Reg.CIC_CTL
  if bit old 0 ≠ bit n 0 ∧ ((List.range Config.nRegions).any fun r => (d.region r).serving) = true then d.cicErr 6
  else if bit old 1 = true ∧ bit n 1 = false then (d.setReg Reg.CIC_CTL n).joinClear
  else d.setReg Reg.CIC_CTL n

/-- CIC_BARk (13): a new ID clears COUNT. -/
def Dev.cicBarWrite (d : Dev) (a : Nat) (n : W64) : Dev :=
  d.setReg a (if fld n 0 32 = fld (d.reg a) 0 32 then n else setFld n 44 12 0)

/-- PORT_CTLp (12 R305, R307): EN trains or stops the port. -/
def Dev.portCtlWrite (d : Dev) (p : Nat) (n : W64) : Dev :=
  let a := Reg.PORT_CTL + 0x200 * p
  let d := d.setReg a (putBit n 0 (bit (d.reg a) 0))
  if bit n 0 then (if d.portEn p then d else d.portEnable p) else d.portDisable p

/-- SRV_RCFGr and SRV_RCFG2r (10): stored outside service, when NMAX is at most 16,384; else CFGLOST. -/
def Dev.srvCfgWrite (d : Dev) (a r : Nat) (n : W64) (nmaxOk : Bool) : Dev :=
  if (d.region r).serving || !nmaxOk then d.modReg (Reg.SRV_STATE + 8 * r) fun v => setBit v 3 else d.setReg a n

/-- HIVE_LOCKCMD by requester `k` (16 R370). -/
def Dev.lockCmd (d : Dev) (k : Nat) (v : W64) : Dev :=
  match fld v 6 2 with
  | 0 => d.lockAcquire k (fld v 0 6)
  | 1 => d.lockRelease k (fld v 0 6)
  | _ => d

/-- PWR_ERR (14 R334): clearing TRIP may release THERM_N. -/
def Dev.pwrErrWrite (d : Dev) (n : W64) : Dev :=
  ({ d.setReg Reg.PWR_ERR n with aon := { d.aon with trip := bit n 4 } } : Dev).thermRelease

/-- Whether a register of an array of `count` words of 8 bytes lies at an address. -/
def inArr (a first count : Nat) : Bool := decide (first ≤ a) && decide (a < first + 8 * count)

/-- Registers of the HOST, HIVE, WT and SRV blocks with an effect of their own; none for the others. `n` is what the access produces. -/
def Dev.devEffect0 (d : Dev) (a : Nat) (m v n : W64) : Option Dev :=
  if a = Reg.HIVE_FW then some (if bit (m &&& v) 16 then d.fwGo else d)
  else if a = Reg.HIVE_MBOXFREE then some (d.mboxFree (lo32 (m &&& v)))
  else if a = Reg.HIVE_LOCKCMD then some (if bit m 0 then d.lockCmd 4 v else d)
  else if a = Reg.HOST_RSTCAUSE then some { d with aon := { d.aon with rstcause := d.aon.rstcause &&& ~~~(BitVec.ofNat 5 (m &&& v).toNat) } }
  else if inArr a Reg.WT_XMAP_NEXT 64 then
    some (if d.swapArmed ((a - Reg.WT_XMAP_NEXT) / 8) then d.modReg Reg.WT_ERR fun e => setBit e 5 else d.setReg a n)
  else if inArr a Reg.SRV_RCFG 64 then some (d.srvCfgWrite a ((a - Reg.SRV_RCFG) / 8) n (decide (fld n 48 15 ≤ 16384)))
  else if inArr a Reg.SRV_RCFG2 64 then some (d.srvCfgWrite a ((a - Reg.SRV_RCFG2) / 8) n true)
  else none

/-- The same for the PORT, CIC, PWR and FLT blocks. -/
def Dev.devEffect1 (d : Dev) (a : Nat) (m v n : W64) : Option Dev :=
  if Reg.PORT_CTL ≤ a ∧ a < Reg.PORT_DEVID ∧ (a - Reg.PORT_CTL) % 0x200 = 0 then some (d.portCtlWrite ((a - Reg.PORT_CTL) / 0x200) n)
  else if a = Reg.PORT_DEVID then some (if d.loaded.isEmpty then d.setReg a n else d)
  else if a = Reg.CIC_CTL then some (d.cicCtlWrite n)
  else if a = Reg.CIC_SET then some (d.cicSet (m &&& v))
  else if a = Reg.CIC_FSW then some (if bit m 0 then d.cicFsw (BitVec.ofNat 6 (fld v 0 6)) (bit v 6) else d)
  else if inArr a Reg.CIC_BAR 16 then some (d.cicBarWrite a n)
  else if a = Reg.PWR_WIN then some (if bit m 0 then d.pwrWinWrite n else d)
  else if a = Reg.PWR_LIMIT then
    some (if bit m 0 then d.pwrBudgetWrite a n else if fld n 28 6 ≤ 28 then d.setReg a n else d)
  else if inArr a Reg.PWR_REGCFG 64 then some (d.pwrBudgetWrite a n)
  else if a = Reg.PWR_TEMP then some (if fld n 0 8 ≤ 105 then d.setReg a n else d)
  else if a = Reg.PWR_ERR then some (d.pwrErrWrite n)
  else if inArr a Reg.FLT_GROUP 64 then some (if (d.region ((a - Reg.FLT_GROUP) / 8)).serving then d else d.setReg a n)
  else none

/-- A host's write of the lanes `m` of `v` to the 64-bit register at offset `a` of BAR0 (00 R3, R7, 04 R89). -/
def Dev.devWrite (d : Dev) (a : Nat) (m v : W64) : Dev :=
  match devRow a with
  | none => d
  | some r =>
    let n := r.write m (d.reg a) v
    match d.devEffect0 a m v n with
    | some d' => d'
    | none => (d.devEffect1 a m v n).getD (d.setReg a n)

/-- A 32-bit write to BAR0; an unassigned offset is discarded (17 R386). -/
def Dev.devWrite32 (d : Dev) (off : Nat) (v : W32) : Dev :=
  if off % 4 = 0 then d.devWrite (off / 8 * 8) (laneMask (off % 8)) (BitVec.ofNat 64 (v.toNat * 2 ^ (8 * (off % 8)))) else d

/-! ### CAPTURE_READ and REGISTER_WRITE -/

/-- The host receives what it read. -/
def Dev.answer (p : Dev × W32) : Dev := p.1.emit (.readData (BitVec.ofNat 64 p.2.toNat))

/-- CAPTURE_READ: a 32-bit read of a register word by the host or a Scarab (04 R89). A Scarab reaches its own tile's registers only. -/
def execCaptureRead (who : Requester) (a : RegAddr) (s : State) : Host.Outcome State Fault Refusal :=
  match a with
  | .tile t off =>
    onTile t s fun d =>
      match who with
      | .host => Dev.answer (if ctlValid off then d.tileRead32 .host t off else (d, 0))
      | .scarab => if ctlValid off then (d.tileRead32 .scarab t off).1 else d
  | .dev off =>
    onDev s fun d =>
      match who with
      | .host => Dev.answer (d.devRead32 off)
      | .scarab => d

/-- REGISTER_WRITE: a write by access type, or a discarded one (00 R3, R7); `wide` says that it covers the 64 bits. -/
def execRegisterWrite (who : Requester) (a : RegAddr) (wide : Bool) (v : W64) (s : State) : Host.Outcome State Fault Refusal :=
  match a with
  | .tile t off => onTile t s fun d => if wide then (if off % 8 = 0 then d.tileWrite64 t off v else d) else d.tileWrite32 t off (lo32 v)
  | .dev off =>
    onDev s fun d =>
      match who with
      | .host => if wide then (if off % 8 = 0 then d.devWrite off fullMask v else d) else d.devWrite32 off (lo32 v)
      | .scarab => d

end Sys2Proof.Machine
end

