-- ==== Sys2Proof/Machine/Trans.lean ====
section
/-! DEFINITION. The transcendental functions of FTRN (05 R124, Table 5.5). Special cases are exact; every
other result is one of the FP32 values within the function's bound, and Config.ftrnChoice says which
(log 13). The exact value is computed in fixed point with 420 fraction bits. -/

namespace Sys2Proof.Machine

/-- Fraction bits of the fixed-point values. -/
def fxF : Nat := 420

/-- One in fixed point. -/
def fxOne : Int := 2 ^ 420

/-- Product of two fixed-point values. -/
def fxMul (a b : Int) : Int := a * b / fxOne

/-- Σ over j of t × (r/s)^j ÷ (k+2j) from k up: the tails of the inverse tangent series. -/
def fxSeries : Nat → Nat → Int → Int → Int → Int
  | 0, _, _, _, _ => 0
  | n + 1, k, t, r, s => t / (k : Int) + fxSeries n (k + 2) (t * r / s) r s

/-- ln 2 = 2 artanh(1/3). -/
def fxLn2 : Int := 2 * fxSeries 140 1 (fxOne / 3) 1 9

/-- π by Machin's formula. -/
def fxPi : Int := 16 * fxSeries 100 1 (fxOne / 5) (-1) 25 - 4 * fxSeries 40 1 (fxOne / 239) (-1) 57121

/-- Σ of t × r^j ÷ (k(k+1)…): the exponential series. -/
def fxExpAux : Nat → Nat → Int → Int → Int
  | 0, _, _, _ => 0
  | n + 1, k, t, r => t + fxExpAux n (k + 1) (fxMul t r / (k : Int)) r

/-- e^r for 0 ≤ r < 1. -/
def fxExp (r : Int) : Int := fxExpAux 110 1 fxOne r

/-- Σ of t × (−r²)^j ÷ (k(k+1)(k+2)…): the sine and cosine series. -/
def fxTrigAux : Nat → Nat → Int → Int → Int
  | 0, _, _, _ => 0
  | n + 1, k, t, r2 => t + fxTrigAux n (k + 2) (-(fxMul t r2) / ((k * (k + 1) : Nat) : Int)) r2

/-- sin r for 0 ≤ r < 2. -/
def fxSin (r : Int) : Int := fxTrigAux 60 2 r (fxMul r r)

/-- cos r for 0 ≤ r < 2. -/
def fxCos (r : Int) : Int := fxTrigAux 60 1 fxOne (fxMul r r)

/-- m × 2^e in fixed point. -/
def fxOf (m : Nat) (e : Int) : Int := if 0 ≤ e + 420 then (m * 2 ^ (e + 420).toNat : Nat) else ((m / 2 ^ (-(e + 420)).toNat : Nat) : Int)

/-- 2^x for x in fixed point, as a magnitude and an exponent. -/
def fxExp2 (x : Int) : Nat × Int :=
  let n := x / fxOne
  ((fxExp (fxMul (x - n * fxOne) fxLn2)).toNat, n - 420)

/-- log2 of m × 2^e in fixed point. -/
def fxLog2 (m : Nat) (e : Int) : Int :=
  let k := Nat.log2 m
  let a := fxOf m (-(k : Int))
  let (a, k') : Int × Int := if 3 * a > 4 * fxOne then (a / 2, e + k + 1) else (a, e + k)
  let z := (a - fxOne) * fxOne / (a + fxOne)
  let ln := 2 * fxSeries 110 1 z (fxMul z z) fxOne
  k' * fxOne + ln * fxOne / fxLn2

/-- tanh x for x ≥ 0 in fixed point. -/
def fxTanh (x : Int) : Int :=
  let n := 2 * x / fxLn2
  let y := fxExp (2 * x - n * fxLn2) * 2 ^ n.toNat
  (y - fxOne) * fxOne / (y + fxOne)

/-- Quadrant and remainder of m × 2^e by π/2. -/
def fxReduce (m : Nat) (e : Int) : Nat × Int :=
  let x := fxOf m e
  let h := fxPi / 2
  ((x / h % 4).toNat, x % h)

/-- sin of m × 2^e. -/
def fxSinOf (m : Nat) (e : Int) : Int :=
  match fxReduce m e with
  | (0, r) => fxSin r
  | (1, r) => fxCos r
  | (2, r) => -fxSin r
  | (_, r) => -fxCos r

/-- cos of m × 2^e. -/
def fxCosOf (m : Nat) (e : Int) : Int :=
  match fxReduce m e with
  | (0, r) => fxCos r
  | (1, r) => -fxSin r
  | (2, r) => -fxCos r
  | (_, r) => fxSin r

/-- The magnitude of an FP32 code without sign, in units of 2^−149; infinity stands for 2^128. -/
def code32 (c : Nat) : Nat :=
  let e := c / 2 ^ 23
  if e = 0 then c else (2 ^ 23 + c % 2 ^ 23) * 2 ^ (e - 1)

/-- Whether code `c` lies within `b` units in the last place of M × 2^e (05 R124). -/
def withinUlp (b m : Nat) (e : Int) (c : Nat) : Bool :=
  let u : Int := max (floorLog m e) (-126) - 23
  let d := (dySum false (code32 c) (-149) true m e)
  let lim := (dySum false d.1.natAbs d.2 true b u).1
  decide (lim ≤ 0)

/-- An FP32 result within `b` ulp of ±M × 2^e that is not exact: one of the codes the bound allows, with its flags. -/
def ftrnPick (fn x b : Nat) (neg : Bool) (m : Nat) (e : Int) : Nat × VFlags :=
  let c := (fp32.roundMag m e).1
  let r :=
    if c ≥ 0x7F800000 then 0x7F800000
    else
      let cs := ([c - 2, c - 1, c, c + 1, c + 2].filter (withinUlp b m e)).eraseDups
      cs.getD (Config.ftrnChoice fn (BitVec.ofNat 32 x) % cs.length) c
  let fl := if r = 0x7F800000 then fOVERFLOW ||| fINEXACT
    else if r < 0x00800000 then fUNDERFLOW ||| fINEXACT else fINEXACT
  (fp32.sign neg + r, fl)

/-- The largest power of two that divides m is m itself: m × 2^e is a power of two. -/
def isPow2 (m : Nat) : Bool := decide (m = 2 ^ Nat.log2 m)

/-- FTRN on one FP32 operand (05 Table 5.5). NaN operands give the canonical NaN without a flag. -/
def ftrn (fn x : Nat) : Nat × VFlags :=
  let inf := 0x7F800000
  let nan := 0x7FC00000
  match fp32.decode x with
  | .nan _ => (nan, 0)
  | .inf n =>
    match fn with
    | 0 => if n then (0, 0) else (inf, 0)
    | 1 => if n then (nan, fINVALID) else (inf, 0)
    | 2 => (fp32.sign n, 0)
    | 3 => if n then (nan, fINVALID) else (0, 0)
    | 4 => (fp32.sign n + 0x3F800000, 0)
    | _ => (nan, fINVALID)
  | .fin n m e =>
    match fn with
    | 0 =>
      if m = 0 then (0x3F800000, 0)
      else
        let xi : Int := if n then -(fxOf m e) else fxOf m e
        if xi ≥ 128 * fxOne then (inf, fOVERFLOW ||| fINEXACT)
        else if xi % fxOne = 0 ∧ xi ≥ -149 * fxOne then ((fp32.roundMag 1 (xi / fxOne)).1, 0)
        else if xi < -149 * fxOne then
          (if Config.ftrnChoice fn (BitVec.ofNat 32 x) % 2 = 0 then 0 else 1, fUNDERFLOW ||| fINEXACT)
        else
          let (a, k) := fxExp2 xi
          ftrnPick fn x 2 false a k
    | 1 =>
      if m = 0 then (fp32.sign true + inf, fDIVZERO)
      else if n then (nan, fINVALID)
      else if isPow2 m then fp32.encode false (.ofInt (e + Nat.log2 m) 0)
      else
        let y := fxLog2 m e
        ftrnPick fn x 2 (decide (y < 0)) y.natAbs (-420)
    | 2 =>
      if m = 0 then (fp32.sign n + inf, fDIVZERO)
      else if isPow2 m then fp32.encode false (.fin n 1 (-(e + Nat.log2 m)))
      else ftrnPick fn x 1 n (2 ^ 200 / m) (-200 - e)
    | 3 =>
      if m = 0 then (fp32.sign n + inf, fDIVZERO)
      else if n then (nan, fINVALID)
      else
        let odd := (e % 2).toNat
        let m' := m * 2 ^ odd
        let e' := e - odd
        if isPow2 m' && decide (Nat.log2 m' % 2 = 0) then fp32.encode false (.fin false 1 (-(e' + Nat.log2 m') / 2))
        else ftrnPick fn x 1 false (isqrt 210 (2 ^ 400 / m')) (-200 - e' / 2)
    | 4 =>
      if m = 0 then (fp32.sign n, 0)
      else if fxOf m e * 10 ≥ 91 * fxOne then (fp32.sign n + 0x3F800000, fINEXACT)
      else ftrnPick fn x 2 n (fxTanh (fxOf m e)).natAbs (-420)
    | 5 =>
      if m = 0 then (fp32.sign n, 0)
      else
        let y := fxSinOf m e
        ftrnPick fn x 2 (n != decide (y < 0)) y.natAbs (-420)
    | _ =>
      if m = 0 then (0x3F800000, 0)
      else
        let y := fxCosOf m e
        ftrnPick fn x 2 (decide (y < 0)) y.natAbs (-420)

end Sys2Proof.Machine
end

