-- ==== Sys2Proof/Machine/Flags.lean ====
section
/-! DEFINITION. The element functions of the vector engine with their flags (05 Table 5.3, R119 to R124, Table 5.6): a
function takes the codes of the elements of A, B and C and gives the code of the result and the flags it raises. -/

namespace Sys2Proof.Machine

/-- An element function. -/
abbrev ElFn := Nat → Nat → Nat → Nat × VFlags

/-- The width in bits of the lane elements of a type: types narrower than 8 bits are handled byte by byte (05 R422). -/
def laneWidth (ty : Nat) : Nat := max 8 (tyWidth ty)

/-- The format of a floating-point lane type. -/
def laneFp (ty : Nat) : FpFmt := (tyFp ty).getD fp32

/-- One rounding of an exact result, with the flags of both (05 R119). -/
def fpRes (f : FpFmt) (r : Val × VFlags) : Nat × VFlags :=
  let e := f.encode false r.1
  (e.1, r.2 ||| e.2)

/-- FADD, FSUB, FMUL, FFMA. -/
def fnFadd (ty : Nat) : ElFn := fun a b _ => let f := laneFp ty; fpRes f (Val.add (f.decode a) (f.decode b))
def fnFsub (ty : Nat) : ElFn := fun a b _ => let f := laneFp ty; fpRes f (Val.add (f.decode a) (f.decode b).negate)
def fnFmul (ty : Nat) : ElFn := fun a b _ => let f := laneFp ty; fpRes f (Val.mul (f.decode a) (f.decode b))
def fnFfma (ty : Nat) : ElFn := fun a b c => let f := laneFp ty; fpRes f (Val.fma (f.decode a) (f.decode b) (f.decode c))

/-- FMIN and FMAX (05 R119): NaN if either is NaN, and −0 < +0. -/
def fnMinMax (ty : Nat) (mx : Bool) : ElFn := fun a b _ =>
  let f := laneFp ty
  let x := f.decode a
  let y := f.decode b
  if x.isNan || y.isNan then (f.nanCode, flagIf (x.isSnan || y.isSnan) fINVALID)
  else
    let less := Val.lt x y || (!Val.lt y x && x.neg && !y.neg)
    (if less != mx then a else b, 0)

/-- The all-ones or zero element of a width. -/
def boolEl (w : Nat) (b : Bool) : Nat := if b then 2 ^ w - 1 else 0

/-- FCMP: 0 EQ, 1 LT, 2 LE, 3 UNORD (05 R119). -/
def fnFcmp (ty fn : Nat) : ElFn := fun a b _ =>
  let f := laneFp ty
  let x := f.decode a
  let y := f.decode b
  let nan := x.isNan || y.isNan
  let quiet := flagIf (x.isSnan || y.isSnan) fINVALID
  match fn with
  | 0 => (boolEl f.width (!nan && Val.eq x y), quiet)
  | 1 => (boolEl f.width (!nan && Val.lt x y), flagIf nan fINVALID)
  | 2 => (boolEl f.width (!nan && !Val.lt y x), flagIf nan fINVALID)
  | _ => (boolEl f.width nan, quiet)

/-- FSGN: 0 ABS, 1 NEG, 2 COPYSIGN; no flags, and NaN payloads are kept. -/
def fnFsgn (ty fn : Nat) : ElFn := fun a b _ =>
  let s := 2 ^ ((laneFp ty).width - 1)
  match fn with
  | 0 => (a % s, 0)
  | 1 => (a % s + (if a / s % 2 = 1 then 0 else s), 0)
  | _ => (a % s + b / s % 2 * s, 0)

/-- FDIV and FSQRT, correctly rounded. -/
def fnFdiv (ty : Nat) : ElFn := fun a b _ => let f := laneFp ty; fpRes f (Val.div (f.decode a) (f.decode b))
def fnFsqrt (ty : Nat) : ElFn := fun a _ _ => let f := laneFp ty; fpRes f (Val.sqrt (f.decode a))

/-- FTRN (05 R124). -/
def fnFtrn (fn : Nat) : ElFn := fun a _ _ => ftrn fn a

/-- An integer result that wraps (FN = 0) or saturates with SAT (05 R121). -/
def intRes (w fn : Nat) (i : Int) : Nat × VFlags :=
  if fn = 0 then (intBits w i, 0)
  else if i > 2 ^ (w - 1) - 1 then (2 ^ (w - 1) - 1, fSAT)
  else if i < -(2 ^ (w - 1)) then (2 ^ (w - 1), fSAT)
  else (intBits w i, 0)

/-- IADD, ISUB, IMUL. -/
def fnIadd (w fn : Nat) : ElFn := fun a b _ => intRes w fn (sInt w a + sInt w b)
def fnIsub (w fn : Nat) : ElFn := fun a b _ => intRes w fn (sInt w a - sInt w b)
def fnImul (w fn : Nat) : ElFn := fun a b _ => intRes w fn (sInt w a * sInt w b)

/-- IMIN and IMAX, signed. -/
def fnImin (w : Nat) : ElFn := fun a b _ => (if sInt w a ≤ sInt w b then a else b, 0)
def fnImax (w : Nat) : ElFn := fun a b _ => (if sInt w a ≤ sInt w b then b else a, 0)

/-- ILOG: 0 AND, 1 OR, 2 XOR, 3 ANDN. -/
def fnIlog (w fn : Nat) : ElFn := fun a b _ =>
  match fn with
  | 0 => (a &&& b, 0)
  | 1 => (a ||| b, 0)
  | 2 => (a ^^^ b, 0)
  | _ => (a &&& (2 ^ w - 1 - b % 2 ^ w), 0)

/-- ISH: 0 SLL, 1 SRL, 2 SRA, by B modulo the width. -/
def fnIsh (w fn : Nat) : ElFn := fun a b _ =>
  let k := b % w
  match fn with
  | 0 => (a * 2 ^ k % 2 ^ w, 0)
  | 1 => (a / 2 ^ k, 0)
  | _ => (intBits w (sInt w a / 2 ^ k), 0)

/-- ICMP: 0 EQ, 1 LT, 2 LTU. -/
def fnIcmp (w fn : Nat) : ElFn := fun a b _ =>
  match fn with
  | 0 => (boolEl w (decide (a = b)), 0)
  | 1 => (boolEl w (decide (sInt w a < sInt w b)), 0)
  | _ => (boolEl w (decide (a < b)), 0)

/-- SEL and MOV. -/
def fnSel : ElFn := fun a b c => (if c ≠ 0 then a else b, 0)
def fnMov : ElFn := fun a _ _ => (a, 0)

/-! ### Reductions (05 R120) -/

/-- What two elements combine to under RED: 0 SUM, 1 MAX, 2 MIN. -/
def redFn (ty fn : Nat) : Nat → Nat → Nat × VFlags :=
  if ty = 1 then
    match fn with
    | 0 => fun a b => fnIadd 32 0 a b 0
    | 1 => fun a b => fnImax 32 a b 0
    | _ => fun a b => fnImin 32 a b 0
  else
    match fn with
    | 0 => fun a b => fnFadd ty a b 0
    | 1 => fun a b => fnMinMax ty true a b 0
    | _ => fun a b => fnMinMax ty false a b 0

/-- What stands for a masked element in a reduction (05 R112). -/
def redId (ty fn : Nat) : Nat :=
  let f := laneFp ty
  if ty = 1 then (match fn with | 0 => 0 | 1 => 2 ^ 31 | _ => 2 ^ 31 - 1)
  else match fn with
    | 0 => f.sign true
    | 1 => f.sign true + f.infCode
    | _ => f.infCode

/-- One level of the tree: adjacent pairs combine. -/
def redLevel (g : Nat → Nat → Nat × VFlags) : List Nat → List Nat × VFlags
  | a :: b :: l =>
    let r := g a b
    let rs := redLevel g l
    (r.1 :: rs.1, r.2 ||| rs.2)
  | l => (l, 0)

/-- The tree of `depth` levels. -/
def redTree (g : Nat → Nat → Nat × VFlags) : Nat → List Nat → Nat × VFlags
  | 0, l => (l.headD 0, 0)
  | n + 1, l =>
    let r := redLevel g l
    let rs := redTree g n r.1
    (rs.1, r.2 ||| rs.2)

/-! ### Random numbers (05 R128): Philox-4x32-10 (log 27) -/

/-- One round on the counter words under a key. -/
def philoxRound (k0 k1 : W32) (x : W32 × W32 × W32 × W32) : W32 × W32 × W32 × W32 :=
  let p0 := 0xD2511F53 * x.1.toNat
  let p1 := 0xCD9E8D57 * x.2.2.1.toNat
  (BitVec.ofNat 32 (p1 / 2 ^ 32) ^^^ x.2.1 ^^^ k0, BitVec.ofNat 32 p1, BitVec.ofNat 32 (p0 / 2 ^ 32) ^^^ x.2.2.2 ^^^ k1, BitVec.ofNat 32 p0)

/-- `n` rounds; the key advances between them. -/
def philox : Nat → W32 → W32 → W32 × W32 × W32 × W32 → W32 × W32 × W32 × W32
  | 0, _, _, x => x
  | n + 1, k0, k1, x => philox n (k0 + 0x9E3779B9) (k1 + 0xBB67AE85) (philoxRound k0 k1 x)

/-- The four output words at a counter. -/
def philoxWords (seed : W64) (t : Nat) (p : W32) (stream : BitVec 16) (step : W64) : List Nat :=
  let k0 : W32 := BitVec.ofNat 32 seed.toNat ^^^ BitVec.ofNat 32 t
  let k1 : W32 := BitVec.ofNat 32 (seed.toNat / 2 ^ 32)
  let o := philox 10 k0 k1 (p, stream.setWidth 32, BitVec.ofNat 32 step.toNat, BitVec.ofNat 32 (step.toNat / 2 ^ 32))
  [o.1.toNat, o.2.1.toNat, o.2.2.1.toNat, o.2.2.2.toNat]

/-- The elements of unit `i` of a RAND from position `p0`. -/
def randUnit (ty : Nat) (seed : W64) (t : Nat) (p0 : W32) (stream : BitVec 16) (step : W64) (i : Nat) : List Nat :=
  let ws (k : Nat) : List Nat := philoxWords seed t (p0 + BitVec.ofNat 32 (16 * i + k)) stream step
  let words := (List.range 16).flatMap ws
  match ty with
  | 1 => words
  | 4 => words.map fun u => (fp32.encode false (.fin false (u / 2 ^ 8) (-24))).1
  | _ => (List.range 32).map fun j =>
      let u := words.getD (2 * j) 0 + words.getD (2 * j + 1) 0 * 2 ^ 32
      (fp64.encode false (.fin false (u / 2 ^ 11) (-53))).1

end Sys2Proof.Machine
end

