-- ==== Sys2Proof/Machine/Vector.lean ====
section
/-! DEFINITION. The vector engine's commands (05): each executes the head of the queue when that is an instruction of its
operation (R117), and retirement (R122, R123). -/

namespace Sys2Proof.Machine

/-! ### The operand cache (05 R110) -/

/-- What a byte of the operand cache holds when nothing was written to it: zero, or a free value after an abort (05 R130,
log 14). -/
def Tile.ocD (t : Tile) (a : Nat) : Byte :=
  match t.ocSeed with
  | none => 0
  | some s => BitVec.ofNat 8 (Config.freeAt s a)

/-- `n` bytes of the operand cache from byte `a`. -/
def Tile.ocRead (t : Tile) (a n : Nat) : List Byte := (List.range n).map fun i => SMap.get t.ocD t.ocache (a + i)

/-- Writes bytes of the operand cache from byte `a`. -/
def Tile.ocWrite (t : Tile) (a : Nat) (bs : List Byte) : Tile :=
  { t with ocache := (bs.zipIdx).foldl (fun m e => SMap.set t.ocD m (a + e.2) e.1) t.ocache }

/-- The elements of width `w` of entry `e`. -/
def Tile.ocElems (t : Tile) (e w : Nat) : List Nat :=
  let bs := t.ocRead (256 * e) 256
  (List.range (2048 / w)).map fun j => rdNat bs (j * (w / 8)) (w / 8)

/-- Writes the elements of an entry. -/
def Tile.ocPut (t : Tile) (e w : Nat) (xs : List Nat) : Tile := t.ocWrite (256 * e) (xs.flatMap (leBytes (w / 8)))

/-! ### Executing the head (05 R117, R118) -/

/-- The head of the queue, when it is an instruction of operation `op` that may execute (04 R99). -/
def Tile.vecHead (t : Tile) (op : Nat) : Option VecEntry :=
  match t.vecQ with
  | e :: _ =>
    if VWord.op e.word = op ∧ e.done = false ∧ t.stopped = false ∧ t.atHead e.id e.ags = true ∧ e.ags.all (fun n => !(t.ag n).stopped) = true
    then some e else none
  | [] => none

/-- Changes the head of the queue. -/
def Tile.modVec (t : Tile) (f : VecEntry → VecEntry) : Tile :=
  match t.vecQ with
  | e :: l => { t with vecQ := f e :: l }
  | [] => t

/-- The head has executed with these flags: it releases its tickets and waits to retire. -/
def Tile.vecDone (t : Tile) (e : VecEntry) (fl : VFlags) : Tile :=
  e.ags.foldl (Tile.agRelease e.id) (t.modVec fun x => { x with done := true, flags := x.flags ||| fl })

/-- A vector command of tile `t`: it runs `f` on the head when that is of operation `op`. -/
def onVec (t op : Nat) (s : State) (f : Dev → VecEntry → Dev) : Host.Outcome State Fault Refusal :=
  onTile t s fun d => match (d.tile t).vecHead op with
    | some e => f d e
    | none => d

/-- A vector command that only changes the tile: the result and the flags. -/
def onVecT (t op : Nat) (s : State) (f : Tile → VecEntry → Tile × VFlags) : Host.Outcome State Fault Refusal :=
  onVec t op s fun d e => d.modTile t fun x => let r := f x e; r.1.vecDone e r.2

/-- Runs units 0 to n − 1 in order, collecting flags (05 R117). -/
def vecUnits (n : Nat) (f : Nat → Tile → Tile × VFlags) (t : Tile) : Tile × VFlags :=
  (List.range n).foldl (fun (a : Tile × VFlags) i => let r := f i a.1; (r.1, a.2 ||| r.2)) (t, 0)

/-- The element function over the elements of one entry under a lane mask (05 R112): A, B, C, and what stands in D. -/
def vecLanes (m : W64) (f : ElFn) : Nat → List Nat → List Nat → List Nat → List Nat → List Nat × VFlags
  | j, a :: as, b :: bs, c :: cs, x :: xs =>
    let r := if bit m (j % 64) then f a b c else (x, 0)
    let rs := vecLanes m f (j + 1) as bs cs xs
    (r.1 :: rs.1, r.2 ||| rs.2)
  | _, _, _, _, _ => ([], 0)

/-- An element-wise instruction with element width `w` (05 R110 to R113). -/
def Tile.vecElem (w : Nat) (f : ElFn) (t : Tile) (e : VecEntry) : Tile × VFlags :=
  let v : VWord := e.word
  vecUnits v.n (fun i t =>
    let as := t.ocElems (v.va + i) w
    let bs := if v.bcb then as.map fun _ => (t.ocElems v.vb w).headD 0 else if v.hasB then t.ocElems (v.vb + i) w else as
    let cs := if v.hasC then t.ocElems (v.vc + i) w else as
    let r := vecLanes e.lmask f 0 as bs cs (t.ocElems (v.vd + i) w)
    (t.ocPut (v.vd + i) w r.1, r.2)) t

/-- An element-wise command whose element function depends on TYPE and FN. -/
def vecElemCmd (t op : Nat) (g : Nat → Nat → ElFn) (s : State) : Host.Outcome State Fault Refusal :=
  onVecT t op s fun x e => x.vecElem (laneWidth (VWord.ty e.word)) (g (VWord.ty e.word) (VWord.fn e.word)) e

/-- VNOP. -/
def execVnop (t : Nat) (s : State) : Host.Outcome State Fault Refusal := onVecT t oVNOP s fun x _ => (x, 0)

/-! ### Transfers (05 Table 5.3, 04 R98, 06 R145, R150) -/

/-- Moves entries of a VLD from entry `prog` on, one 256-byte read per address, while its AG serves it. -/
def Dev.vldGo (t : Nat) : Nat → Dev → Dev
  | 0, d => d
  | k + 1, d =>
    match (d.tile t).vecHead oVLD with
    | none => d
    | some e =>
      if e.prog ≥ VWord.n e.word then d.modTile t fun x => x.vecDone e 0
      else match d.unitRead t (VWord.ag e.word) 256 false with
        | (d, none) => d
        | (d, some bs) =>
          Dev.vldGo t k (d.modTile t fun x => (x.ocWrite (256 * (VWord.vd e.word + e.prog)) bs).modVec fun y => { y with prog := y.prog + 1 })

/-- VLD. -/
def execVld (t : Nat) (f : Upset) (s : State) : Host.Outcome State Fault Refusal :=
  onVec t oVLD s fun d e => (d.upset f).vldGo t (VWord.n e.word + 1)

/-- Writes entries of a VST from entry `prog` on. -/
def Dev.vstGo (t : Nat) : Nat → Dev → Dev
  | 0, d => d
  | k + 1, d =>
    match (d.tile t).vecHead oVST with
    | none => d
    | some e =>
      if e.prog ≥ VWord.n e.word then d.modTile t fun x => x.vecDone e 0
      else
        match d.unitWrite t (VWord.ag e.word) ((d.tile t).ocRead (256 * (VWord.va e.word + e.prog)) 256) false with
        | (d, some _) => Dev.vstGo t k (d.modTile t fun x => x.modVec fun y => { y with prog := y.prog + 1 })
        | (d, none) => d

/-- VST. -/
def execVst (t : Nat) (s : State) : Host.Outcome State Fault Refusal :=
  onVec t oVST s fun d e => d.vstGo t (VWord.n e.word + 1)

/-- VLDQ (06 R150): one whole item, or LONG when it does not fit; it waits while no item can be taken. -/
def execVldq (t : Nat) (f : Upset) (s : State) : Host.Outcome State Fault Refusal :=
  onVec t oVLDQ s fun d e =>
    let d := d.upset f
    let v : VWord := e.word
    let x := d.tile t
    let q := x.qc v.qid
    if q.rx = false ∨ q.avail = false then d
    else match q.head? with
      | none => d
      | some i =>
        let n := cdiv (i.words - 1) 16
        if n > v.n then d.modTile t fun x => (x.putQc v.qid { q with w3 := setBit q.w3 47 }).vecDone e 0
        else match x.qTake v.qid with
          | none => d
          | some (i, y) =>
            let d := d.setTile t y
            let (d, stop) := Dev.spadChecks (itemReads t q i) d
            if stop then d
            else
              let h := rdNat (x.itemWords q i 0 1) 0 16
              d.modTile t fun y =>
                ((((y.ocWrite (256 * v.vd) (slice (x.payload q i) 0 (256 * n))).setReg Reg.SPAD_QHDR0 (BitVec.ofNat 64 h)).setReg
                  Reg.SPAD_QHDR1 (BitVec.ofNat 64 (h / 2 ^ 64)))).vecDone e 0

/-- VSTQ: N entries as one item. -/
def execVstq (t : Nat) (s : State) : Host.Outcome State Fault Refusal :=
  onVec t oVSTQ s fun d e =>
    let v : VWord := e.word
    (d.sendItem t v.qid ((d.tile t).ocRead (256 * v.va) (256 * v.n))).modTile t fun x => x.vecDone e 0

/-! ### Arithmetic (05 R119 to R124) -/

/-- FADD. -/
def execFadd (t : Nat) (s : State) : Host.Outcome State Fault Refusal := vecElemCmd t oFADD (fun ty _ => fnFadd ty) s
/-- FSUB. -/
def execFsub (t : Nat) (s : State) : Host.Outcome State Fault Refusal := vecElemCmd t oFSUB (fun ty _ => fnFsub ty) s
/-- FMUL. -/
def execFmul (t : Nat) (s : State) : Host.Outcome State Fault Refusal := vecElemCmd t oFMUL (fun ty _ => fnFmul ty) s
/-- FFMA. -/
def execFfma (t : Nat) (s : State) : Host.Outcome State Fault Refusal := vecElemCmd t oFFMA (fun ty _ => fnFfma ty) s
/-- FMIN. -/
def execFmin (t : Nat) (s : State) : Host.Outcome State Fault Refusal := vecElemCmd t oFMIN (fun ty _ => fnMinMax ty false) s
/-- FMAX. -/
def execFmax (t : Nat) (s : State) : Host.Outcome State Fault Refusal := vecElemCmd t oFMAX (fun ty _ => fnMinMax ty true) s
/-- FCMP. -/
def execFcmp (t : Nat) (s : State) : Host.Outcome State Fault Refusal := vecElemCmd t oFCMP fnFcmp s
/-- FSGN. -/
def execFsgn (t : Nat) (s : State) : Host.Outcome State Fault Refusal := vecElemCmd t oFSGN fnFsgn s
/-- FDIV. -/
def execFdiv (t : Nat) (s : State) : Host.Outcome State Fault Refusal := vecElemCmd t oFDIV (fun ty _ => fnFdiv ty) s
/-- FSQRT. -/
def execFsqrt (t : Nat) (s : State) : Host.Outcome State Fault Refusal := vecElemCmd t oFSQRT (fun ty _ => fnFsqrt ty) s
/-- FTRN. -/
def execFtrn (t : Nat) (s : State) : Host.Outcome State Fault Refusal := vecElemCmd t oFTRN (fun _ fn => fnFtrn fn) s
/-- IADD. -/
def execIadd (t : Nat) (s : State) : Host.Outcome State Fault Refusal := vecElemCmd t oIADD (fun ty fn => fnIadd (laneWidth ty) fn) s
/-- ISUB. -/
def execIsub (t : Nat) (s : State) : Host.Outcome State Fault Refusal := vecElemCmd t oISUB (fun ty fn => fnIsub (laneWidth ty) fn) s
/-- IMUL. -/
def execImul (t : Nat) (s : State) : Host.Outcome State Fault Refusal := vecElemCmd t oIMUL (fun ty fn => fnImul (laneWidth ty) fn) s
/-- IMIN. -/
def execImin (t : Nat) (s : State) : Host.Outcome State Fault Refusal := vecElemCmd t oIMIN (fun ty _ => fnImin (laneWidth ty)) s
/-- IMAX. -/
def execImax (t : Nat) (s : State) : Host.Outcome State Fault Refusal := vecElemCmd t oIMAX (fun ty _ => fnImax (laneWidth ty)) s
/-- ILOG. -/
def execIlog (t : Nat) (s : State) : Host.Outcome State Fault Refusal := vecElemCmd t oILOG (fun ty fn => fnIlog (laneWidth ty) fn) s
/-- ISH. -/
def execIsh (t : Nat) (s : State) : Host.Outcome State Fault Refusal := vecElemCmd t oISH (fun ty fn => fnIsh (laneWidth ty) fn) s
/-- ICMP. -/
def execIcmp (t : Nat) (s : State) : Host.Outcome State Fault Refusal := vecElemCmd t oICMP (fun ty fn => fnIcmp (laneWidth ty) fn) s
/-- SEL. -/
def execSel (t : Nat) (s : State) : Host.Outcome State Fault Refusal := vecElemCmd t oSEL (fun _ _ => fnSel) s
/-- MOV. -/
def execMov (t : Nat) (s : State) : Host.Outcome State Fault Refusal := vecElemCmd t oMOV (fun _ _ => fnMov) s

/-- SETM: bit j of VE_LMASK[VC[2:0]] says that element j of entry VA is not zero; a masked element leaves its bit as it was. -/
def execSetm (t : Nat) (s : State) : Host.Outcome State Fault Refusal :=
  onVecT t oSETM s fun x e =>
    let v : VWord := e.word
    (x.modReg (Reg.VE_LMASK + 8 * (v.vc % 8)) fun old =>
      ((x.ocElems v.va 32).zipIdx).foldl (fun (m : W64) y => if bit e.lmask y.2 then putBit m y.2 (decide (y.1 ≠ 0)) else m) old, 0)

/-- RED: the tree over the elements of each entry, the result in element 0, zeros in the others (05 R120). The lane mask acts on the
elements reduced (05 R112) and not on the entry written: element 0 and the zeros are written whatever its bits (DESIGN CHOICE, log
94). -/
def execRed (t : Nat) (s : State) : Host.Outcome State Fault Refusal :=
  onVecT t oRED s fun x e =>
    let v : VWord := e.word
    let w := laneWidth v.ty
    let n := 2048 / w
    vecUnits v.n (fun i y =>
      let xs := ((y.ocElems (v.va + i) w).zipIdx).map fun p => if bit e.lmask (p.2 % 64) then p.1 else redId v.ty v.fn
      let r := redTree (redFn v.ty v.fn) (Nat.log2 n) xs
      (y.ocPut (v.vd + i) w (r.1 :: List.replicate (n - 1) 0), r.2)) x

/-! ### Conversions (05 R125, 02 Table 2.5, R46) -/

/-- Element `j` of width `w` of the packed stream from entry `e`. -/
def Tile.streamEl (t : Tile) (e w j : Nat) : Nat :=
  let b := w * j
  leNat (t.ocRead (256 * e + b / 8) (w / 8 + 2)) / 2 ^ (b % 8) % 2 ^ w

/-- What a CVT has converted: codes of the elements so far, scale bytes of the blocks quantised, flags. -/
structure CvtAcc where
  codes : List Nat
  scales : List Nat
  fl : VFlags
deriving DecidableEq, Repr

/-- The value of source element `j`. -/
def Tile.cvtSrc (t : Tile) (v : VWord) (j : Nat) : Val :=
  let x := t.streamEl v.va (tyWidth v.ty) j
  if tyMx v.ty then scaled (tyDecode v.ty x) (t.streamEl v.vb 8 (j / 32)) else tyDecode v.ty x

/-- Converts the next element, or the next block when the destination is an MX type. -/
def Tile.cvtNext (t : Tile) (v : VWord) (c : CvtAcc) : CvtAcc :=
  let j := c.codes.length
  let dst := v.vc % 16
  if tyMx dst then
    let n := min 32 (v.cvtE - j)
    let r := mxQuantise dst ((List.range n).map fun k => t.cvtSrc v (j + k))
    ⟨c.codes ++ r.2.1, c.scales ++ [r.1], c.fl ||| r.2.2⟩
  else
    let r := if tyMx v.ty then mxToFp32 v.ty (t.streamEl v.va (tyWidth v.ty) j) (t.streamEl v.vb 8 (j / 32)) else cvtTo dst (t.cvtSrc v j)
    ⟨c.codes ++ [r.1], c.scales, c.fl ||| r.2⟩

/-- Converts until `n` elements are done. -/
def Tile.cvtUpTo (t : Tile) (v : VWord) (n : Nat) : Nat → CvtAcc → CvtAcc
  | 0, c => c
  | k + 1, c => if c.codes.length ≥ n then c else Tile.cvtUpTo t v n k (t.cvtNext v c)

/-- The little-endian value of codes of width `w` packed in order. -/
def packNat (w : Nat) : List Nat → Nat
  | [] => 0
  | c :: cs => c % 2 ^ w + 2 ^ w * packNat w cs

/-- Destination entry `i` of a CVT: its elements are converted, the entry is written, then the scales of the blocks whose last
element it holds (05 R117). -/
def Tile.cvtEntry (v : VWord) (i : Nat) (s : Tile × CvtAcc) : Tile × CvtAcc :=
  let w := tyWidth (v.vc % 16)
  let e := v.cvtE
  let hi := min e (cdiv (2048 * (i + 1)) w)
  let c := s.1.cvtUpTo v hi hi s.2
  let bytes := min 256 (cdiv (e * w) 8 - 256 * i)
  let t := s.1.ocWrite (256 * (v.vd + i)) (leBytes bytes (packNat w c.codes / 2 ^ (2048 * i)))
  let t := (c.scales.zipIdx).foldl (fun t b =>
    let last := min (32 * b.2 + 32) e - 1
    if (w * (last + 1) - 1) / 2048 = i then t.ocWrite (256 * v.vb + b.2) [BitVec.ofNat 8 b.1] else t) t
  (t, c)

/-- CVT. -/
def execCvt (t : Nat) (s : State) : Host.Outcome State Fault Refusal :=
  onVecT t oCVT s fun x e =>
    let v : VWord := e.word
    let r := (List.range (cdiv (v.cvtE * tyWidth (v.vc % 16)) 2048)).foldl (fun a i => Tile.cvtEntry v i a) (x, ⟨[], [], 0⟩)
    (r.1, r.2.fl)

/-- RAND (05 R128): the values recorded at issue, the step number of the tile. -/
def execRand (t : Nat) (s : State) : Host.Outcome State Fault Refusal :=
  onVecT t oRAND s fun x e =>
    let v : VWord := e.word
    vecUnits v.n (fun i y =>
      (y.ocPut (v.vd + i) (laneWidth v.ty) (randUnit v.ty e.seed t e.pos e.stream (y.reg Reg.SCB_STEP) i), 0)) x

/-! ### Exact partial sums (05 R126, R127) -/

/-- The XPS block at entries `e` to `e + 2`. -/
def Tile.ocXps (t : Tile) (e : Nat) : Xps := Xps.parse (t.ocRead (256 * e) 528)

/-- Vector flags of block flags (05 Table 5.6). -/
def xpsVFlags (f : Nat) : VFlags :=
  flagIf (decide (f % 2 = 1)) fINEXACT ||| flagIf (decide (f / 2 % 2 = 1)) fOVERFLOW ||| flagIf (decide (f / 4 % 2 = 1)) fWINDOW

/-- ORs flags into the flags of group `g`. -/
def orFlag (l : List Nat) (g f : Nat) : List Nat := l.set g (l.getD g 0 ||| f)

/-- Block A + block B at the window bases of A (05 R126). -/
def Xps.add (a b : Xps) : Xps × VFlags :=
  let fl := (List.range 4).map fun g => a.flg.getD g 0 ||| b.flg.getD g 0
  let all (l : List Nat) : VFlags := l.foldl (fun x f => x ||| xpsVFlags f) 0
  if a.bad || b.bad then (⟨a.wb, fl, 32, 2 ^ 32 - 1, []⟩, all fl ||| fINVALID)
  else
    let n := max a.count b.count
    let r := (List.range n).foldl (fun (s : List Int × List Nat) i =>
      let g := i / 8
      let x : WEntry := ⟨if i < a.count then a.vals.getD i 0 else 0, 0, false, false⟩
      if i < b.count then
        let wa := a.wb.getD g 0
        let wb := b.wb.getD g 0
        let y := x.addXps wa (b.vals.getD i 0) wb
        let f := (if y.2.1 then 1 else 0) + (if y.2.2 then 2 else 0) + (if wb ≠ wa then 4 else 0)
        (s.1 ++ [y.1.i], orFlag s.2 g f)
      else (s.1 ++ [x.i], s.2)) ([], fl)
    (⟨a.wb, r.2, n, (a.invalid % 2 ^ a.count) ||| (b.invalid % 2 ^ b.count), r.1⟩, all r.2)

/-- XADD: block A + i and block B + i, or block VB with BCB, into block VD + i. -/
def execXadd (t : Nat) (s : State) : Host.Outcome State Fault Refusal :=
  onVecT t oXADD s fun x e =>
    let v : VWord := e.word
    vecUnits v.n (fun i y =>
      let r := Xps.add (y.ocXps (v.va + 3 * i)) (y.ocXps (if v.bcb then v.vb else v.vb + 3 * i))
      (y.ocWrite (256 * (v.vd + 3 * i)) (slice r.1.bytes 0 768), r.2)) x

/-- Block VA + i as 32 FP32 values under 2^−OE (05 R127). -/
def Xps.toFp32 (a : Xps) (oe : Int) : List Nat × VFlags :=
  let rs := (List.range 32).map fun i =>
    if a.bad then (fp32.nanCode, fINVALID)
    else if i ≥ a.count then (0, 0)
    else if a.invalid / 2 ^ i % 2 = 1 then (fp32.nanCode, fINVALID)
    else fp32.encode false (Val.ofInt (a.vals.getD i 0) (a.wb.getD (i / 8) 0 - oe))
  (rs.map (·.1), rs.foldl (fun x r => x ||| r.2) (a.flg.foldl (fun x f => x ||| xpsVFlags f) 0))

/-- XCVT. -/
def execXcvt (t : Nat) (s : State) : Host.Outcome State Fault Refusal :=
  onVecT t oXCVT s fun x e =>
    let v : VWord := e.word
    vecUnits v.n (fun i y =>
      let r := (y.ocXps (v.va + 3 * i)).toFp32 e.oe
      (y.ocWrite (256 * (v.vd + i / 2) + 128 * (i % 2)) (r.1.flatMap (leBytes 4)), r.2)) x

/-! ### Retirement (05 R122, R123, 04 R100) -/

/-- VEC_RETIRE: the flags of the executed head go to VE_FLAGS, a flag enabled in VE_TRAPEN raises VE_FLAG, EV sets VEC_DONE. -/
def execVecRetire (t : Nat) (s : State) : Host.Outcome State Fault Refusal :=
  onTile t s fun d => d.modTile t fun x =>
    match x.vecQ with
    | [] => x
    | e :: rest =>
      if e.done = false then x
      else
        let v : VWord := e.word
        let x := ({ x with vecQ := rest } : Tile).count Reg.VE_RETIRED 1
        let x := { x.modReg Reg.VE_FLAGS fun f => f ||| e.flags.setWidth 64 with exWindow := x.exWindow || bit e.flags 6 }
        let en := e.flags &&& BitVec.ofNat 7 (x.reg Reg.VE_TRAPEN).toNat
        let x := if en ≠ 0 then x.raise .veFlag (BitVec.ofNat 32 (en.toNat + v.op * 256)) else x
        if v.ev then x.event 1 else x

end Sys2Proof.Machine
end

