-- ==== Sys2Proof/Machine/HostIf.lean ====
section
/-! DEFINITION. The host interface (17): BAR maps, DMA, resets and boot. -/

namespace Sys2Proof.Machine

/-! ### BAR maps (17 R386 to R390) -/

/-- A host access to a tile whose half-bench is being muxed is counted. -/
def Dev.bar2Drop (d : Dev) : Dev := d.count Reg.HOST_BAR2DROP 0 64 1

/-- Bases in BAR0, a tile window and BAR2 (04 R76, 16 R372, 17 R388). -/
abbrev mboxBase : Nat := 0x110000
abbrev imemBase : Nat := 0xC00000
abbrev dmemBase : Nat := 0xD00000
abbrev ctlBase : Nat := 0xE00000
abbrev stagingBase : Nat := 0xF00000000

/-- Whether an offset lies in a window of `n` bytes. -/
def inWin (off base n : Nat) : Bool := decide (base ≤ off) && decide (off < base + n)

/-- A 32-bit word of a memory. -/
def memWord (m : Memory) (a : Nat) : W32 := BitVec.ofNat 32 (m.readNat a 4)

/-- A read of a scratchpad word: the stored data is returned, whether or not it passes parity (06 R140). -/
def Dev.spadRead32 (d : Dev) (t a : Nat) : Dev × W32 :=
  (match (d.tile t).badWord a 4 with | some w => d.parityOutside t w | none => d, memWord (d.tile t).spad a)

/-- A read in the window of tile `t`. -/
def Dev.winRead32 (d : Dev) (t o : Nat) : Dev × W32 :=
  if d.muxing (halfOf t) then (d.bar2Drop, 0)
  else if o < Config.spadBytes then d.spadRead32 t o
  else if inWin o imemBase 0x10000 then (d, memWord (d.tile t).imem (o - imemBase))
  else if inWin o dmemBase 0x10000 then (d, memWord (d.tile t).dmem (o - dmemBase))
  else if inWin o ctlBase 0x6000 && ctlValid (o - ctlBase) then d.tileRead32 .host t (o - ctlBase)
  else (d, 0)

/-- A byte-addressed read of the MSI-X table and pending bits. -/
def Dev.msixRead32 (d : Dev) (a : Nat) : W32 := BitVec.ofNat 32 (leNat ((List.range 4).map fun i => d.msixByte (a + i)))

/-- A read of an aligned word; an offset that no map assigns reads zero. Doorbells and index words read zero (log 56). -/
def Dev.barRead32 (d : Dev) (bar off : Nat) : Dev × W32 :=
  match bar with
  | 0 => if inWin off mboxBase 0x20000 then (d, memWord d.hive.mbox (off - mboxBase)) else d.devRead32 off
  | 2 =>
    if inWin off stagingBase 0x100000 then (d, memWord d.hive.staging (off - stagingBase))
    else if off / 0x2000000 < Config.nTiles then d.winRead32 (off / 0x2000000) (off % 0x2000000)
    else (d, 0)
  | 4 => if inWin off 0x800000 0x8100 then (d, d.msixRead32 (off - 0x800000)) else (d, 0)
  | _ => (d, 0)

/-- The slot whose directory holds word `a` (09 R238). -/
def Tile.dirSlot (t : Tile) (a : Nat) : Option Nat :=
  if inWin a (64 * t.dirBase) t.dirBytes then some (t.slotBase + (a - 64 * t.dirBase) / (64 * t.dirLines)) else none

/-- A host's write of a scratchpad word. One into a directory area leaves the slot unsynchronised, whatever it writes (08 R215, 09 R238). -/
def Dev.spadWrite32 (d : Dev) (t a : Nat) (v : W32) : Dev :=
  let d' := d.modTile t fun x => x.spadWrite a (leBytes 4 v.toNat)
  match (d.tile t).dirSlot a with
  | some slot => d'.markUnsync t slot
  | none => d'

/-- A host's write of an IMEM word of 4 or 8 bytes (04 R77): one that is discarded is counted once. -/
def Tile.imemWrite (t : Tile) (a : Nat) (bs : List Byte) : Tile :=
  if t.scb.mode = .halted ∨ t.scb.mode = .fault then { t with imem := t.imem.writeN a bs } else t.count Reg.SCB_HOSTDROP 1

/-- A 32-bit write in the window of tile `t`, IMEM apart. -/
def Dev.winWrite32 (d : Dev) (t o : Nat) (v : W32) : Dev :=
  if o < Config.spadBytes then d.spadWrite32 t o v
  else if inWin o dmemBase 0x10000 then d.modTile t fun x => { x with dmem := x.dmem.writeN (o - dmemBase) (leBytes 4 v.toNat) }
  else if inWin o ctlBase 0x6000 then d.tileWrite32 t (o - ctlBase) v
  else d

/-- A write of a mailbox's message area (16 R372). -/
def Dev.mboxWrite (d : Dev) (a : Nat) (bs : List Byte) : Dev :=
  if d.mbState (a / 4096) = 0 then { d with hive := { d.hive with mbox := Memory.writeN d.hive.mbox a bs } } else d.wrLost

/-- A write of the staging memory (16 R363). -/
def Dev.stagingWrite (d : Dev) (a : Nat) (bs : List Byte) : Dev :=
  if d.fwBusy then d.wrLost else { d with hive := { d.hive with staging := Memory.writeN d.hive.staging a bs } }

/-- A write that a memory takes or discards whole, whether its word is of 32 or 64 bits (17 R386): a message area, the staging memory,
IMEM, and any window of a half-bench that is being muxed; none for another offset. -/
def Dev.barWhole (d : Dev) (bar off : Nat) (bs : List Byte) : Option Dev :=
  let t := off / 0x2000000
  let o := off % 0x2000000
  match bar with
  | 0 => if inWin off mboxBase 0x20000 then some (d.mboxWrite (off - mboxBase) bs) else none
  | 2 =>
    if inWin off stagingBase 0x100000 then some (d.stagingWrite (off - stagingBase) bs)
    else if t < Config.nTiles then
      if d.muxing (halfOf t) then some d.bar2Drop
      else if inWin o imemBase 0x10000 then some (d.modTile t fun x => x.imemWrite (o - imemBase) bs)
      else none
    else none
  | _ => none

/-- A write of the MSI-X table; unmasking a vector whose interrupt is pending sends it (log 10). -/
def Dev.msixWrite32 (d : Dev) (a : Nat) (v : W32) : Dev :=
  if a < 0x8000 then
    let d := ((leBytes 4 v.toNat).zipIdx).foldl (fun d e => d.setMsixByte (a + e.2) e.1) d
    let k := a / 16
    if bit (d.msixByte (16 * k + 12)) 0 = false ∧ bit (d.msixByte (0x8000 + k / 8)) (k % 8) = true then
      (d.setMsixByte (0x8000 + k / 8) (clrBit (d.msixByte (0x8000 + k / 8)) (k % 8))).emit (.msix k)
    else d
  else d

/-- A write to BAR4 (17 R390): ring indices, mailbox doorbells, log and trace consumer indices, the MSI-X table. -/
def Dev.bar4Write32 (d : Dev) (off : Nat) (v : W32) : Dev :=
  if off < 0x10000 then
    match off % 16 with
    | 0 => d.ringDoorbell (off / 16) v
    | 8 => d.d2hConsumer (off / 16) v
    | _ => d
  else if inWin off 0x10000 0x100 then (if off % 8 = 0 then d.doorbell ((off - 0x10000) / 8) else d)
  else if off = 0x10100 then d.logConsumer v
  else if off = 0x10108 then d.traceConsumer v
  else if inWin off 0x800000 0x8100 then d.msixWrite32 (off - 0x800000) v
  else d

/-- A write of an aligned word; one to an offset that no map assigns is discarded. -/
def Dev.barWrite32 (d : Dev) (bar off : Nat) (v : W32) : Dev :=
  match d.barWhole bar off (leBytes 4 v.toNat) with
  | some d => d
  | none =>
    match bar with
    | 0 => d.devWrite32 off v
    | 2 => if off / 0x2000000 < Config.nTiles then d.winWrite32 (off / 0x2000000) (off % 0x2000000) v else d
    | 4 => d.bar4Write32 off v
    | _ => d

/-- A register that an aligned 64-bit access reaches whole: of BAR0, or of a tile's control space. -/
def barReg64 (bar off : Nat) : Bool :=
  match bar with
  | 0 => !inWin off mboxBase 0x20000
  | 2 => decide (off / 0x2000000 < Config.nTiles) && inWin (off % 0x2000000) ctlBase 0x6000
  | _ => false

/-- A read of an aligned 64-bit word. -/
def Dev.barRead64 (d : Dev) (bar off : Nat) : Dev × W64 :=
  let t := off / 0x2000000
  if barReg64 bar off then
    if bar = 0 then d.devRead64 off
    else if d.muxing (halfOf t) then (d.bar2Drop, 0)
    else if ctlValid (off % 0x2000000 - ctlBase) then d.tileRead64 t (off % 0x2000000 - ctlBase)
    else (d, 0)
  else if bar = 2 ∧ t < Config.nTiles ∧ d.muxing (halfOf t) = true then (d.bar2Drop, 0)
  else
    let (d, lo) := d.barRead32 bar off
    let (d, hi) := d.barRead32 bar (off + 4)
    (d, BitVec.ofNat 64 (lo.toNat + 2 ^ 32 * hi.toNat))

/-- A write of an aligned 64-bit word. An index or a doorbell is taken from its low word. -/
def Dev.barWrite64 (d : Dev) (bar off : Nat) (v : W64) : Dev :=
  let t := off / 0x2000000
  if barReg64 bar off then
    if bar = 0 then d.devWrite off fullMask v
    else if d.muxing (halfOf t) then d.bar2Drop
    else d.tileWrite64 t (off % 0x2000000 - ctlBase) v
  else match d.barWhole bar off (leBytes 8 v.toNat) with
  | some d => d
  | none => (d.barWrite32 bar off (lo32 v)).barWrite32 bar (off + 4) (hi32 v)

/-- The words of a read in address order, and what they returned. -/
def Dev.barReads (d : Dev) (q : BarReq) : Dev × List W64 :=
  if q.wide then
    (List.range (q.n / 2)).foldl (fun s i => let r := s.1.barRead64 q.bar (q.off + 8 * i); (r.1, s.2 ++ [r.2])) (d, [])
  else
    (List.range q.n).foldl (fun s i => let r := s.1.barRead32 q.bar (q.off + 4 * i); (r.1, s.2 ++ [BitVec.ofNat 64 r.2.toNat])) (d, [])

/-- The words of a write in address order. -/
def Dev.barWrites (d : Dev) (q : BarReq) : Dev :=
  if q.wide then
    (List.range (q.words.length / 2)).foldl (fun d i =>
      d.barWrite64 q.bar (q.off + 8 * i) (BitVec.ofNat 64 ((q.words.getD (2 * i) 0).toNat + 2 ^ 32 * (q.words.getD (2 * i + 1) 0).toNat))) d
  else (q.words.zipIdx).foldl (fun d e => d.barWrite32 q.bar (q.off + 4 * e.2) e.1) d

/-- An aligned request (17 R386). -/
def barAligned (q : BarReq) : Bool := decide (q.off % (if q.wide then 8 else 4) = 0)

/-- A memory request, and what a read returned. A poisoned write is discarded whole; a request that is not aligned is not accepted. -/
def Dev.barDo (d : Dev) (q : BarReq) : Dev × List W64 :=
  let d := d.flip q.upset
  if barAligned q = false then (d, [])
  else if q.write then (if q.poisoned then d else d.barWrites q, [])
  else d.barReads q

/-- A read of WVL_CLAIMED waits while a request of that tile is outstanding (08 R220): the command stands for the access's end, so it does
nothing until then (log 99). -/
def Dev.barWaits (d : Dev) (q : BarReq) : Bool :=
  let t := q.off / 0x2000000
  let a := t * 0x2000000 + ctlBase + Reg.WVL_CLAIMED
  decide (q.bar = 2) && !q.write && decide (t < Config.nTiles) && decide (q.off < a + 4) && decide (a < q.off + 4 * q.n) &&
  decide ((d.tile t).wvl.claimOut ≠ 0) && !d.muxing (halfOf t)

/-- The host reaches the device: the device has left reset and PERST_N is high. -/
def Dev.linkUp (d : Dev) : Bool := decide (d.phase ≠ 0) && !d.host.perst

/-- BAR_ACCESS. -/
def execBarAccess (q : BarReq) (s : State) : Host.Outcome State Fault Refusal :=
  onDev s fun d => if d.linkUp && !d.barWaits q then (let r := d.barDo q; r.2.foldl (fun d v => d.emit (.readData v)) r.1) else d

/-! ### DMA (17 R392) -/

/-- The read in flight with number `e`. -/
def Dev.dmaUse (d : Dev) (e : Nat) : Option DmaUse := (d.host.dma.find? fun x => decide (x.1 = e)).map (·.2)

/-- The read is over. -/
def Dev.dmaEnd (d : Dev) (e : Nat) : Dev := { d with host := { d.host with dma := d.host.dma.filter fun x => decide (x.1 ≠ e) } }

/-- The payload of mailbox `m` has arrived: a reserved bit in it refuses the command (16 R374 item 6). -/
def Dev.payloadIn (d : Dev) (m : Nat) (data : List Byte) : Dev :=
  let d := { d with hive := { d.hive with payloads := d.hive.payloads.filter (fun e : Nat × List Byte => decide (e.1 ≠ m)) ++ [(m, data)] } }
  if (d.message m).reserved then d.reply m St.COMMAND_INVALID else d

/-- DMA_READ_COMPLETE: an indirect payload of PLEN bytes or a haul head frame has arrived and is kept for its command; the data of a step
waits for STEP_DESCRIPTOR_FETCH, which takes it in its typed form (log 12). -/
def Dev.dmaComplete (d : Dev) (e : Nat) (data : List Byte) : Dev :=
  match d.dmaUse e with
  | some (.payload m _ len) => (d.dmaEnd e).payloadIn m (slice data 0 len)
  | some (.haul session) => (d.dmaEnd e).modHead session fun s => { s with frame := some data }
  | _ => d

def execDmaReadComplete (e : Nat) (data : List Byte) (s : State) : Host.Outcome State Fault Refusal := onDev s fun d => d.dmaComplete e data

/-- A failed read of a step: the step ends when its turn comes; a region that no longer runs drops it. -/
def Dev.stepDmaError (d : Dev) (e r : Nat) : Dev :=
  let d := d.dmaEnd e
  if (d.region r).st ≠ .running then d
  else
    let d := d.issueDma (.stepBad r)
    if (d.region r).ready then d.stepUnread r else d

/-- DMA_ERROR: recorded; the consumer's outcome of R392. -/
def Dev.dmaError (d : Dev) (e : Nat) (kind : DmaErr) : Dev :=
  match d.dmaUse e with
  | some (.step r) => (d.dmaErr kind ((d.pairOf r rkSTEP).getD 0xFFF)).stepDmaError e r
  | some (.payload m _ _) => ((d.dmaErr kind 0xFFF).dmaEnd e).reply m St.COMMAND_INVALID
  | some (.haul session) =>
    let ring := match d.headOf session with | some s => s.q.frameRing | none => 0xFFF
    ((d.dmaErr kind ring).dmaEnd e).modHead session fun s => { s with retry := true }
  | _ => d

def execDmaError (e : Nat) (kind : DmaErr) (s : State) : Host.Outcome State Fault Refusal := onDev s fun d => d.dmaError e kind

/-- DMA_READ_REPEAT: every 1 ms until HAUL_CLOSE the failed head read is issued again. -/
def Dev.dmaRepeat (d : Dev) (session : W32) : Dev :=
  match d.headOf session with
  | some s =>
    if s.retry then (d.modHead session fun s => { s with retry := false }).issueDma (.haul session) else d
  | none => d

def execDmaReadRepeat (session : W32) (s : State) : Host.Outcome State Fault Refusal := onDev s fun d => d.dmaRepeat session

/-! ### RESET_N (17 R393, Table 17.3) -/

/-- Sets a bit of HOST_RSTCAUSE. -/
def AlwaysOn.cause (a : AlwaysOn) (i : Nat) : AlwaysOn := { a with rstcause := setBit a.rstcause i }

/-- The always-on domain at a low RESET_N: no owner, EPOCH kept, bypass closed, TRIP kept and shown in HOST_RSTCAUSE. -/
def AlwaysOn.resetLow (a : AlwaysOn) : AlwaysOn :=
  let a := { a with owner := .nobody, since := 0, bypass := true }
  let a := a.cause 1
  if a.trip then a.cause 4 else a

/-- What the weight tier keeps without power: what is on the medium. A record with no COMMIT is not in force (07 R179). -/
def WTier.powerLoss (w : WTier) : WTier :=
  { WTier.reset with data := w.data, weak := w.weak, hdrs := w.hdrs, maps := w.maps, jpages := w.jpages, jlost := w.jlost }

/-- Everything that a low RESET_N resets: every block but the always-on domain and the non-volatile weight tier. The TAP selects IDCODE
when the board leaves TRST_N open (17 R402). -/
def Dev.hardReset (d : Dev) : Dev :=
  let e : Dev := { Dev.reset with
    aon := d.aon.resetLow, wt := d.wt.powerLoss, host := { HostIf.reset with perst := d.host.perst, nextDma := d.host.nextDma }
    tap := if Config.trstAbsent then { d.tap with ir := .idcode } else d.tap
    out := d.out, ctr := d.ctr }
  let e := e.setReg Reg.PWR_ERR (if d.aon.trip then 16 else 0)
  if d.aon.thermN then e.clocks true else e

/-- RESET_N_LOW. -/
def execResetNLow (s : State) : Host.Outcome State Fault Refusal :=
  onDev s fun d => { d.hardReset with aon := { d.hardReset.aon with resetN := false } }

/-- VIN_DROP: VIN below 38 V for 1 µs acts as RESET_N low (18 R413). -/
def execVinDrop (s : State) : Host.Outcome State Fault Refusal :=
  onDev s fun d => { d.hardReset with aon := { d.hardReset.aon with vin := false } }

/-- The always-on domain after AUX power was absent: its store keeps profiles, the override and the remap table (00 R5, 17 R397). -/
def AlwaysOn.auxReset (a : AlwaysOn) : AlwaysOn :=
  { AlwaysOn.reset with store := a.store, skip := a.skip, resetN := a.resetN, vin := a.vin }

/-- AUX_LOSS (18 R413). -/
def execAuxLoss (s : State) : Host.Outcome State Fault Refusal :=
  onDev s fun d => ({ d.hardReset with aon := { d.aon.auxReset with aux := false } } : Dev).setReg Reg.PWR_ERR 0

/-- AUX_RISE: the always-on domain takes its reset values; SMB_ADDR is sampled (00 R5, 18 Table 18.2). -/
def execAuxRise (smbAddr : BitVec 3) (s : State) : Host.Outcome State Fault Refusal :=
  onDev s fun d =>
    ({ d with aon := { d.aon.auxReset.cause 0 with smbAddr := smbAddr } } : Dev).modReg Reg.PWR_ERR fun e => clrBit e 4

/-! ### Boot (17 R394, R396) -/

/-- The profile that R396 selects, and PSRC: a committed override, else the pins; a profile without a valid copy gives profile 3. -/
def Dev.bootProfile (d : Dev) (pins : Nat) : Nat × Nat :=
  let pick : Nat × Nat := match d.override with
    | some sel => if sel.toNat ≤ 3 then (sel.toNat, 1) else (pins, 0)
    | none => (pins, 0)
  match d.profile pick.1 with
  | some _ => pick
  | none => (3, 2)

/-- The selected profile's fields load (14 R337). -/
def Dev.loadProfile (d : Dev) (p : Nat) : Dev :=
  let d := d.modReg Reg.PWR_STATUS fun v => setFld v 0 2 p
  match d.profile p with
  | some q => ({ (d.liveFields q).modReg Reg.CIC_STATUS (fun v => setFld v 32 6 q.code) with pwr := { d.pwr with optEn := q.opt } } : Dev)
  | none => d

/-- RESET_N_RISE: the counter is 0 when the device leaves reset (13 R309); boot starts when VIN, AUX and SYS_REFCLK are within their limits (18 R412). -/
def Dev.boot (d : Dev) (q : RiseIn) : Dev :=
  if d.aon.resetN then d
  else
    let d := ({ d with aon := { d.aon with resetN := true }, cic := { d.cic with frac := 0, views := [], viewHold := [] } } : Dev).setReg Reg.CIC_TIME 0
    if q.powerOk then
      let d := { d with aon := { d.aon with vin := true } }
      let sel := d.bootProfile q.profileSel.toNat
      (d.loadProfile sel.1).setReg Reg.HOST_STATUS (BitVec.ofNat 64 (1 + 8 * sel.2 + 32 * q.authPref.toNat))
    else d

def execResetNRise (q : RiseIn) (s : State) : Host.Outcome State Fault Refusal := onDev s fun d => d.boot q

/-- BOOT_WAIT_FW: the boot ROMs wait for firmware, or check the image of a GO that came before (17 Table 17.4). -/
def execBootWaitFw (s : State) : Host.Outcome State Fault Refusal :=
  onDev s fun d => if d.phase = 1 then d.setPhase (if d.fwBusy then 3 else 2) else d

/-! ### PERST_N and FLR (17 R393, Table 17.3) -/

/-- A region that serves acts as under R266, writes no step completion, and enters STOPPED. Token records wait no more: their ring is
disabled. -/
def Dev.hostStop (d : Dev) (r : Nat) : Dev :=
  let x := d.region r
  let d := if x.serving then (d.dropPackets r).abortTiles .region r else d
  let d := d.modRegion r fun x => { x with adm := none, phase := .idle, rerun := 0, toks := [], fins := [] }
  if x.serving then (match d.decideCancels r with | (d, vs) => d.sendReplies vs).enterStopped r else d

/-- The commands that run in a mailbox at a host reset run to their end and write no reply; one that waits for a payload does not run. -/
def Dev.mboxReset (d : Dev) : Dev :=
  let h := d.hive
  let running := (List.range Config.nMailboxes).filter fun m => decide (d.mbState m = 2) && !d.host.dma.any fun e =>
    match e.2 with | .payload k _ _ => decide (k = m) | _ => false
  let waiting := running.filter fun m => !h.began.contains m
  let d := { d with hive := { h with
    order := [], noReply := h.noReply ++ running.filter fun m => !h.noReply.contains m
    late := h.late ++ waiting.map fun m => (m, d.message m), payloads := [] } }
  (d.setReg Reg.HIVE_MBOXST 0).negClear

/-- What PERST_N, a hot reset, a link-down event and an FLR reset. -/
def Dev.hostReset (d : Dev) : Dev :=
  let d := ((d.mboxReset).epochUp 4).abandon 4
  let d := { d with host := { d.host with msix := [], dma := [] } }
  let d := d.modWt fun w => { w with sessions := w.sessions.filter fun s => decide (s.q.role ≠ .head) }
  let d := { d with rings := [] }
  ((List.range Config.nRegions).foldl Dev.hostStop d).swapRun

/-- PERST_N. -/
def execPerstN (s : State) : Host.Outcome State Fault Refusal :=
  onDev s fun d =>
    let d := d.hostReset
    { d with host := { d.host with perst := true }, aon := d.aon.cause 2 }

/-- FLR: as PERST_N without link retraining. -/
def execFlr (s : State) : Host.Outcome State Fault Refusal :=
  onDev s fun d =>
    let d := d.hostReset
    { d with aon := d.aon.cause 3 }

/-- PERST_N_HIGH: the link trains. -/
def execPerstNHigh (s : State) : Host.Outcome State Fault Refusal := onDev s fun d => { d with host := { d.host with perst := false } }

end Sys2Proof.Machine
end

