-- ==== Sys2Proof/Machine/AlwaysOn.lean ====
section
/-! DEFINITION. The SMBus target of the always-on domain and the test access port (17 R399 to R402). -/

namespace Sys2Proof.Machine

/-! ### SMBus (17 R400, Table 17.6) -/

/-- The target answers on AUX power alone. -/
def Dev.onAux (d : Dev) (f : Dev → Dev) : Dev := if d.aon.aux then f d else d

/-- A read of `n` bytes. -/
def Dev.smbRead (d : Dev) (n v : Nat) : Dev := d.onAux fun d => d.emit (.smb (leBytes n v))

/-- The STATUS word. -/
def Dev.smbWord (d : Dev) : Nat :=
  d.aon.vin.toNat + 2 * d.aon.resetN.toNat + 4 * d.aon.bypass.toNat + 8 * d.aon.thermN.toNat + 16 * d.aon.trip.toNat +
    32 * d.aon.owner.code + 128 * (d.seamF false || d.seamF true).toNat + 256 * fld (d.reg Reg.PWR_STATUS) 0 2

/-- SMB_STATUS: the read releases ALERT_N (R401). -/
def execSmbStatus (s : State) : Host.Outcome State Fault Refusal :=
  onDev s fun d => d.onAux fun d =>
    let d := d.smbRead 2 d.smbWord
    { d with aon := { d.aon with alertN := false } }

/-- SMB_JUNCTION_TEMP. -/
def execSmbJunctionTemp (s : State) : Host.Outcome State Fault Refusal :=
  onDev s fun d => d.smbRead 1 (if d.aon.vin then d.aon.tj.foldl max 0 else 0)

/-- SMB_CASE_TEMP. -/
def execSmbCaseTemp (s : State) : Host.Outcome State Fault Refusal := onDev s fun d => d.smbRead 1 (if d.aon.vin then d.aon.tcase else 0)

/-- Mean VIN power of the last 1 ms, from the averages of 20 µs (R400, 14 R331). -/
def AlwaysOn.vinPower (a : AlwaysOn) : Nat := a.vinHist.foldl (fun x y => x + y) 0 / 50

/-- SMB_VIN_POWER. -/
def execSmbVinPower (s : State) : Host.Outcome State Fault Refusal := onDev s fun d => d.smbRead 2 (if d.aon.vin then d.aon.vinPower else 0)

/-- SMB_LATCH_EPOCH. -/
def execSmbLatchEpoch (s : State) : Host.Outcome State Fault Refusal := onDev s fun d => d.smbRead 2 d.aon.epoch.toNat

/-- SMB_RSTCAUSE. -/
def execSmbRstcause (s : State) : Host.Outcome State Fault Refusal := onDev s fun d => d.smbRead 1 d.aon.rstcause.toNat

/-- "BMP1152", a zero byte and the serial number. -/
def identity : List Byte := ([0x42, 0x4D, 0x50, 0x31, 0x31, 0x35, 0x32, 0x00] : List Byte) ++ leBytes 8 Config.serial.toNat

/-- SMB_IDENTITY. -/
def execSmbIdentity (s : State) : Host.Outcome State Fault Refusal := onDev s fun d => d.onAux fun d => d.emit (.smb identity)

/-- SMB_OVERRIDE: SEL names a profile or none; another value is not stored (Table 17.5). -/
def execSmbOverride (sel : Byte) (s : State) : Host.Outcome State Fault Refusal :=
  onDev s fun d => d.onAux fun d => if sel.toNat ≤ 3 ∨ sel = 0xFF then d.setOverride sel else d

/-- SMB_CLEAR_TRIP: 0x01 clears TRIP (14 R334); other values are ignored. -/
def execSmbClearTrip (v : Byte) (s : State) : Host.Outcome State Fault Refusal :=
  onDev s fun d => d.onAux fun d =>
    if v = 1 then
      (({ d with aon := { d.aon with trip := false } } : Dev).modReg Reg.PWR_ERR fun e => clrBit e 4).thermRelease
    else d

/-- ALERT_RESPONSE: while ALERT_N is asserted the device answers with its own address, the seven bits of R400 (log 56). -/
def execAlertResponse (s : State) : Host.Outcome State Fault Refusal :=
  onDev s fun d => if d.aon.alertN then d.smbRead 1 (0x58 + d.aon.smbAddr.toNat) else d

/-! ### TAP (17 R402, Table 17.7): its lands operate only while VIN is present (18 R414) -/

/-- Loads an instruction. -/
def Dev.loadIr (d : Dev) (ir : TapIr) : Dev := { d with tap := { d.tap with ir := ir } }

/-- Loads an instruction if a condition holds, else BYPASS. -/
def Dev.irIf (d : Dev) (ok : Bool) (ir : TapIr) : Dev := if d.aon.vin then d.loadIr (if ok then ir else .bypass) else d

/-- The bits of a value, least significant first. -/
def tapBits (n v : Nat) : List Bool := (List.range n).map fun i => v.testBit i

/-- The IDCODE register. -/
def idcodeWord : Nat := 2 ^ 28 * Config.idcodeRev.toNat + 2 ^ 12 * 0x1152 + 2 * Config.jedecId.toNat + 1

/-- EXTEST. -/
def execExtest (s : State) : Host.Outcome State Fault Refusal := onDev s fun d => d.irIf (!d.aon.resetN) .extest

/-- IDCODE. -/
def execIdcode (s : State) : Host.Outcome State Fault Refusal :=
  onDev s fun d => if d.aon.vin then (d.loadIr .idcode).emit (.tap (tapBits 32 idcodeWord)) else d

/-- SAMPLE/PRELOAD: the lands' levels leave, which the model does not hold (free values, log 2), and the cells take the shifted values. -/
def execSamplePreload (cells : List Bool) (s : State) : Host.Outcome State Fault Refusal :=
  onDev s fun d =>
    if d.aon.vin then
      let e := d.loadIr .sample
      (({ e with tap := { e.tap with cells := cells } } : Dev).emit (.tap (tapBits cells.length d.free))).drawn
    else d

/-- CLAMP. -/
def execClamp (s : State) : Host.Outcome State Fault Refusal := onDev s fun d => d.irIf (!d.aon.resetN) .clamp

/-- HIGHZ. -/
def execHighz (s : State) : Host.Outcome State Fault Refusal := onDev s fun d => d.irIf (!d.aon.resetN) .highz

/-- DBG_ACCESS: with scope bit 1 unlocked, a read or write of BAR0 or BAR2. -/
def execDbgAccess (q : BarReq) (s : State) : Host.Outcome State Fault Refusal :=
  onDev s fun d =>
    if d.aon.vin then
      if bit d.hive.scope 1 ∧ q.bar ≠ 4 then
        let r := (d.loadIr .dbgAccess).barDo q
        if q.write then r.1 else r.1.emit (.tap (r.2.flatMap fun v => tapBits (if q.wide then 64 else 32) v.toNat))
      else d.loadIr .bypass
    else d

/-- Whether a site lies in a loaded region. -/
def Dev.siteLoaded (d : Dev) (b col : Nat) : Bool := ((d.tileAt b col).bind d.regionOf).isSome

/-- SCANBIST: with scope bit 2 unlocked, the built-in self-test of a site in no loaded region; its result is an operand (log 19). -/
def Dev.scanBist (d : Dev) (b col : Nat) (pass : Bool) : Dev :=
  if d.aon.vin then
    if bit d.hive.scope 2 ∧ d.siteLoaded b col = false then
      { d with tap := { d.tap with ir := .scanBist, bist := some (b, col, pass) } }
    else d.loadIr .bypass
  else d

def execScanbist (b col : Nat) (pass : Bool) (s : State) : Host.Outcome State Fault Refusal :=
  if col < 48 then onUnit Config.benches b s fun d => d.scanBist b col pass else .fault .noSuchUnit

/-- BYPASS, and any code that Table 17.7 does not list. -/
def execBypass (s : State) : Host.Outcome State Fault Refusal := onDev s fun d => d.irIf true .bypass

/-- TAP_TEST_RESET: TRST_N low, or RESET_N low with TRST_N absent, selects IDCODE. -/
def execTapTestReset (s : State) : Host.Outcome State Fault Refusal := onDev s fun d => d.irIf true .idcode

end Sys2Proof.Machine
end

