-- ==== Sys2Proof/Machine/Array.lean ====
section
/-! DEFINITION. The array unit's commands (03): NOP, COMPUTE, WLOAD, CBLOAD, DRAIN, XADD, and retirement. A command
acts on the ACW of its kind that may start or is in progress (03 R58), and takes it as far as its operands allow. -/

namespace Sys2Proof.Machine

/-- ACW `id` of tile `t` goes on as far as it can. -/
def Dev.acwAdvance (t : Nat) (f : Dev → AcwEntry → Dev × Bool) (d : Dev) (id : Nat) : Dev :=
  match (d.tile t).acwOf id with
  | some e =>
    if (d.tile t).acwUsable e then d.acwLoop t id (Acw.total e.acw) f (Acw.total e.acw - e.prog + 1) else d
  | none => d

/-- A command of the array unit of tile `t`: it runs `f` for each unit of the ACWs of its kind that are in progress, in queue order,
and then of the first unstarted ACW, when that is of the kind and may start. -/
def Dev.acwRun (d : Dev) (t kind : Nat) (f : Dev → AcwEntry → Dev × Bool) : Dev :=
  let d := ((d.tile t).acwRunning kind).foldl (fun d e => d.acwAdvance t f e.id) d
  match (d.tile t).acwNext kind with
  | none => d
  | some e => (d.modTile t fun x => x.acwStart e.id).acwAdvance t f e.id

/-- NOP: it starts and is complete. -/
def execNop (t : Nat) (s : State) : Host.Outcome State Fault Refusal :=
  onTile t s fun d => d.acwRun t kNOP fun d _ => (d, true)

/-! ### COMPUTE (03 R48, R62 to R67) -/

/-- The plane that pass `p` uses (03 R65). -/
def Acw.planeOf (a : Acw) (p : Nat) : Bool := a.psel ^^ (a.swap && decide (p % 2 = 1))

/-- The plane blocks a COMPUTE loads up to and including those of pass `p`, in order: plane, array (03 R65). At FOLD = NONE it
fills the other plane with the stream's first block of each enabled array, in ascending order as a WLOAD does (DESIGN CHOICE, log
90). -/
def Acw.loadList (a : Acw) (p : Nat) : List (Bool × Nat) :=
  if !a.loads then []
  else if a.fold = 0 then a.arrays.map fun j => (!a.psel, j)
  else (List.range (p + 1)).flatMap fun q => (a.blocks q).map fun b => (a.planeOf q, b.1)

/-- The activation vector: its bytes, its scale bytes, whether its unit is invalid (03 R51, 06 R151). -/
def Dev.vector (d : Dev) (t : Nat) (e : AcwEntry) : Dev × Option (List Byte × List Byte × Bool) :=
  let a : Acw := e.acw
  let n := a.vecLen * a.abytes
  let ns := actScales a.afmt a.vecLen a.subLen
  if a.asrc = 1 then
    match d.itemUnit t e (cdiv (n + ns) 16 * 16) with
    | (d, some (bs, bad)) => (d, some (slice bs 0 n, slice bs n ns, bad))
    | (d, none) => (d, none)
  else
    match d.operand t e.id 0 a.aga n true with
    | (d, none) => (d, none)
    | (d, some bs) =>
      if ns = 0 then (d, some (bs, [], false))
      else match d.operand t e.id 1 a.agsa ns false with
        | (d, some sc) => (d, some (bs, sc, false))
        | (d, none) => (d, none)

/-- A parity error in a plane of an enabled array, or in a codebook that this command decodes, is met when the unit goes on after
`start` units (03 R73): the flag says that the unit goes on. -/
def Dev.planeCheck (d : Dev) (t : Nat) (e : AcwEntry) (u : Upset) (start : List (Nat × Nat)) : Dev × Bool :=
  match u.plane with
  | some j =>
    if (Acw.arrays e.acw).contains j = true ∧ start.contains (e.id, e.entered) = true then
      (fun r : Dev × Bool => (r.1, !r.2)) (d.planeParity t j)
    else (d, true)
  | none => (d, true)

/-- Where the ACWs of a tile stand: the ID and the units entered of each. -/
def Dev.acwMarks (d : Dev) (t : Nat) : List (Nat × Nat) := (d.tile t).acwQ.map fun e => (e.id, e.entered)

/-- Unit `prog` of a COMPUTE: vector i = prog mod REP of pass prog ÷ REP. The loads it waits for, its adds once no earlier drain has
still to read its rows (03 R59), then its outputs. -/
def Dev.computeUnit (t : Nat) (u : Upset) (start : List (Nat × Nat)) (d : Dev) (e : AcwEntry) : Dev × Bool :=
  let a : Acw := e.acw
  let p := e.prog / a.rep
  let i := e.prog % a.rep
  let outs := a.outs p i
  if e.added then Dev.outputs t e (outs.drop e.sent) d
  else
    match d.planeCheck t e u start with
    | (d, false) => (d, false)
    | (d, true) =>
    match Dev.loadBlocks t e.id e.acw ((Acw.loadList e.acw p).drop e.loaded) d with
    | (d, false) => (d, false)
    | (d, true) =>
      if (a.jobs p i).any fun j => (d.tile t).addHeld e.id j.arr j.row then (d, false)
      else match d.vector t e with
      | (d, none) => (d, false)
      | (d, some (bs, sc, bad)) =>
        let av := actVals a.afmt a.vecLen a.subLen bs sc
        let clear := decide (a.accop % 2 = 1) && decide (p % a.krounds = 0)
        let d := d.modTile t fun x =>
          ((a.jobs p i).foldl (fun x j => x.jobRun a (a.planeOf p) e.rmask e.cmask clear bad av j) x).modAcw e.id fun e =>
            { e with added := true }
        Dev.outputs t e outs d

/-- COMPUTE: as many vectors as its operands allow. -/
def execCompute (t : Nat) (f : Upset) (s : State) : Host.Outcome State Fault Refusal :=
  onTile t s fun d => (d.upset f).acwRun t kCOMPUTE (Dev.computeUnit t f (d.acwMarks t))

/-! ### Loads (03 R49, R50, R70) -/

/-- WLOAD: plane PSEL of each enabled array, in ascending order. A load of K4 reads the codebooks (03 R70, R73). -/
def execWload (t : Nat) (f : Upset) (s : State) : Host.Outcome State Fault Refusal :=
  onTile t s fun d => (d.upset f).acwRun t kWLOAD fun d' e =>
    match if Acw.wfmt e.acw = 10 then d'.planeCheck t e f (d.acwMarks t) else (d', true) with
    | (d', false) => (d', false)
    | (d', true) => d'.loadBlock t e.id e.acw (Acw.psel e.acw) ((Acw.arrays e.acw).getD e.prog 0)

/-- A codebook load into one array. -/
def Arr.cbLoad (x : Arr) (a : Acw) (bs : List Byte) : Arr :=
  { x with
    cb := slice bs 0 64
    cbType := BitVec.ofNat 4 a.cbtype
    cbcol := if a.cbcol then BitVec.ofNat 64 (rdNat bs 64 8) else x.cbcol }

/-- CBLOAD: one address of AGW gives 64 or 72 bytes for every enabled array. -/
def execCbload (t : Nat) (f : Upset) (s : State) : Host.Outcome State Fault Refusal :=
  onTile t s fun d => (d.upset f).acwRun t kCBLOAD fun d e =>
    match d.operand t e.id 0 (Acw.agw e.acw) (if Acw.cbcol e.acw then 72 else 64) true with
    | (d, some bs) => (d.modTile t fun x => (Acw.arrays e.acw).foldl (fun x j => x.setArr j ((x.arr j).cbLoad e.acw bs)) x, true)
    | (d, none) => (d, false)

/-! ### DRAIN and XADD (03 R66, R71, R72) -/

/-- DRAIN: row by row, the enabled arrays in ascending order, 32 columns each, each once no earlier ACW has still
to add into it (03 R59); ACCOP 1 or 3 clears each row after its read. -/
def execDrain (t : Nat) (s : State) : Host.Outcome State Fault Refusal :=
  onTile t s fun d => d.acwRun t kDRAIN fun d e =>
    let a : Acw := e.acw
    let row := a.rowbase + e.prog / a.na
    let j := a.arrays.getD (e.prog % a.na) 0
    if (d.tile t).drainHeld e.id j row then (d, false)
    else match Dev.outputs t e [[(j, row, 0, 32)]] d with
    | (d, true) => (if a.accop % 2 = 1 then d.modTile t fun x => x.setArr j ((x.arr j).clearDrained row) else d, true)
    | (d, false) => (d, false)

/-- The next XPS block of an XADD: its bytes, and whether its unit is whole. -/
def Dev.xpsUnit (d : Dev) (t : Nat) (e : AcwEntry) : Dev × Option (List Byte × Bool) :=
  if Acw.asrc e.acw = 1 then
    match d.itemUnit t e 528 with
    | (d, some (bs, bad)) => (d, some (bs, !bad))
    | (d, none) => (d, none)
  else
    match d.operand t e.id 0 (Acw.aga e.acw) 528 true with
    | (d, some bs) => (d, some (bs, true))
    | (d, none) => (d, none)

/-- XADD: for each row from ROWBASE, one block into that row of each enabled array in ascending order; ACCOP 1 or 3 clears the
row of the array first. It uses no ODST (03 Table 3.8), so ACCOP 2 and 3 drain nothing (DESIGN CHOICE, log 88). -/
def execAcwXadd (t : Nat) (f : Upset) (s : State) : Host.Outcome State Fault Refusal :=
  onTile t s fun d => (d.upset f).acwRun t kXADD fun d e =>
    let a : Acw := e.acw
    let row := a.rowbase + e.prog / a.na
    let j := a.arrays.getD (e.prog % a.na) 0
    if (d.tile t).addHeld e.id j row then (d, false)
    else match d.xpsUnit t e with
    | (d, none) => (d, false)
    | (d, some (bs, ok)) =>
      (d.modTile t fun x =>
        let y := x.arr j
        let y := if a.accop % 2 = 1 then y.clearRow row 0xFFFFFFFF a.wb false else y
        let z := ArrF.addBlock (y, 0) row (Xps.parse bs) ok a.wb
        (x.setArr j z.1).arrFlag j z.2, true)

/-! ### Retirement (03 R58, 04 R93) -/

/-- An ACW may retire: it is complete, and none of its rows waits at the append port. -/
def Tile.acwRetirable (t : Tile) (e : AcwEntry) : Bool := e.done && !t.wvl.appendQ.any fun r => decide (r.acwId = e.id)

/-- ACW_RETIRE: the oldest complete ACW leaves the queue and the scoreboard; ARR_ACWDONE advances, and DONE_EV sets ACW_DONE. -/
def execAcwRetire (t : Nat) (s : State) : Host.Outcome State Fault Refusal :=
  onTile t s fun d => d.modTile t fun x =>
    match x.acwQ.find? x.acwRetirable with
    | none => x
    | some e =>
      let x := { x with acwQ := x.acwQ.filter fun y => decide (y.id ≠ e.id) }
      let x := x.count Reg.ARR_ACWDONE 1
      if Acw.doneEv e.acw then x.event 0 else x

end Sys2Proof.Machine
end

