-- ==== Sys2Proof/Machine/Operands.lean ====
section
/-! DEFINITION. What the Scarab's instructions share (04): general registers, instruction words, immediates, data memory with
the store buffer, the program counter, traps, and when an instruction may issue. -/

namespace Sys2Proof.Machine

/-! ### Registers, words, immediates -/

/-- General register `n`; g0 reads as zero (04 R75). -/
def Tile.gr (t : Tile) (n : R5) : W32 := if n = 0 then 0 else SMap.get (fun _ => 0) t.scb.g n.toNat

/-- Writes a general register; a write to g0 is discarded (04 R75). -/
def Tile.setGr (t : Tile) (n : R5) (v : W32) : Tile :=
  if n = 0 then t else { t with scb := { t.scb with g := SMap.set (fun _ => 0) t.scb.g n.toNat v } }

/-- The word of an instruction with a 16-bit immediate: OP, the register of [25:21], RS1, IMM (04 Table 4.1). -/
def wordI (op : Nat) (rd rs1 : R5) (imm : I16) : W32 :=
  BitVec.ofNat 32 (op * 2 ^ 26 + rd.toNat * 2 ^ 21 + rs1.toNat * 2 ^ 16 + imm.toNat)

/-- The word of an ALU instruction (04 Table 4.1). -/
def wordR (rd rs1 rs2 : R5) (rsv : BitVec 6) (fn : R5) : W32 :=
  BitVec.ofNat 32 (rd.toNat * 2 ^ 21 + rs1.toNat * 2 ^ 16 + rs2.toNat * 2 ^ 11 + rsv.toNat * 2 ^ 5 + fn.toNat)

/-- A sign-extended immediate (04 R79). -/
def sext16 (imm : I16) : W32 := imm.signExtend 32

/-- An address formed as RS1 + sext(IMM), modulo 2^32 (04 R79, R84). -/
def Tile.ea (t : Tile) (rs1 : R5) (imm : I16) : W32 := t.gr rs1 + sext16 imm

/-! ### Data memory (04 R84 to R87) -/

/-- A buffered store covers some byte of an access. -/
def StoreEntry.meets (e : StoreEntry) (a n : Nat) : Bool := decide (e.addr < a + n) && decide (a < e.addr + e.bytes.length)

/-- A buffered store covers every byte of an access. -/
def StoreEntry.covers (e : StoreEntry) (a n : Nat) : Bool := decide (e.addr ≤ a) && decide (a + n ≤ e.addr + e.bytes.length)

/-- What a load reads: DMEM, or the bytes of the youngest overlapping store when it covers the load; none while the load
stalls (04 R86). -/
def Tile.dmemLoad (t : Tile) (a n : Nat) : Option (List Byte) :=
  match (t.scb.sbuf.filter fun e => e.meets a n).getLast? with
  | none => some (t.dmem.readN a n)
  | some e => if e.covers a n then some (slice e.bytes (a - e.addr) n) else none

/-- The oldest buffered store reaches DMEM (04 R85). -/
def Tile.storeDrain (t : Tile) : Tile :=
  match t.scb.sbuf with
  | [] => t
  | e :: rest => { t with dmem := t.dmem.writeN e.addr e.bytes, scb := { t.scb with sbuf := rest } }

/-! ### Issue and traps -/

/-- An asynchronous cause waits and may be taken (04 R105). -/
def Scarab.takeable (s : Scarab) : Bool := !s.inTrap && !s.pend.isEmpty

/-- The Scarab runs, and neither a HALT request nor an asynchronous cause takes the boundary first (04 R104). -/
def Tile.mayRun (t : Tile) : Bool := t.scb.mode == .run && !t.scb.haltReq && !t.scb.takeable && !t.stopped

/-- The Scarab may issue its next instruction: nothing waits (04 R74). -/
def Tile.canIssue (t : Tile) : Bool := t.mayRun && t.scb.stall == .none

/-- Synchronous trap causes (04 Table 4.9). -/
abbrev tcILLEGAL : Nat := 0x01
abbrev tcMISALIGN : Nat := 0x02
abbrev tcDMEM_RANGE : Nat := 0x03
abbrev tcIMEM_RANGE : Nat := 0x04
abbrev tcCTL_RANGE : Nat := 0x05
abbrev tcACW_REFUSED : Nat := 0x06
abbrev tcVEC_REFUSED : Nat := 0x07
abbrev tcRANGE_DECL : Nat := 0x08
abbrev tcAG_DESC : Nat := 0x09
abbrev tcWAITT_RANGE : Nat := 0x0C
abbrev tcSYSCALL : Nat := 0x0D

/-- Takes a trap (04 R105): SCB_EPC is the PC, SCB_CAUSE the cause and TVAL, INTRAP is set, the PC is SCB_TVEC. -/
def Tile.trapTo (t : Tile) (code : Nat) (tval : W32) : Tile :=
  let t := (t.setReg Reg.SCB_EPC (BitVec.ofNat 64 t.scb.pc.toNat)).setReg Reg.SCB_CAUSE (BitVec.ofNat 64 (code + tval.toNat * 2 ^ 32))
  { t with scb := { t.scb with inTrap := true, stall := .none, pc := BitVec.ofNat 32 (fld (t.reg Reg.SCB_TVEC) 0 16) } }

/-- The Scarab enters FAULT (04 R106): an error record, and the region's step ends without rerun. -/
def Dev.scbFault (d : Dev) (t : Nat) (st : W16) (tval : W32) : Dev :=
  let d := d.modTile t fun x => { x with scb := { x.scb with mode := .fault, stall := .none } }
  let d := d.recordTile t 2 0 st 2 tval.toNat
  match d.regionOf t with
  | some r => d.stepFail r
  | none => d

/-- A synchronous cause (04 R104, R106). -/
def Dev.scbTrap (d : Dev) (t code : Nat) (tval : W32) : Dev :=
  if (d.tile t).scb.inTrap then d.scbFault t St.SCARAB_FAULT tval else d.modTile t fun x => x.trapTo code tval

/-- The cause is ILLEGAL; TVAL is the instruction word. -/
def Dev.illegal (d : Dev) (t : Nat) (w : W32) : Dev := d.scbTrap t tcILLEGAL w

/-- Takes the oldest pending asynchronous cause (04 R104, R105): a waiting instruction is abandoned. ARR_FLAG's TVAL is ARR_FLAGS
at the trap. -/
def Tile.asyncTake (t : Tile) : Tile :=
  match t.scb.pend with
  | [] => t
  | (c, v) :: rest =>
    let t := { t with scb := { t.scb with pend := rest } }
    t.trapTo c.code (if c = .arrFlag then lo32 (t.reg Reg.ARR_FLAGS) else v)

/-- After an instruction that goes on in sequence; past 0xFFFC the trap IMEM_RANGE follows at once (04 R104). -/
def Dev.scbNext (d : Dev) (t : Nat) : Dev :=
  let d := d.modTile t fun x => { x with scb := { x.scb with pc := x.scb.pc + 4, stall := .none } }
  if (d.tile t).scb.pc.toNat ≥ 0x10000 then d.scbTrap t tcIMEM_RANGE (d.tile t).scb.pc else d

/-- Goes to a target; one at or above 0x1_0000 traps IMEM_RANGE, and the instruction has no effect (04 R104). `f` is the
instruction's other effect. -/
def Dev.scbGoto (d : Dev) (t : Nat) (target : W32) (f : Tile → Tile) : Dev :=
  if target.toNat ≥ 0x10000 then d.scbTrap t tcIMEM_RANGE target
  else d.modTile t fun x => { f x with scb := { (f x).scb with pc := target } }

/-- An instruction of the Scarab of tile `t`: it has its effect when that Scarab may issue (log 1). -/
def onScb (t : Nat) (s : State) (f : Dev → Dev) : Host.Outcome State Fault Refusal :=
  onTile t s fun d => if (d.tile t).canIssue then f d else d

/-- An instruction that writes a general register and goes on. -/
def Dev.scbSet (d : Dev) (t : Nat) (rd : R5) (v : W32) : Dev := (d.modTile t fun x => x.setGr rd v).scbNext t

/-- The instruction waits (04 R104). -/
def Dev.scbStall (d : Dev) (t : Nat) (k : Stall) : Dev := d.modTile t fun x => { x with scb := { x.scb with stall := k } }

end Sys2Proof.Machine
end

