-- ==== Sys2Proof/Machine/Scarab.lean ====
section
/-! DEFINITION. The Scarab's instructions but for issue (04): arithmetic, loads and stores, branches, control space, time,
events, fences, traps, and the commands that stop and start it. -/

namespace Sys2Proof.Machine

/-! ### Arithmetic (04 R79 to R82) -/

/-- Signed quotient rounded toward zero, and remainder; division never traps (04 R82). -/
def divS (a b : W32) : W32 := if b = 0 then 0xFFFFFFFF else BitVec.ofInt 32 (Int.tdiv a.toInt b.toInt)
def remS (a b : W32) : W32 := if b = 0 then a else BitVec.ofInt 32 (Int.tmod a.toInt b.toInt)
def divU (a b : W32) : W32 := if b = 0 then 0xFFFFFFFF else BitVec.ofNat 32 (a.toNat / b.toNat)
def remU (a b : W32) : W32 := if b = 0 then a else BitVec.ofNat 32 (a.toNat % b.toNat)

/-- A comparison as a register value. -/
def boolW (c : Bool) : W32 := if c then 1 else 0

/-- The ALU functions (04 Table 4.3); none for a code not listed. -/
def aluFn (fn : Nat) (a b : W32) : Option W32 :=
  let sh := fld b 0 5
  match fn with
  | 0x00 => some (a + b)
  | 0x01 => some (a - b)
  | 0x02 => some (a &&& b)
  | 0x03 => some (a ||| b)
  | 0x04 => some (a ^^^ b)
  | 0x05 => some (a <<< sh)
  | 0x06 => some (a >>> sh)
  | 0x07 => some (a.sshiftRight sh)
  | 0x08 => some (boolW (decide (a.toInt < b.toInt)))
  | 0x09 => some (boolW (decide (a.toNat < b.toNat)))
  | 0x0A => some (if a.toInt ≤ b.toInt then a else b)
  | 0x0B => some (if a.toInt ≤ b.toInt then b else a)
  | 0x0C => some (if a.toNat ≤ b.toNat then a else b)
  | 0x0D => some (if a.toNat ≤ b.toNat then b else a)
  | 0x10 => some (a * b)
  | 0x11 => some (BitVec.ofInt 32 (a.toInt * b.toInt / 2 ^ 32))
  | 0x12 => some (BitVec.ofNat 32 (a.toNat * b.toNat / 2 ^ 32))
  | 0x14 => some (divU a b)
  | 0x15 => some (remU a b)
  | 0x16 => some (divS a b)
  | 0x17 => some (remS a b)
  | _ => none

/-- ALU (04 R80, R81): a reserved bit or an unlisted FN traps ILLEGAL. -/
def execAlu (t : Nat) (rd rs1 rs2 : R5) (rsv : BitVec 6) (fn : R5) (s : State) : Host.Outcome State Fault Refusal :=
  onScb t s fun d =>
    match aluFn fn.toNat ((d.tile t).gr rs1) ((d.tile t).gr rs2) with
    | some v => if rsv = 0 then d.scbSet t rd v else d.illegal t (wordR rd rs1 rs2 rsv fn)
    | none => d.illegal t (wordR rd rs1 rs2 rsv fn)

/-- ADDI (04 R80). -/
def execAddi (t : Nat) (rd rs1 : R5) (imm : I16) (s : State) : Host.Outcome State Fault Refusal :=
  onScb t s fun d => d.scbSet t rd ((d.tile t).gr rs1 + sext16 imm)

/-- ANDI (04 R79: the immediate is zero-extended). -/
def execAndi (t : Nat) (rd rs1 : R5) (imm : I16) (s : State) : Host.Outcome State Fault Refusal :=
  onScb t s fun d => d.scbSet t rd ((d.tile t).gr rs1 &&& imm.setWidth 32)

/-- ORI (04 R79). -/
def execOri (t : Nat) (rd rs1 : R5) (imm : I16) (s : State) : Host.Outcome State Fault Refusal :=
  onScb t s fun d => d.scbSet t rd ((d.tile t).gr rs1 ||| imm.setWidth 32)

/-- XORI (04 R79). -/
def execXori (t : Nat) (rd rs1 : R5) (imm : I16) (s : State) : Host.Outcome State Fault Refusal :=
  onScb t s fun d => d.scbSet t rd ((d.tile t).gr rs1 ^^^ imm.setWidth 32)

/-- SLTI, signed (04 R80). -/
def execSlti (t : Nat) (rd rs1 : R5) (imm : I16) (s : State) : Host.Outcome State Fault Refusal :=
  onScb t s fun d => d.scbSet t rd (boolW (decide (((d.tile t).gr rs1).toInt < (sext16 imm).toInt)))

/-- SHI (04 R80): IMM[6:5] = 0 SLLI, 1 SRLI, 2 SRAI; 3, or a bit of IMM[15:7], traps ILLEGAL. -/
def execShi (t : Nat) (rd rs1 : R5) (imm : I16) (s : State) : Host.Outcome State Fault Refusal :=
  onScb t s fun d =>
    let a := (d.tile t).gr rs1
    let n := fld imm 0 5
    if fld imm 5 11 = 0 then d.scbSet t rd (a <<< n)
    else if fld imm 5 11 = 1 then d.scbSet t rd (a >>> n)
    else if fld imm 5 11 = 2 then d.scbSet t rd (a.sshiftRight n)
    else d.illegal t (wordI 0x06 rd rs1 imm)

/-- LUI (04 R80); RS1 is reserved. -/
def execLui (t : Nat) (rd rs1 : R5) (imm : I16) (s : State) : Host.Outcome State Fault Refusal :=
  onScb t s fun d =>
    if rs1 = 0 then d.scbSet t rd (imm.setWidth 32 <<< 16) else d.illegal t (wordI 0x07 rd rs1 imm)

/-! ### Loads and stores (04 R84 to R86) -/

/-- Extends a loaded value. -/
def loadExt (signed : Bool) (bs : List Byte) : W32 :=
  let v := leNat bs
  if signed ∧ 2 ^ (8 * bs.length - 1) ≤ v then BitVec.ofInt 32 ((v : Int) - 2 ^ (8 * bs.length)) else BitVec.ofNat 32 v

/-- A load of `n` bytes: DMEM_RANGE, MISALIGN, the value, or a stall. -/
def Dev.scbLoad (d : Dev) (t n : Nat) (signed : Bool) (rd rs1 : R5) (imm : I16) : Dev :=
  let x := d.tile t
  let a := x.ea rs1 imm
  if a.toNat ≥ 0x10000 then d.scbTrap t tcDMEM_RANGE a
  else if a.toNat % n ≠ 0 then d.scbTrap t tcMISALIGN a
  else match x.dmemLoad a.toNat n with
    | some bs => d.scbSet t rd (loadExt signed bs)
    | none => d.scbStall t (.load a.toNat n signed rd)

/-- A store of `n` bytes enters the store buffer, or waits when it holds 8 entries (04 R85). -/
def Dev.scbStore (d : Dev) (t n : Nat) (rs2 rs1 : R5) (imm : I16) : Dev :=
  let x := d.tile t
  let a := x.ea rs1 imm
  let e : StoreEntry := ⟨a.toNat, leBytes n (x.gr rs2).toNat⟩
  if a.toNat ≥ 0x10000 then d.scbTrap t tcDMEM_RANGE a
  else if a.toNat % n ≠ 0 then d.scbTrap t tcMISALIGN a
  else if x.scb.sbuf.length ≥ 8 then d.scbStall t (.store e)
  else (d.setTile t { x with scb := { x.scb with sbuf := x.scb.sbuf ++ [e] } }).scbNext t

/-- LB. -/
def execLb (t : Nat) (rd rs1 : R5) (imm : I16) (s : State) : Host.Outcome State Fault Refusal :=
  onScb t s fun d => d.scbLoad t 1 true rd rs1 imm

/-- LBU. -/
def execLbu (t : Nat) (rd rs1 : R5) (imm : I16) (s : State) : Host.Outcome State Fault Refusal :=
  onScb t s fun d => d.scbLoad t 1 false rd rs1 imm

/-- LH. -/
def execLh (t : Nat) (rd rs1 : R5) (imm : I16) (s : State) : Host.Outcome State Fault Refusal :=
  onScb t s fun d => d.scbLoad t 2 true rd rs1 imm

/-- LHU. -/
def execLhu (t : Nat) (rd rs1 : R5) (imm : I16) (s : State) : Host.Outcome State Fault Refusal :=
  onScb t s fun d => d.scbLoad t 2 false rd rs1 imm

/-- LW. -/
def execLw (t : Nat) (rd rs1 : R5) (imm : I16) (s : State) : Host.Outcome State Fault Refusal :=
  onScb t s fun d => d.scbLoad t 4 false rd rs1 imm

/-- SB. -/
def execSb (t : Nat) (rs2 rs1 : R5) (imm : I16) (s : State) : Host.Outcome State Fault Refusal :=
  onScb t s fun d => d.scbStore t 1 rs2 rs1 imm

/-- SH. -/
def execSh (t : Nat) (rs2 rs1 : R5) (imm : I16) (s : State) : Host.Outcome State Fault Refusal :=
  onScb t s fun d => d.scbStore t 2 rs2 rs1 imm

/-- SW. -/
def execSw (t : Nat) (rs2 rs1 : R5) (imm : I16) (s : State) : Host.Outcome State Fault Refusal :=
  onScb t s fun d => d.scbStore t 4 rs2 rs1 imm

/-- STORE_BUFFER_WRITE (04 R85). -/
def execStoreBufferWrite (t : Nat) (s : State) : Host.Outcome State Fault Refusal :=
  onTile t s fun d => d.modTile t Tile.storeDrain

/-! ### Branches and jumps (04 R79, R104) -/

/-- A branch: taken, it goes to PC + 4 × sext(IMM). -/
def Dev.scbBranch (d : Dev) (t : Nat) (c : Bool) (imm : I16) : Dev :=
  if c then d.scbGoto t ((d.tile t).scb.pc + (sext16 imm <<< 2)) (fun x => x) else d.scbNext t

/-- BEQ. -/
def execBeq (t : Nat) (rs2 rs1 : R5) (imm : I16) (s : State) : Host.Outcome State Fault Refusal :=
  onScb t s fun d => d.scbBranch t (decide ((d.tile t).gr rs1 = (d.tile t).gr rs2)) imm

/-- BNE. -/
def execBne (t : Nat) (rs2 rs1 : R5) (imm : I16) (s : State) : Host.Outcome State Fault Refusal :=
  onScb t s fun d => d.scbBranch t (decide ((d.tile t).gr rs1 ≠ (d.tile t).gr rs2)) imm

/-- BLT, signed. -/
def execBlt (t : Nat) (rs2 rs1 : R5) (imm : I16) (s : State) : Host.Outcome State Fault Refusal :=
  onScb t s fun d => d.scbBranch t (decide (((d.tile t).gr rs1).toInt < ((d.tile t).gr rs2).toInt)) imm

/-- BGE, signed. -/
def execBge (t : Nat) (rs2 rs1 : R5) (imm : I16) (s : State) : Host.Outcome State Fault Refusal :=
  onScb t s fun d => d.scbBranch t (decide (((d.tile t).gr rs2).toInt ≤ ((d.tile t).gr rs1).toInt)) imm

/-- BLTU. -/
def execBltu (t : Nat) (rs2 rs1 : R5) (imm : I16) (s : State) : Host.Outcome State Fault Refusal :=
  onScb t s fun d => d.scbBranch t (decide (((d.tile t).gr rs1).toNat < ((d.tile t).gr rs2).toNat)) imm

/-- BGEU. -/
def execBgeu (t : Nat) (rs2 rs1 : R5) (imm : I16) (s : State) : Host.Outcome State Fault Refusal :=
  onScb t s fun d => d.scbBranch t (decide (((d.tile t).gr rs2).toNat ≤ ((d.tile t).gr rs1).toNat)) imm

/-- JAL (04 R79). -/
def execJal (t : Nat) (rd : R5) (imm : BitVec 21) (s : State) : Host.Outcome State Fault Refusal :=
  onScb t s fun d =>
    let pc := (d.tile t).scb.pc
    d.scbGoto t (pc + (imm.signExtend 32 <<< 2)) fun x => x.setGr rd (pc + 4)

/-- JALR (04 R79): the target comes from RS1 as it was before RD is written. -/
def execJalr (t : Nat) (rd rs1 : R5) (imm : I16) (s : State) : Host.Outcome State Fault Refusal :=
  onScb t s fun d =>
    let x := d.tile t
    d.scbGoto t (x.ea rs1 imm &&& 0xFFFFFFFC) fun y => y.setGr rd (x.scb.pc + 4)

/-! ### Control space (04 R88 to R90) -/

/-- CRD: CTL_RANGE at an unlisted address; WVL_CLAIMED waits while a request is outstanding (08 R220). -/
def execCrd (t : Nat) (rd rs1 : R5) (imm : I16) (s : State) : Host.Outcome State Fault Refusal :=
  onScb t s fun d =>
    let x := d.tile t
    let a := x.ea rs1 imm
    if ctlValid a.toNat = false then d.scbTrap t tcCTL_RANGE a
    else if a.toNat = Reg.WVL_CLAIMED ∧ x.wvl.claimOut ≠ 0 then d.scbStall t (.claimed rd)
    else
      let (d, v) := d.tileRead32 .scarab t a.toNat
      d.scbSet t rd v

/-- An AGS of eight words (04 R97, R99): AG_DESC, a wait for the pending slot, or the program is taken. -/
def Dev.scbAgs (d : Dev) (t n : Nat) (ws : List W32) : Dev :=
  let p := agParse ws
  if p.bad then d.scbTrap t tcAG_DESC (BitVec.ofNat 32 n)
  else if ((d.tile t).ag n).pending.isSome then d.scbStall t (.ags n ws)
  else (d.modTile t fun x => x.agTake n p).scbNext t

/-- CWR: CTL_RANGE at an unlisted address; COMMIT of an AG is an AGS of its staging copy (04 R96). -/
def execCwr (t : Nat) (rs2 rs1 : R5) (imm : I16) (s : State) : Host.Outcome State Fault Refusal :=
  onScb t s fun d =>
    let x := d.tile t
    let a := (x.ea rs1 imm).toNat
    let v := x.gr rs2
    if ctlValid a = false then d.scbTrap t tcCTL_RANGE (x.ea rs1 imm)
    else if 0x400 ≤ a ∧ a < 0x800 ∧ (a - 0x400) % 64 = 0x30 then
      d.scbAgs t ((a - 0x400) / 64) (x.ag ((a - 0x400) / 64)).staging
    else (d.tileWrite32 t a v).scbNext t

/-! ### Time, events and fences (04 R101 to R103) -/

/-- TIME: the view of Cicada time; an odd RD, RD = 0 or a reserved bit traps ILLEGAL. -/
def execTime (t : Nat) (rd rs1 : R5) (imm : I16) (s : State) : Host.Outcome State Fault Refusal :=
  onScb t s fun d =>
    if rd = 0 ∨ rd.toNat % 2 = 1 ∨ rs1 ≠ 0 ∨ imm ≠ 0 then d.illegal t (wordI 0x20 rd rs1 imm)
    else
      let v := d.view t
      (d.modTile t fun x => (x.setGr rd (BitVec.ofNat 32 v)).setGr (rd + 1) (BitVec.ofNat 32 (v / 2 ^ 32))).scbNext t

/-- WAITT (04 R101): a target passed completes at once and is counted; one too far ahead traps; else the Scarab waits. -/
def execWaitt (t : Nat) (rd rs1 : R5) (imm : I16) (s : State) : Host.Outcome State Fault Refusal :=
  onScb t s fun d =>
    let x := d.tile t
    let tgt := (x.gr rs1).toNat + (x.gr (rs1 + 1)).toNat * 2 ^ 32
    let v := d.view t
    if rs1.toNat % 2 = 1 ∨ rd ≠ 0 ∨ imm ≠ 0 then d.illegal t (wordI 0x1D rd rs1 imm)
    else if tgt > v + 2 ^ 32 then d.scbTrap t tcWAITT_RANGE (BitVec.ofNat 32 tgt)
    else if tgt < v then
      (d.modTile t fun x => x.modReg Reg.SCB_WAITT_LATE fun r => addCnt (addCnt r 0 24 1) 24 40 (v - tgt)).scbNext t
    else if tgt = v then d.scbNext t
    else d.scbStall t (.waitt tgt)

/-- WAITT_COMPLETE: the view has reached the target (04 R101). -/
def execWaittComplete (t : Nat) (s : State) : Host.Outcome State Fault Refusal :=
  onTile t s fun d =>
    let x := d.tile t
    match x.scb.stall with
    | .waitt tgt => if x.mayRun ∧ tgt ≤ d.view t then d.scbNext t else d
    | _ => d

/-- Completes a WAITE: RD gets the bits that matched, which are cleared (04 R102). -/
def Dev.waiteDone (d : Dev) (t : Nat) (rd : R5) (mask : I16) : Dev :=
  let m := (d.tile t).matched mask
  (d.modTile t fun x => (x.modReg Reg.SCB_EVENT fun v => v &&& ~~~m).setGr rd (lo32 m)).scbNext t

/-- WAITE (04 R102): a mask of zero or a set RS1 traps ILLEGAL. -/
def execWaite (t : Nat) (rd rs1 : R5) (imm : I16) (s : State) : Host.Outcome State Fault Refusal :=
  onScb t s fun d =>
    if imm = 0 ∨ rs1 ≠ 0 then d.illegal t (wordI 0x1E rd rs1 imm)
    else if (d.tile t).matched imm ≠ 0 then d.waiteDone t rd imm
    else d.scbStall t (.waite rd imm)

/-- WAITE_COMPLETE (04 R102). -/
def execWaiteComplete (t : Nat) (s : State) : Host.Outcome State Fault Refusal :=
  onTile t s fun d =>
    let x := d.tile t
    match x.scb.stall with
    | .waite rd mask => if x.mayRun ∧ x.matched mask ≠ 0 then d.waiteDone t rd mask else d
    | _ => d

/-- The conditions of a FENCE (04 Table 4.5). A CWR takes effect at once, so bit 4 always holds. -/
def Tile.fenceOk (t : Tile) (m : I16) : Bool :=
  (!bit m 0 || t.scb.sbuf.isEmpty) && (!bit m 1 || t.acwQ.isEmpty) && (!bit m 2 || t.vecQ.isEmpty) &&
  (!bit m 3 || (List.range 16).all fun n => (t.ag n).tickets.isEmpty && (t.ag n).pending.isNone)

/-- FENCE (04 R103); RD, RS1 and IMM[15:5] are reserved. -/
def execFence (t : Nat) (rd rs1 : R5) (imm : I16) (s : State) : Host.Outcome State Fault Refusal :=
  onScb t s fun d =>
    if rd ≠ 0 ∨ rs1 ≠ 0 ∨ fld imm 5 11 ≠ 0 then d.illegal t (wordI 0x1F rd rs1 imm)
    else if (d.tile t).fenceOk imm then d.scbNext t
    else d.scbStall t (.fence imm)

/-- FENCE_COMPLETE (04 R103). -/
def execFenceComplete (t : Nat) (s : State) : Host.Outcome State Fault Refusal :=
  onTile t s fun d =>
    let x := d.tile t
    match x.scb.stall with
    | .fence m => if x.mayRun ∧ x.fenceOk m = true then d.scbNext t else d
    | _ => d

/-! ### Traps, ERET, HALT (04 R104 to R107) -/

/-- ERET's effect (04 R105): the PC is SCB_EPC, INTRAP is cleared, and the oldest pending cause is taken. An EPC at or above
0x1_0000 is IMEM_RANGE (04 R104). -/
def Dev.scbEret (d : Dev) (t : Nat) : Dev :=
  let epc := lo32 ((d.tile t).reg Reg.SCB_EPC)
  if epc.toNat ≥ 0x10000 then d.scbTrap t tcIMEM_RANGE epc
  else d.modTile t fun x => ({ x with scb := { x.scb with pc := epc, inTrap := false } } : Tile).asyncTake

/-- HALT's effect: HALTED. -/
def Dev.scbHaltNow (d : Dev) (t : Nat) : Dev :=
  d.modTile t fun x => { x with scb := { x.scb with pc := x.scb.pc + 4, mode := .halted, haltReq := false } }

/-- TRAP (04 R80): the instruction word with the OP code of `w`. An OP code past SYS (0x21) is unlisted and traps ILLEGAL; one below is
another instruction's, which its own command executes, so here nothing happens (log 1). Of SYS, IMM[3:0] = 0 is SYSCALL with
IMM[15:4]; 1 and 2 are ERET and HALT, whose code is reserved; others trap ILLEGAL. -/
def execTrap (t : Nat) (rd rs1 : R5) (w : OpImm) (s : State) : Host.Outcome State Fault Refusal :=
  onScb t s fun d =>
    let imm := w.imm
    if w.op.toNat > 0x21 then d.illegal t (wordI w.op.toNat rd rs1 imm)
    else if w.op.toNat < 0x21 then d
    else if fld imm 0 4 = 0 then d.scbTrap t tcSYSCALL (BitVec.ofNat 32 (fld imm 4 12))
    else if imm = 1 then d.scbEret t
    else if imm = 2 then d.scbHaltNow t
    else d.illegal t (wordI 0x21 rd rs1 imm)

/-- ERET. -/
def execEret (t : Nat) (rd rs1 : R5) (code : BitVec 12) (s : State) : Host.Outcome State Fault Refusal :=
  onScb t s fun d => if code = 0 then d.scbEret t else d.illegal t (wordI 0x21 rd rs1 (code.setWidth 16 <<< 4 ||| 1))

/-- HALT. -/
def execHalt (t : Nat) (rd rs1 : R5) (code : BitVec 12) (s : State) : Host.Outcome State Fault Refusal :=
  onScb t s fun d => if code = 0 then d.scbHaltNow t else d.illegal t (wordI 0x21 rd rs1 (code.setWidth 16 <<< 4 ||| 2))

/-- ASYNC_TRAP (04 R104, R105): the oldest pending cause is taken at the boundary. -/
def execAsyncTrap (t : Nat) (s : State) : Host.Outcome State Fault Refusal :=
  onTile t s fun d =>
    let x := d.tile t
    if x.scb.mode = .run ∧ x.scb.takeable = true ∧ x.stopped = false then d.setTile t x.asyncTake else d

/-- WATCHDOG (04 R106, R107): the count has reached LIMIT µs, and restarts. A Scarab that waits after an abort takes the trap when it
runs again; one in FAULT takes none (log 97). -/
def execWatchdog (t : Nat) (s : State) : Host.Outcome State Fault Refusal :=
  onTile t s fun d =>
    let x := d.tile t
    let limit := fld (x.reg Reg.SCB_WDOG) 0 24
    if x.scb.mode ≠ .halted ∧ x.waitsStart = false ∧ limit ≠ 0 ∧ limit * 1000 ≤ x.scb.wdogNs then
      let d := d.setTile t x.wdogKick
      if x.scb.mode = .fault then d
      else if x.scb.inTrap then d.scbFault t St.WATCHDOG_EXPIRED (BitVec.ofNat 32 limit)
      else d.modTile t fun x => x.raise .watchdog (BitVec.ofNat 32 limit)
    else d

/-- SCB_CTL_RUN. -/
def execScbCtlRun (t : Nat) (s : State) : Host.Outcome State Fault Refusal := onTile t s fun d => d.modTile t Tile.scbRun

/-- SCB_CTL_HALT. -/
def execScbCtlHalt (t : Nat) (s : State) : Host.Outcome State Fault Refusal := onTile t s fun d => d.modTile t Tile.scbHalt

/-- HALTED_AT_BOUNDARY (04 SCB_CTL, R104): a waiting instruction is abandoned. -/
def execHaltedAtBoundary (t : Nat) (s : State) : Host.Outcome State Fault Refusal :=
  onTile t s fun d =>
    let x := d.tile t
    if x.scb.haltReq ∧ (x.scb.mode = .run ∨ x.scb.mode = .wait) then
      d.setTile t { x with scb := { x.scb with mode := .halted, haltReq := false, stall := .none } }
    else d

/-- SCB_WDOG_KICK (04 R107). -/
def execScbWdogKick (t : Nat) (s : State) : Host.Outcome State Fault Refusal := onTile t s fun d => d.modTile t Tile.wdogKick

/-- HOST_IMEM_WRITE (04 R77): accepted in HALTED or FAULT, else counted. A word lies whole in IMEM. -/
def execHostImemWrite (t a : Nat) (v : W32) (s : State) : Host.Outcome State Fault Refusal :=
  onTile t s fun d =>
    d.modTile t fun x =>
      if a ≥ 0x10000 then x
      else if x.scb.mode = .halted ∨ x.scb.mode = .fault then { x with imem := x.imem.writeN (a / 4 * 4) (leBytes 4 v.toNat) }
      else x.count Reg.SCB_HOSTDROP 1

end Sys2Proof.Machine
end

