-- ==== Sys2Proof/Machine/Issue.lean ====
section
/-! DEFINITION. Issuing array and vector work and AG programs (04 R87, R91 to R99, 05 R116, R118): ACWP, VISS, AGS, and
what a stalled instruction does when its cause has gone. -/

namespace Sys2Proof.Machine

/-- Reads an issue block or descriptor of `n` bytes (04 R87, R91): DMEM_RANGE, MISALIGN, a stall, or its bytes. -/
def Dev.blockRead (d : Dev) (t n align : Nat) (a : W32) (k : Stall) (f : List Byte → Dev) : Dev :=
  if a.toNat + n > 0x10000 then d.scbTrap t tcDMEM_RANGE a
  else if a.toNat % align ≠ 0 then d.scbTrap t tcMISALIGN a
  else match (d.tile t).dmemLoad a.toNat n with
    | some bs => f bs
    | none => d.scbStall t k

/-- Records a refused ACW in ARR_ERR (03 R56). -/
def Tile.acwRefuse (t : Tile) (kind : Nat) (st : W16) : Tile :=
  t.modReg Reg.ARR_ERR fun v => if bit v 32 then setBit v 33 else setBit (setFld (setFld v 0 16 st.toNat) 16 4 kind) 32

/-- Records a refused vector instruction in VE_ERR (05 R116). -/
def Tile.vecRefuse (t : Tile) (op : Nat) (st : W16) : Tile :=
  t.modReg Reg.VE_ERR fun v => if bit v 32 then setBit v 33 else setBit (setFld (setFld v 0 16 st.toNat) 16 6 op) 32

/-- Takes a ticket on every AG of a list (04 R99). -/
def Tile.takeTickets (t : Tile) (id : Nat) (ns : List Nat) : Tile :=
  ns.foldl (fun t n => t.setAg n { t.ag n with tickets := (t.ag n).tickets ++ [id] }) t

/-- Pushes an ACW (04 R90, R93, R99): its masks are those of this moment. -/
def Tile.acwPush (t : Tile) (a : Acw) (rs : List LineRange) : Tile :=
  let id := t.nextId
  let e : AcwEntry :=
    { id := id, acw := a, ranges := rs, rmask := lo32 (t.reg (Reg.ARR_RMASK + 8 * a.rmi)), cmask := lo32 (t.reg (Reg.ARR_CMASK + 8 * a.cmi)),
      ags := a.ags, started := false, done := false, prog := 0, item := [], itemTrunc := false, loaded := 0, got := [],
      added := false, sent := 0 }
  ({ t with acwQ := t.acwQ ++ [e], nextId := id + 1 } : Tile).takeTickets id a.ags

/-- Issues a vector instruction (05 R118, R128): a RAND reserves its positions. -/
def Tile.vecPush (t : Tile) (w : VWord) (rs : List LineRange) : Tile :=
  let id := t.nextId
  let ra := Reg.VE_RNG + 8 * (w.va % 16)
  let rng := t.reg ra
  let e : VecEntry :=
    { id := id, word := w, ranges := rs, lmask := t.reg (Reg.VE_LMASK + 8 * w.lmi), oe := sfld (t.reg Reg.VE_OE) 0 10, seed := t.reg Reg.VE_SEED,
      stream := BitVec.ofNat 16 (fld rng 32 16), pos := lo32 rng, ags := w.ags, prog := 0, done := false, flags := 0 }
  let t := if w.op = oRAND then
      let p := fld rng 0 32 + 16 * w.n
      t.setReg ra (let v := setFld rng 0 32 p; if p ≥ 2 ^ 32 then setBit v 48 else v)
    else t
  ({ t with vecQ := t.vecQ ++ [e], nextId := id + 1 } : Tile).takeTickets id w.ags

/-- A checked ACW enters the queue, or waits for an entry and the scoreboard (04 R93, 06 R137). -/
def Dev.acwIssue (d : Dev) (t : Nat) (a : Acw) (rs : List LineRange) : Dev :=
  let x := d.tile t
  if x.acwQ.length < 64 ∧ x.boardFree rs = true then (d.setTile t (x.acwPush a rs)).scbNext t else d.scbStall t (.acwpIssue a rs)

/-- A checked vector instruction enters the queue, or waits. -/
def Dev.vecIssue (d : Dev) (t : Nat) (w : VWord) (rs : List LineRange) : Dev :=
  let x := d.tile t
  if x.vecQ.length < 32 ∧ x.boardFree rs = true then (d.setTile t (x.vecPush w rs)).scbNext t else d.scbStall t (.vissIssue w rs)

/-- Checks an ACW issue block in the order of 04 R93 and issues it. -/
def Dev.acwBlock (d : Dev) (t : Nat) (bs : List Byte) : Dev :=
  let a : Acw := BitVec.ofNat 256 (rdNat bs 0 32)
  let rs := rangeWords bs 32
  match Acw.check a with
  | some st => (d.modTile t fun x => x.acwRefuse (Acw.kind a) st).scbTrap t tcACW_REFUSED (st.setWidth 32)
  | none =>
    if (d.tile t).acwRoleOk a = false then
      (d.modTile t fun x => x.acwRefuse (Acw.kind a) St.QUEUE_ROLE).scbTrap t tcACW_REFUSED (St.QUEUE_ROLE.setWidth 32)
    else if rangesOk rs = false then d.scbTrap t tcRANGE_DECL (St.LENGTH_EXCEEDS.setWidth 32)
    else d.acwIssue t a rs

/-- Checks a vector issue block in the order of 04 R93 and issues it. -/
def Dev.vecBlock (d : Dev) (t : Nat) (bs : List Byte) : Dev :=
  let w : VWord := BitVec.ofNat 64 (rdNat bs 0 8)
  let rs := rangeWords bs 8
  match VWord.check w with
  | some st => (d.modTile t fun x => x.vecRefuse (VWord.op w) st).scbTrap t tcVEC_REFUSED (st.setWidth 32)
  | none =>
    if (d.tile t).vecRoleOk w = false then
      (d.modTile t fun x => x.vecRefuse (VWord.op w) St.QUEUE_ROLE).scbTrap t tcVEC_REFUSED (St.QUEUE_ROLE.setWidth 32)
    else if rangesOk rs = false then d.scbTrap t tcRANGE_DECL (St.LENGTH_EXCEEDS.setWidth 32)
    else d.vecIssue t w rs

/-- The eight words of an AG descriptor. -/
def descWords (bs : List Byte) : List W32 := (List.range 8).map fun i => BitVec.ofNat 32 (rdNat bs (4 * i) 4)

/-- ACWP (04 R87, R91, R93); RD is reserved. -/
def execAcwp (t : Nat) (rd rs1 : R5) (imm : I16) (s : State) : Host.Outcome State Fault Refusal :=
  onScb t s fun d =>
    if rd ≠ 0 then d.illegal t (wordI 0x1A rd rs1 imm)
    else
      let a := (d.tile t).ea rs1 imm
      d.blockRead t 48 16 a (.acwpRead a.toNat) fun bs => d.acwBlock t bs

/-- VISS (04 R87, R91, R93); RD is reserved. -/
def execViss (t : Nat) (rd rs1 : R5) (imm : I16) (s : State) : Host.Outcome State Fault Refusal :=
  onScb t s fun d =>
    if rd ≠ 0 then d.illegal t (wordI 0x1B rd rs1 imm)
    else
      let a := (d.tile t).ea rs1 imm
      d.blockRead t 24 8 a (.vissRead a.toNat) fun bs => d.vecBlock t bs

/-- AGS (04 R87, R96, R97, R99); RD[4] is reserved. -/
def execAgs (t : Nat) (rd rs1 : R5) (imm : I16) (s : State) : Host.Outcome State Fault Refusal :=
  onScb t s fun d =>
    if rd.toNat ≥ 16 then d.illegal t (wordI 0x1C rd rs1 imm)
    else
      let a := (d.tile t).ea rs1 imm
      d.blockRead t 32 1 a (.agsRead rd.toNat a.toNat) fun bs => d.scbAgs t rd.toNat (descWords bs)

/-- ISSUE_RESUME (04 R85, R86, R93, R99, 06 R137, 08 R220): the stalled load, store, issue or claimed read proceeds when
its cause has gone. -/
def execIssueResume (t : Nat) (s : State) : Host.Outcome State Fault Refusal :=
  onTile t s fun d =>
    let x := d.tile t
    let free (a n : Nat) : Bool := !x.scb.sbuf.any fun e => e.meets a n
    if x.mayRun = false then d
    else match x.scb.stall with
      | .load a n sg rd => if free a n then d.scbSet t rd (loadExt sg (x.dmem.readN a n)) else d
      | .store e =>
        if x.scb.sbuf.length < 8 then (d.setTile t { x with scb := { x.scb with sbuf := x.scb.sbuf ++ [e] } }).scbNext t else d
      | .acwpRead a => if free a 48 then d.acwBlock t (x.dmem.readN a 48) else d
      | .vissRead a => if free a 24 then d.vecBlock t (x.dmem.readN a 24) else d
      | .agsRead n a => if free a 32 then d.scbAgs t n (descWords (x.dmem.readN a 32)) else d
      | .acwpIssue a rs => d.acwIssue t a rs
      | .vissIssue w rs => d.vecIssue t w rs
      | .ags n ws => d.scbAgs t n ws
      | .claimed rd =>
        if x.wvl.claimOut ≠ 0 then d
        else
          let (d, v) := d.tileRead32 .scarab t Reg.WVL_CLAIMED
          d.scbSet t rd v
      | _ => d

/-- AG_COMMIT (04 R96): AGS of the staging copy, by the Scarab's CWR or by the host. -/
def execAgCommit (t : Nat) (n : BitVec 4) (who : Requester) (s : State) : Host.Outcome State Fault Refusal :=
  match who with
  | .scarab => onScb t s fun d => d.scbAgs t n.toNat ((d.tile t).ag n.toNat).staging
  | .host => onTile t s fun d => d.modTile t fun x => x.agHostCommit n.toNat

end Sys2Proof.Machine
end

