-- ==== Sys2Proof/Machine/Mesh.lean ====
section
/-! DEFINITION. The commands of the mesh (11): a packet at a router, the start of a slot, a packet that enters from a gateway. -/

namespace Sys2Proof.Machine

/-- Whether a router has an input: N to W towards a neighbour, Local, a gateway at the edge benches (11 R268, R275). -/
def hasInput (t : Nat) (port : Port5) : Bool :=
  match port with
  | .local_ => true
  | .gateway => decide (t / Config.lcols = 0) || decide (t / Config.lcols + 1 = Config.benches)
  | p => (neighbour t p).isSome

/-- The packet whose header is the next to arrive at an input on a VC (11 R269): its place in the list. -/
def Dev.arriving (d : Dev) (t : Nat) (port : Port5) (v : BitVec 2) : Option Nat :=
  d.flying.findIdx? fun f => f.at_ t port.code v && f.outs.isNone

/-- Whether a header may come in at an input: Local and gateway inputs of a half-bench that is being muxed are held (11 R286, 15 R345). -/
def Dev.inputOpen (d : Dev) (t : Nat) (port : Port5) : Bool :=
  hasInput t port && !(d.muxing (halfOf t) && (decide (port = .local_) || decide (port = .gateway)))

/-- A header arrives at an input: the router knows its copies, or discards the packet as its flits come (11 R272 to R278). -/
def Dev.headerIn (d : Dev) (t : Nat) (port : Port5) (k : Packet) : Dev :=
  match d.arriving t port k.vc with
  | none => d
  | some i =>
    match d.flying[i]? with
    | none => d
    | some f =>
      if f.pkt.hdr ≠ k.hdr then d
      else
        let s := d.route1 t port k.hdr
        let late := decide (k.vc = 0) && (s.1.tile t).slotsOn && s.2.2.any fun o => s.1.lateAt t port k o.1
        let d := if late then s.1.modTile t fun x => x.count Reg.MESH_SLOT_LATE 1 else s.1
        ({ d with flying := d.flying.modify i fun f =>
          { f with pkt := { s.2.1 with words := f.pkt.words }, outs := some (s.2.2.map fun o => ⟨o.1.code, o.2.hdr, 0, false⟩) } } : Dev).clean

/-- PACKET_ARRIVAL: the header of a packet arrives at a router input. -/
def execPacketArrival (t : Nat) (port : Port5) (pkt : Packet) (s : State) : Host.Outcome State Fault Refusal :=
  onTile t s fun d => if d.inputOpen t port then d.headerIn t port pkt else d

/-- SLOT_START (11 R277, R278): in the first cycle of slot `slot` at an output, the packet at the head of the VC0 buffer of the input that the entry
names starts when its DQID is the entry's and no packet is on its way there. -/
def execSlotStart (t : Nat) (out : Port5) (slot : Byte) (s : State) : Host.Outcome State Fault Refusal :=
  onTile t s fun d =>
    let x := d.tile t
    if x.slotsOn = false ∨ out = .gateway ∨ d.slotNow t ≠ some (slot.toNat, true) then d
    else
      let hs := heads d.flying t out.code 0
      match x.slotEntry out slot.toNat with
      | none => d
      | some (inp, q) =>
        match hs.find? fun h => decide (h.2.1.inp = inp.code) && decide (h.2.1.pkt.dqid.toNat = q) with
        | none => d
        | some h =>
          if hs.any fun g => g.2.2.go then d
          else { d with flying := d.flying.modify h.1 fun f => f.modCopy out.code fun c => { c with go := true } }

/-- The segment list that gateway `g` gives a packet, and the edge router it enters at (11 R275). -/
def gatewaySegs (g : Nat) (k : Packet) : Nat × Packet :=
  let c := k.dtile.toNat % Config.lcols
  let b := k.dtile.toNat / Config.lcols
  let sp := gatewaySpan g
  let e := if c < sp.1 then sp.1 else if c > sp.2 then sp.2 else c
  let edge := if g < 4 then 0 else Config.benches - 1
  let side := if e < c then [4 * (c - e) + 1] else if c < e then [4 * (e - c) + 3] else []
  let last := if g < 4 then 4 * b + 2 else 4 * (Config.benches - 1 - b)
  let l := side ++ [last]
  let segs := (l.zipIdx).foldl (fun s x => s + x.1 * 256 ^ x.2) 0
  (edge * Config.lcols + e, { k with segn := BitVec.ofNat 3 l.length, segptr := 0, segs := BitVec.ofNat 32 segs })

/-- Whether a gateway delivers nothing into its mesh: its half is held in SEAM_FAULT (16 R369), or the device only relays (15 R346, log 104). -/
def Dev.gatewayShut (d : Dev) (g : Nat) : Bool :=
  d.seamF (decide (g % 4 ≥ 2)) || match d.flt.recov with | some v => v.relay | none => false

/-- The packet of a source and a VC that a gateway passes on next (11 R269). -/
def Dev.ingressNext (d : Dev) (g : Nat) (k : Packet) : Option Packet :=
  (d.gwIn.find? fun e => decide (e.1 = g) && decide (e.2.srcdev = k.srcdev) && decide (e.2.srctile = k.srctile) && decide (e.2.vc = k.vc)).map (·.2)

/-- GATEWAY_INGRESS (11 R275, R282): a packet stored whole in gateway `g` enters the mesh, or is discarded when its tile belongs to
no region, or the gateway delivers nothing. A packet for a device unit enters no mesh (12 R293). -/
def execGatewayIngress (g : Nat) (pkt : Packet) (s : State) : Host.Outcome State Fault Refusal :=
  onUnit Config.nGateways g s fun d =>
    if d.ingressNext g pkt ≠ some pkt then d
    else
      let d := { d with gwIn := d.gwIn.erase (g, pkt) }
      let r := (d.tile pkt.dtile.toNat).meshRegion
      if r = 0x7F ∨ d.gatewayShut g = true then d.count Reg.PORT_DROPCNT 0 32 1
      else
        let e := gatewaySegs g pkt
        { d with flying := d.flying ++ [⟨e.1, 5, { e.2 with regtag := BitVec.ofNat 7 r }, none⟩] }

end Sys2Proof.Machine
end

