-- ==== Sys2Proof/Machine/Dispatch.lean ====
section
/-! DEFINITION. The dispatch of commands to their meanings, one arm for each row of the table. -/

namespace Sys2Proof.Machine

open Sys2Proof

def exec (i : Instr) (s : State) : Host.Outcome State Fault Refusal :=
  match i with
  | .alu t rd rs1 rs2 rsv fn => Sys2Proof.Machine.execAlu t rd rs1 rs2 rsv fn s
  | .addi t rd rs1 imm => Sys2Proof.Machine.execAddi t rd rs1 imm s
  | .andi t rd rs1 imm => Sys2Proof.Machine.execAndi t rd rs1 imm s
  | .ori t rd rs1 imm => Sys2Proof.Machine.execOri t rd rs1 imm s
  | .xori t rd rs1 imm => Sys2Proof.Machine.execXori t rd rs1 imm s
  | .slti t rd rs1 imm => Sys2Proof.Machine.execSlti t rd rs1 imm s
  | .shi t rd rs1 imm => Sys2Proof.Machine.execShi t rd rs1 imm s
  | .lui t rd rs1 imm => Sys2Proof.Machine.execLui t rd rs1 imm s
  | .lb t rd rs1 imm => Sys2Proof.Machine.execLb t rd rs1 imm s
  | .lbu t rd rs1 imm => Sys2Proof.Machine.execLbu t rd rs1 imm s
  | .lh t rd rs1 imm => Sys2Proof.Machine.execLh t rd rs1 imm s
  | .lhu t rd rs1 imm => Sys2Proof.Machine.execLhu t rd rs1 imm s
  | .lw t rd rs1 imm => Sys2Proof.Machine.execLw t rd rs1 imm s
  | .sb t rs2 rs1 imm => Sys2Proof.Machine.execSb t rs2 rs1 imm s
  | .sh t rs2 rs1 imm => Sys2Proof.Machine.execSh t rs2 rs1 imm s
  | .sw t rs2 rs1 imm => Sys2Proof.Machine.execSw t rs2 rs1 imm s
  | .storeBufferWrite t => Sys2Proof.Machine.execStoreBufferWrite t s
  | .beq t rs2 rs1 imm => Sys2Proof.Machine.execBeq t rs2 rs1 imm s
  | .bne t rs2 rs1 imm => Sys2Proof.Machine.execBne t rs2 rs1 imm s
  | .blt t rs2 rs1 imm => Sys2Proof.Machine.execBlt t rs2 rs1 imm s
  | .bge t rs2 rs1 imm => Sys2Proof.Machine.execBge t rs2 rs1 imm s
  | .bltu t rs2 rs1 imm => Sys2Proof.Machine.execBltu t rs2 rs1 imm s
  | .bgeu t rs2 rs1 imm => Sys2Proof.Machine.execBgeu t rs2 rs1 imm s
  | .jal t rd imm => Sys2Proof.Machine.execJal t rd imm s
  | .jalr t rd rs1 imm => Sys2Proof.Machine.execJalr t rd rs1 imm s
  | .crd t rd rs1 imm => Sys2Proof.Machine.execCrd t rd rs1 imm s
  | .cwr t rs2 rs1 imm => Sys2Proof.Machine.execCwr t rs2 rs1 imm s
  | .acwp t rd rs1 imm => Sys2Proof.Machine.execAcwp t rd rs1 imm s
  | .viss t rd rs1 imm => Sys2Proof.Machine.execViss t rd rs1 imm s
  | .ags t rd rs1 imm => Sys2Proof.Machine.execAgs t rd rs1 imm s
  | .issueResume t => Sys2Proof.Machine.execIssueResume t s
  | .waitt t rd rs1 imm => Sys2Proof.Machine.execWaitt t rd rs1 imm s
  | .waittComplete t => Sys2Proof.Machine.execWaittComplete t s
  | .waite t rd rs1 imm => Sys2Proof.Machine.execWaite t rd rs1 imm s
  | .waiteComplete t => Sys2Proof.Machine.execWaiteComplete t s
  | .fence t rd rs1 imm => Sys2Proof.Machine.execFence t rd rs1 imm s
  | .fenceComplete t => Sys2Proof.Machine.execFenceComplete t s
  | .time t rd rs1 imm => Sys2Proof.Machine.execTime t rd rs1 imm s
  | .trap t rd rs1 imm => Sys2Proof.Machine.execTrap t rd rs1 imm s
  | .eret t rd rs1 code => Sys2Proof.Machine.execEret t rd rs1 code s
  | .halt t rd rs1 code => Sys2Proof.Machine.execHalt t rd rs1 code s
  | .asyncTrap t => Sys2Proof.Machine.execAsyncTrap t s
  | .watchdog t => Sys2Proof.Machine.execWatchdog t s
  | .scbCtlRun t => Sys2Proof.Machine.execScbCtlRun t s
  | .scbCtlHalt t => Sys2Proof.Machine.execScbCtlHalt t s
  | .haltedAtBoundary t => Sys2Proof.Machine.execHaltedAtBoundary t s
  | .scbWdogKick t => Sys2Proof.Machine.execScbWdogKick t s
  | .agCommit t n who => Sys2Proof.Machine.execAgCommit t n who s
  | .captureRead who a => Sys2Proof.Machine.execCaptureRead who a s
  | .registerWrite who a wide v => Sys2Proof.Machine.execRegisterWrite who a wide v s
  | .hostImemWrite t a v => Sys2Proof.Machine.execHostImemWrite t a v s
  | .nop t => Sys2Proof.Machine.execNop t s
  | .compute t f => Sys2Proof.Machine.execCompute t f s
  | .wload t f => Sys2Proof.Machine.execWload t f s
  | .cbload t f => Sys2Proof.Machine.execCbload t f s
  | .drain t => Sys2Proof.Machine.execDrain t s
  | .acwXadd t f => Sys2Proof.Machine.execAcwXadd t f s
  | .acwRetire t => Sys2Proof.Machine.execAcwRetire t s
  | .vnop t => Sys2Proof.Machine.execVnop t s
  | .vld t f => Sys2Proof.Machine.execVld t f s
  | .vst t => Sys2Proof.Machine.execVst t s
  | .vldq t f => Sys2Proof.Machine.execVldq t f s
  | .vstq t => Sys2Proof.Machine.execVstq t s
  | .fadd t => Sys2Proof.Machine.execFadd t s
  | .fsub t => Sys2Proof.Machine.execFsub t s
  | .fmul t => Sys2Proof.Machine.execFmul t s
  | .ffma t => Sys2Proof.Machine.execFfma t s
  | .fmin t => Sys2Proof.Machine.execFmin t s
  | .fmax t => Sys2Proof.Machine.execFmax t s
  | .fcmp t => Sys2Proof.Machine.execFcmp t s
  | .fsgn t => Sys2Proof.Machine.execFsgn t s
  | .fdiv t => Sys2Proof.Machine.execFdiv t s
  | .fsqrt t => Sys2Proof.Machine.execFsqrt t s
  | .ftrn t => Sys2Proof.Machine.execFtrn t s
  | .iadd t => Sys2Proof.Machine.execIadd t s
  | .isub t => Sys2Proof.Machine.execIsub t s
  | .imul t => Sys2Proof.Machine.execImul t s
  | .imin t => Sys2Proof.Machine.execImin t s
  | .imax t => Sys2Proof.Machine.execImax t s
  | .ilog t => Sys2Proof.Machine.execIlog t s
  | .ish t => Sys2Proof.Machine.execIsh t s
  | .icmp t => Sys2Proof.Machine.execIcmp t s
  | .sel t => Sys2Proof.Machine.execSel t s
  | .setm t => Sys2Proof.Machine.execSetm t s
  | .mov t => Sys2Proof.Machine.execMov t s
  | .red t => Sys2Proof.Machine.execRed t s
  | .cvt t => Sys2Proof.Machine.execCvt t s
  | .rand t => Sys2Proof.Machine.execRand t s
  | .xadd t => Sys2Proof.Machine.execXadd t s
  | .xcvt t => Sys2Proof.Machine.execXcvt t s
  | .vecRetire t => Sys2Proof.Machine.execVecRetire t s
  | .qitemArrival t => Sys2Proof.Machine.execQitemArrival t s
  | .qcmdRead t => Sys2Proof.Machine.execQcmdRead t s
  | .qcmdConfig t => Sys2Proof.Machine.execQcmdConfig t s
  | .qcmdFlush t => Sys2Proof.Machine.execQcmdFlush t s
  | .qcmdReset t => Sys2Proof.Machine.execQcmdReset t s
  | .qcmdTxResetDone t => Sys2Proof.Machine.execQcmdTxResetDone t s
  | .wtPageRefresh => Sys2Proof.Machine.execWtPageRefresh s
  | .journalCommit fail => Sys2Proof.Machine.execJournalCommit fail s
  | .journalReplay => Sys2Proof.Machine.execJournalReplay s
  | .imageAlloc m q => Sys2Proof.Machine.execImageAlloc m q s
  | .haulOpen m q => Sys2Proof.Machine.execHaulOpen m q s
  | .haulClose m session => Sys2Proof.Machine.execHaulClose m session s
  | .imageVerify m id gen => Sys2Proof.Machine.execImageVerify m id gen s
  | .verifyComplete id gen bad => Sys2Proof.Machine.execVerifyComplete id gen bad s
  | .imageActivate m id gen limit => Sys2Proof.Machine.execImageActivate m id gen limit s
  | .imageConfirm m id gen => Sys2Proof.Machine.execImageConfirm m id gen s
  | .imageRevert m id gen => Sys2Proof.Machine.execImageRevert m id gen s
  | .imageRetire m id gen => Sys2Proof.Machine.execImageRetire m id gen s
  | .imageQuery m id gen => Sys2Proof.Machine.execImageQuery m id gen s
  | .haulHeadSend session frame => Sys2Proof.Machine.execHaulHeadSend session frame s
  | .haulFrameArrival frame => Sys2Proof.Machine.execHaulFrameArrival frame s
  | .shardOk session shard => Sys2Proof.Machine.execShardOk session shard s
  | .haulAckArrival ack => Sys2Proof.Machine.execHaulAckArrival ack s
  | .scrubPassStart corr => Sys2Proof.Machine.execScrubPassStart corr s
  | .scrubPassComplete => Sys2Proof.Machine.execScrubPassComplete s
  | .layerSwap m mask mode tail => Sys2Proof.Machine.execLayerSwap m mask mode tail s
  | .layerSwapReply m => Sys2Proof.Machine.execLayerSwapReply m s
  | .adapterLoad m r slot id gen ad => Sys2Proof.Machine.execAdapterLoad m r slot id gen ad s
  | .adapterCopyDone r slot => Sys2Proof.Machine.execAdapterCopyDone r slot s
  | .adapterEvict m r slot => Sys2Proof.Machine.execAdapterEvict m r slot s
  | .appendRow t f => Sys2Proof.Machine.execAppendRow t f s
  | .wvlFqCommit t => Sys2Proof.Machine.execWvlFqCommit t s
  | .fetch t f => Sys2Proof.Machine.execFetch t f s
  | .wvlReqArrival t req => Sys2Proof.Machine.execWvlReqArrival t req s
  | .readpte t => Sys2Proof.Machine.execReadpte t s
  | .writepte t => Sys2Proof.Machine.execWritepte t s
  | .ptlbInv t => Sys2Proof.Machine.execPtlbInv t s
  | .ptlbInvSlot t => Sys2Proof.Machine.execPtlbInvSlot t s
  | .readft t => Sys2Proof.Machine.execReadft t s
  | .wvlCfgWrite t v => Sys2Proof.Machine.execWvlCfgWrite t v s
  | .wvlDirWrite t v => Sys2Proof.Machine.execWvlDirWrite t v s
  | .kvShare m r src dst n => Sys2Proof.Machine.execKvShare m r src dst n s
  | .kvFree m r slot first n f => Sys2Proof.Machine.execKvFree m r slot first n f s
  | .kvFreeSlot m r slot => Sys2Proof.Machine.execKvFreeSlot m r slot s
  | .kvRestore m src rect r => Sys2Proof.Machine.execKvRestore m src rect r s
  | .wvlClaim t => Sys2Proof.Machine.execWvlClaim t s
  | .wvlClaimed t who => Sys2Proof.Machine.execWvlClaimed t who s
  | .shadowSend t => Sys2Proof.Machine.execShadowSend t s
  | .shadowRecordArrival t src sr => Sys2Proof.Machine.execShadowRecordArrival t src sr s
  | .shadowAckArrival t step => Sys2Proof.Machine.execShadowAckArrival t step s
  | .shadowAckTimeout t => Sys2Proof.Machine.execShadowAckTimeout t s
  | .regionLoad m q => Sys2Proof.Machine.execRegionLoad m q s
  | .regionUnload m r => Sys2Proof.Machine.execRegionUnload m r s
  | .routeSelect m sel => Sys2Proof.Machine.execRouteSelect m sel s
  | .ringConfig m pair d => Sys2Proof.Machine.execRingConfig m pair d s
  | .ringDoorbell pair idx => Sys2Proof.Machine.execRingDoorbell pair idx s
  | .d2hConsumerIndex pair idx => Sys2Proof.Machine.execD2hConsumerIndex pair idx s
  | .stepDescriptorFetch r d => Sys2Proof.Machine.execStepDescriptorFetch r d s
  | .stepAdmission r => Sys2Proof.Machine.execStepAdmission r s
  | .stepStart r => Sys2Proof.Machine.execStepStart r s
  | .stepBoundary r => Sys2Proof.Machine.execStepBoundary r s
  | .tokenRecordWrite r bufs => Sys2Proof.Machine.execTokenRecordWrite r bufs s
  | .rxWaitExpiry r => Sys2Proof.Machine.execRxWaitExpiry r s
  | .stepAbort r rerun => Sys2Proof.Machine.execStepAbort r rerun s
  | .stepRerunStart r => Sys2Proof.Machine.execStepRerunStart r s
  | .regionStart m r => Sys2Proof.Machine.execRegionStart m r s
  | .regionStop m r => Sys2Proof.Machine.execRegionStop m r s
  | .regionResume m r => Sys2Proof.Machine.execRegionResume m r s
  | .regionAbort m r => Sys2Proof.Machine.execRegionAbort m r s
  | .seqCancel m r slot => Sys2Proof.Machine.execSeqCancel m r slot s
  | .seqReset m slot => Sys2Proof.Machine.execSeqReset m slot s
  | .seqRollback m r slot n => Sys2Proof.Machine.execSeqRollback m r slot n s
  | .tenantSet m tenant balance pcost tcost => Sys2Proof.Machine.execTenantSet m tenant balance pcost tcost s
  | .tenantCredit m tenant amount => Sys2Proof.Machine.execTenantCredit m tenant amount s
  | .tenantQuery m tenant => Sys2Proof.Machine.execTenantQuery m tenant s
  | .packetArrival t port pkt => Sys2Proof.Machine.execPacketArrival t port pkt s
  | .slotStart t out slot => Sys2Proof.Machine.execSlotStart t out slot s
  | .gatewayIngress g pkt => Sys2Proof.Machine.execGatewayIngress g pkt s
  | .linkFrameArrival p fr => Sys2Proof.Machine.execLinkFrameArrival p fr s
  | .creditUpdateSend p => Sys2Proof.Machine.execCreditUpdateSend p s
  | .portSlotStart p => Sys2Proof.Machine.execPortSlotStart p s
  | .e2ePacketArrival pkt => Sys2Proof.Machine.execE2ePacketArrival pkt s
  | .ackSend f => Sys2Proof.Machine.execAckSend f s
  | .ackArrival f n src => Sys2Proof.Machine.execAckArrival f n src s
  | .nakArrival f n src => Sys2Proof.Machine.execNakArrival f n src s
  | .resendTimeout f => Sys2Proof.Machine.execResendTimeout f s
  | .flowEntryExpiry f => Sys2Proof.Machine.execFlowEntryExpiry f s
  | .portEnable p => Sys2Proof.Machine.execPortEnable p s
  | .trainingComplete p narrow margin => Sys2Proof.Machine.execTrainingComplete p narrow margin s
  | .trainingTimeout p => Sys2Proof.Machine.execTrainingTimeout p s
  | .portDisable p => Sys2Proof.Machine.execPortDisable p s
  | .portIdleDone p => Sys2Proof.Machine.execPortIdleDone p s
  | .errlimCheck p => Sys2Proof.Machine.execErrlimCheck p s
  | .lossOfSignal p => Sys2Proof.Machine.execLossOfSignal p s
  | .creditStall p => Sys2Proof.Machine.execCreditStall p s
  | .cicadaTick => Sys2Proof.Machine.execCicadaTick s
  | .viewReload => Sys2Proof.Machine.execViewReload s
  | .cicSet v => Sys2Proof.Machine.execCicSet v s
  | .markSend => Sys2Proof.Machine.execMarkSend s
  | .frameCopySend => Sys2Proof.Machine.execFrameCopySend s
  | .mark fr arr dwell => Sys2Proof.Machine.execMark fr arr dwell s
  | .freq fr => Sys2Proof.Machine.execFreq fr s
  | .barrier fr => Sys2Proof.Machine.execBarrier fr s
  | .faultQuiesce fr => Sys2Proof.Machine.execFaultQuiesce fr s
  | .faultHold fr => Sys2Proof.Machine.execFaultHold fr s
  | .faultRelease fr => Sys2Proof.Machine.execFaultRelease fr s
  | .faultNotice fr => Sys2Proof.Machine.execFaultNotice fr s
  | .joinAt fr => Sys2Proof.Machine.execJoinAt fr s
  | .leaveAt fr => Sys2Proof.Machine.execLeaveAt fr s
  | .measureAt fr => Sys2Proof.Machine.execMeasureAt fr s
  | .master fr => Sys2Proof.Machine.execMaster fr s
  | .measurementWindow half => Sys2Proof.Machine.execMeasurementWindow half s
  | .bypassOpen => Sys2Proof.Machine.execBypassOpen s
  | .bypassClose => Sys2Proof.Machine.execBypassClose s
  | .markTimeout highest => Sys2Proof.Machine.execMarkTimeout highest s
  | .syncInLos => Sys2Proof.Machine.execSyncInLos s
  | .cicJoinClear => Sys2Proof.Machine.execCicJoinClear s
  | .ringAdmit m dev => Sys2Proof.Machine.execRingAdmit m dev s
  | .cicFsw code scope => Sys2Proof.Machine.execCicFsw code scope s
  | .frequencySwitch => Sys2Proof.Machine.execFrequencySwitch s
  | .cycleStretch n eighths => Sys2Proof.Machine.execCycleStretch n eighths s
  | .marginSample n slack => Sys2Proof.Machine.execMarginSample n slack s
  | .avsLoop n slack => Sys2Proof.Machine.execAvsLoop n slack s
  | .regionEnergyUpdate e => Sys2Proof.Machine.execRegionEnergyUpdate e s
  | .energyWindowBoundary => Sys2Proof.Machine.execEnergyWindowBoundary s
  | .synchronisedCount => Sys2Proof.Machine.execSynchronisedCount s
  | .pwrWinWrite v => Sys2Proof.Machine.execPwrWinWrite v s
  | .pwrBudgetWrite a v => Sys2Proof.Machine.execPwrBudgetWrite a v s
  | .powerGuard avg => Sys2Proof.Machine.execPowerGuard avg s
  | .thermalMonitor tj tcase => Sys2Proof.Machine.execThermalMonitor tj tcase s
  | .setProfile m q => Sys2Proof.Machine.execSetProfile m q s
  | .profileQuery m => Sys2Proof.Machine.execProfileQuery m s
  | .tileRecovery b col => Sys2Proof.Machine.execTileRecovery b col s
  | .bistComplete pass => Sys2Proof.Machine.execBistComplete pass s
  | .halfBenchEmpty sh => Sys2Proof.Machine.execHalfBenchEmpty sh s
  | .sliceShiftDone clean => Sys2Proof.Machine.execSliceShiftDone clean s
  | .recoveryLoad r q => Sys2Proof.Machine.execRecoveryLoad r q s
  | .shadowResync src => Sys2Proof.Machine.execShadowResync src s
  | .localPartDone dev recid => Sys2Proof.Machine.execLocalPartDone dev recid s
  | .deviceLoss dev => Sys2Proof.Machine.execDeviceLoss dev s
  | .fltGroup m g plen members => Sys2Proof.Machine.execFltGroup m g plen members s
  | .standbyArm m dev acts => Sys2Proof.Machine.execStandbyArm m dev acts s
  | .standbyDisarm m dev => Sys2Proof.Machine.execStandbyDisarm m dev s
  | .fltQuery m recid first count => Sys2Proof.Machine.execFltQuery m recid first count s
  | .ringKeepaliveLapse => Sys2Proof.Machine.execRingKeepaliveLapse s
  | .hiveWatchdog k => Sys2Proof.Machine.execHiveWatchdog k s
  | .hiveFwGo => Sys2Proof.Machine.execHiveFwGo s
  | .fwCheckComplete => Sys2Proof.Machine.execFwCheckComplete s
  | .hello m q => Sys2Proof.Machine.execHello m q s
  | .deviceQuery m => Sys2Proof.Machine.execDeviceQuery m s
  | .fwReload m => Sys2Proof.Machine.execFwReload m s
  | .latchRefresh east ack => Sys2Proof.Machine.execLatchRefresh east ack s
  | .latchClaim east x => Sys2Proof.Machine.execLatchClaim east x s
  | .heartbeatMiss east => Sys2Proof.Machine.execHeartbeatMiss east s
  | .seamFault east => Sys2Proof.Machine.execSeamFault east s
  | .lockAcquire who n => Sys2Proof.Machine.execLockAcquire who n s
  | .lockRelease who n => Sys2Proof.Machine.execLockRelease who n s
  | .mailboxDoorbell m => Sys2Proof.Machine.execMailboxDoorbell m s
  | .mailboxTake => Sys2Proof.Machine.execMailboxTake s
  | .hiveMboxfree v => Sys2Proof.Machine.execHiveMboxfree v s
  | .logConfig m q => Sys2Proof.Machine.execLogConfig m q s
  | .logConsumerIndex idx => Sys2Proof.Machine.execLogConsumerIndex idx s
  | .traceConfig m query q => Sys2Proof.Machine.execTraceConfig m query q s
  | .debugChallenge m => Sys2Proof.Machine.execDebugChallenge m s
  | .debugUnlock m scope sig => Sys2Proof.Machine.execDebugUnlock m scope sig s
  | .barAccess q => Sys2Proof.Machine.execBarAccess q s
  | .dmaReadComplete e data => Sys2Proof.Machine.execDmaReadComplete e data s
  | .dmaError e kind => Sys2Proof.Machine.execDmaError e kind s
  | .resetNLow => Sys2Proof.Machine.execResetNLow s
  | .resetNRise q => Sys2Proof.Machine.execResetNRise q s
  | .bootWaitFw => Sys2Proof.Machine.execBootWaitFw s
  | .perstN => Sys2Proof.Machine.execPerstN s
  | .flr => Sys2Proof.Machine.execFlr s
  | .auxRise smbAddr => Sys2Proof.Machine.execAuxRise smbAddr s
  | .auxLoss => Sys2Proof.Machine.execAuxLoss s
  | .vinDrop => Sys2Proof.Machine.execVinDrop s
  | .smbStatus => Sys2Proof.Machine.execSmbStatus s
  | .smbJunctionTemp => Sys2Proof.Machine.execSmbJunctionTemp s
  | .smbCaseTemp => Sys2Proof.Machine.execSmbCaseTemp s
  | .smbVinPower => Sys2Proof.Machine.execSmbVinPower s
  | .smbLatchEpoch => Sys2Proof.Machine.execSmbLatchEpoch s
  | .smbRstcause => Sys2Proof.Machine.execSmbRstcause s
  | .smbIdentity => Sys2Proof.Machine.execSmbIdentity s
  | .smbOverride sel => Sys2Proof.Machine.execSmbOverride sel s
  | .smbClearTrip v => Sys2Proof.Machine.execSmbClearTrip v s
  | .alertResponse => Sys2Proof.Machine.execAlertResponse s
  | .extest => Sys2Proof.Machine.execExtest s
  | .idcode => Sys2Proof.Machine.execIdcode s
  | .samplePreload cells => Sys2Proof.Machine.execSamplePreload cells s
  | .clamp => Sys2Proof.Machine.execClamp s
  | .highz => Sys2Proof.Machine.execHighz s
  | .dbgAccess q => Sys2Proof.Machine.execDbgAccess q s
  | .scanbist b col pass => Sys2Proof.Machine.execScanbist b col pass s
  | .bypass => Sys2Proof.Machine.execBypass s
  | .tapTestReset => Sys2Proof.Machine.execTapTestReset s
  | .uncorrectableHiveMemoryError k => Sys2Proof.Machine.execUncorrectableHiveMemoryError k s
  | .heartbeat east => Sys2Proof.Machine.execHeartbeat east s
  | .traceConsumerIndex idx => Sys2Proof.Machine.execTraceConsumerIndex idx s
  | .perstNHigh => Sys2Proof.Machine.execPerstNHigh s
  | .dmaReadRepeat session => Sys2Proof.Machine.execDmaReadRepeat session s
  | .residentWeightReloadDone r => Sys2Proof.Machine.execResidentWeightReloadDone r s
  | .ringInterruptModeration pair => Sys2Proof.Machine.execRingInterruptModeration pair s

end Sys2Proof.Machine
end

