-- ==== Sys2Proof/Machine/Step.lean ====
section
/-! DEFINITION. One step: the command at the front of the queue runs (log 20), and the host's way to put one there. -/

namespace Sys2Proof.Machine

/-- One step: takes the command at the front of the queue and runs it on the state with the rest of the queue. With no
command waiting the mesh and the ports go on by one cycle (log 20). -/
def step (s : State) : Host.Outcome State Fault Refusal :=
  match s.pending with
  | [] => .next { s with dev := s.dev.cycle }
  | i :: rest => exec i { s with pending := rest }

/-- The command that a word spells goes to the front of the queue. No row of the table gives bits, so no word spells a
command and the state is unchanged (log 21). -/
def State.withFetchWord (s : State) (nbits w : Nat) : State :=
  match decodeTableWord nbits w with
  | some i => { s with pending := i :: s.pending }
  | none => s

end Sys2Proof.Machine
end

