-- ==== Sys2Proof/Safety.lean ====
section
/-! DEFINITION. What counts as a safe step: the block answers a next state. -/

namespace Sys2Proof

/-- The step of `s` answers a next state: it neither faults nor refuses. -/
def SafeStep (s : Machine.State) : Prop := ∃ s', Machine.step s = .next s'

end Sys2Proof
end

