-- ==== Sys2Proof/WellFormed.lean ====
section
/-! DEFINITION. Which commands are well formed: every unit a command names exists (00 R11, 10 R241, R242,
11 R275, 12 R288, 13 R308, 16 R359, R372). -/

namespace Sys2Proof

/-- The unit index of a register address, with its bound. -/
def RegAddr.units : RegAddr → List (Nat × Nat)
  | .tile t _ => [(t, Config.nTiles)]
  | .dev _ => []

/-- The unit indices a command names, each with the number of such units. -/
def Instr.units : Instr → List (Nat × Nat)
  | .alu t _ _ _ _ _ => [(t, Config.nTiles)]
  | .addi t _ _ _ => [(t, Config.nTiles)]
  | .andi t _ _ _ => [(t, Config.nTiles)]
  | .ori t _ _ _ => [(t, Config.nTiles)]
  | .xori t _ _ _ => [(t, Config.nTiles)]
  | .slti t _ _ _ => [(t, Config.nTiles)]
  | .shi t _ _ _ => [(t, Config.nTiles)]
  | .lui t _ _ _ => [(t, Config.nTiles)]
  | .lb t _ _ _ => [(t, Config.nTiles)]
  | .lbu t _ _ _ => [(t, Config.nTiles)]
  | .lh t _ _ _ => [(t, Config.nTiles)]
  | .lhu t _ _ _ => [(t, Config.nTiles)]
  | .lw t _ _ _ => [(t, Config.nTiles)]
  | .sb t _ _ _ => [(t, Config.nTiles)]
  | .sh t _ _ _ => [(t, Config.nTiles)]
  | .sw t _ _ _ => [(t, Config.nTiles)]
  | .storeBufferWrite t => [(t, Config.nTiles)]
  | .beq t _ _ _ => [(t, Config.nTiles)]
  | .bne t _ _ _ => [(t, Config.nTiles)]
  | .blt t _ _ _ => [(t, Config.nTiles)]
  | .bge t _ _ _ => [(t, Config.nTiles)]
  | .bltu t _ _ _ => [(t, Config.nTiles)]
  | .bgeu t _ _ _ => [(t, Config.nTiles)]
  | .jal t _ _ => [(t, Config.nTiles)]
  | .jalr t _ _ _ => [(t, Config.nTiles)]
  | .crd t _ _ _ => [(t, Config.nTiles)]
  | .cwr t _ _ _ => [(t, Config.nTiles)]
  | .acwp t _ _ _ => [(t, Config.nTiles)]
  | .viss t _ _ _ => [(t, Config.nTiles)]
  | .ags t _ _ _ => [(t, Config.nTiles)]
  | .issueResume t => [(t, Config.nTiles)]
  | .waitt t _ _ _ => [(t, Config.nTiles)]
  | .waittComplete t => [(t, Config.nTiles)]
  | .waite t _ _ _ => [(t, Config.nTiles)]
  | .waiteComplete t => [(t, Config.nTiles)]
  | .fence t _ _ _ => [(t, Config.nTiles)]
  | .fenceComplete t => [(t, Config.nTiles)]
  | .time t _ _ _ => [(t, Config.nTiles)]
  | .trap t _ _ _ => [(t, Config.nTiles)]
  | .eret t _ _ _ => [(t, Config.nTiles)]
  | .halt t _ _ _ => [(t, Config.nTiles)]
  | .asyncTrap t => [(t, Config.nTiles)]
  | .watchdog t => [(t, Config.nTiles)]
  | .scbCtlRun t => [(t, Config.nTiles)]
  | .scbCtlHalt t => [(t, Config.nTiles)]
  | .haltedAtBoundary t => [(t, Config.nTiles)]
  | .scbWdogKick t => [(t, Config.nTiles)]
  | .agCommit t _ _ => [(t, Config.nTiles)]
  | .captureRead _ a => a.units
  | .registerWrite _ a _ _ => a.units
  | .hostImemWrite t _ _ => [(t, Config.nTiles)]
  | .nop t => [(t, Config.nTiles)]
  | .compute t _ => [(t, Config.nTiles)]
  | .wload t _ => [(t, Config.nTiles)]
  | .cbload t _ => [(t, Config.nTiles)]
  | .drain t => [(t, Config.nTiles)]
  | .acwXadd t _ => [(t, Config.nTiles)]
  | .acwRetire t => [(t, Config.nTiles)]
  | .vnop t => [(t, Config.nTiles)]
  | .vld t _ => [(t, Config.nTiles)]
  | .vst t => [(t, Config.nTiles)]
  | .vldq t _ => [(t, Config.nTiles)]
  | .vstq t => [(t, Config.nTiles)]
  | .fadd t => [(t, Config.nTiles)]
  | .fsub t => [(t, Config.nTiles)]
  | .fmul t => [(t, Config.nTiles)]
  | .ffma t => [(t, Config.nTiles)]
  | .fmin t => [(t, Config.nTiles)]
  | .fmax t => [(t, Config.nTiles)]
  | .fcmp t => [(t, Config.nTiles)]
  | .fsgn t => [(t, Config.nTiles)]
  | .fdiv t => [(t, Config.nTiles)]
  | .fsqrt t => [(t, Config.nTiles)]
  | .ftrn t => [(t, Config.nTiles)]
  | .iadd t => [(t, Config.nTiles)]
  | .isub t => [(t, Config.nTiles)]
  | .imul t => [(t, Config.nTiles)]
  | .imin t => [(t, Config.nTiles)]
  | .imax t => [(t, Config.nTiles)]
  | .ilog t => [(t, Config.nTiles)]
  | .ish t => [(t, Config.nTiles)]
  | .icmp t => [(t, Config.nTiles)]
  | .sel t => [(t, Config.nTiles)]
  | .setm t => [(t, Config.nTiles)]
  | .mov t => [(t, Config.nTiles)]
  | .red t => [(t, Config.nTiles)]
  | .cvt t => [(t, Config.nTiles)]
  | .rand t => [(t, Config.nTiles)]
  | .xadd t => [(t, Config.nTiles)]
  | .xcvt t => [(t, Config.nTiles)]
  | .vecRetire t => [(t, Config.nTiles)]
  | .qitemArrival t => [(t, Config.nTiles)]
  | .qcmdRead t => [(t, Config.nTiles)]
  | .qcmdConfig t => [(t, Config.nTiles)]
  | .qcmdFlush t => [(t, Config.nTiles)]
  | .qcmdReset t => [(t, Config.nTiles)]
  | .qcmdTxResetDone t => [(t, Config.nTiles)]
  | .wtPageRefresh => []
  | .journalCommit _ => []
  | .journalReplay => []
  | .imageAlloc m _ => [(m, Config.nMailboxes)]
  | .haulOpen m _ => [(m, Config.nMailboxes)]
  | .haulClose m _ => [(m, Config.nMailboxes)]
  | .imageVerify m _ _ => [(m, Config.nMailboxes)]
  | .verifyComplete _ _ _ => []
  | .imageActivate m _ _ _ => [(m, Config.nMailboxes)]
  | .imageConfirm m _ _ => [(m, Config.nMailboxes)]
  | .imageRevert m _ _ => [(m, Config.nMailboxes)]
  | .imageRetire m _ _ => [(m, Config.nMailboxes)]
  | .imageQuery m _ _ => [(m, Config.nMailboxes)]
  | .haulHeadSend _ _ => []
  | .haulFrameArrival _ => []
  | .shardOk _ _ => []
  | .haulAckArrival _ => []
  | .scrubPassStart _ => []
  | .scrubPassComplete => []
  | .layerSwap m _ _ _ => [(m, Config.nMailboxes)]
  | .layerSwapReply m => [(m, Config.nMailboxes)]
  | .adapterLoad m r _ _ _ _ => [(m, Config.nMailboxes)] ++ [(r, Config.nRegions)]
  | .adapterCopyDone r _ => [(r, Config.nRegions)]
  | .adapterEvict m r _ => [(m, Config.nMailboxes)] ++ [(r, Config.nRegions)]
  | .appendRow t _ => [(t, Config.nTiles)]
  | .wvlFqCommit t => [(t, Config.nTiles)]
  | .fetch t _ => [(t, Config.nTiles)]
  | .wvlReqArrival t _ => [(t, Config.nTiles)]
  | .readpte t => [(t, Config.nTiles)]
  | .writepte t => [(t, Config.nTiles)]
  | .ptlbInv t => [(t, Config.nTiles)]
  | .ptlbInvSlot t => [(t, Config.nTiles)]
  | .readft t => [(t, Config.nTiles)]
  | .wvlCfgWrite t _ => [(t, Config.nTiles)]
  | .wvlDirWrite t _ => [(t, Config.nTiles)]
  | .kvShare m r _ _ _ => [(m, Config.nMailboxes)] ++ [(r, Config.nRegions)]
  | .kvFree m r _ _ _ _ => [(m, Config.nMailboxes)] ++ [(r, Config.nRegions)]
  | .kvFreeSlot m r _ => [(m, Config.nMailboxes)] ++ [(r, Config.nRegions)]
  | .kvRestore m _ _ r => [(m, Config.nMailboxes)] ++ [(r, Config.nRegions)]
  | .wvlClaim t => [(t, Config.nTiles)]
  | .wvlClaimed t _ => [(t, Config.nTiles)]
  | .shadowSend t => [(t, Config.nTiles)]
  | .shadowRecordArrival t _ _ => [(t, Config.nTiles)]
  | .shadowAckArrival t _ => [(t, Config.nTiles)]
  | .shadowAckTimeout t => [(t, Config.nTiles)]
  | .regionLoad m q => [(m, Config.nMailboxes)] ++ [(q.r, Config.nRegions)]
  | .regionUnload m r => [(m, Config.nMailboxes)] ++ [(r, Config.nRegions)]
  | .routeSelect m _ => [(m, Config.nMailboxes)]
  | .ringConfig m _ _ => [(m, Config.nMailboxes)]
  | .ringDoorbell pair _ => [(pair, Config.nPairs)]
  | .d2hConsumerIndex pair _ => [(pair, Config.nPairs)]
  | .stepDescriptorFetch r _ => [(r, Config.nRegions)]
  | .stepAdmission r => [(r, Config.nRegions)]
  | .stepStart r => [(r, Config.nRegions)]
  | .stepBoundary r => [(r, Config.nRegions)]
  | .tokenRecordWrite r _ => [(r, Config.nRegions)]
  | .rxWaitExpiry r => [(r, Config.nRegions)]
  | .stepAbort r _ => [(r, Config.nRegions)]
  | .stepRerunStart r => [(r, Config.nRegions)]
  | .regionStart m r => [(m, Config.nMailboxes)] ++ [(r, Config.nRegions)]
  | .regionStop m r => [(m, Config.nMailboxes)] ++ [(r, Config.nRegions)]
  | .regionResume m r => [(m, Config.nMailboxes)] ++ [(r, Config.nRegions)]
  | .regionAbort m r => [(m, Config.nMailboxes)] ++ [(r, Config.nRegions)]
  | .seqCancel m r _ => [(m, Config.nMailboxes)] ++ [(r, Config.nRegions)]
  | .seqReset m _ => [(m, Config.nMailboxes)]
  | .seqRollback m r _ _ => [(m, Config.nMailboxes)] ++ [(r, Config.nRegions)]
  | .tenantSet m _ _ _ _ => [(m, Config.nMailboxes)]
  | .tenantCredit m _ _ => [(m, Config.nMailboxes)]
  | .tenantQuery m _ => [(m, Config.nMailboxes)]
  | .packetArrival t _ _ => [(t, Config.nTiles)]
  | .slotStart t _ _ => [(t, Config.nTiles)]
  | .gatewayIngress g _ => [(g, Config.nGateways)]
  | .linkFrameArrival p _ => [(p, Config.nPorts)]
  | .creditUpdateSend p => [(p, Config.nPorts)]
  | .portSlotStart p => [(p, Config.nPorts)]
  | .e2ePacketArrival _ => []
  | .ackSend _ => []
  | .ackArrival _ _ _ => []
  | .nakArrival _ _ _ => []
  | .resendTimeout _ => []
  | .flowEntryExpiry _ => []
  | .portEnable p => [(p, Config.nPorts)]
  | .trainingComplete p _ _ => [(p, Config.nPorts)]
  | .trainingTimeout p => [(p, Config.nPorts)]
  | .portDisable p => [(p, Config.nPorts)]
  | .portIdleDone p => [(p, Config.nPorts)]
  | .errlimCheck p => [(p, Config.nPorts)]
  | .lossOfSignal p => [(p, Config.nPorts)]
  | .creditStall p => [(p, Config.nPorts)]
  | .cicadaTick => []
  | .viewReload => []
  | .cicSet _ => []
  | .markSend => []
  | .frameCopySend => []
  | .mark _ _ _ => []
  | .freq _ => []
  | .barrier _ => []
  | .faultQuiesce _ => []
  | .faultHold _ => []
  | .faultRelease _ => []
  | .faultNotice _ => []
  | .joinAt _ => []
  | .leaveAt _ => []
  | .measureAt _ => []
  | .master _ => []
  | .measurementWindow _ => []
  | .bypassOpen => []
  | .bypassClose => []
  | .markTimeout _ => []
  | .syncInLos => []
  | .cicJoinClear => []
  | .ringAdmit m _ => [(m, Config.nMailboxes)]
  | .cicFsw _ _ => []
  | .frequencySwitch => []
  | .cycleStretch n _ => [(n, Config.nHalfBenches)]
  | .marginSample n _ => [(n, Config.nHalfBenches)]
  | .avsLoop n _ => [(n, Config.nHalfBenches)]
  | .regionEnergyUpdate _ => []
  | .energyWindowBoundary => []
  | .synchronisedCount => []
  | .pwrWinWrite _ => []
  | .pwrBudgetWrite _ _ => []
  | .powerGuard _ => []
  | .thermalMonitor _ _ => []
  | .setProfile m _ => [(m, Config.nMailboxes)]
  | .profileQuery m => [(m, Config.nMailboxes)]
  | .tileRecovery b col => [(b, Config.benches)] ++ [(col, 48)]
  | .bistComplete _ => []
  | .halfBenchEmpty _ => []
  | .sliceShiftDone _ => []
  | .recoveryLoad r _ => [(r, Config.nRegions)]
  | .shadowResync _ => []
  | .localPartDone _ _ => []
  | .deviceLoss _ => []
  | .fltGroup m _ _ _ => [(m, Config.nMailboxes)]
  | .standbyArm m _ _ => [(m, Config.nMailboxes)]
  | .standbyDisarm m _ => [(m, Config.nMailboxes)]
  | .fltQuery m _ _ _ => [(m, Config.nMailboxes)]
  | .ringKeepaliveLapse => []
  | .hiveWatchdog k => [(k, Config.nCores)]
  | .hiveFwGo => []
  | .fwCheckComplete => []
  | .hello m _ => [(m, Config.nMailboxes)]
  | .deviceQuery m => [(m, Config.nMailboxes)]
  | .fwReload m => [(m, Config.nMailboxes)]
  | .latchRefresh _ _ => []
  | .latchClaim _ _ => []
  | .heartbeatMiss _ => []
  | .seamFault _ => []
  | .lockAcquire _ _ => []
  | .lockRelease _ _ => []
  | .mailboxDoorbell m => [(m, Config.nMailboxes)]
  | .mailboxTake => []
  | .hiveMboxfree _ => []
  | .logConfig m _ => [(m, Config.nMailboxes)]
  | .logConsumerIndex _ => []
  | .traceConfig m _ _ => [(m, Config.nMailboxes)]
  | .debugChallenge m => [(m, Config.nMailboxes)]
  | .debugUnlock m _ _ => [(m, Config.nMailboxes)]
  | .barAccess _ => []
  | .dmaReadComplete _ _ => []
  | .dmaError _ _ => []
  | .resetNLow => []
  | .resetNRise _ => []
  | .bootWaitFw => []
  | .perstN => []
  | .flr => []
  | .auxRise _ => []
  | .auxLoss => []
  | .vinDrop => []
  | .smbStatus => []
  | .smbJunctionTemp => []
  | .smbCaseTemp => []
  | .smbVinPower => []
  | .smbLatchEpoch => []
  | .smbRstcause => []
  | .smbIdentity => []
  | .smbOverride _ => []
  | .smbClearTrip _ => []
  | .alertResponse => []
  | .extest => []
  | .idcode => []
  | .samplePreload _ => []
  | .clamp => []
  | .highz => []
  | .dbgAccess _ => []
  | .scanbist b col _ => [(b, Config.benches)] ++ [(col, 48)]
  | .bypass => []
  | .tapTestReset => []
  | .uncorrectableHiveMemoryError k => [(k, Config.nCores)]
  | .heartbeat _ => []
  | .traceConsumerIndex _ => []
  | .perstNHigh => []
  | .dmaReadRepeat _ => []
  | .residentWeightReloadDone r => [(r, Config.nRegions)]
  | .ringInterruptModeration pair => [(pair, Config.nPairs)]

/-- Every unit the command names exists. -/
def Instr.wf (i : Instr) : Bool := i.units.all fun u => decide (u.1 < u.2)

/-- A well-formed command. -/
abbrev WellFormed (i : Instr) : Prop := i.wf = true

end Sys2Proof
end

