-- ==== Sys2Proof/Certificates/Slice0/Obligations.lean ====
section
/-! DEFINITION. The statements for the provers. `Completes c s P`: command `c` answers a next state, the queue is as it was, and the
device after it stands in relation `P` to the device before. -/

namespace Sys2Proof.Claims

open Sys2Proof.Machine

/-- Command `c` completes at `s` with an effect on the device that `P` describes. -/
def Completes (c : Instr) (s : State) (P : Dev → Prop) : Prop := ∃ d', exec c s = .next ⟨d', s.pending⟩ ∧ P d'

/-- Nothing but tile `t` differs between two devices. -/
def OnlyTile (t : Nat) (d d' : Dev) : Prop := { d' with tiles := d.tiles } = d ∧ ∀ u, u ≠ t → d'.tile u = d.tile u

/-- Nothing but device register `a` differs. -/
def OnlyReg (a : Nat) (d d' : Dev) : Prop := { d' with regs := d.regs } = d ∧ ∀ b, b ≠ a → d'.reg b = d.reg b

/-- Every word of every scratchpad holds the parity bit of its data and address (R139). -/
def ParityGood (d : Dev) : Prop := (d.tiles.all fun e => e.2.parInv.isEmpty) = true

/-- Nothing but a tile's Scarab differs. -/
def OnlyScb (x x' : Tile) : Prop := { x' with scb := x.scb } = x

/-- Nothing but a tile's register `a` differs. -/
def OnlyTileReg (a : Nat) (x x' : Tile) : Prop := { x' with regs := x.regs } = x ∧ ∀ b, b ≠ a → x'.reg b = x.reg b

end Sys2Proof.Claims

open Sys2Proof Sys2Proof.Machine Sys2Proof.Claims

/-! ### The queue and the outcomes -/

/-- The front of the queue runs on the state with the rest of the queue; with an empty queue the mesh and the ports go on by one cycle (log 20, the
model's choice). -/
def Obligations.StepRunsFrontOfQueue : Prop :=
  (∀ (c : Instr) (rest : List Instr) (d : Dev), step ⟨d, c :: rest⟩ = exec c ⟨d, rest⟩) ∧ ∀ d : Dev, step ⟨d, []⟩ = .next ⟨d.cycle, []⟩

/-- No command touches the queue, and none reads it. -/
def Obligations.CommandsLeaveTheQueueAlone : Prop :=
  ∀ (c : Instr) (d d' : Dev) (q q' : List Instr), exec c ⟨d, q⟩ = .next ⟨d', q'⟩ → q' = q ∧ ∀ p, exec c ⟨d, p⟩ = .next ⟨d', p⟩

/-- A command ends in a fault exactly when it names a unit that does not exist, and never in a refusal. -/
def Obligations.EveryWellFormedCommandCompletes : Prop :=
  ∀ (c : Instr) (s : State), (c.wf = true → ∃ s', exec c s = .next s') ∧ (c.wf = false → exec c s = .fault .noSuchUnit)

/-- Right after reset: every register reads as its Reset value, every store is empty, nothing waits (R5, R75, R142, 17 R393, Table 17.3); where the
spec gives no value (registers without a Reset column, logs 3 to 10) this is the model's choice. -/
def Obligations.ResetState : Prop :=
  (∀ a, State.reset.dev.reg a = devReset a) ∧ (∀ t a, (State.reset.dev.tile t).reg a = tileReset a) ∧
  (∀ t a, Memory.read (State.reset.dev.tile t).spad a = 0) ∧ (∀ t n, (State.reset.dev.tile t).gr n = 0) ∧
  (∀ t, (State.reset.dev.tile t).scb.mode = .halted) ∧ (∀ r, (State.reset.dev.region r).st = .empty) ∧
  State.reset.dev.aon.owner = .nobody ∧ State.reset.dev.aon.epoch = 0 ∧ State.reset.dev.phase = 0 ∧
  State.reset.dev.tap.ir = .idcode ∧ State.reset.dev.out = [] ∧ State.reset.pending = []

/-! ### The Scarab (04) -/

namespace Sys2Proof.Claims

/-- Tile `t` exists, its Scarab may issue its next instruction, and the instruction after it lies in IMEM. -/
def ScbReady (s : State) (t : Nat) : Prop :=
  t < Config.nTiles ∧ (s.dev.tile t).canIssue = true ∧ (s.dev.tile t).scb.pc.toNat + 4 < 0x10000

/-- The Scarab of tile `t` went on to the next instruction with `v` in general register `rd` (g0 stays zero); every other general
register, the rest of the Scarab, the rest of the tile and the rest of the device are as they were. -/
def Wrote (t : Nat) (rd : R5) (v : W32) (d d' : Dev) : Prop :=
  OnlyTile t d d' ∧ OnlyScb (d.tile t) (d'.tile t) ∧
  (∀ n : R5, (d'.tile t).gr n = if n = rd ∧ n ≠ 0 then v else (d.tile t).gr n) ∧
  (d'.tile t).scb.pc = (d.tile t).scb.pc + 4 ∧
  { (d'.tile t).scb with g := (d.tile t).scb.g, pc := (d.tile t).scb.pc } = (d.tile t).scb

/-- The Scarab of tile `t` is at `pc`; the rest of the device is as it was. -/
def Went (t : Nat) (pc : W32) (d d' : Dev) : Prop :=
  OnlyTile t d d' ∧ d'.tile t = { d.tile t with scb := { (d.tile t).scb with pc := pc } }

/-- A trap of the Scarab of tile `t` with cause `code` and value `tval` (R105): EPC, CAUSE and TVAL, INTRAP, the PC at TVEC. -/
def Trapped (t code : Nat) (tval : W32) (d d' : Dev) : Prop :=
  OnlyTile t d d' ∧ (d'.tile t).reg Reg.SCB_EPC = BitVec.ofNat 64 (d.tile t).scb.pc.toNat ∧
  (d'.tile t).reg Reg.SCB_CAUSE = BitVec.ofNat 64 (code + tval.toNat * 2 ^ 32) ∧
  (d'.tile t).scb.inTrap = true ∧ (d'.tile t).scb.pc.toNat = fld ((d.tile t).reg Reg.SCB_TVEC) 0 16 ∧
  (∀ n : R5, (d'.tile t).gr n = (d.tile t).gr n) ∧ (∀ a, Memory.read (d'.tile t).dmem a = Memory.read (d.tile t).dmem a) ∧
  (d'.tile t).scb.sbuf = (d.tile t).scb.sbuf ∧ (∀ a, Memory.read (d'.tile t).spad a = Memory.read (d.tile t).spad a) ∧
  ∀ a, a ≠ Reg.SCB_EPC → a ≠ Reg.SCB_CAUSE → (d'.tile t).reg a = (d.tile t).reg a

/-- The Scarab of tile `t` waits for `k` at the same instruction; nothing else changes (R104). -/
def Waits (t : Nat) (k : Stall) (d d' : Dev) : Prop :=
  OnlyTile t d d' ∧ d'.tile t = { d.tile t with scb := { (d.tile t).scb with stall := k } }

/-- What a load at `a` gets (R86): the bytes of DMEM where no buffered store overlaps it, those of the youngest that overlaps it where that one
covers every byte. -/
def LoadGets (x : Tile) (a : Nat) (bs : List Byte) : Prop :=
  ((∀ e ∈ x.scb.sbuf, e.meets a bs.length = false) ∧ bs = Memory.readN x.dmem a bs.length) ∨
  ∃ l e l', x.scb.sbuf = l ++ e :: l' ∧ (∀ y ∈ l', y.meets a bs.length = false) ∧ e.covers a bs.length = true ∧
    ∀ i, i < bs.length → e.bytes.getD (a - e.addr + i) 0 = bs.getD i 0

/-- The youngest buffered store that overlaps a load of `n` bytes at `a` does not cover every byte of it. -/
def LoadStalls (x : Tile) (a n : Nat) : Prop :=
  ∃ l e l', x.scb.sbuf = l ++ e :: l' ∧ (∀ y ∈ l', y.meets a n = false) ∧ e.meets a n = true ∧ e.covers a n = false

end Sys2Proof.Claims

/-- ALU with clear reserved bits writes the value of Table 4.3 for each listed FN, with the edge results of division (R82), and traps ILLEGAL for any
other FN (R81); the immediate forms extend their immediate as R79 says. RD gets the value, the PC goes on, and nothing else changes; a write of g0 is
discarded. -/
def Obligations.ScarabArithmeticWritesOnlyRd : Prop :=
  ∀ (s : State) (t : Nat) (rd rs1 rs2 : R5) (imm : I16), ScbReady s t →
    let a := (s.dev.tile t).gr rs1
    let b := (s.dev.tile t).gr rs2
    let alu (fn : R5) (v : W32) : Prop := Completes (.alu t rd rs1 rs2 0 fn) s (Wrote t rd v s.dev)
    alu 0x00 (a + b) ∧ alu 0x01 (a - b) ∧ alu 0x02 (a &&& b) ∧ alu 0x03 (a ||| b) ∧ alu 0x04 (a ^^^ b) ∧
    alu 0x05 (a <<< (b.toNat % 32)) ∧ alu 0x06 (a >>> (b.toNat % 32)) ∧ alu 0x07 (a.sshiftRight (b.toNat % 32)) ∧
    alu 0x08 (if a.toInt < b.toInt then 1 else 0) ∧ alu 0x09 (if a.toNat < b.toNat then 1 else 0) ∧
    alu 0x0A (if a.toInt ≤ b.toInt then a else b) ∧ alu 0x0B (if a.toInt ≤ b.toInt then b else a) ∧
    alu 0x0C (if a.toNat ≤ b.toNat then a else b) ∧ alu 0x0D (if a.toNat ≤ b.toNat then b else a) ∧
    alu 0x10 (BitVec.ofInt 32 (a.toInt * b.toInt)) ∧ alu 0x11 (BitVec.ofInt 32 (a.toInt * b.toInt / 2 ^ 32)) ∧
    alu 0x12 (BitVec.ofNat 32 (a.toNat * b.toNat / 2 ^ 32)) ∧
    alu 0x14 (if b = 0 then 0xFFFFFFFF else BitVec.ofNat 32 (a.toNat / b.toNat)) ∧
    alu 0x15 (if b = 0 then a else BitVec.ofNat 32 (a.toNat % b.toNat)) ∧
    alu 0x16 (if b = 0 then 0xFFFFFFFF else if a = 0x80000000 ∧ b = 0xFFFFFFFF then 0x80000000 else BitVec.ofInt 32 (a.toInt.tdiv b.toInt)) ∧
    alu 0x17 (if b = 0 then a else if a = 0x80000000 ∧ b = 0xFFFFFFFF then 0 else BitVec.ofInt 32 (a.toInt.tmod b.toInt)) ∧
    (∀ fn : R5, 0x0D < fn.toNat → fn.toNat ∉ [0x10, 0x11, 0x12, 0x14, 0x15, 0x16, 0x17] → (s.dev.tile t).scb.inTrap = false →
      Completes (.alu t rd rs1 rs2 0 fn) s (Trapped t 1 (wordR rd rs1 rs2 0 fn) s.dev)) ∧
    Completes (.addi t rd rs1 imm) s (Wrote t rd (a + imm.signExtend 32) s.dev) ∧
    Completes (.andi t rd rs1 imm) s (Wrote t rd (a &&& imm.zeroExtend 32) s.dev) ∧
    Completes (.ori t rd rs1 imm) s (Wrote t rd (a ||| imm.zeroExtend 32) s.dev) ∧
    Completes (.xori t rd rs1 imm) s (Wrote t rd (a ^^^ imm.zeroExtend 32) s.dev) ∧
    Completes (.slti t rd rs1 imm) s (Wrote t rd (if a.slt (imm.signExtend 32) then 1 else 0) s.dev) ∧
    Completes (.lui t rd 0 imm) s (Wrote t rd (imm.zeroExtend 32 <<< 16) s.dev)

/-- SHI: IMM[6:5] selects SLLI, SRLI or SRAI by IMM[4:0]; 3, or a bit of IMM[15:7], traps ILLEGAL with the instruction word as TVAL,
and so do a reserved bit of ALU and of LUI (R78). -/
def Obligations.ScarabShiftsAndReservedBits : Prop :=
  ∀ (s : State) (t : Nat) (rd rs1 rs2 fn : R5) (rsv : BitVec 6) (imm : I16), ScbReady s t →
    (imm.toNat / 32 = 0 → Completes (.shi t rd rs1 imm) s (Wrote t rd ((s.dev.tile t).gr rs1 <<< (imm.toNat % 32)) s.dev)) ∧
    (imm.toNat / 32 = 1 → Completes (.shi t rd rs1 imm) s (Wrote t rd ((s.dev.tile t).gr rs1 >>> (imm.toNat % 32)) s.dev)) ∧
    (imm.toNat / 32 = 2 → Completes (.shi t rd rs1 imm) s (Wrote t rd (((s.dev.tile t).gr rs1).sshiftRight (imm.toNat % 32)) s.dev)) ∧
    ((s.dev.tile t).scb.inTrap = false →
      (3 ≤ imm.toNat / 32 → Completes (.shi t rd rs1 imm) s (Trapped t 1 (wordI 0x06 rd rs1 imm) s.dev)) ∧
      (rsv ≠ 0 → Completes (.alu t rd rs1 rs2 rsv fn) s (Trapped t 1 (wordR rd rs1 rs2 rsv fn) s.dev)) ∧
      (rs1 ≠ 0 → Completes (.lui t rd rs1 imm) s (Trapped t 1 (wordI 0x07 rd rs1 imm) s.dev)))

/-- Loads at an address inside DMEM that is aligned to the access (R86): RD gets the bytes of DMEM, or those of the youngest buffered store that overlaps
them where it covers them all, extended as the opcode says; where it does not, the load waits. -/
def Obligations.ScarabLoadsReadDataMemory : Prop :=
  ∀ (s : State) (t : Nat) (rd rs1 : R5) (imm : I16), ScbReady s t →
    let x := s.dev.tile t
    let a := ((x.gr rs1) + imm.signExtend 32).toNat
    a < 0x10000 →
    (∀ b0 : Byte, LoadGets x a [b0] → Completes (.lb t rd rs1 imm) s (Wrote t rd (b0.signExtend 32) s.dev) ∧
      Completes (.lbu t rd rs1 imm) s (Wrote t rd (b0.zeroExtend 32) s.dev)) ∧
    (∀ b0 b1 : Byte, a % 2 = 0 → LoadGets x a [b0, b1] →
      Completes (.lh t rd rs1 imm) s (Wrote t rd ((b1 ++ b0 : BitVec 16).signExtend 32) s.dev) ∧
      Completes (.lhu t rd rs1 imm) s (Wrote t rd ((b1 ++ b0 : BitVec 16).zeroExtend 32) s.dev)) ∧
    (∀ b0 b1 b2 b3 : Byte, a % 4 = 0 → LoadGets x a [b0, b1, b2, b3] →
      Completes (.lw t rd rs1 imm) s (Wrote t rd (b3 ++ b2 ++ b1 ++ b0 : BitVec 32) s.dev)) ∧
    (a % 2 = 0 → LoadStalls x a 2 → Completes (.lh t rd rs1 imm) s (Waits t (.load a 2 true rd) s.dev) ∧
      Completes (.lhu t rd rs1 imm) s (Waits t (.load a 2 false rd) s.dev)) ∧
    (a % 4 = 0 → LoadStalls x a 4 → Completes (.lw t rd rs1 imm) s (Waits t (.load a 4 false rd) s.dev))

/-- A store enters the store buffer behind those that wait, or waits when it holds 8, and STORE_BUFFER_WRITE moves the oldest to DMEM: the bytes stored
read back, every other byte is as it was. -/
def Obligations.ScarabStoresGoThroughTheBuffer : Prop :=
  (∀ (s : State) (t : Nat) (rs2 rs1 : R5) (imm : I16), ScbReady s t →
    let x := s.dev.tile t
    let a := ((x.gr rs1) + imm.signExtend 32).toNat
    let e (n : Nat) : StoreEntry := ⟨a, leBytes n (x.gr rs2).toNat⟩
    let entered (n : Nat) (d' : Dev) : Prop :=
      OnlyTile t s.dev d' ∧ d'.tile t = { x with scb := { x.scb with pc := x.scb.pc + 4, sbuf := x.scb.sbuf ++ [e n] } }
    a < 0x10000 →
    (x.scb.sbuf.length < 8 →
      Completes (.sb t rs2 rs1 imm) s (entered 1) ∧ (a % 2 = 0 → Completes (.sh t rs2 rs1 imm) s (entered 2)) ∧
      (a % 4 = 0 → Completes (.sw t rs2 rs1 imm) s (entered 4))) ∧
    (8 ≤ x.scb.sbuf.length →
      Completes (.sb t rs2 rs1 imm) s (Waits t (.store (e 1)) s.dev) ∧ (a % 2 = 0 → Completes (.sh t rs2 rs1 imm) s (Waits t (.store (e 2)) s.dev)) ∧
      (a % 4 = 0 → Completes (.sw t rs2 rs1 imm) s (Waits t (.store (e 4)) s.dev)))) ∧
  (∀ (s : State) (t : Nat) (e : StoreEntry) (rest : List StoreEntry), t < Config.nTiles → (s.dev.tile t).scb.sbuf = e :: rest →
    Completes (.storeBufferWrite t) s fun d' =>
      OnlyTile t s.dev d' ∧ (d'.tile t).scb = { (s.dev.tile t).scb with sbuf := rest } ∧
      (∀ i, i < e.bytes.length → Memory.read (d'.tile t).dmem (e.addr + i) = e.bytes.getD i 0) ∧
      (∀ a, a < e.addr ∨ e.addr + e.bytes.length ≤ a → Memory.read (d'.tile t).dmem a = Memory.read (s.dev.tile t).dmem a) ∧
      { d'.tile t with dmem := (s.dev.tile t).dmem, scb := (s.dev.tile t).scb } = s.dev.tile t)

/-- An access above DMEM traps DMEM_RANGE and one that is not aligned traps MISALIGN, with the address as TVAL (R84, R104). -/
def Obligations.ScarabAccessTraps : Prop :=
  ∀ (s : State) (t : Nat) (r rs1 : R5) (imm : I16), ScbReady s t → (s.dev.tile t).scb.inTrap = false →
    let a := ((s.dev.tile t).gr rs1) + imm.signExtend 32
    (0x10000 ≤ a.toNat → ∀ c ∈ [Instr.lb t r rs1 imm, .lbu t r rs1 imm, .lh t r rs1 imm, .lhu t r rs1 imm, .lw t r rs1 imm, .sb t r rs1 imm,
      .sh t r rs1 imm, .sw t r rs1 imm], Completes c s (Trapped t 3 a s.dev)) ∧
    (a.toNat < 0x10000 → a.toNat % 2 = 1 → ∀ c ∈ [Instr.lh t r rs1 imm, .lhu t r rs1 imm, .lw t r rs1 imm, .sh t r rs1 imm, .sw t r rs1 imm],
      Completes c s (Trapped t 2 a s.dev)) ∧
    (a.toNat < 0x10000 → a.toNat % 4 = 2 → ∀ c ∈ [Instr.lw t r rs1 imm, .sw t r rs1 imm], Completes c s (Trapped t 2 a s.dev))

/-- Branches: the PC goes to PC + 4 × sext(IMM) when the condition holds, else to PC + 4, and nothing else changes; JAL and JALR: RD gets PC + 4 and the PC
its target, which JALR takes from RS1 as it was before RD was written. A target at or above 0x1_0000 traps IMEM_RANGE with no other effect, and an
instruction at 0xFFFC that goes on completes and then traps with EPC and TVAL 0x1_0000 (R79, R104). -/
def Obligations.ScarabBranchesAndJumps : Prop :=
  (∀ (s : State) (t : Nat) (rs1 rs2 : R5) (imm : I16), ScbReady s t →
    let x := s.dev.tile t
    let target := x.scb.pc + 4 * imm.signExtend 32
    let branch (c : Instr) (taken : Bool) : Prop :=
      (taken = false → Completes c s (Went t (x.scb.pc + 4) s.dev)) ∧
      (taken = true → target.toNat < 0x10000 → Completes c s (Went t target s.dev)) ∧
      (taken = true → 0x10000 ≤ target.toNat → x.scb.inTrap = false → Completes c s (Trapped t 4 target s.dev))
    branch (.beq t rs2 rs1 imm) (x.gr rs1 == x.gr rs2) ∧ branch (.bne t rs2 rs1 imm) (x.gr rs1 != x.gr rs2) ∧
    branch (.blt t rs2 rs1 imm) ((x.gr rs1).slt (x.gr rs2)) ∧ branch (.bge t rs2 rs1 imm) ((x.gr rs2).sle (x.gr rs1)) ∧
    branch (.bltu t rs2 rs1 imm) ((x.gr rs1).ult (x.gr rs2)) ∧ branch (.bgeu t rs2 rs1 imm) ((x.gr rs2).ule (x.gr rs1))) ∧
  (∀ (s : State) (t : Nat) (rd rs1 : R5) (imm : I16) (imm21 : BitVec 21), ScbReady s t →
    let x := s.dev.tile t
    let jumped (target : W32) (d' : Dev) : Prop :=
      OnlyTile t s.dev d' ∧ (d'.tile t).scb.pc = target ∧
      (∀ n : R5, (d'.tile t).gr n = if n = rd ∧ n ≠ 0 then x.scb.pc + 4 else x.gr n) ∧
      { d'.tile t with scb := x.scb } = x ∧ { (d'.tile t).scb with g := x.scb.g, pc := x.scb.pc } = x.scb
    let jump (c : Instr) (target : W32) : Prop :=
      (target.toNat < 0x10000 → Completes c s (jumped target)) ∧
      (0x10000 ≤ target.toNat → x.scb.inTrap = false → Completes c s (Trapped t 4 target s.dev))
    jump (.jal t rd imm21) (x.scb.pc + 4 * imm21.signExtend 32) ∧ jump (.jalr t rd rs1 imm) ((x.gr rs1 + imm.signExtend 32) &&& ~~~3#32)) ∧
  ∀ (s : State) (t : Nat) (rd rs1 : R5) (imm : I16), t < Config.nTiles → (s.dev.tile t).canIssue = true → (s.dev.tile t).scb.pc = 0xFFFC →
    (s.dev.tile t).scb.inTrap = false → Completes (.addi t rd rs1 imm) s fun d' => OnlyTile t s.dev d' ∧ (d'.tile t).scb.inTrap = true ∧
      (rd ≠ 0 → (d'.tile t).gr rd = (s.dev.tile t).gr rs1 + imm.signExtend 32) ∧
      (d'.tile t).reg Reg.SCB_EPC = 0x10000 ∧ (d'.tile t).reg Reg.SCB_CAUSE = BitVec.ofNat 64 (4 + 0x10000 * 2 ^ 32)

/-- A CRD or CWR at an address outside the ranges of Table 4.6, or that is no multiple of 4, or an unlisted offset of the SCB core or VE block,
traps CTL_RANGE with that address as TVAL (R88). -/
def Obligations.ScarabControlSpaceTraps : Prop :=
  ∀ (s : State) (t : Nat) (r rs1 : R5) (imm : I16), ScbReady s t → (s.dev.tile t).scb.inTrap = false →
    let a := ((s.dev.tile t).gr rs1) + imm.signExtend 32
    ctlValid a.toNat = false → Completes (.crd t r rs1 imm) s (Trapped t 5 a s.dev) ∧ Completes (.cwr t r rs1 imm) s (Trapped t 5 a s.dev)

/-- WAITT (R101), WAITE (R102) and FENCE (R103) either complete at once or leave the Scarab waiting at the same PC, and the completing
command ends the wait when the condition holds: the view has reached the target, a masked event bit is set (RD gets the matched bits and
they are cleared), every selected condition holds. A WAITT whose target has passed is counted with its lateness; one too far ahead traps
WAITT_RANGE, and a set reserved bit, an odd RS1 of WAITT or an empty mask of WAITE traps ILLEGAL. -/
def Obligations.ScarabWaitsCompleteWhenTheirConditionHolds : Prop :=
  (∀ (s : State) (t : Nat) (rd rs1 : R5) (imm : I16), ScbReady s t →
    let x := s.dev.tile t
    let tgt := (x.gr rs1).toNat + 2 ^ 32 * (x.gr (rs1 + 1)).toNat
    let v := s.dev.view t
    let ev (y : Tile) : W64 := y.reg Reg.SCB_EVENT &&& BitVec.ofNat 64 imm.toNat
    let fence (y : Tile) : Prop :=
      (imm.getLsbD 0 = true → y.scb.sbuf = []) ∧ (imm.getLsbD 1 = true → y.acwQ = []) ∧ (imm.getLsbD 2 = true → y.vecQ = []) ∧
        (imm.getLsbD 3 = true → ∀ n, n < 16 → (y.ag n).tickets = [] ∧ (y.ag n).pending = none)
    (rs1.toNat % 2 = 0 →
      (tgt < v → Completes (.waitt t 0 rs1 0) s fun d' => (d'.tile t).scb.pc = x.scb.pc + 4 ∧
        OnlyTileReg Reg.SCB_WAITT_LATE { x with scb := { x.scb with pc := x.scb.pc + 4 } } (d'.tile t) ∧
        fld ((d'.tile t).reg Reg.SCB_WAITT_LATE) 0 24 = min (fld (x.reg Reg.SCB_WAITT_LATE) 0 24 + 1) (2 ^ 24 - 1) ∧
        fld ((d'.tile t).reg Reg.SCB_WAITT_LATE) 24 40 = min (fld (x.reg Reg.SCB_WAITT_LATE) 24 40 + (v - tgt)) (2 ^ 40 - 1)) ∧
      (tgt = v → Completes (.waitt t 0 rs1 0) s (Went t (x.scb.pc + 4) s.dev)) ∧
      (v < tgt → tgt ≤ v + 2 ^ 32 → Completes (.waitt t 0 rs1 0) s (Waits t (.waitt tgt) s.dev)) ∧
      (v + 2 ^ 32 < tgt → x.scb.inTrap = false → Completes (.waitt t 0 rs1 0) s (Trapped t 0x0C (BitVec.ofNat 32 tgt) s.dev))) ∧
    (imm ≠ 0 →
      (ev x = 0 → Completes (.waite t rd 0 imm) s (Waits t (.waite rd imm) s.dev)) ∧
      (ev x ≠ 0 → Completes (.waite t rd 0 imm) s fun d' => OnlyTile t s.dev d' ∧ (d'.tile t).reg Reg.SCB_EVENT = x.reg Reg.SCB_EVENT &&& ~~~ (ev x) ∧
        (rd ≠ 0 → (d'.tile t).gr rd = BitVec.ofNat 32 (ev x).toNat) ∧ (d'.tile t).scb.pc = x.scb.pc + 4)) ∧
    (imm.toNat < 32 →
      (fence x → Completes (.fence t 0 0 imm) s (Went t (x.scb.pc + 4) s.dev)) ∧
      (¬ fence x → Completes (.fence t 0 0 imm) s (Waits t (.fence imm) s.dev))) ∧
    (x.scb.inTrap = false →
      (rs1.toNat % 2 = 1 ∨ rd ≠ 0 ∨ imm ≠ 0 → Completes (.waitt t rd rs1 imm) s (Trapped t 1 (wordI 0x1D rd rs1 imm) s.dev)) ∧
      (imm = 0 ∨ rs1 ≠ 0 → Completes (.waite t rd rs1 imm) s (Trapped t 1 (wordI 0x1E rd rs1 imm) s.dev)) ∧
      (rd ≠ 0 ∨ rs1 ≠ 0 ∨ 32 ≤ imm.toNat → Completes (.fence t rd rs1 imm) s (Trapped t 1 (wordI 0x1F rd rs1 imm) s.dev)))) ∧
  ∀ (s : State) (t : Nat), t < Config.nTiles → (s.dev.tile t).mayRun = true → (s.dev.tile t).scb.pc.toNat + 4 < 0x10000 →
    let x := s.dev.tile t
    let ended (d' : Dev) : Prop := OnlyTile t s.dev d' ∧ d'.tile t = { x with scb := { x.scb with pc := x.scb.pc + 4, stall := .none } }
    (∀ tgt, x.scb.stall = .waitt tgt → tgt ≤ s.dev.view t → Completes (.waittComplete t) s ended) ∧
    (∀ m, x.scb.stall = .fence m → x.fenceOk m = true → Completes (.fenceComplete t) s ended) ∧
    (∀ rd m, x.scb.stall = .waite rd m → x.matched m ≠ 0 → Completes (.waiteComplete t) s fun d' => OnlyTile t s.dev d' ∧
      (d'.tile t).reg Reg.SCB_EVENT = x.reg Reg.SCB_EVENT &&& ~~~ (x.matched m) ∧ (d'.tile t).scb.stall = .none ∧
        (rd ≠ 0 → (d'.tile t).gr rd = BitVec.ofNat 32 (x.matched m).toNat) ∧ (d'.tile t).scb.pc = x.scb.pc + 4)

/-- TIME gives an even RD and RD + 1 the halves of the view; SYS takes TRAP with code `k` as a SYSCALL, returns to SCB_EPC with INTRAP clear (ERET, which
takes the oldest pending cause), or halts (HALT); an unlisted OP code, another SYS code, an odd or zero RD of TIME and a set reserved bit trap ILLEGAL with
the instruction word as TVAL (R78, R80). A synchronous cause while INTRAP is set takes the Scarab to FAULT (R106). -/
def Obligations.ScarabTimeTrapsAndHalt : Prop :=
  ∀ (s : State) (t : Nat) (rd rs1 : R5) (imm : I16) (code : BitVec 12), ScbReady s t →
    let x := s.dev.tile t
    let epc := lo32 (x.reg Reg.SCB_EPC)
    (rd ≠ 0 → rd.toNat % 2 = 0 → Completes (.time t rd 0 0) s fun d' => OnlyTile t s.dev d' ∧ (d'.tile t).scb.pc = x.scb.pc + 4 ∧
      (d'.tile t).gr rd = BitVec.ofNat 32 (s.dev.view t) ∧ (d'.tile t).gr (rd + 1) = BitVec.ofNat 32 (s.dev.view t / 2 ^ 32) ∧
      ∀ n, n ≠ rd → n ≠ rd + 1 → (d'.tile t).gr n = x.gr n) ∧
    (x.scb.inTrap = false →
      Completes (.trap t rd rs1 ⟨0x21, code ++ 0#4⟩) s (Trapped t 0x0D (code.zeroExtend 32) s.dev) ∧
      (rd = 0 ∨ rd.toNat % 2 = 1 ∨ rs1 ≠ 0 ∨ imm ≠ 0 → Completes (.time t rd rs1 imm) s (Trapped t 1 (wordI 0x20 rd rs1 imm) s.dev)) ∧
      (∀ op : BitVec 6, 0x21 < op.toNat → Completes (.trap t rd rs1 ⟨op, imm⟩) s (Trapped t 1 (op ++ rd ++ rs1 ++ imm) s.dev)) ∧
      (3 ≤ imm.toNat % 16 → Completes (.trap t rd rs1 ⟨0x21, imm⟩) s (Trapped t 1 (wordI 0x21 rd rs1 imm) s.dev)) ∧
      (code ≠ 0 → Completes (.eret t rd rs1 code) s (Trapped t 1 (wordI 0x21 rd rs1 (code ++ 1#4)) s.dev) ∧
        Completes (.halt t rd rs1 code) s (Trapped t 1 (wordI 0x21 rd rs1 (code ++ 2#4)) s.dev))) ∧
    (x.scb.inTrap = true → Completes (.trap t rd rs1 ⟨0x21, code ++ 0#4⟩) s fun d' => (d'.tile t).scb.mode = .fault) ∧
    (epc.toNat < 0x10000 →
      (x.scb.pend = [] → Completes (.eret t rd rs1 0) s fun d' =>
        OnlyTile t s.dev d' ∧ d'.tile t = { x with scb := { x.scb with pc := epc, inTrap := false } }) ∧
      ∀ c v rest, x.scb.pend = (c, v) :: rest → Completes (.eret t rd rs1 0) s fun d' => OnlyTile t s.dev d' ∧
        (d'.tile t).scb.pend = rest ∧ (d'.tile t).scb.inTrap = true ∧ (d'.tile t).reg Reg.SCB_EPC = BitVec.ofNat 64 epc.toNat ∧
        (d'.tile t).reg Reg.SCB_CAUSE = BitVec.ofNat 64 (c.code + (if c = .arrFlag then lo32 (x.reg Reg.ARR_FLAGS) else v).toNat * 2 ^ 32) ∧
        (d'.tile t).scb.pc.toNat = fld (x.reg Reg.SCB_TVEC) 0 16) ∧
    (0x10000 ≤ epc.toNat → x.scb.inTrap = true → Completes (.eret t rd rs1 0) s fun d' => (d'.tile t).scb.mode = .fault) ∧
    Completes (.halt t rd rs1 0) s fun d' => OnlyTile t s.dev d' ∧ d'.tile t = { x with scb := { x.scb with pc := x.scb.pc + 4, mode := .halted } }

/-- What stops, starts and interrupts the Scarab (R75, R77, R104 to R107): RUN starts a HALTED one at SCB_ENTRY and does nothing in another state; HALT stops
it at the next boundary; an asynchronous cause is taken at a boundary, its TVAL as Table 4.9 says; a watchdog count at its limit raises WATCHDOG, or
takes the Scarab to FAULT under INTRAP; a host write of IMEM is accepted while the Scarab stands, else counted. -/
def Obligations.ScarabRunControl : Prop :=
  ∀ (s : State) (t : Nat), t < Config.nTiles →
    let x := s.dev.tile t
    (x.scb.mode = .halted → Completes (.scbCtlRun t) s fun d' => OnlyTile t s.dev d' ∧ (d'.tile t).scb.mode = .run ∧
      (d'.tile t).scb.pc = BitVec.ofNat 32 (fld (x.reg Reg.SCB_ENTRY) 0 16) ∧ OnlyScb x (d'.tile t)) ∧
    (x.scb.mode ≠ .halted → Completes (.scbCtlRun t) s fun d' => OnlyTile t s.dev d' ∧ d'.tile t = x) ∧
    (x.scb.mode = .run ∨ x.scb.mode = .wait → Completes (.scbCtlHalt t) s fun d' => OnlyTile t s.dev d' ∧ d'.tile t = { x with scb := { x.scb with haltReq := true } }) ∧
    (x.scb.mode = .run ∨ x.scb.mode = .wait → x.scb.haltReq = true → Completes (.haltedAtBoundary t) s fun d' => OnlyTile t s.dev d' ∧
      d'.tile t = { x with scb := { x.scb with mode := .halted, haltReq := false, stall := .none } }) ∧
    (∀ (c : AsyncCause) (v : W32) (rest : List (AsyncCause × W32)), x.scb.mode = .run → x.scb.inTrap = false → x.stopped = false →
      x.scb.pend = (c, v) :: rest → Completes (.asyncTrap t) s fun d' => OnlyTile t s.dev d' ∧
        (d'.tile t).scb.pend = rest ∧ (d'.tile t).scb.inTrap = true ∧ (d'.tile t).scb.stall = .none ∧
        (d'.tile t).reg Reg.SCB_EPC = BitVec.ofNat 64 x.scb.pc.toNat ∧ (d'.tile t).scb.pc.toNat = fld (x.reg Reg.SCB_TVEC) 0 16 ∧
        (d'.tile t).reg Reg.SCB_CAUSE = BitVec.ofNat 64 (c.code + (if c = .arrFlag then lo32 (x.reg Reg.ARR_FLAGS) else v).toNat * 2 ^ 32)) ∧
    (x.scb.mode = .run → x.waitsStart = false → fld (x.reg Reg.SCB_WDOG) 0 24 ≠ 0 → fld (x.reg Reg.SCB_WDOG) 0 24 * 1000 ≤ x.scb.wdogNs →
      (x.scb.inTrap = false → Completes (.watchdog t) s fun d' => OnlyTile t s.dev d' ∧ (d'.tile t).scb.wdogNs = 0 ∧
        ∃ v, (AsyncCause.watchdog, v) ∈ (d'.tile t).scb.pend) ∧
      (x.scb.inTrap = true → Completes (.watchdog t) s fun d' => (d'.tile t).scb.mode = .fault)) ∧
    (Completes (.scbWdogKick t) s fun d' => OnlyTile t s.dev d' ∧ d'.tile t = { x with scb := { x.scb with wdogNs := 0 } }) ∧
    ∀ (a : Nat) (v : W32), a < 0x10000 → a % 4 = 0 →
      ((x.scb.mode = .halted ∨ x.scb.mode = .fault) → Completes (.hostImemWrite t a v) s fun d' => OnlyTile t s.dev d' ∧
        { d'.tile t with imem := x.imem } = x ∧ Memory.readN (d'.tile t).imem a 4 = leBytes 4 v.toNat ∧
        ∀ b, b < a ∨ a + 4 ≤ b → Memory.read (d'.tile t).imem b = Memory.read x.imem b) ∧
      (x.scb.mode = .run → Completes (.hostImemWrite t a v) s fun d' => OnlyTile t s.dev d' ∧ OnlyTileReg Reg.SCB_HOSTDROP x (d'.tile t))

/-- Issue (R91 to R99): an ACW, a vector instruction or an AG program whose block lies in DMEM and passes every check enters its queue, or
its address generator; ISSUE_RESUME lets a stalled store in once the buffer has room, and a stalled load read DMEM once no buffered store overlaps it. -/
def Obligations.ScarabIssueQueuesCheckedWork : Prop :=
  (∀ (s : State) (t : Nat) (rs1 : R5) (imm : I16), ScbReady s t →
    let x := s.dev.tile t
    let a := (x.gr rs1 + imm.signExtend 32).toNat
    let block (n : Nat) : List Byte := Memory.readN x.dmem a n
    x.scb.sbuf = [] →
    (let w : Acw := BitVec.ofNat 256 (rdNat (block 48) 0 32)
     a + 48 ≤ 0x10000 → a % 16 = 0 → Acw.check w = none → x.acwRoleOk w = true → rangesOk (rangeWords (block 48) 32) = true →
      x.acwQ.length < 64 → x.boardFree (rangeWords (block 48) 32) = true →
      Completes (.acwp t 0 rs1 imm) s fun d' => OnlyTile t s.dev d' ∧ (d'.tile t).scb.pc = x.scb.pc + 4 ∧
        ∃ e, (d'.tile t).acwQ = x.acwQ ++ [e] ∧ e.acw = w ∧ e.started = false ∧ e.done = false ∧ e.ranges = rangeWords (block 48) 32) ∧
    (let w : VWord := BitVec.ofNat 64 (rdNat (block 24) 0 8)
     a + 24 ≤ 0x10000 → a % 8 = 0 → VWord.check w = none → x.vecRoleOk w = true → rangesOk (rangeWords (block 24) 8) = true →
      x.vecQ.length < 32 → x.boardFree (rangeWords (block 24) 8) = true →
      Completes (.viss t 0 rs1 imm) s fun d' => OnlyTile t s.dev d' ∧ (d'.tile t).scb.pc = x.scb.pc + 4 ∧
        ∃ e, (d'.tile t).vecQ = x.vecQ ++ [e] ∧ e.word = w ∧ e.done = false ∧ e.ranges = rangeWords (block 24) 8) ∧
    ∀ rd : R5, rd.toNat < 16 → a + 32 ≤ 0x10000 → (agParse (descWords (block 32))).bad = false → (x.ag rd.toNat).pending = none →
      (x.ag rd.toNat).tickets = [] →
      Completes (.ags t rd rs1 imm) s fun d' => OnlyTile t s.dev d' ∧ (d'.tile t).scb.pc = x.scb.pc + 4 ∧
        { ((d'.tile t).ag rd.toNat).cur with port := 0 } = agParse (descWords (block 32)) ∧ ∀ n, n ≠ rd.toNat → (d'.tile t).ag n = x.ag n) ∧
  (∀ (s : State) (t : Nat) (n : BitVec 4), ScbReady s t → (agParse ((s.dev.tile t).ag n.toNat).staging).bad = false →
    ((s.dev.tile t).ag n.toNat).pending = none → ((s.dev.tile t).ag n.toNat).tickets = [] →
    Completes (.agCommit t n .scarab) s fun d' => OnlyTile t s.dev d' ∧ (d'.tile t).scb.pc = (s.dev.tile t).scb.pc + 4 ∧
      { ((d'.tile t).ag n.toNat).cur with port := 0 } = agParse ((s.dev.tile t).ag n.toNat).staging) ∧
  (∀ (s : State) (t : Nat) (e : StoreEntry), t < Config.nTiles → (s.dev.tile t).mayRun = true → (s.dev.tile t).scb.pc.toNat + 4 < 0x10000 →
    (s.dev.tile t).scb.stall = .store e → (s.dev.tile t).scb.sbuf.length < 8 →
    Completes (.issueResume t) s fun d' => OnlyTile t s.dev d' ∧ (d'.tile t).scb.sbuf = (s.dev.tile t).scb.sbuf ++ [e] ∧
      (d'.tile t).scb.stall = .none ∧ (d'.tile t).scb.pc = (s.dev.tile t).scb.pc + 4) ∧
  ∀ (s : State) (t a n : Nat) (sg : Bool) (rd : R5), t < Config.nTiles → (s.dev.tile t).mayRun = true → (s.dev.tile t).scb.pc.toNat + 4 < 0x10000 →
    let x := s.dev.tile t
    x.scb.stall = .load a n sg rd → (∀ e ∈ x.scb.sbuf, e.meets a n = false) → Completes (.issueResume t) s fun d' => OnlyTile t s.dev d' ∧
      (rd ≠ 0 → (d'.tile t).gr rd = loadExt sg (Memory.readN x.dmem a n)) ∧ (d'.tile t).scb.stall = .none ∧ (d'.tile t).scb.pc = x.scb.pc + 4

/-! ### Registers (00 R3, 04 R88 to R90) -/

namespace Sys2Proof.Claims

/-- What a write of the lanes `m` of `v` does to a register by access type (Table 0.1): W1C bits written as 1 are cleared, RW bits take
the value written, every other bit stays. -/
def ByAccess (r : RegRow) (m v old new : W64) : Prop :=
  ∀ i, i < 64 → new.getLsbD i =
    if m.getLsbD i && r.w1c.getLsbD i && v.getLsbD i then false else if m.getLsbD i && r.rw.getLsbD i then v.getLsbD i else old.getLsbD i

/-- The tile registers whose writes have an effect of their own. -/
def ownWrites : List Nat :=
  [Reg.SCB_CTL, Reg.SCB_WDOG_KICK, Reg.SCB_EPC, Reg.ARR_ERR, Reg.VE_ERR, Reg.SPAD_QCMD, Reg.WVL_CMD, Reg.WVL_CFG, Reg.WVL_DIR, Reg.WVL_FQ_COMMIT,
    Reg.WVL_CLAIM]

end Sys2Proof.Claims

/-- A write of a register without an effect of its own stores by access type: by the host in BAR0, whole or by one of its words, by the host in a tile, whole, and
by a Scarab's CWR (the word it names); every other register and the rest of the device are as they were. -/
def Obligations.RegisterWritesFollowTheAccessType : Prop :=
  (∀ (s : State) (a : Nat) (r : RegRow) (v : W64), devRow a = some r →
    (∀ n, s.dev.devEffect0 a fullMask v n = none) → (∀ n, s.dev.devEffect1 a fullMask v n = none) →
    Completes (.registerWrite .host (.dev a) true v) s fun d' => OnlyReg a s.dev d' ∧ ByAccess r fullMask v (s.dev.reg a) (d'.reg a)) ∧
  (∀ (s : State) (a h : Nat) (r : RegRow) (v : W64), devRow a = some r → a % 8 = 0 → h = 0 ∨ h = 4 →
    (∀ m w n, s.dev.devEffect0 a m w n = none) → (∀ m w n, s.dev.devEffect1 a m w n = none) →
    Completes (.registerWrite .host (.dev (a + h)) false v) s fun d' => OnlyReg a s.dev d' ∧
      ByAccess r (laneMask h) (BitVec.ofNat 64 ((lo32 v).toNat * 2 ^ (8 * h))) (s.dev.reg a) (d'.reg a)) ∧
  (∀ (s : State) (t a : Nat) (r : RegRow) (v : W64), t < Config.nTiles → tileRow a = some r → a ∉ ownWrites → (a < 0x400 ∨ 0x800 ≤ a) →
    Completes (.registerWrite .host (.tile t a) true v) s fun d' => OnlyTile t s.dev d' ∧
      OnlyTileReg a (s.dev.tile t) (d'.tile t) ∧ ByAccess r fullMask v ((s.dev.tile t).reg a) ((d'.tile t).reg a)) ∧
  ∀ (s : State) (t : Nat) (rs2 rs1 : R5) (imm : I16) (r : RegRow), ScbReady s t →
    let x := s.dev.tile t
    let a := (x.gr rs1 + imm.signExtend 32).toNat
    tileRow a = some r → a ∉ ownWrites → (a < 0x400 ∨ 0x800 ≤ a) →
    Completes (.cwr t rs2 rs1 imm) s fun d' => OnlyTile t s.dev d' ∧ (d'.tile t).scb.pc = x.scb.pc + 4 ∧
      (∀ b, b ≠ a → (d'.tile t).reg b = x.reg b) ∧ ByAccess r 0xFFFFFFFF ((x.gr rs2).zeroExtend 64) (x.reg a) ((d'.tile t).reg a)

/-- R89: a 32-bit read of the low word returns it, captures the register and has the read side effect; a read of the high word then returns the
captured half. -/
def Obligations.RegisterReadsCaptureTheRegister : Prop :=
  (∀ (s : State) (a : Nat) (r : RegRow), devRow a = some r →
    (Completes (.captureRead .host (.dev a)) s fun d' =>
      d'.out = s.dev.out ++ [.readData ((s.dev.devVal a).truncate 32 |>.zeroExtend 64)] ∧ d'.hostCap = some (a, s.dev.devVal a) ∧
      (∀ i, i < 64 → (d'.reg a).getLsbD i = if r.rc.getLsbD i then r.reset.getLsbD i else (s.dev.reg a).getLsbD i) ∧
      ∀ b, b ≠ a → d'.reg b = s.dev.reg b) ∧
    ∀ w, s.dev.hostCap = some (a, w) → Completes (.captureRead .host (.dev (a + 4))) s fun d' =>
      d' = s.dev.emit (.readData ((w >>> 32).truncate 32 |>.zeroExtend 64))) ∧
  ∀ (s : State) (t : Nat) (rd rs1 : R5) (imm : I16) (r : RegRow), ScbReady s t →
    let x := s.dev.tile t
    let a := (x.gr rs1 + imm.signExtend 32).toNat
    tileRow a = some r → (a < 0x400 ∨ 0x800 ≤ a) → cycleCounter a = false → (a = Reg.WVL_CLAIMED → x.wvl.claimOut = 0) →
    Completes (.crd t rd rs1 imm) s fun d' => OnlyTile t s.dev d' ∧ (d'.tile t).scb.pc = x.scb.pc + 4 ∧
      (rd ≠ 0 → (d'.tile t).gr rd = (x.regVal a).truncate 32) ∧ (d'.tile t).cap = some (capKey t a, x.regVal a) ∧
      (∀ b, b ≠ a → (d'.tile t).reg b = x.reg b) ∧
      ∀ i, i < 64 → ((d'.tile t).reg a).getLsbD i = if r.rc.getLsbD i then r.reset.getLsbD i else (x.reg a).getLsbD i

/-! ### The array unit (03) -/

namespace Sys2Proof.Claims

/-- AG `g` of a tile emits `n` addresses `a 0`, `a 1`, … of the scratchpad in LINEAR mode, for units of `len k` bytes of words that pass parity (04 R95,
R98, R100, 06 R139). -/
def AgServes (x : Tile) (g n : Nat) (len a : Nat → Nat) : Prop :=
  (x.ag g).stopped = false ∧ (x.ag g).exh = false ∧ (x.ag g).cur.space = 0 ∧ (x.ag g).cur.mode = 0 ∧
    ((x.ag g).cur.cyc = true ∨ n ≤ 1 ∨ (x.ag g).pos + n ≤ (x.ag g).cur.total) ∧
    ∀ k, k < n → (x.ag g).cur.addr ((x.ag g).pos + k) = (a k : Int) ∧ a k + len k ≤ Config.spadBytes ∧ x.badWord (a k) (len k) = none

/-- The same for an array consumer, which asks for alignment to 16 (04 R98). -/
def ArrServes (x : Tile) (g n : Nat) (len a : Nat → Nat) : Prop := AgServes x g n len a ∧ ∀ k, k < n → a k % 16 = 0

/-- Two spans do not meet. -/
def Apart (a n b m : Nat) : Prop := a + n ≤ b ∨ b + m ≤ a

/-- The ACW that a command of kind `kind` finds, at its first unit, with no other of its ID in the queue: the first that has not started,
which may start, or one that has started and stands alone. -/
def AcwAt (s : State) (t kind : Nat) (e : AcwEntry) : Prop :=
  t < Config.nTiles ∧
    (((s.dev.tile t).acwRunning kind = [] ∧ (s.dev.tile t).acwNext kind = some e) ∨
      ((s.dev.tile t).acwQ = [e] ∧ (s.dev.tile t).acwRunning kind = [e] ∧ (s.dev.tile t).acwUsable e = true)) ∧
    (∀ y ∈ (s.dev.tile t).acwQ, y.id = e.id → y = e) ∧
    e.prog = 0 ∧ e.loaded = 0 ∧ e.got = [] ∧ e.added = false ∧ e.sent = 0 ∧ e.done = false

/-- The ACW has started and is complete. -/
def AcwComplete (t : Nat) (e : AcwEntry) (d' : Dev) : Prop := ∃ y ∈ (d'.tile t).acwQ, y.id = e.id ∧ y.acw = e.acw ∧ y.started = true ∧ y.done = true

end Sys2Proof.Claims

/-- The plane that a block gives array `z`: its values, its scales and its metadata at `v`, `c` and `m` of memory `mem` (R49, R50, R70). -/
def blockPlane (a : Acw) (mem : Memory) (z : Arr) (v c m : Nat) : Plane :=
  loadPlane a.wfmt a.sparse (Memory.readN mem v (blockBytes a.wfmt)) (if wfmtScaled a.wfmt then Memory.readN mem c a.kb else [])
    (if a.sparse then Memory.readN mem m (metaBytes a.wfmt) else []) z.cb z.cbType (fun n => if a.cbcol then fld z.cbcol (2 * n) 2 else a.cbsel)

/-- The AGs of a load emit `n` blocks: values at `v k`, scales at `c k`, metadata at `m k`. -/
def BlocksServe (x : Tile) (a : Acw) (n : Nat) (v c m : Nat → Nat) : Prop :=
  ArrServes x a.agw n (fun _ => blockBytes a.wfmt) v ∧ (wfmtScaled a.wfmt = true → AgServes x a.agsw n (fun _ => a.kb) c) ∧
    (a.sparse = true → AgServes x a.agm n (fun _ => metaBytes a.wfmt) m)

/-- The bytes of a vector's scales. -/
def Acw.nScales (a : Acw) : Nat := actScales a.afmt a.vecLen a.subLen

/-- The AGs of the activations emit `n` vectors: elements at `v k`, scales at `c k`. -/
def VectorsServe (x : Tile) (a : Acw) (n : Nat) (v c : Nat → Nat) : Prop :=
  ArrServes x a.aga n (fun _ => a.vecLen * a.abytes) v ∧ (afmtScaled a.afmt = true → AgServes x a.agsa n (fun _ => Acw.nScales a) c)

/-- One block of a list goes into its plane; the number counts the blocks. -/
def loadNext (a : Acw) (mem : Memory) (v c m : Nat → Nat) (s : Tile × Nat) (b : Bool × Nat) : Tile × Nat :=
  let z := s.1.arr b.2
  (s.1.setArr b.2 (z.setPl b.1 (blockPlane a mem z (v s.2) (c s.2) (m s.2))), s.2 + 1)

/-- Unit `u` of a COMPUTE whose operands lie in memory `mem`: the blocks its pass loads, the adds of its vector into every row of its jobs, its outputs. -/
def computeNext (e : AcwEntry) (mem : Memory) (va sa v c m : Nat → Nat) (s : (Tile × Nat) × List (List Byte)) (u : Nat) : (Tile × Nat) × List (List Byte) :=
  let a : Acw := e.acw
  let p := u / a.rep
  let i := u % a.rep
  let l := ((Acw.loadList a p).drop s.1.2).foldl (loadNext a mem v c m) s.1
  let vals := actVals a.afmt a.vecLen a.subLen (Memory.readN mem (va u) (a.vecLen * a.abytes))
    (if afmtScaled a.afmt then Memory.readN mem (sa u) (Acw.nScales a) else [])
  let y := (a.jobs p i).foldl (fun x j => x.jobRun a (Acw.planeOf a p) e.rmask e.cmask (decide (a.accop % 2 = 1) && decide (p % a.krounds = 0)) false vals j) l.1
  let o := (a.outs p i).foldl (fun (z : Tile × List (List Byte)) o => let r := Tile.drainOut a o z.1; (r.1, z.2 ++ [r.2])) (y, s.2)
  ((o.1, l.2), o.2)

/-- Unit `u` of a DRAIN: one row of one array, cleared after the read under ACCOP 1 or 3. -/
def drainNext (a : Acw) (s : Tile × List (List Byte)) (u : Nat) : Tile × List (List Byte) :=
  let j := a.arrays.getD (u % a.na) 0
  let row := a.rowbase + u / a.na
  let o := s.1.drainPart a j row 0 32
  (if a.accop % 2 = 1 then o.1.setArr j ((o.1.arr j).clearDrained row) else o.1, s.2 ++ [o.2])

/-- Unit `u` of an XADD: a block into one row of one array, cleared first under ACCOP 1 or 3. -/
def xaddNext (a : Acw) (ok : Bool) (block : Nat → List Byte) (x : Tile) (u : Nat) : Tile :=
  let j := a.arrays.getD (u % a.na) 0
  let row := a.rowbase + u / a.na
  let y := if a.accop % 2 = 1 then (x.arr j).clearRow row 0xFFFFFFFF a.wb false else x.arr j
  let z := ArrF.addBlock (y, 0) row (Xps.parse (block u)) ok a.wb
  (x.setArr j z.1).arrFlag j z.2

/-- The destination takes these outputs: AGO emits an address for each, or the queue's route is loaded. -/
def CanDeliver (d : Dev) (t : Nat) (a : Acw) (outs : List (List Byte)) (ao : Nat → Nat) : Prop :=
  outs ≠ [] → (a.odst = 1 → ArrServes (d.tile t) a.ago outs.length (fun k => (outs.getD k []).length) ao) ∧
    (a.odst = 2 → (d.routeAlt (fld ((d.tile t).qc a.qid).w1 48 16)).isSome = true)

/-- The outputs have reached their destination (R71): the scratchpad, a later one over an earlier one; a queue, an item for each; the append port. -/
def Delivered (t : Nat) (e : AcwEntry) (outs : List (List Byte)) (ao : Nat → Nat) (d d' : Dev) : Prop :=
  let a : Acw := e.acw
  let x := d.tile t
  let y := d'.tile t
  let len (k : Nat) : Nat := (outs.getD k []).length
  (a.odst = 1 →
    (∀ k i, k < outs.length → i < len k → (∀ l, k < l → l < outs.length → ao k + i < ao l ∨ ao l + len l ≤ ao k + i) →
      Memory.read y.spad (ao k + i) = (outs.getD k []).getD i 0) ∧
    ∀ b, (∀ k, k < outs.length → b < ao k ∨ ao k + len k ≤ b) → Memory.read y.spad b = Memory.read x.spad b) ∧
  (a.odst = 2 → fld (y.qc a.qid).w2 0 16 = (fld (x.qc a.qid).w2 0 16 + outs.length) % 2 ^ 16 ∧
    fld (y.qc a.qid).w3 0 32 = min (fld (x.qc a.qid).w3 0 32 + outs.length) (2 ^ 32 - 1)) ∧
  y.wvl.appendQ = x.wvl.appendQ ++ (if a.odst = 3 then outs.map fun o => ⟨a.kvs, o, e.id⟩ else []) ∧
  (a.odst = 0 ∨ a.odst = 3 → y.spad = x.spad) ∧ (a.odst ≠ 2 ∨ outs = [] → OnlyTile t d d')

/-- NOP starts and is complete, with nothing outside the queue changed but the tickets it held; ACW_RETIRE takes the oldest complete ACW without
waiting append rows out of the queue, counts it, and sets event 0 for DONE_EV (R58, R93). -/
def Obligations.ArrayNopAndRetire : Prop :=
  (∀ (s : State) (t : Nat) (e : AcwEntry), AcwAt s t kNOP e → Completes (.nop t) s fun d' => OnlyTile t s.dev d' ∧ AcwComplete t e d' ∧
    (d'.tile t).arrs = (s.dev.tile t).arrs ∧ (d'.tile t).spad = (s.dev.tile t).spad ∧ (d'.tile t).regs = (s.dev.tile t).regs) ∧
  ∀ (s : State) (t : Nat) (e : AcwEntry), t < Config.nTiles → (s.dev.tile t).acwQ.find? (s.dev.tile t).acwRetirable = some e →
    Completes (.acwRetire t) s fun d' => OnlyTile t s.dev d' ∧ (d'.tile t).acwQ = (s.dev.tile t).acwQ.filter (fun y => decide (y.id ≠ e.id)) ∧
      (d'.tile t).reg Reg.ARR_ACWDONE = addCnt ((s.dev.tile t).reg Reg.ARR_ACWDONE) 0 64 1 ∧
      (Acw.doneEv e.acw = true → bit ((d'.tile t).reg Reg.SCB_EVENT) 0 = true) ∧ (d'.tile t).arrs = (s.dev.tile t).arrs

/-- COMPUTE of every vector of its window, from operands in the scratchpad (R48, R62 to R67): the planes it loads, the adds of every job into its WACC row, the
flags, and the outputs of a window that drains, delivered in order. A vector from a queue item whose unit is incomplete or truncated adds as invalid (06 R151).
The rows are those that no earlier drain has still to read (R59), and outputs do not overlap operands. -/
def Obligations.ArrayComputeAddsEveryJob : Prop :=
  (∀ (s : State) (t : Nat) (va sa v c m ao : Nat → Nat) (e : AcwEntry), AcwAt s t kCOMPUTE e →
    let a : Acw := e.acw
    let x := s.dev.tile t
    let n := a.passes * a.rep
    let r := (List.range n).foldl (computeNext e x.spad va sa v c m) ((x, 0), [])
    let clear (f len : Nat → Nat) (k : Nat) : Prop := a.odst = 1 → ∀ o u, o < r.2.length → u < k → Apart (ao o) (r.2.getD o []).length (f u) (len u)
    a.asrc = 0 ∨ a.asrc = 2 → a.ags.Nodup → VectorsServe x a n va sa → (a.loads = true → BlocksServe x a r.1.2 v c m) →
    (∀ u, u < n → ∀ j ∈ a.jobs (u / a.rep) (u % a.rep), x.addHeld e.id j.arr j.row = false) → CanDeliver s.dev t a r.2 ao →
    (a.odst = 2 → r.2 ≠ [] → ∀ alt, s.dev.routeAlt (fld (x.qc a.qid).w1 48 16) = some alt → alt.hops = 0) →
    clear va (fun _ => a.vecLen * a.abytes) n → clear sa (fun _ => Acw.nScales a) n → clear v (fun _ => blockBytes a.wfmt) r.1.2 →
    clear c (fun _ => a.kb) r.1.2 → clear m (fun _ => metaBytes a.wfmt) r.1.2 →
    Completes (.compute t Upset.none) s fun d' => AcwComplete t e d' ∧ Delivered t e r.2 ao s.dev d' ∧ (d'.tile t).arrs = r.1.1.arrs ∧
      (a.odst ≠ 2 ∨ r.2 = [] → ∀ b, b ≠ Reg.SCB_EVENT → (d'.tile t).reg b = r.1.1.reg b)) ∧
  ∀ (s : State) (t : Nat) (e : AcwEntry) (it : RxItem) (y : Tile), AcwAt s t kCOMPUTE e →
    let a : Acw := e.acw
    let x := s.dev.tile t
    let bs := x.payload (x.qc a.qid) it
    let n := a.vecLen * a.abytes
    let size := cdiv (n + Acw.nScales a) 16 * 16
    let unit := slice bs 0 size
    let vals := actVals a.afmt a.vecLen a.subLen (slice unit 0 n) (slice unit n (Acw.nScales a))
    a.asrc = 1 → a.passes * a.rep = 1 → a.loads = false → a.drains = false → e.item = [] → x.qTake a.qid = some (it, y) → x.parInv = [] →
    (∀ j ∈ a.jobs 0 0, x.addHeld e.id j.arr j.row = false) →
    Completes (.compute t Upset.none) s fun d' => OnlyTile t s.dev d' ∧ AcwComplete t e d' ∧ (d'.tile t).qc a.qid = y.qc a.qid ∧
      (d'.tile t).arrs = ((a.jobs 0 0).foldl
        (fun x j => x.jobRun a a.psel e.rmask e.cmask (decide (a.accop % 2 = 1)) (it.trunc || decide (bs.length < size)) vals j) y).arrs

/-- WLOAD fills plane PSEL of each enabled array, in ascending order, from the blocks that its AGs read in the scratchpad: values, scales and metadata as
the format has them; CBLOAD fills the codebook of each enabled array from the bytes that AGW reads (R49, R50, R70). -/
def Obligations.ArrayLoadsFillPlaneAndCodebook : Prop :=
  (∀ (s : State) (t : Nat) (v c m : Nat → Nat) (e : AcwEntry), AcwAt s t kWLOAD e →
    let a : Acw := e.acw
    let x := s.dev.tile t
    a.loads = true → a.ags.Nodup → BlocksServe x a a.na v c m →
    Completes (.wload t Upset.none) s fun d' => OnlyTile t s.dev d' ∧ AcwComplete t e d' ∧ (d'.tile t).spad = x.spad ∧
      (∀ k, k < a.na → let j := a.arrays.getD k 0
        (d'.tile t).arr j = (x.arr j).setPl a.psel (blockPlane a x.spad (x.arr j) (v k) (c k) (m k))) ∧
      ∀ j, j ∉ a.arrays → (d'.tile t).arr j = x.arr j) ∧
  ∀ (s : State) (t i : Nat) (e : AcwEntry), AcwAt s t kCBLOAD e →
    let a : Acw := e.acw
    let x := s.dev.tile t
    ArrServes x a.agw 1 (fun _ => if a.cbcol then 72 else 64) (fun _ => i) →
    Completes (.cbload t Upset.none) s fun d' => OnlyTile t s.dev d' ∧ AcwComplete t e d' ∧ (d'.tile t).spad = x.spad ∧
      (∀ j ∈ a.arrays, (d'.tile t).arr j = { x.arr j with
        cb := Memory.readN x.spad i 64, cbType := BitVec.ofNat 4 a.cbtype,
        cbcol := if a.cbcol then BitVec.ofNat 64 (rdNat (Memory.readN x.spad (i + 64) 8) 0 8) else (x.arr j).cbcol }) ∧
      ∀ j, j ∉ a.arrays → (d'.tile t).arr j = x.arr j

/-- DRAIN: REP rows, the enabled arrays in ascending order in each, go to ODST in order, and ACCOP 1 or 3 clears a row after the read (R66, R71); XADD
adds one XPS block, which AGA reads in the scratchpad or a queue item holds, into each row of each enabled array, cleared first under ACCOP 1 or 3 (R72). -/
def Obligations.ArrayDrainAndXadd : Prop :=
  (∀ (s : State) (t : Nat) (ao : Nat → Nat) (e : AcwEntry), AcwAt s t kDRAIN e →
    let a : Acw := e.acw
    let x := s.dev.tile t
    let r := (List.range (a.rep * a.na)).foldl (drainNext a) (x, [])
    (∀ j ∈ a.arrays, ∀ i, i < a.rep → x.drainHeld e.id j (a.rowbase + i) = false) → CanDeliver s.dev t a r.2 ao →
    Completes (.drain t) s fun d' => AcwComplete t e d' ∧ Delivered t e r.2 ao s.dev d' ∧ (d'.tile t).arrs = r.1.arrs ∧
      (a.odst ≠ 2 ∨ r.2 = [] → ∀ b, b ≠ Reg.SCB_EVENT → (d'.tile t).reg b = r.1.reg b)) ∧
  (∀ (s : State) (t : Nat) (v : Nat → Nat) (e : AcwEntry), AcwAt s t kXADD e →
    let a : Acw := e.acw
    let x := s.dev.tile t
    let n := a.rep * a.na
    let y := (List.range n).foldl (xaddNext a true fun u => Memory.readN x.spad (v u) 528) x
    a.asrc = 0 ∨ a.asrc = 2 → ArrServes x a.aga n (fun _ => 528) v → (∀ j ∈ a.arrays, ∀ i, i < a.rep → x.addHeld e.id j (a.rowbase + i) = false) →
    Completes (.acwXadd t Upset.none) s fun d' => OnlyTile t s.dev d' ∧ AcwComplete t e d' ∧ (d'.tile t).arrs = y.arrs ∧ (d'.tile t).spad = x.spad ∧
      ∀ b, b ≠ Reg.SCB_EVENT → (d'.tile t).reg b = y.reg b) ∧
  ∀ (s : State) (t : Nat) (e : AcwEntry) (it : RxItem) (y : Tile), AcwAt s t kXADD e →
    let a : Acw := e.acw
    let x := s.dev.tile t
    let bs := x.payload (x.qc a.qid) it
    a.asrc = 1 → a.rep * a.na = 1 → e.item = [] → x.qTake a.qid = some (it, y) → x.parInv = [] → x.addHeld e.id (a.arrays.getD 0 0) a.rowbase = false →
    Completes (.acwXadd t Upset.none) s fun d' => OnlyTile t s.dev d' ∧ AcwComplete t e d' ∧ (d'.tile t).qc a.qid = y.qc a.qid ∧
      (d'.tile t).arrs = (xaddNext a (!(it.trunc || decide (bs.length < 528))) (fun _ => slice bs 0 528) y 0).arrs

/-! ### The vector engine (05) -/

namespace Sys2Proof.Claims

/-- The head of the vector queue of tile `t` is an instruction of operation `op`, not yet begun. -/
def VecAt (s : State) (t op : Nat) (e : VecEntry) : Prop :=
  t < Config.nTiles ∧ (s.dev.tile t).vecHead op = some e ∧ e.prog = 0

/-- That instruction has executed and raised `fl`; it stays at the head until it retires, and the rest of the queue is as it was. -/
def VecComplete (t : Nat) (e : VecEntry) (fl : VFlags) (d d' : Dev) : Prop :=
  ∃ n, (d'.tile t).vecQ = { e with done := true, flags := e.flags ||| fl, prog := n } :: (d.tile t).vecQ.tail

/-- The bytes of the operand cache. -/
def OcBytes (x : Tile) (b : Nat) : Byte := SMap.get x.ocD x.ocache b

/-- `n` bytes of a cache from byte `b`. -/
def Block (oc : Nat → Byte) (b n : Nat) : List Byte := (List.range n).map fun i => oc (b + i)

/-- Element `j`, of width `w`, of entry `r` of a cache. -/
def El (oc : Nat → Byte) (w r j : Nat) : Nat := rdNat (Block oc (256 * r + j * (w / 8)) (w / 8)) 0 (w / 8)

/-- Nothing but the `n` bytes from `a` differs between two caches. -/
def OnlyBytes (a n : Nat) (oc oc' : Nat → Byte) : Prop := ∀ b, b < a ∨ a + n ≤ b → oc' b = oc b

/-- Every byte of the operand cache outside `n` bytes from `a` is as it was. -/
def OcacheOutside (t a n : Nat) (d d' : Dev) : Prop := OnlyBytes a n (OcBytes (d.tile t)) (OcBytes (d'.tile t))

/-- An instruction of N units executes them in ascending order, each on the cache that the one before left (R117): unit `i` takes the cache from
`oc` to `oc'` and raises `fl` as `P i oc oc' fl` says. Nothing outside the engine changes. -/
def UnitsInOrder (t : Nat) (e : VecEntry) (P : Nat → (Nat → Byte) → (Nat → Byte) → VFlags → Prop) (d d' : Dev) : Prop :=
  let x := d.tile t
  let n := VWord.n e.word
  OnlyTile t d d' ∧ (d'.tile t).spad = x.spad ∧ (d'.tile t).regs = x.regs ∧ (d'.tile t).scb = x.scb ∧
  ∃ (oc : Nat → Nat → Byte) (fl : Nat → VFlags), oc 0 = OcBytes x ∧ oc n = OcBytes (d'.tile t) ∧ (∀ i, i < n → P i (oc i) (oc (i + 1)) (fl i)) ∧
    VecComplete t e ((List.range n).foldl (fun a i => a ||| fl i) 0) d d'

/-- An element-wise result (R110 to R113): element `j` of entry VD + i is `f` of elements `j` of A, of B (or element 0 of entry VB under BCB) and of C
in every lane that the mask enables, and what it was in every other; no other entry changes. -/
def ElementWise (t : Nat) (e : VecEntry) (f : Nat → Nat → Nat → Nat) (d d' : Dev) : Prop :=
  let v : VWord := e.word
  let w := laneWidth v.ty
  UnitsInOrder t e (fun i oc oc' _ => OnlyBytes (256 * (v.vd + i)) 256 oc oc' ∧ ∀ j, j < 2048 / w → El oc' w (v.vd + i) j =
    let a := El oc w (v.va + i) j
    if e.lmask.getLsbD (j % 64) then
      f a (if v.bcb then El oc w v.vb 0 else if v.hasB then El oc w (v.vb + i) j else a) (if v.hasC then El oc w (v.vc + i) j else a) % 2 ^ w
    else El oc w (v.vd + i) j) d d'

end Sys2Proof.Claims

/-- The floating-point instructions: each unmasked lane gets the code of the exact result rounded once to the format of TYPE (02, R119). -/
def Obligations.VectorFloatingPointLanes : Prop :=
  ∀ (s : State) (t : Nat) (e : VecEntry),
    let ty := VWord.ty e.word
    let fn := VWord.fn e.word
    let F := laneFp ty
    let D (c : Nat) : Val := F.decode c
    let rnd (v : Val) : Nat := (F.encode false v).1
    (VecAt s t oFADD e → Completes (.fadd t) s (ElementWise t e (fun a b _ => rnd (Val.add (D a) (D b)).1) s.dev)) ∧
    (VecAt s t oFSUB e → Completes (.fsub t) s (ElementWise t e (fun a b _ => rnd (Val.add (D a) (D b).negate).1) s.dev)) ∧
    (VecAt s t oFMUL e → Completes (.fmul t) s (ElementWise t e (fun a b _ => rnd (Val.mul (D a) (D b)).1) s.dev)) ∧
    (VecAt s t oFFMA e → Completes (.ffma t) s (ElementWise t e (fun a b c => rnd (Val.fma (D a) (D b) (D c)).1) s.dev)) ∧
    (VecAt s t oFDIV e → Completes (.fdiv t) s (ElementWise t e (fun a b _ => rnd (Val.div (D a) (D b)).1) s.dev)) ∧
    (VecAt s t oFSQRT e → Completes (.fsqrt t) s (ElementWise t e (fun a _ _ => rnd (Val.sqrt (D a)).1) s.dev)) ∧
    (VecAt s t oFMIN e → Completes (.fmin t) s (ElementWise t e (fun a b _ => if (D a).isNan || (D b).isNan then F.nanCode else
      if Val.lt (D a) (D b) || (!Val.lt (D b) (D a) && (D a).neg && !(D b).neg) then a else b) s.dev)) ∧
    (VecAt s t oFMAX e → Completes (.fmax t) s (ElementWise t e (fun a b _ => if (D a).isNan || (D b).isNan then F.nanCode else
      if Val.lt (D a) (D b) || (!Val.lt (D b) (D a) && (D a).neg && !(D b).neg) then b else a) s.dev)) ∧
    (VecAt s t oFCMP e → fn < 4 → Completes (.fcmp t) s (ElementWise t e (fun a b _ =>
      let nan := (D a).isNan || (D b).isNan
      boolEl F.width (if fn = 0 then !nan && Val.eq (D a) (D b) else if fn = 1 then !nan && Val.lt (D a) (D b)
        else if fn = 2 then !nan && !Val.lt (D b) (D a) else nan)) s.dev)) ∧
    (VecAt s t oFSGN e → fn < 3 → Completes (.fsgn t) s (ElementWise t e (fun a b _ =>
      let h := 2 ^ (F.width - 1)
      a % h + h * (if fn = 0 then 0 else if fn = 1 then 1 - a / h % 2 else b / h % 2)) s.dev)) ∧
    (VecAt s t oFTRN e → Completes (.ftrn t) s (ElementWise t e (fun a _ _ => (ftrn fn a).1) s.dev))

/-- The integer and bitwise instructions on elements of `w` bits (R121, Table 5.3). -/
def Obligations.VectorIntegerLanes : Prop :=
  ∀ (s : State) (t : Nat) (e : VecEntry),
    let fn := VWord.fn e.word
    let w := laneWidth (VWord.ty e.word)
    let S (a : Nat) : Int := sInt w a
    let res (i : Int) : Nat := if fn = 0 then (i % 2 ^ w).toNat else (max (-(2 ^ (w - 1))) (min (2 ^ (w - 1) - 1) i) % 2 ^ w).toNat
    (VecAt s t oIADD e → Completes (.iadd t) s (ElementWise t e (fun a b _ => res (S a + S b)) s.dev)) ∧
    (VecAt s t oISUB e → Completes (.isub t) s (ElementWise t e (fun a b _ => res (S a - S b)) s.dev)) ∧
    (VecAt s t oIMUL e → Completes (.imul t) s (ElementWise t e (fun a b _ => res (S a * S b)) s.dev)) ∧
    (VecAt s t oIMIN e → Completes (.imin t) s (ElementWise t e (fun a b _ => if S a ≤ S b then a else b) s.dev)) ∧
    (VecAt s t oIMAX e → Completes (.imax t) s (ElementWise t e (fun a b _ => if S a ≤ S b then b else a) s.dev)) ∧
    (VecAt s t oILOG e → fn < 4 → Completes (.ilog t) s (ElementWise t e (fun a b _ =>
      if fn = 0 then a &&& b else if fn = 1 then a ||| b else if fn = 2 then a ^^^ b else a &&& (2 ^ w - 1 - b)) s.dev)) ∧
    (VecAt s t oISH e → fn < 3 → Completes (.ish t) s (ElementWise t e (fun a b _ =>
      if fn = 0 then a * 2 ^ (b % w) else if fn = 1 then a / 2 ^ (b % w) else ((S a / 2 ^ (b % w)) % 2 ^ w).toNat) s.dev)) ∧
    (VecAt s t oICMP e → fn < 3 → Completes (.icmp t) s (ElementWise t e (fun a b _ =>
      if (if fn = 0 then a = b else if fn = 1 then S a < S b else a < b) then 2 ^ w - 1 else 0) s.dev)) ∧
    (VecAt s t oSEL e → Completes (.sel t) s (ElementWise t e (fun a b c => if c ≠ 0 then a else b) s.dev)) ∧
    (VecAt s t oMOV e → Completes (.mov t) s (ElementWise t e (fun a _ _ => a) s.dev))

/-- VNOP executes with no effect; VLD and VST move 256 bytes for each of N entries of the operand cache, from and to the scratchpad at the addresses the AG
emits, a later write over an earlier one, and change nothing else of either; VLDQ takes the whole item at the head of its queue into the cache and its header
into SPAD_QHDR0 and SPAD_QHDR1, and one longer than N entries stays and sets LONG (06 R150). -/
def Obligations.VectorTransfers : Prop :=
  (∀ (s : State) (t : Nat) (a : Nat → Nat) (e : VecEntry),
    let v : VWord := e.word
    let x := s.dev.tile t
    (VecAt s t oVNOP e → Completes (.vnop t) s fun d' => OnlyTile t s.dev d' ∧ VecComplete t e 0 s.dev d' ∧
      (d'.tile t).ocache = x.ocache ∧ (d'.tile t).spad = x.spad ∧ (d'.tile t).regs = x.regs) ∧
    (VecAt s t oVLD e → AgServes x v.ag v.n (fun _ => 256) a → Completes (.vld t Upset.none) s fun d' => OnlyTile t s.dev d' ∧ VecComplete t e 0 s.dev d' ∧
      (∀ k, k < v.n → Block (OcBytes (d'.tile t)) (256 * (v.vd + k)) 256 = Memory.readN x.spad (a k) 256) ∧
      OcacheOutside t (256 * v.vd) (256 * v.n) s.dev d' ∧ (d'.tile t).spad = x.spad) ∧
    (VecAt s t oVST e → AgServes x v.ag v.n (fun _ => 256) a → Completes (.vst t) s fun d' => OnlyTile t s.dev d' ∧ VecComplete t e 0 s.dev d' ∧
      (∀ k i, k < v.n → i < 256 → (∀ l, k < l → l < v.n → a k + i < a l ∨ a l + 256 ≤ a k + i) →
        Memory.read (d'.tile t).spad (a k + i) = OcBytes x (256 * (v.va + k) + i)) ∧
      (∀ b, (∀ k, k < v.n → b < a k ∨ a k + 256 ≤ b) → Memory.read (d'.tile t).spad b = Memory.read x.spad b) ∧ (d'.tile t).ocache = x.ocache)) ∧
  ∀ (s : State) (t : Nat) (e : VecEntry) (i : RxItem), t < Config.nTiles → (s.dev.tile t).vecHead oVLDQ = some e →
    let v : VWord := e.word
    let x := s.dev.tile t
    let q := x.qc v.qid
    let n := cdiv (i.words - 1) 16
    q.rx = true → q.head? = some i → i.arrived = i.words → x.parInv = [] →
    (n ≤ v.n → Completes (.vldq t Upset.none) s fun d' => OnlyTile t s.dev d' ∧
      (d'.tile t).ocRead (256 * v.vd) (256 * n) = slice (x.payload q i) 0 (256 * n) ∧
      (d'.tile t).reg Reg.SPAD_QHDR0 = BitVec.ofNat 64 (rdNat (x.itemWords q i 0 1) 0 16) ∧
      (d'.tile t).reg Reg.SPAD_QHDR1 = BitVec.ofNat 64 (rdNat (x.itemWords q i 0 1) 0 16 / 2 ^ 64) ∧
      (q.retain = false → ((d'.tile t).qc v.qid).items = q.items.drop 1)) ∧
    (v.n < n → Completes (.vldq t Upset.none) s fun d' => OnlyTile t s.dev d' ∧ bit ((d'.tile t).qc v.qid).w3 47 = true ∧
      ((d'.tile t).qc v.qid).items = q.items ∧ (d'.tile t).ocache = x.ocache)

/-- VSTQ sends N entries as one item; SETM writes one mask bit for each enabled lane; RED leaves the tree's result of each entry in element 0 and zeros in
the others; RAND, XADD and XCVT write their results unit by unit; CVT converts its element stream, by MX blocks with their scales where the source or
the destination is an MX type; VEC_RETIRE takes the executed head out of the queue with its flags. -/
def Obligations.VectorOtherInstructions : Prop :=
  ∀ (s : State) (t : Nat) (e : VecEntry),
    let v : VWord := e.word
    let x := s.dev.tile t
    let w := laneWidth v.ty
    (VecAt s t oVSTQ e → (s.dev.routeAlt (fld (x.qc v.qid).w1 48 16)).isSome = true → Completes (.vstq t) s fun d' =>
      VecComplete t e 0 s.dev d' ∧ fld ((d'.tile t).qc v.qid).w2 0 16 = (fld (x.qc v.qid).w2 0 16 + 1) % 2 ^ 16 ∧
      fld ((d'.tile t).qc v.qid).w3 0 32 = min (fld (x.qc v.qid).w3 0 32 + 1) (2 ^ 32 - 1) ∧ (d'.tile t).ocache = x.ocache) ∧
    (VecAt s t oSETM e → Completes (.setm t) s fun d' => OnlyTile t s.dev d' ∧ VecComplete t e 0 s.dev d' ∧ (d'.tile t).ocache = x.ocache ∧
      ∀ j, j < 64 → ((d'.tile t).reg (Reg.VE_LMASK + 8 * (v.vc % 8))).getLsbD j =
        if e.lmask.getLsbD j then decide ((x.ocElems v.va 32).getD j 0 ≠ 0) else (x.reg (Reg.VE_LMASK + 8 * (v.vc % 8))).getLsbD j) ∧
    (VecAt s t oRED e → Completes (.red t) s (UnitsInOrder t e (fun i oc oc' fl =>
      let xs := (List.range (2048 / w)).map fun j => if e.lmask.getLsbD (j % 64) then El oc w (v.va + i) j else redId v.ty v.fn
      let r := redTree (redFn v.ty v.fn) (Nat.log2 (2048 / w)) xs
      fl = r.2 ∧ OnlyBytes (256 * (v.vd + i)) 256 oc oc' ∧ El oc' w (v.vd + i) 0 = r.1 % 2 ^ w ∧
        ∀ j, 0 < j → j < 2048 / w → El oc' w (v.vd + i) j = 0) s.dev)) ∧
    (VecAt s t oRAND e → Completes (.rand t) s (UnitsInOrder t e (fun i oc oc' fl =>
      let r := randUnit v.ty e.seed t e.pos e.stream (x.reg Reg.SCB_STEP) i
      fl = 0 ∧ OnlyBytes (256 * (v.vd + i)) (w / 8 * r.length) oc oc' ∧
        Block oc' (256 * (v.vd + i)) (w / 8 * r.length) = r.flatMap (leBytes (w / 8))) s.dev)) ∧
    (VecAt s t oXADD e → Completes (.xadd t) s (UnitsInOrder t e (fun i oc oc' fl =>
      let r := Xps.add (Xps.parse (Block oc (256 * (v.va + 3 * i)) 528)) (Xps.parse (Block oc (256 * (if v.bcb then v.vb else v.vb + 3 * i)) 528))
      fl = r.2 ∧ OnlyBytes (256 * (v.vd + 3 * i)) 768 oc oc' ∧ Block oc' (256 * (v.vd + 3 * i)) 768 = slice r.1.bytes 0 768) s.dev)) ∧
    (VecAt s t oXCVT e → Completes (.xcvt t) s (UnitsInOrder t e (fun i oc oc' fl =>
      let r := (Xps.parse (Block oc (256 * (v.va + 3 * i)) 528)).toFp32 e.oe
      let b := 256 * (v.vd + i / 2) + 128 * (i % 2)
      fl = r.2 ∧ OnlyBytes b 128 oc oc' ∧ Block oc' b 128 = r.1.flatMap (leBytes 4)) s.dev)) ∧
    (let dst := v.vc % 16
     let wd := tyWidth dst
     let n := v.cvtE
     let nd := cdiv (n * wd) 2048
     let ns := cdiv n 32
     let src (j : Nat) : Nat := x.streamEl v.va (tyWidth v.ty) j
     let scale (j : Nat) : Nat := x.streamEl v.vb 8 (j / 32)
     VecAt s t oCVT e → nd ≤ 1 ∨ Apart v.vd nd v.va v.n →
      (tyMx dst = false → (tyMx v.ty = true → nd ≤ 1 ∨ Apart v.vd nd v.vb (cdiv ns 256)) →
        Completes (.cvt t) s fun d' => OnlyTile t s.dev d' ∧ (∃ fl, VecComplete t e fl s.dev d') ∧
          OcacheOutside t (256 * v.vd) (cdiv (n * wd) 8) s.dev d' ∧ ∀ j, j < n → (d'.tile t).streamEl v.vd wd j =
            (if tyMx v.ty then mxToFp32 v.ty (src j) (scale j) else cvtTo dst (tyDecode v.ty (src j))).1 % 2 ^ wd) ∧
      (tyMx dst = true → tyMx v.ty = false → nd ≤ 1 ∨ Apart v.vb (cdiv ns 256) v.va v.n → Apart v.vb (cdiv ns 256) v.vd nd →
        let q (b : Nat) := mxQuantise dst ((List.range (min 32 (n - 32 * b))).map fun k => tyDecode v.ty (src (32 * b + k)))
        Completes (.cvt t) s fun d' => OnlyTile t s.dev d' ∧ (∃ fl, VecComplete t e fl s.dev d') ∧
          (∀ b, b < ns → (d'.tile t).streamEl v.vb 8 b = (q b).1 % 256) ∧
          (∀ j, j < n → (d'.tile t).streamEl v.vd wd j = (q (j / 32)).2.1.getD (j % 32) 0 % 2 ^ wd) ∧
          ∀ b, b < 256 * v.vd ∨ 256 * v.vd + cdiv (n * wd) 8 ≤ b → b < 256 * v.vb ∨ 256 * v.vb + ns ≤ b →
            OcBytes (d'.tile t) b = OcBytes x b)) ∧
    (∀ rest, t < Config.nTiles → x.vecQ = e :: rest → e.done = true → Completes (.vecRetire t) s fun d' => OnlyTile t s.dev d' ∧
      (d'.tile t).vecQ = rest ∧ (d'.tile t).reg Reg.VE_FLAGS = x.reg Reg.VE_FLAGS ||| e.flags.zeroExtend 64 ∧
      (d'.tile t).reg Reg.VE_RETIRED = addCnt (x.reg Reg.VE_RETIRED) 0 64 1 ∧
      (VWord.ev e.word = true → bit ((d'.tile t).reg Reg.SCB_EVENT) 1 = true) ∧ (d'.tile t).ocache = x.ocache)

/-! ### Stream queues (06) and the mesh (11) -/

/-- QITEM_ARRIVAL: a word of an open item that its context stores reaches the ring at the entry's place, no other byte changes, and the packet
leaves the Local port (R146, R148). -/
def Obligations.QueueWordReachesItsRing : Prop :=
  ∀ (s : State) (t : Nat) (p : Packet) (ps : List Packet) (w : W128) (e : Reasm), t < Config.nTiles →
    let x := s.dev.tile t
    let n := p.dqid.toNat
    x.localIn = p :: ps → p.words = [w] → (x.qc n).rx = true → s.dev.shut t = false →
    x.entry p.srcdev.toNat p.srctile.toNat n = some e → e.skip = false → e.store ≠ 0 →
    Completes (.qitemArrival t) s fun d' => OnlyTile t s.dev d' ∧ (d'.tile t).localIn = ps ∧
      Memory.readN (d'.tile t).spad ((x.qc n).addr e.wptr) 16 = leBytes 16 w.toNat ∧
      ∀ b, b < (x.qc n).addr e.wptr ∨ (x.qc n).addr e.wptr + 16 ≤ b → Memory.read (d'.tile t).spad b = Memory.read x.spad b

/-- The commands of SPAD_QCMD (R153, R154): READ copies the context to the staging words, CONFIG makes the context of the staging words, FLUSH
and RESET empty a receive context, RESET of a send context waits and then clears ISEQ, STARTSEQ and SENT; each ends with OK. -/
def Obligations.QueueCommandsEndWithOk : Prop :=
  ∀ (s : State) (t n : Nat), t < Config.nTiles →
    let x := s.dev.tile t
    let ended (y : Tile) : Prop := bit (y.reg Reg.SPAD_QCMD) 16 = false ∧ fld (y.reg Reg.SPAD_QCMD) 32 16 = 0
    (x.qwait = false → x.qcmd = some (n, 0) → Completes (.qcmdRead t) s fun d' => OnlyTile t s.dev d' ∧ ended (d'.tile t) ∧
      (d'.tile t).qctx = x.qctx ∧ (d'.tile t).reg Reg.SPAD_QCTX = (x.qc n).w0 ∧ (d'.tile t).reg (Reg.SPAD_QCTX + 8) = (x.qc n).w1 ∧
      (d'.tile t).reg (Reg.SPAD_QCTX + 16) = (x.qc n).w2 ∧ (d'.tile t).reg (Reg.SPAD_QCTX + 24) = (x.qc n).w3) ∧
    (let g (i : Nat) : W64 := x.reg (Reg.SPAD_QCTX + 8 * i)
     x.qwait = false → x.qcmd = some (n, 1) → (x.qc n).items = [] → (∀ e ∈ x.reasm, e.qid ≠ n) → s.dev.sending t (some n) = false →
      qCheck (g 0) (g 1) = St.OK → Completes (.qcmdConfig t) s fun d' => OnlyTile t s.dev d' ∧ ended (d'.tile t) ∧
        (d'.tile t).qc n = QCtx.ofWords (g 0) (g 1) (g 2) (g 3) ∧ ∀ m, m ≠ n → (d'.tile t).qc m = x.qc m) ∧
    (x.qwait = false → x.qcmd = some (n, 2) → (x.qc n).tx = false → Completes (.qcmdFlush t) s fun d' => OnlyTile t s.dev d' ∧ ended (d'.tile t) ∧
      ((d'.tile t).qc n).items = [] ∧ (∀ e ∈ (d'.tile t).reasm, e.qid = n → e.skip = true) ∧ ∀ m, m ≠ n → (d'.tile t).qc m = x.qc m) ∧
    (x.qwait = false → x.qcmd = some (n, 3) → (x.qc n).tx = false → Completes (.qcmdReset t) s fun d' => OnlyTile t s.dev d' ∧ ended (d'.tile t) ∧
      ((d'.tile t).qc n).items = [] ∧ fld ((d'.tile t).qc n).w3 0 24 = 0 ∧ fld ((d'.tile t).qc n).w3 43 6 = 0) ∧
    (x.qwait = false → x.qcmd = some (n, 3) → (x.qc n).tx = true → Completes (.qcmdReset t) s fun d' => OnlyTile t s.dev d' ∧
      d'.tile t = { x with qwait := true }) ∧
    ∀ o, x.qwait = true → x.qcmd = some (n, o) → s.dev.sending t (some n) = false →
      Completes (.qcmdTxResetDone t) s fun d' => OnlyTile t s.dev d' ∧ ended (d'.tile t) ∧ (d'.tile t).qwait = false ∧
        ((d'.tile t).qc n).w2 = 0 ∧ ((d'.tile t).qc n).w3 = 0 ∧ ((d'.tile t).qc n).w0 = (x.qc n).w0 ∧ ((d'.tile t).qc n).w1 = (x.qc n).w1

namespace Sys2Proof.Claims

/-- The header of packet `f`, at place `i` of those on their way, arrives next on its VC at input `inp` of tile `t` (R269); it is well formed and of a kind
that may use its VC. -/
def GoodHeader (s : State) (t : Nat) (inp : Port5) (k : Packet) (i : Nat) (f : Flight) : Prop :=
  t < Config.nTiles ∧ s.dev.inputOpen t inp = true ∧ s.dev.arriving t inp k.vc = some i ∧ s.dev.flying[i]? = some f ∧ f.pkt.hdr = k.hdr ∧ inp ≠ .local_ ∧
    k.malformed false = false ∧ kindVc k.kind.toNat k.vc.toNat = true ∧ s.dev.abortDrops t k.regtag.toNat = false

/-- The packets on their way once the copies of packet `i` are known, without those that have left. -/
def Routed (d : Dev) (i : Nat) (outs : List Copy) : List Flight := (d.flying.modify i fun f => { f with outs := some outs }).filter fun f => !f.over

/-- Packet `f` is the only one on its way, no port sends, and the next flit of its only copy `c` is the last. -/
def LastFlit (d : Dev) (f : Flight) (c : Copy) : Prop :=
  d.flying = [f] ∧ f.outs = some [c] ∧ c.out = 4 ∧ f.node < Config.nTiles ∧ f.pkt.whole = true ∧ c.sent + 1 = f.pkt.flits ∧ f.pkt.vc = 1 ∧
    ∀ p, p < Config.nPorts → d.portCarries p = false ∧ (d.port p).idling = false

end Sys2Proof.Claims

/-- PACKET_ARRIVAL (R272 to R274, R281 to R283): a packet whose current segment names a neighbour gets a copy for that output with one hop taken; one at its
end in its tile gets one for the Local port, and the cycle that sends its last flit there gives it to its unit; a malformed one is counted in
MESH_MISROUTE and goes no further; a VC0 packet of another region is counted in MESH_BOUND_DROP. -/
def Obligations.RouterForwardsDeliversOrDrops : Prop :=
  (∀ (s : State) (t : Nat) (inp : Port5) (k : Packet) (i : Nat) (f : Flight),
    let x := s.dev.tile t
    let q := Packet.skipSegs 4 k
    (∀ u j, GoodHeader s t inp k i f → k.vc ≠ 0 → q.segptr.toNat < q.segn.toNat → neighbour t (dirPort (q.seg q.segptr.toNat).1) = some (u, j) →
      Completes (.packetArrival t inp k) s fun d' =>
        d' = { s.dev with flying := Routed s.dev i [⟨(dirPort (q.seg q.segptr.toNat).1).code, q.hop.hdr, 0, false⟩] }) ∧
    (GoodHeader s t inp k i f → k.vc ≠ 0 → q.segn.toNat ≤ q.segptr.toNat → q.hopLeft = false → q.rmc = false → q.dtile.toNat = t →
      Completes (.packetArrival t inp k) s fun d' => d' = { s.dev with flying := Routed s.dev i [⟨4, q.hdr, 0, false⟩] }) ∧
    (t < Config.nTiles → s.dev.inputOpen t inp = true → s.dev.arriving t inp k.vc = some i → s.dev.flying[i]? = some f → f.pkt.hdr = k.hdr → inp ≠ .local_ →
      k.malformed false = true → Completes (.packetArrival t inp k) s fun d' => d'.flying = Routed s.dev i [] ∧
        OnlyTileReg Reg.MESH_MISROUTE x (d'.tile t) ∧ (d'.tile t).reg Reg.MESH_MISROUTE = addCnt (x.reg Reg.MESH_MISROUTE) 0 64 1) ∧
    (GoodHeader s t inp k i f → k.vc = 0 → k.regtag.toNat < 64 → x.meshRegion ≠ k.regtag.toNat → x.meshRegion ≠ 0x7F →
      Completes (.packetArrival t inp k) s fun d' => d'.flying = Routed s.dev i [] ∧
        (d'.tile t).reg Reg.MESH_BOUND_DROP = addCnt (x.reg Reg.MESH_BOUND_DROP) 0 64 1)) ∧
  ∀ (d : Dev) (f : Flight) (c : Copy), LastFlit d f c → c.hdr.regtag.toNat ≠ 0x7F → (d.tile f.node).meshRegion = c.hdr.regtag.toNat → c.hdr.kind = 6 →
    c.hdr.nakType.toNat < 2 → ({ c.hdr with words := f.pkt.words } : Packet).crcOk = true →
    step ⟨d, []⟩ = .next ⟨d.cycle, []⟩ ∧ d.cycle.flying = [] ∧ d.cycle.unitIn = d.unitIn ++ [(f.node, { c.hdr with words := f.pkt.words })]

/-- In the first cycle of a slot, SLOT_START lets the packet at the head of the VC0 buffer that the slot names start when its queue is the slot's and no
other is on its way (R277, R278); GATEWAY_INGRESS gives the next packet of its source and VC, for a tile in a region, its segments and tag and puts it on the
mesh, and counts one for a tile in no region (R269, R275, R282). -/
def Obligations.SlotsAndGateways : Prop :=
  (∀ (s : State) (t : Nat) (out inp : Port5) (slot : Byte) (q : Nat) (h : Nat × Flight × Copy), t < Config.nTiles →
    let x := s.dev.tile t
    let hs := heads s.dev.flying t out.code 0
    x.slotsOn = true → out ≠ .gateway → s.dev.slotNow t = some (slot.toNat, true) → x.slotEntry out slot.toNat = some (inp, q) →
    (hs.find? fun h => decide (h.2.1.inp = inp.code) && decide (h.2.1.pkt.dqid.toNat = q)) = some h → (∀ g ∈ hs, g.2.2.go = false) →
    Completes (.slotStart t out slot) s fun d' =>
      d' = { s.dev with flying := s.dev.flying.modify h.1 fun f => f.modCopy out.code fun c => { c with go := true } }) ∧
  ∀ (s : State) (g : Nat) (k : Packet), g < Config.nGateways → s.dev.ingressNext g k = some k →
    let r := (s.dev.tile k.dtile.toNat).meshRegion
    (r ≠ 0x7F → s.dev.gatewayShut g = false → Completes (.gatewayIngress g k) s fun d' =>
      d'.flying = s.dev.flying ++ [⟨(gatewaySegs g k).1, 5, { (gatewaySegs g k).2 with regtag := BitVec.ofNat 7 r }, none⟩] ∧
      d'.gwIn = s.dev.gwIn.erase (g, k) ∧ d'.tiles = s.dev.tiles) ∧
    (r = 0x7F → Completes (.gatewayIngress g k) s fun d' => d'.flying = s.dev.flying ∧
      d'.reg Reg.PORT_DROPCNT = addCnt (s.dev.reg Reg.PORT_DROPCNT) 0 32 1)

/-! ### The weight tier (07) -/

namespace Sys2Proof.Claims

/-- The command of opcode `op` runs in mailbox `m` and has not begun (16 R372, R376). -/
def HostReady (s : State) (m op : Nat) : Prop := m < Config.nMailboxes ∧ s.dev.canBegin m op = true

/-- The same for a command that names region `r`. -/
def HostReadyR (s : State) (m op r : Nat) : Prop := HostReady s m op ∧ r < Config.nRegions ∧ s.dev.mbRegion m = r

/-- A command whose message holds the parameters that `ok` asks for may begin in mailbox `m` (16 R373). -/
def HostReadyM (s : State) (m op : Nat) (ok : Message → Bool) : Prop := HostReady s m op ∧ ok (s.dev.message m) = true

/-- The command of mailbox `m` has been answered with a status: the mailbox is DONE, and words 0 and 1 of the message are as they were (16 R375). -/
def Replied (m : Nat) (st : W16) (d d' : Dev) : Prop := d'.mbState m = 3 ∧ d'.mbNat m 8 4 = st.toNat ∧ d'.mbNat m 0 8 = d.mbNat m 0 8

end Sys2Proof.Claims

/-- The journal (R170 to R175): the three stages of JOURNAL_COMMIT program the body of the next SEQ into every usable copy with COMMIT 0, then
COMMIT 0xA5 into the lowest copy, when the record's change takes place, then into the others, and the record leaves the queue; the two
JOURNAL_REPLAYs of a boot make the tier ready. A page without wrong bits that is refreshed reads as before through the pool page that the remap
table now names (R163, R164); a scrub pass sets and clears its running bit, and is counted (R188). -/
def Obligations.JournalRefreshAndScrub : Prop :=
  ((∀ (s : State) (p : JPend) (rest : List JPend), s.dev.jReady = true → s.dev.authority = true → s.dev.wt.jq = p :: rest →
    let w := s.dev.wt
    let next := jpage ((s.dev.reg Reg.WT_JSEQ).toNat + 1)
    (w.jstage = 0 → w.recLegal p = true → s.dev.jcopies ≠ 0 → Completes (.journalCommit 0) s fun d' => d'.wt.jstage = 1 ∧ d'.wt.jq = w.jq ∧
      d'.wt.images = w.images ∧ d'.reg Reg.WT_JSEQ = s.dev.reg Reg.WT_JSEQ ∧
      ∀ k ∈ copiesOf s.dev.jcopies, d'.wt.jread k next = recPage (s.dev.nextBody p) 0) ∧
    (∀ k ks, w.jstage = 1 → copiesOf s.dev.jcopies = k :: ks → Completes (.journalCommit 0) s fun d' => d'.wt.jstage = 2 ∧
      d'.wt.jread k next = recPage ((w.jread k next).take 0xF0) 0xA5 ∧ (∀ i ∈ ks, d'.wt.jread i next = w.jread i next) ∧
      d'.wt.images = (w.applyRec p.kind (w.recSubject p).1 (w.recSubject p).2 (s.dev.reg Reg.WT_JSEQ + 1)).images ∧
      d'.reg Reg.WT_JSEQ = s.dev.reg Reg.WT_JSEQ + 1) ∧
    (w.jstage = 2 → p.alloc = none → p.session = none → p.reply = none → 4 * w.jsince < 3 * journalPages → Completes (.journalCommit 0) s fun d' =>
      d'.wt.jstage = 0 ∧ d'.wt.jq = rest ∧ d'.wt.images = w.images ∧
      ∀ k ∈ copiesOf s.dev.jcopies, recCommitted (d'.wt.jread k (jpage (s.dev.reg Reg.WT_JSEQ).toNat)) = true)) ∧
  ∀ s : State, 2 ≤ s.dev.phase → s.dev.jReady = false →
    (s.dev.wt.replayed = false → Completes .journalReplay s fun d' => d'.wt.replayed = true ∧ d'.jReady = false) ∧
    (s.dev.wt.replayed = true → Completes .journalReplay s fun d' => d'.jReady = true)) ∧
  (∀ (s : State) (t page pp : Nat) (rest : List (Nat × Nat)), t < Config.nTiles → page < 262144 → s.dev.wt.refreshQ = (t, page) :: rest → s.dev.wt.weak = [] →
    s.dev.wt.poolPage t = some pp → Completes .wtPageRefresh s fun d' => d'.wt.refreshQ = rest ∧ (t, page, pp) ∈ d'.wt.remap ∧
      d'.wt.bytes t (page * 4096) 4096 = s.dev.wt.bytes t (page * 4096) 4096 ∧
      d'.reg Reg.WT_REFRESH = addCnt (s.dev.reg Reg.WT_REFRESH) 0 64 1) ∧
  (∀ s : State, s.dev.jReady = true → fld (s.dev.reg Reg.WT_SCRUB_CTL) 0 16 ≠ 0 → bit (s.dev.reg Reg.WT_STATUS) 2 = false →
    Completes (.scrubPassStart []) s fun d' => bit (d'.reg Reg.WT_STATUS) 2 = true) ∧
  ∀ s : State, bit (s.dev.reg Reg.WT_STATUS) 2 = true → Completes .scrubPassComplete s fun d' =>
    bit (d'.reg Reg.WT_STATUS) 2 = false ∧ d'.reg Reg.WT_SCRUB_PASS = addCnt (s.dev.reg Reg.WT_SCRUB_PASS) 0 32 1

/-- IMAGE commands (R177, Table 7.9): ALLOC starts the download of a pair the device does not hold, VERIFY starts a verification whose end makes a
whole image VERIFIED, ACTIVATE, CONFIRM, REVERT and RETIRE queue their records, and QUERY answers for a held pair. -/
def Obligations.ImageCommandsChangeTheStanding : Prop :=
  ∀ (s : State) (m : Nat) (id gen : W32) (i : Image), s.dev.jReady = true → pairBad id gen = false →
    let queued (k : RKind) (param : Nat) (d' : Dev) : Prop :=
      ∃ p, d'.wt.jq = s.dev.wt.jq ++ [p] ∧ p.kind = k ∧ p.img.id = i.id ∧ p.img.gen = i.gen ∧ p.param = param ∧ p.reply = some m
    (∀ (q : AllocReq) (x : BitVec 15), q.id = id → q.gen = gen → 1 ≤ q.ikind.toNat → q.ikind.toNat ≤ 4 → s.dev.wt.image? id gen = none →
      rectOk q.rect = true → s.dev.wt.chooseExt q = some x → x ≠ 0 → s.dev.wt.images.length < 1024 → (∀ j ∈ s.dev.wt.images, j.st ≠ .retired) →
      (∀ e, e < 15 → x.getLsbD e = true → s.dev.wt.extBusy (rectSlices q.rect) e = false) → HostReady s m 0x0200 →
      Completes (.imageAlloc m q) s fun d' => Replied m St.OK s.dev d' ∧
        ∃ j, d'.wt.image? id gen = some j ∧ j.st = .downloading ∧ j.xset = x ∧ j.rect = q.rect) ∧
    (s.dev.wt.image? id gen = some i →
      (i.st = .downloaded → HostReady s m 0x0203 → Completes (.imageVerify m id gen) s fun d' =>
        d'.wt.verifying = s.dev.wt.verifying ++ [⟨id, gen, some m⟩]) ∧
      (i.st = .downloaded → s.dev.wt.verifying = [⟨id, gen, none⟩] → s.dev.wt.firstBad i = none →
        Completes (.verifyComplete id gen []) s fun d' => d'.wt.image? id gen = some { i with st := .verified } ∧ d'.wt.verifying = []) ∧
      (s.dev.jOk = true →
        (∀ limit, i.st = .verified → s.dev.wt.trial id = none → s.dev.wt.active id = none → HostReady s m 0x0204 →
          Completes (.imageActivate m id gen limit) s (queued .activate 0)) ∧
        (i.st = .trial → i.priorGen = 0 → HostReady s m 0x0205 → Completes (.imageConfirm m id gen) s (queued .confirm 0)) ∧
        (i.st = .trial → s.dev.mapped i = false → HostReady s m 0x0206 → Completes (.imageRevert m id gen) s (queued .revert 2)) ∧
        (i.st = .confirmed → s.dev.wt.revertTarget i = false → s.dev.mapped i = false → HostReady s m 0x0207 →
          Completes (.imageRetire m id gen) s (queued .retire 0))) ∧
      (HostReady s m 0x0208 → Completes (.imageQuery m id (some gen)) s (Replied m St.OK s.dev)))

/-- The haul (R180 to R185): OPEN as HEAD adds a session and reads its first frame, CLOSE ends it, the head sends what it has read and passes
acknowledgements to its ring, a MEMBER forwards a frame unchanged, a frame of no session is counted, and a programmed shard is acknowledged. -/
def Obligations.HaulSessionsForwardAndAcknowledge : Prop :=
  ∀ (s : State) (m : Nat),
    (∀ q : HaulReq, s.dev.jReady = true → pairBad q.id q.gen = false → s.dev.wt.sessions.length < 4 → q.role = .head → HostReady s m 0x0201 →
      Completes (.haulOpen m q) s fun d' => Replied m St.OK s.dev d' ∧ d'.wt.sessions.length = s.dev.wt.sessions.length + 1 ∧
        (∃ e ∈ d'.wt.sessions, e.q = q) ∧ d'.dmaOut (.haul q.session) = true) ∧
    (∀ k, s.dev.jReady = true → (∃ e ∈ s.dev.wt.sessions, e.q.session = k) → HostReady s m 0x0202 → Completes (.haulClose m k) s fun d' =>
      Replied m St.OK s.dev d' ∧ d'.wt.sessions = s.dev.wt.sessions.filter (fun e => decide (e.q.session ≠ k)) ∧ d'.dmaOut (.haul k) = false) ∧
    (∀ k fr e, s.dev.headOf k = some e →
      (e.frame.map HaulFrame.ofBytes = some fr → Completes (.haulHeadSend k fr) s fun d' =>
        d' = ((s.dev.modHead k fun e => { e with frame := none }).unitSend e.q.down 4 3 e.frameFlow fr.words).issueDma (.haul k)) ∧
      (e.frame.map HaulFrame.ofBytes ≠ some fr → Completes (.haulHeadSend k fr) s fun d' => d' = s.dev)) ∧
    (∀ fr k, (s.dev.unitPkt 0x7FF 4 fun _ => true) = some k → k.haul = some fr → let d := s.dev.unitTake 0x7FF k
      (s.dev.session? fr.session = none → Completes (.haulFrameArrival fr) s fun d' => OnlyReg Reg.WT_HAUL_BAD d d' ∧
        d'.reg Reg.WT_HAUL_BAD = addCnt (s.dev.reg Reg.WT_HAUL_BAD) 0 64 1) ∧
      ∀ e, s.dev.session? fr.session = some e → e.q.role = .member → s.dev.wt.image? e.q.id e.q.gen = none → frameBad fr none = false →
        Completes (.haulFrameArrival fr) s fun d' => d' = d.unitSend e.q.down 4 3 e.frameFlow k.payload) ∧
    (∀ k n e, s.dev.session? k = some e → e.landed = [n.toNat] → s.dev.wt.image? e.q.id e.q.gen = none → Completes (.shardOk k n) s fun d' =>
      d' = (s.dev.modSession k fun s => { s with landed := s.landed.filter fun j => decide (j ≠ n.toNat) }).unitSend e.q.ackRoute 5 2 e.ackFlow
        (HaulAck.words ⟨k, s.dev.id, 1, e.q.id, e.q.gen, n, 0, 0⟩)) ∧
    ∀ a k e, (s.dev.unitPkt 0x7FF 5 fun _ => true) = some k → k.haulAck = a → s.dev.headOf a.session = some e → Completes (.haulAckArrival a) s fun d' =>
      d'.out = s.dev.out ++ [.ackRing e.q.ackRing a] ∧ d'.unitIn = s.dev.unitIn.erase (0x7FF, k) ∧ (a.kind = 4 → bit (d'.reg Reg.WT_ERR) 4 = true)

/-- LAYER_SWAP arms a swap of regions that pass the checks, and LAYER_SWAP_REPLY answers a swap that waits for nothing; a reload gives a resident
range the bytes of the new map when the tier has no wrong bits; an adapter slot is copied from each tile's own slice and evicted at the next boundary (R189 to R194). -/
def Obligations.SwapsResidentsAndAdapters : Prop :=
  (∀ (s : State) (m : Nat) (mask : W64) (mode : Bool) (tail : Byte), s.dev.jReady = true → (mode = true → s.dev.feature 1 = true) →
    (∀ r, r < 64 → mask.getLsbD r = true → s.dev.swapArmed r = false ∧ (s.dev.region r).st ≠ .empty ∧ (s.dev.region r).st ≠ .fault ∧
      s.dev.wt.mapServes (s.dev.reg (Reg.WT_XMAP_NEXT + 8 * r)) = true ∧ (s.dev.region r).residents = []) → HostReady s m 0x0209 →
    Completes (.layerSwap m mask mode tail) s fun d' => ∃ w ∈ d'.wt.swaps, w.m = m ∧ w.mask = mask ∧ w.rolling = mode) ∧
  (∀ (s : State) (m : Nat) (w : Swap), m < Config.nMailboxes → s.dev.authority = true → s.dev.mbState m = 2 → s.dev.hive.noReply = [] →
    s.dev.wt.swaps = [w] → w.m = m → w.waits = [] → w.left = 0 → (∀ r, (s.dev.region r).reload = false) →
    Completes (.layerSwapReply m) s fun d' => Replied m St.OK s.dev d' ∧ d'.wt.swaps = []) ∧
  (∀ (s : State) (r : Nat) (x : Resident), r < Config.nRegions → (s.dev.region r).reload = true → (s.dev.region r).residents = [x] → s.dev.wt.weak = [] →
    Completes (.residentWeightReloadDone r) s fun d' => (d'.region r).reload = false ∧
      ∀ i, i < 64 * x.lines → Memory.read (d'.tile x.t).spad (64 * x.line + i) = (s.dev.wt.prog (s.dev.xmap r) x.t x.saddr (64 * x.lines)).getD i 0) ∧
  (∀ (s : State) (m r slot : Nat) (id gen ad : W32) (i : Image) (a : AdSlot) (e : AdEnt), s.dev.feature 5 = true → (s.dev.region r).st ≠ .empty →
    (s.dev.region r).adslots[slot]? = some a → pairBad id gen = false → s.dev.wt.image? id gen = some i → i.ikind = 3 → i.st = .confirmed →
    i.adapters.find? (fun e => decide (e.ad = ad)) = some e → (s.dev.region r).tileList.all (fun t => rectHolds i.rect t) = true → e.part ≤ 64 * a.lines →
    HostReadyR s m 0x020A r → Completes (.adapterLoad m r slot id gen ad) s fun d' => Replied m St.OK s.dev d' ∧
      ∃ b, (d'.region r).adslots[slot]? = some b ∧ b.job = some ⟨id, gen, ad, e.xoff, e.part, false⟩ ∧ b.evict = false) ∧
  (∀ (s : State) (r slot t : Nat) (a : AdSlot) (j : AdJob) (i : Image), r < Config.nRegions → (s.dev.region r).adslots[slot]? = some a → a.job = some j →
    a.st = .loading → j.copied = false → s.dev.wt.image? j.id j.gen = some i → (s.dev.region r).tileList = [t] → s.dev.wt.weak = [] →
    j.xoff + j.part ≤ 15 * 2 ^ 26 →
    Completes (.adapterCopyDone r slot) s fun d' =>
      (∀ o, o < j.part → Memory.read (d'.tile t).spad (64 * a.line + o) = s.dev.wt.byte t (i.extAddr (j.xoff + o))) ∧
      ∃ b, (d'.region r).adslots[slot]? = some b ∧ b.job = some { j with copied := true }) ∧
  ∀ (s : State) (m r slot : Nat) (a : AdSlot), s.dev.feature 5 = true → (s.dev.region r).st ≠ .empty → (s.dev.region r).adslots[slot]? = some a →
    HostReadyR s m 0x020B r → Completes (.adapterEvict m r slot) s fun d' => Replied m St.OK s.dev d' ∧
      ∃ b, (d'.region r).adslots[slot]? = some b ∧ b.evict = true ∧ b.job = none

/-! ### The Weevil (08) -/

namespace Sys2Proof.Claims

/-- The WVL_CMD operation of tile `t` completes with status OK: BUSY clear, STATUS zero, the other bits as they were (08 WVL_CMD). -/
def WvlDone (t : Nat) (d d' : Dev) : Prop :=
  (d'.tile t).reg Reg.WVL_CMD = setFld (clrBit ((d.tile t).reg Reg.WVL_CMD) 32) 48 16 0

end Sys2Proof.Claims

/-- APPEND_ROW (R203 to R205) of a row whose page a private entry of the tile holds: the row is written in the frame and the header's PLEN grows;
every other byte of the scratchpad and every other tile is as it was. -/
def Obligations.WeevilAppendWritesTheRow : Prop :=
  ∀ (s : State) (t r e j : Nat) (f : Upset) (row : AppRow) (rest : List AppRow), t < Config.nTiles → f.frame = false → f.parity = none → ParityGood s.dev →
    (s.dev.tile t).wvl.appendQ = row :: rest → SMap.get (fun _ => ((0, 0) : Nat × Nat)) (s.dev.tile t).wvl.cursor row.kvs = (e, j) →
    let x := s.dev.tile t
    let cfg := x.reg (Reg.WVL_KVS + 8 * row.kvs)
    let ent : W64 := BitVec.ofNat 64 (x.spad.readNat (fld cfg 0 16 * 64 + 8 * e) 8)
    let slot := fld ent 0 16
    let pos := x.clen slot + fld ent 16 12 + j
    let pte := x.pte slot (pos / x.kvPpp)
    let a := x.frameAddr (pteFrame pte) + pos % x.kvPpp * x.kvPosb + fld cfg 28 12
    let keep := min row.bytes.length (x.kvPosb - fld cfg 28 12)
    e < cnt0 (fld cfg 16 12) 4096 → s.dev.regionOf t = some r → s.dev.homeOf r slot = some t → pos / x.kvPpp < x.dirLen → pteV pte = true →
    pteShared pte = false → pteTile pte = t → s.dev.frameOk r pte false = true → (a + keep ≤ x.dirAddr slot ∨ x.dirAddr slot + 16 ≤ a) →
    Completes (.appendRow t f) s fun d' => (∀ u, u ≠ t → d'.tile u = s.dev.tile u) ∧ { d' with tiles := s.dev.tiles } = s.dev ∧
      (d'.tile t).wvl.appendQ = rest ∧ (d'.tile t).plen slot = max (x.plen slot) (fld ent 16 12 + j + 1) ∧
      (∀ i, i < keep → Memory.read (d'.tile t).spad (a + i) = row.bytes.getD i 0) ∧
      ∀ b, (b < a ∨ a + keep ≤ b) → (b < x.dirAddr slot + 4 ∨ x.dirAddr slot + 10 ≤ b) → Memory.read (d'.tile t).spad b = Memory.read x.spad b

/-- FETCH (R211, R212) of one position: the bytes at the position in its frame reach the destination, nothing else in the scratchpad changes, and the
fetch is counted; WVL_FQ_COMMIT queues a fetch that passes its check, and WVL_REQ_ARRIVAL answers another tile's walk, read and claim. -/
def Obligations.WeevilFetchCopiesTheFrame : Prop :=
  (∀ (s : State) (t r : Nat) (f : Upset) (d0 d1 : W64) (rest : List (W64 × W64)) (e : W32), t < Config.nTiles → f.frame = false → f.parity = none → ParityGood s.dev →
    (s.dev.tile t).wvl.fq = (d0, d1) :: rest → fld d0 16 12 = 1 → s.dev.regionOf t = some r →
    (s.dev.translate r t (fld d0 0 16) (fld d0 32 32)).2 = some e → Completes (.fetch t f) s fun d' =>
      let x := s.dev.tile t
      let w := cnt0 (fld d1 12 12) 4096
      let a := (s.dev.tile (pteTile e)).frameAddr (pteFrame e) + fld d0 32 32 % x.kvPpp * x.kvPosb + fld d1 0 12
      (∀ i, i < w → Memory.read (d'.tile t).spad (fld d1 24 22 + i) = Memory.read (s.dev.tile (pteTile e)).spad (a + i)) ∧
      (∀ b, (b < fld d1 24 22 ∨ fld d1 24 22 + w ≤ b) → Memory.read (d'.tile t).spad b = Memory.read x.spad b) ∧
      (d'.tile t).wvl.fq = rest ∧ (d'.tile t).reg Reg.WVL_FDONE = addCnt (x.reg Reg.WVL_FDONE) 0 32 1 ∧ ∀ u, u ≠ t → d'.tile u = s.dev.tile u) ∧
  (∀ (s : State) (t : Nat), t < Config.nTiles → let x := s.dev.tile t
    x.fetchOk (x.reg Reg.WVL_FQ0) (x.reg Reg.WVL_FQ1) = true → x.wvl.fq.length < 16 → Completes (.wvlFqCommit t) s fun d' =>
      d' = s.dev.setTile t { x with wvl := { x.wvl with fq := x.wvl.fq ++ [(x.reg Reg.WVL_FQ0, x.reg Reg.WVL_FQ1)] } }) ∧
  ∀ (s : State) (t src : Nat), t < Config.nTiles → (s.dev.tile t).parInv = [] → let x := s.dev.tile t
    (∀ slot page, x.claims slot.toNat = true → page < x.dirLen → Completes (.wvlReqArrival t (.walk src slot page)) s fun d' =>
      d' = s.dev.emit (.wvlData src (leBytes 4 (x.pte slot.toNat page).toNat ++ leBytes 4 (x.clen slot.toNat) ++ leBytes 4 (x.plen slot.toNat)))) ∧
    (∀ frame off n, frame < x.kvFrames → Completes (.wvlReqArrival t (.read src frame off n)) s fun d' =>
      d' = s.dev.emit (.wvlData src (x.spad.readN (x.frameAddr frame + off) n))) ∧
    (Completes (.wvlReqArrival t (.claim src)) s fun d' => (d'.tile t).wvl.claimCtr = x.wvl.claimCtr + 1 ∧
      d'.out = s.dev.out ++ [.wvl src (.claimed (claimIndex x.wvl.claimCtr x.wvl.nUnits))]) ∧
    ∀ i, x.wvl.claimOut ≠ 0 → Completes (.wvlReqArrival t (.claimed i)) s fun d' =>
      (d'.tile t).wvl.claimOut = x.wvl.claimOut - 1 ∧ (d'.tile t).reg Reg.WVL_CLAIMED = BitVec.ofNat 64 i.toNat

/-- WVL_CMD (R213, R215), WVL_CFG and WVL_DIR (R198, R199): READPTE and READFT show an entry, WRITEPTE stores one, PTLB_INV and PTLB_INV_SLOT drop
translations, and a configuration word is stored when it passes its check and sets WVL_ERR.CFG when it does not. -/
def Obligations.WeevilCommandsOfTheTile : Prop :=
  (∀ (s : State) (t op : Nat), t < Config.nTiles → let x := s.dev.tile t
    let c := x.reg Reg.WVL_CMD
    bit c 32 = true → fld c 12 3 = op →
    let slot := fld c 16 16
    let page := fld c 0 12
    (op = 0 → s.dev.homedAt t slot = true → page < x.dirLen → x.parInv = [] → Completes (.readpte t) s fun d' => WvlDone t s.dev d' ∧
      (d'.tile t).reg Reg.WVL_CMDDATA = BitVec.ofNat 64 (x.pte slot page).toNat ∧ (d'.tile t).spad = x.spad) ∧
    (op = 1 → s.dev.homedAt t slot = true → page < x.dirLen → Completes (.writepte t) s fun d' => WvlDone t s.dev d' ∧
      (d'.tile t).pte slot page = BitVec.ofNat 32 (fld (x.reg Reg.WVL_CMDDATA) 0 32) ∧ (d'.tile t).ptlbFind slot page = none) ∧
    (op = 2 → Completes (.ptlbInv t) s fun d' => WvlDone t s.dev d' ∧ (d'.tile t).ptlbFind slot page = none ∧ (d'.tile t).spad = x.spad) ∧
    (op = 3 → Completes (.ptlbInvSlot t) s fun d' => WvlDone t s.dev d' ∧ (∀ p, (d'.tile t).ptlbFind slot p = none) ∧ (d'.tile t).spad = x.spad) ∧
    (op = 4 → page < x.kvFrames → Completes (.readft t) s fun d' => WvlDone t s.dev d' ∧
      (d'.tile t).reg Reg.WVL_CMDDATA = BitVec.ofNat 64 (x.ft page).toNat ∧ (d'.tile t).spad = x.spad)) ∧
  ∀ (s : State) (t : Nat) (v : W64), t < Config.nTiles → let x := s.dev.tile t
    let cfg := x.reg Reg.WVL_CFG &&& ~~~0x000FFFFFF3FFFFFF ||| v &&& 0x000FFFFFF3FFFFFF
    let dir := x.reg Reg.WVL_DIR &&& ~~~0x0FFFFFFFFFFFFFFF ||| v &&& 0x0FFFFFFFFFFFFFFF
    (x.wvlCfgOk cfg = true → Completes (.wvlCfgWrite t v) s fun d' => d' = s.dev.setTile t (x.setReg Reg.WVL_CFG cfg)) ∧
    (x.wvlDirOk dir = true → Completes (.wvlDirWrite t v) s fun d' => d' = s.dev.setTile t (x.setReg Reg.WVL_DIR dir)) ∧
    (x.allFree = false → (Completes (.wvlCfgWrite t v) s fun d' => d' = s.dev.setTile t (x.setReg Reg.WVL_ERR (setBit (x.reg Reg.WVL_ERR) 17))) ∧
      Completes (.wvlDirWrite t v) s fun d' => d' = s.dev.setTile t (x.setReg Reg.WVL_ERR (setBit (x.reg Reg.WVL_ERR) 17)))

/-- The KV commands (R208 to R210, R225): SHARE gives the destination a length, FREE invalidates the entries, FREE_SLOT empties the slot, and RESTORE
answers with the lowest shadow step of the region's tiles. -/
def Obligations.KvCommandsShareFreeAndRestore : Prop :=
  ∀ (s : State) (m r : Nat), ParityGood s.dev →
    (∀ (src dst : BitVec 16) (n hs hd : Nat), HostReadyR s m 0x040B r → s.dev.homeOf r src.toNat = some hs → s.dev.homeOf r dst.toNat = some hd →
      let x := s.dev.tile hs
      let y := s.dev.tile hd
      0 < n → n ≤ x.dirLen → n ≤ y.dirLen → ((y.ptes dst.toNat 0 y.dirLen).all fun e => !pteV e.2) = true → y.clen dst.toNat = 0 →
      anyPending (x.ptes src.toNat 0 n) = false → (∀ h v, ftRef ((s.dev.tile h).ft v) + ftCwd ((s.dev.tile h).ft v) + n ≤ 255) →
      Completes (.kvShare m r src dst n) s fun d' => Replied m St.OK s.dev d' ∧ (d'.tile hd).clen dst.toNat = min (x.clen src.toNat) (n * x.kvPpp)) ∧
    (∀ (slot : BitVec 16) (first n h : Nat) (f : Upset), HostReadyR s m 0x040C r → f.frame = false → f.parity = none → s.dev.homeOf r slot.toNat = some h →
      first + cnt0 n 4096 ≤ (s.dev.tile h).dirLen → anyPending ((s.dev.tile h).ptes slot.toNat first (cnt0 n 4096)) = false →
      Completes (.kvFree m r slot first n f) s fun d' => Replied m St.OK s.dev d' ∧
        ∀ i, i < cnt0 n 4096 → pteV ((d'.tile h).pte slot.toNat (first + i)) = false) ∧
    (∀ (slot : BitVec 16) (h : Nat), HostReadyR s m 0x040D r → s.dev.homeOf r slot.toNat = some h →
      anyPending ((s.dev.tile h).ptes slot.toNat 0 (s.dev.tile h).dirLen) = false → Completes (.kvFreeSlot m r slot) s fun d' =>
        Replied m St.OK s.dev d' ∧ (d'.tile h).clen slot.toNat = 0 ∧ (d'.tile h).plen slot.toNat = 0) ∧
    ∀ (src : BitVec 12) (x : Region), HostReadyR s m 0x040E r → s.dev.region r = x → x.st ≠ .empty → 0 < x.h → 0 < x.w →
      (∀ t ∈ x.tileList, bit ((s.dev.tile t).reg Reg.WVL_SHADOW) 0 = true ∧ (s.dev.tile t).reg Reg.WVL_SHSTEP ≠ 0) →
      Completes (.kvRestore m src ⟨x.b0, x.b0 + x.h - 1, x.c0, x.c0 + x.w - 1⟩ r) s fun d' => Replied m St.OK s.dev d' ∧
        (∀ t ∈ x.tileList, d'.mbNat m 20 8 ≤ ((s.dev.tile t).reg Reg.WVL_SHSTEP).toNat) ∧
        (∃ t ∈ x.tileList, d'.mbNat m 20 8 = ((s.dev.tile t).reg Reg.WVL_SHSTEP).toNat) ∧ ∀ t ∈ x.tileList, (d'.tile t).wvl.ptlb = []

/-- Claims and shadow pages (R220, R222 to R224): a STATIC claim takes the unit of the tile's position, a read of WVL_CLAIMED shows it, a tile with a
shadow sends its records, the tile that holds the shadow stores DATA and acknowledges END, and a missing acknowledgement ends the shadowing. -/
def Obligations.ClaimsAndShadowRecords : Prop :=
  ∀ (s : State) (t : Nat), t < Config.nTiles → let x := s.dev.tile t
    (∀ r, x.wvl.claimOut = 0 → s.dev.regionOf t = some r → t ∈ s.dev.group r → bit (x.reg Reg.WVL_DCFG) 1 = false →
      Completes (.wvlClaim t) s fun d' => (d'.tile t).wvl.claimCtr = x.wvl.claimCtr + 1 ∧ (d'.tile t).reg Reg.WVL_CLAIMED =
        BitVec.ofNat 64 (claimIndex (posOf t (s.dev.group r) + x.wvl.claimCtr * (s.dev.group r).length) x.wvl.nUnits).toNat) ∧
    (∀ who, x.wvl.claimOut = 0 → Completes (.wvlClaimed t who) s fun d' =>
      d'.out = s.dev.out ++ [.readData (BitVec.ofNat 64 (lo32 (x.reg Reg.WVL_CLAIMED)).toNat)]) ∧
    (let d := s.dev.modTile t fun x => { x with wvl := { x.wvl with shadowQ := [] } }
     bit (x.reg Reg.WVL_SHADOW) 0 = true → Completes (.shadowSend t) s fun d' => (d'.tile t).wvl.shadowQ = [] ∧
      (s.dev.routeAlt (fld (x.reg Reg.WVL_SHADOW) 16 16) = none →
        d' = d.modTile t fun x => x.count Reg.MESH_RPT_MISS (s.dev.tile t).wvl.shadowQ.length) ∧
      ∀ a, s.dev.routeAlt (fld (x.reg Reg.WVL_SHADOW) 16 16) = some a → d' = d.tileSend t (fld (x.reg Reg.WVL_SHADOW) 16 16) a
        { packet0 with dtile := BitVec.ofNat 11 t, vc := 3, kind := 3, sflow := 1024 } (x.wvl.shadowQ.map ShadowRec.words)) ∧
    (∀ (src : BitVec 12) (q : ShadowRec) (k : Packet), (s.dev.unitPkt t 3 fun k => decide (k.srcdev = src)) = some k → k.shadow = q → (q.kind = 2 → Completes (.shadowRecordArrival t src q) s fun d' =>
        (d'.tile t).reg Reg.WVL_SHSTEP = q.value ∧ d'.out = s.dev.out ++ [.shadowAck t src q.value]) ∧
      (q.kind = 0 → q.offset.toNat + 16 * cnt0 q.len.toNat 4096 ≤ x.shBytes → x.shBase + x.shBytes ≤ Config.spadBytes →
        Completes (.shadowRecordArrival t src q) s fun d' => d'.out = s.dev.out ∧
          ∀ i, i < 16 * cnt0 q.len.toNat 4096 → Memory.read (d'.tile t).spad (x.shBase + q.offset.toNat + i) = q.data.getD i 0)) ∧
    (∀ step, Completes (.shadowAckArrival t step) s fun d' => d' = s.dev.setTile t (x.setReg Reg.WVL_SHACK step)) ∧
    (x.shWaits = true → Completes (.shadowAckTimeout t) s fun d' => (d'.tile t).wvl.shadowQ = [] ∧
      bit ((d'.tile t).reg Reg.WVL_SHADOW) 0 = false ∧ bit ((d'.tile t).reg Reg.WVL_ERR) 22 = true)

/-! ### Programs and the step sequencer (09, 10) -/

/-- Programs (R229 to R235, 16 R379): a load that passes the checks of Table 9.3, of a tier without wrong bits, leaves its region STOPPED with its place, extent map and configuration
signature; an unload empties the region and halts its tiles; ROUTE_SELECT makes the listed alternates active and no other. -/
def Obligations.ProgramsLoadAndUnload : Prop :=
  ∀ (s : State) (m : Nat),
    (∀ (q : LoadReq) (p : Prog) (ss : List Sect), q.r < Config.nRegions → s.dev.jReady = true → HostReady s m 0x0300 → q.dmaFail = none → q.model = none →
      s.dev.wt.weak = [] → s.dev.loadCheck q false = (St.OK, some (p, ss)) → Completes (.regionLoad m q) s fun d' => Replied m St.OK s.dev d' ∧
        (d'.region q.r).st = .stopped ∧ (d'.region q.r).b0 = q.b0 ∧ (d'.region q.r).c0 = q.c0 ∧ (d'.region q.r).h = p.h ∧ (d'.region q.r).w = p.w ∧
        (d'.region q.r).load = some q ∧ d'.reg (Reg.HOST_CFGSIG + 8 * q.r) = s.dev.cfgSig q p.ndev ∧ d'.reg (Reg.SRV_LAST + 8 * q.r) = 0 ∧
        d'.reg (Reg.WT_XMAP + 8 * q.r) = s.dev.xmapOf q.r ss ∧ ∀ k, k ≠ q.r → (d'.region k).st = (s.dev.region k).st) ∧
    (∀ r, HostReadyR s m 0x0301 r → (s.dev.region r).st = .stopped ∨ (s.dev.region r).st = .fault → s.dev.swapArmed r = false →
      Completes (.regionUnload m r) s fun d' => Replied m St.OK s.dev d' ∧ (d'.region r).st = .empty ∧ d'.reg (Reg.HOST_CFGSIG + 8 * r) = 0 ∧
        d'.reg (Reg.WT_XMAP + 8 * r) = 0xFFFFFFFFFFFFFFF ∧ (∀ k ∈ (s.dev.region r).routes, d'.route k = RouteEnt.reset) ∧
        ∀ t ∈ (s.dev.region r).tileList, (d'.tile t).scb.mode = .halted ∧ (d'.tile t).reg Reg.MESH_REGION = 0x7F) ∧
    ∀ sel : List RouteSel, HostReady s m 0x0500 → (∀ e ∈ sel, e.entry < 4096 ∧ e.alt.toNat < (s.dev.route e.entry).nalt) →
      (sel.map fun e => e.entry).Nodup → Completes (.routeSelect m sel) s fun d' => Replied m St.OK s.dev d' ∧
        (∀ e ∈ sel, d'.route e.entry = { s.dev.route e.entry with active := e.alt.toNat }) ∧
        ∀ k, k ∉ (sel.map fun e => e.entry) → d'.route k = s.dev.route k

/-- Host rings (R242 to R244, 17 R391): RING_CONFIG puts an empty ring in place, the doorbell and the index word set the host's indices, and merged
interrupts are sent as one. -/
def Obligations.HostRingsFollowTheirIndices : Prop :=
  (∀ (s : State) (m pair : Nat) (g : RingDesc), HostReadyM s m 0x0400 (fun x => decide (RingDesc.ofBytes x.payload = g)) → pair < Config.nPairs → RingDesc.bad g = false →
    (g.kind ≠ 0 → ∀ p, s.dev.pairOf g.region.toNat g.kind.toNat = some p → p = pair) →
    ((s.dev.ring pair).d.kind ≠ 0 → (s.dev.region (s.dev.ring pair).d.region.toNat).serving = false) →
    Completes (.ringConfig m pair g) s fun d' => Replied m St.OK s.dev d' ∧ (g.kind ≠ 0 → (d'.ring pair).d = g) ∧ (g.kind = 0 → (d'.ring pair).d.kind = 0) ∧
      (d'.ring pair).h2dProd = 0 ∧ (d'.ring pair).h2dCons = 0 ∧ (d'.ring pair).d2hProd = 0 ∧ (d'.ring pair).d2hCons = 0 ∧
      ∀ p, p ≠ pair → d'.ring p = s.dev.ring p) ∧
  ∀ (s : State) (pair : Nat) (idx : W32), pair < Config.nPairs →
    (Completes (.ringDoorbell pair idx) s fun d' => d'.ring pair = { s.dev.ring pair with h2dProd := idx } ∧ ∀ p, p ≠ pair → d'.ring p = s.dev.ring p) ∧
    (Completes (.d2hConsumerIndex pair idx) s fun d' => (d'.ring pair).d2hCons = idx) ∧
    ((s.dev.ring pair).irq ≠ 0 → s.dev.elapsed < (s.dev.ring pair).irqAt → Completes (.ringInterruptModeration pair) s fun d' => d' = s.dev) ∧
    ((s.dev.ring pair).irq ≠ 0 → (s.dev.ring pair).irqAt ≤ s.dev.elapsed → (s.dev.ring pair).d.vector.toNat < 2048 → bit (s.dev.msixByte (16 * (s.dev.ring pair).d.vector.toNat + 12)) 0 = false →
      Completes (.ringInterruptModeration pair) s fun d' => (d'.ring pair).irq = 0 ∧ d'.out = s.dev.out ++ [.msix (s.dev.ring pair).d.vector.toNat])

/-- The way of a step to its start (R246 to R256): the descriptor that arrives is held; a checked step is admitted or waits, with the cause of every
entry (an entry with MASK set has cause 1, one of a cancelled slot has some cause) and the rest of each entry kept; STEP_START runs it. -/
def Obligations.StepIsFetchedAdmittedAndStarted : Prop :=
  ∀ (s : State) (r : Nat), r < Config.nRegions → let x := s.dev.region r
    (∀ i, s.dev.dmaOut (.step r) = true → x.st = .running → x.fetched = none → Completes (.stepDescriptorFetch r i) s fun d' =>
      d'.region r = { x with fetched := some i } ∧ d'.dmaOut (.step r) = false) ∧
    (∀ i, x.ready = true → x.fetched = some i → s.dev.stepCheck r i = St.OK → s.dev.ingMissing r i = false → bit i.flags 0 = false →
      Completes (.stepAdmission r) s fun d' => (d'.region r).fetched = none ∧ ∃ a, (d'.region r).adm = some a ∧
        ((d'.region r).phase = .admitted ∨ a.waiting = true) ∧ a.inp.step = i.step ∧ a.inp.rag.length = min i.nent.toNat i.rag.length ∧
        ∀ k, k < a.inp.rag.length → ragSlot (a.inp.rag.getD k 0) = ragSlot (i.rag.getD k 0) ∧ ragTenant (a.inp.rag.getD k 0) = ragTenant (i.rag.getD k 0) ∧
          (bit (i.rag.getD k 0) 78 = true → ragCause (a.inp.rag.getD k 0) = 1) ∧
          ((s.dev.slot (ragSlot (i.rag.getD k 0))).st = .cancelled → ragCause (a.inp.rag.getD k 0) ≠ 0)) ∧
    ∀ a, x.adm = some a → s.dev.group r = [] →
      (x.phase = .admitted → x.st = .running → x.reload = false → s.dev.swapHolds r = false → Completes (.stepStart r) s fun d' =>
        (d'.region r).phase = .running ∧ (d'.region r).rerun = 0 ∧ (d'.region r).adm = some a ∧ ∀ t ∈ x.tileList,
          (d'.tile t).reg Reg.SCB_STEP = a.inp.step ∧ (d'.tile t).reg Reg.SCB_RERUN = 0 ∧
          ((s.dev.tile t).scb.mode = .wait → (d'.tile t).scb.mode = .run)) ∧
      (x.phase = .aborted → s.dev.undrained r = false → Completes (.stepRerunStart r) s fun d' =>
        (d'.region r).phase = .running ∧ (d'.region r).rerun = x.rerun + 1 ∧ (d'.region r).adm = some a)

/-- The end of a step (R257 to R263, 01 R18): a boundary commits the step, a record is written to the EGRESS ring, a wait that expires under TRUNCATE
cuts the payload, and an abort leaves every tile without work, with the step to run again or FAULT. -/
def Obligations.StepCommitsOrAborts : Prop :=
  ∀ (s : State) (r : Nat), r < Config.nRegions → let x := s.dev.region r
    (∀ a, x.adm = some a → x.phase = .running → ParityGood s.dev → (∀ t ∈ x.tileList, s.dev.tileDone t = true ∧ (s.dev.tile t).shadowDue = false) → x.toks = [] →
      Completes (.stepBoundary r) s fun d' => (d'.region r).adm = none ∧ (d'.region r).phase = .idle ∧ d'.reg (Reg.SRV_LAST + 8 * r) = a.inp.step ∧
        (x.st = .stopping → (d'.region r).st = .stopped)) ∧
    (∀ k rest p bufs, x.toks = k :: rest → s.dev.pairOf r rkEGRESS = some p → x.fins = [] →
      (k.payload = [] → (s.dev.ring p).room = true → Completes (.tokenRecordWrite r bufs) s fun d' => (d'.region r).toks = rest ∧
        (d'.ring p).d2hProd = (s.dev.ring p).d2hProd + 1 ∧ .dmaWrite ((s.dev.ring p).d.d2hBase.toNat + 32 * ((s.dev.ring p).d2hProd.toNat % (s.dev.ring p).d2hSize))
          (slice k.bytes 0 31 ++ [BitVec.ofNat 8 (128 * (((s.dev.ring p).d2hProd.toNat / (s.dev.ring p).d2hSize + 1) % 2))]) ∈ d'.out) ∧
      (k.payload ≠ [] → (s.dev.ring p).posted = 0 → (s.dev.ring p).d.rxWait ≠ 0xFFFFFFFF → bit (s.dev.ring p).d.flags 0 = false →
        Completes (.rxWaitExpiry r) s fun d' => (d'.region r).toks = { k with payload := [], status := St.TRUNCATED } :: rest)) ∧
    ∀ a, x.phase = .running → x.adm = some a →
      (x.rerun < 2 → Completes (.stepAbort r true) s fun d' => (d'.region r).phase = .aborted ∧ (d'.region r).adm = some a ∧
        ∀ t ∈ x.tileList, (d'.tile t).scb.mode ≠ .run ∧ (d'.tile t).acwQ = [] ∧ (d'.tile t).vecQ = []) ∧
      Completes (.stepAbort r false) s fun d' => (d'.region r).st = .fault ∧ (d'.region r).adm = none ∧
        ∀ t ∈ x.tileList, (d'.tile t).scb.mode ≠ .run ∧ (d'.tile t).acwQ = [] ∧ (d'.tile t).vecQ = []

/-- Region commands (R265 to R267): START, STOP, RESUME and ABORT take the region to RUNNING, STOPPED or STOPPING, RUNNING, and STOPPED. -/
def Obligations.RegionCommandsMoveTheState : Prop :=
  ∀ (s : State) (m r : Nat), let x := s.dev.region r
    (HostReadyR s m 0x0401 r → x.st = .stopped → s.dev.pairOf r rkSTEP ≠ none → s.dev.pairOf r rkEGRESS ≠ none → x.holds (s.dev.etile r) = true →
      s.dev.rtline r + cdiv (s.dev.nmax r) 4 ≤ Config.spadLines → s.dev.egline r + 2 * cdiv (s.dev.nmax r) 2 ≤ Config.spadLines →
      Completes (.regionStart m r) s fun d' => Replied m St.OK s.dev d' ∧ d'.region r = { x with st := .running }) ∧
    (HostReadyR s m 0x0402 r → x.st = .running ∨ x.st = .held →
      (x.adm = none → x.stopM = [] → Completes (.regionStop m r) s fun d' => Replied m St.OK s.dev d' ∧ (d'.region r).st = .stopped ∧ (d'.region r).fetched = none) ∧
      (x.adm ≠ none → Completes (.regionStop m r) s fun d' => (d'.region r).st = .stopping ∧ (d'.region r).stopM = x.stopM ++ [m])) ∧
    (HostReadyR s m 0x0403 r → x.st = .held → Completes (.regionResume m r) s fun d' => Replied m St.OK s.dev d' ∧ d'.region r = { x with st := .running }) ∧
    (HostReadyR s m 0x0404 r → x.st ≠ .empty → x.cancels = [] → x.stopM = [] → Completes (.regionAbort m r) s fun d' => Replied m St.OK s.dev d' ∧
      (d'.region r).st = .stopped ∧ (d'.region r).adm = none ∧ ∀ t ∈ x.tileList, (d'.tile t).acwQ = [] ∧ (d'.tile t).vecQ = [])

/-- Sequences and tenants (R250, R253, R254, R264, 15 R355): CANCEL masks the slot at once or is held for the step that names it, RESET opens it,
ROLLBACK cuts its length and frees the pages beyond, and the tenant commands set, credit and show a balance. -/
def Obligations.SequenceAndTenantCommands : Prop :=
  ∀ (s : State) (m r : Nat),
    (∀ slot : BitVec 16, HostReadyR s m 0x0405 r → slot ≠ 0xFFFF →
      ((s.dev.region r).namesSlot slot.toNat = false → (s.dev.slot slot.toNat).st ≠ .complete → Completes (.seqCancel m r slot) s fun d' =>
        Replied m St.OK s.dev d' ∧ d'.slot slot.toNat = { s.dev.slot slot.toNat with st := .cancelled } ∧ ∀ k, k ≠ slot.toNat → d'.slot k = s.dev.slot k) ∧
      ((s.dev.region r).namesSlot slot.toNat = true → Completes (.seqCancel m r slot) s fun d' =>
        (d'.region r).cancels = (s.dev.region r).cancels ++ [(m, slot.toNat)])) ∧
    (∀ slot : BitVec 16, HostReady s m 0x0406 → slot ≠ 0xFFFF → (∀ e ∈ s.dev.regions, e.2.namesSlot slot.toNat = false) →
      Completes (.seqReset m slot) s fun d' => Replied m St.OK s.dev d' ∧ d'.slot slot.toNat = ⟨.open_, false⟩ ∧ ∀ k, k ≠ slot.toNat → d'.slot k = s.dev.slot k) ∧
    (∀ (slot : BitVec 16) (n h : Nat), HostReadyR s m 0x0407 r → (s.dev.region r).st = .stopped ∨ (s.dev.region r).st = .fault →
      s.dev.homeOf r slot.toNat = some h → n ≤ (s.dev.tile h).clen slot.toNat → Completes (.seqRollback m r slot n) s fun d' => Replied m St.OK s.dev d' ∧
        (d'.tile h).clen slot.toNat = n ∧ ∀ pg, cdiv n (s.dev.tile h).kvPpp ≤ pg → pg < (s.dev.tile h).dirLen → pteV ((d'.tile h).pte slot.toNat pg) = false) ∧
    ∀ k : BitVec 16,
      (∀ balance pcost tcost, HostReady s m 0x0408 → Completes (.tenantSet m k balance pcost tcost) s fun d' => Replied m St.OK s.dev d' ∧
        d'.tenant k.toNat = ⟨balance, pcost, tcost, []⟩ ∧ ∀ j, j ≠ k.toNat → d'.tenant j = s.dev.tenant j) ∧
      (∀ amount : BitVec 48, HostReady s m 0x0409 → Completes (.tenantCredit m k amount) s fun d' => Replied m St.OK s.dev d' ∧
        d'.tenant k.toNat = { s.dev.tenant k.toNat with balance := BitVec.ofNat 48 (min ((s.dev.tenant k.toNat).balance.toNat + amount.toNat) (2 ^ 48 - 1)) } ∧
        ∀ j, j ≠ k.toNat → d'.tenant j = s.dev.tenant j) ∧
      (HostReady s m 0x040A → Completes (.tenantQuery m k) s fun d' => Replied m St.OK s.dev d' ∧ d'.mbNat m 32 8 = (s.dev.tenant k.toNat).balance.toNat ∧
        ∀ j, d'.tenant j = s.dev.tenant j)

/-! ### Fabric ports (12) -/

/-- Link frames (R289 to R292, R295): the header flit holds every field of a header; a frame as it is sent checks and gives its FSEQ and slots back; a frame
that checks and follows the last one is taken, and the last flit of a packet for this device completes it; a frame that fails is counted and flagged; a
credit update names the last frame and the free buffer. A slot of PORT_SLOTCFG begins (R296): the first VC0 packet of the source it names may start. -/
def Obligations.LinkFramesAndPortSlots : Prop :=
  (∀ k : Packet, Packet.ofHead k.head = k.hdr) ∧
  (∀ (p : Nat) (seq : BitVec 16) (sl : List (Nat × BitVec 512)) (a b : Nat), sl.length = frameSlots p → (∀ c ∈ sl, c.1 < 16) →
    let fr : LinkFrame := ⟨frameBytes p seq sl, a, b⟩
    fr.crcOk p = true ∧ fr.fseq = seq ∧ fr.slots p = sl) ∧
  (∀ (s : State) (p : Nat) (fr : LinkFrame), p < Config.nPorts → s.dev.portCarries p = true → let x := s.dev.port p
    (fr.crcOk p = true → (optical p = true → fr.fecUncorr = 0) → (∀ q, x.rxSeq = some q → fr.fseq = q) →
      (fr.reserved p = false → Completes (.linkFrameArrival p fr) s fun d' => (d'.port p).rxSeq = some (fr.fseq + 1) ∧ (d'.port p).taken = fr.fseq) ∧
      ∀ (v : BitVec 2) (f : Flight) (ws : List W128), fr.slots p = (12 + v.toNat, BitVec.ofNat 512 (leNat (ofWords ws))) :: List.replicate (frameSlots p - 1) (0, 0) →
        ws.length = 4 → s.dev.flying = [f] → f.at_ relay p v = true → f.outs = some [⟨outHere, f.pkt.hdr, f.pkt.got, false⟩] → f.pkt.got + 1 = f.pkt.flits →
        f.pkt.words.length % 4 = 0 → f.pkt.mcast = false → f.pkt.ddev = s.dev.id → f.pkt.e2e = true →
        Completes (.linkFrameArrival p fr) s fun d' => d'.rxIn = s.dev.rxIn ++ [{ f.pkt with words := f.pkt.words ++ ws }] ∧ d'.flying = []) ∧
    (fr.crcOk p = false → Completes (.linkFrameArrival p fr) s fun d' => bit (d'.reg (Reg.PORT_ERR + 0x200 * p)) 0 = true ∧
      fld (d'.reg (Reg.PORT_CNT + 0x200 * p)) 0 32 = min (fld (s.dev.reg (Reg.PORT_CNT + 0x200 * p)) 0 32 + 1) (2 ^ 32 - 1)) ∧
    (s.dev.creditDue p = true → s.dev.flying = [] → Completes (.creditUpdateSend p) s fun d' =>
      d'.out = s.dev.out ++ [.portOut p (frameBytes p x.txSeq ((1, s.dev.creditSlot p) :: List.replicate (frameSlots p - 1) (0, 0)))] ∧
      (d'.port p).txSeq = x.txSeq + 1 ∧ (d'.port p).credSent = s.dev.rxFrees p)) ∧
  ∀ (s : State) (p n src : Nat) (h : Nat × Flight × Copy), p < Config.nPorts → s.dev.portCarries p = true → s.dev.portSlots p = true →
    s.dev.portClock = some n → n % s.dev.portSlotNs p = 0 → s.dev.portSrc p = some src → let hs := heads s.dev.flying relay p 0
    (∀ g ∈ hs, g.2.2.go = false) → (hs.find? fun h => decide (h.2.1.inp = src)) = some h →
    Completes (.portSlotStart p) s fun d' =>
      d' = { s.dev with flying := s.dev.flying.modify h.1 fun f => f.modCopy p fun c => { c with go := true } }

/-- The end-to-end layer (R299 to R304): the packet a receiver expects is accepted and given to its gateway, an acknowledgement covers it, a source
frees the copies an ACK covers and resends from the sequence a NAK or a timeout names, and a silent receive entry is freed. -/
def Obligations.EndToEndFlowsAcceptAckAndResend : Prop :=
  (∀ (s : State) (k : Packet) (f : RxFlow), s.dev.rxNext k = some k → s.dev.rxFlow k.flow = some f → k.crcOk = true → k.flowseq = f.x → k.dtile.toNat ≠ 0x7FF →
    Completes (.e2ePacketArrival k) s fun d' => d'.gwIn = s.dev.gwIn ++ [(k.gateway, { k with hopptr := k.hops })] ∧
      ∃ g, d'.rxFlow k.flow = some g ∧ g.x = k.flowseq + 1) ∧
  (∀ (s : State) (k : FlowKey) (f : RxFlow), s.dev.rxFlow k = some f →
    (f.unacked ≠ 0 → f.oldest + 2000 ≤ s.dev.now → Completes (.ackSend k) s fun d' => ∃ g, d'.rxFlow k = some g ∧ g.unacked = 0 ∧ g.x = f.x) ∧
    (f.unacked = 0 → f.last + 1000000 ≤ s.dev.now → Completes (.flowEntryExpiry k) s fun d' => d'.rxFlow k = none ∧
      ∀ j, j ≠ k → d'.rxFlow j = s.dev.rxFlow j)) ∧
  ∀ (s : State) (f : FlowKey) (n : W32) (src : BitVec 12), s.dev.ownFlow f = true →
    (∀ k, s.dev.nakNext f 0 n src = some k → (∀ h ∈ s.dev.heldOf f, h.pkt.mcast = false) → f.tile = 0x7FF ∨ (s.dev.tile f.tile.toNat).txWait = [] →
      Completes (.ackArrival f n src) s fun d' => d'.heldOf f = (s.dev.heldOf f).filter fun h => !flowLe h.seq n) ∧
    (∀ k, s.dev.nakNext f 1 n src = some k → (s.dev.tile f.tile.toNat).parInv = [] → f.tile ≠ 0x7FF → Completes (.nakArrival f n src) s fun d' =>
      d'.reg Reg.PORT_RESEND = addCnt (s.dev.reg Reg.PORT_RESEND) 0 64 ((s.dev.heldOf f).filter fun h => flowLe n h.seq).length ∧
      (∀ h rest, s.dev.heldOf f = h :: rest → d'.flying = s.dev.flying ++
        ((s.dev.heldOf f).filter fun g => flowLe n g.seq).map fun g => ⟨f.tile.toNat, 4, s.dev.resent g h.seq, none⟩)) ∧
    ∀ h rest, s.dev.heldOf f = h :: rest → h.sent + s.dev.rto ≤ s.dev.now → (s.dev.txFlow f).timeouts + 1 < s.dev.breakN →
      Completes (.resendTimeout f) s fun d' => (d'.txFlow f).timeouts = (s.dev.txFlow f).timeouts + 1

/-- Port states (R298, R305 to R307): a disabled port that is enabled trains, trained it is UP, without training in time or without a signal it is DOWN,
with too many drops DEGRADED, and a disabled one discards what waits and ends DISABLED. -/
def Obligations.PortsTrainServeAndStop : Prop :=
  ∀ (s : State) (p : Nat), p < Config.nPorts → let st := s.dev.portState p
    (st = 0 → optical p = false ∨ s.dev.pwr.optEn = true → Completes (.portEnable p) s fun d' => d'.portEn p = true ∧ d'.portState p = 1) ∧
    (∀ narrow margin, st = 1 ∨ st = 4 → s.dev.portEn p = true → (s.dev.port p).idling = false →
      (narrow = true → optical p = false ∧ bit (s.dev.reg (Reg.PORT_CTL + 0x200 * p)) 1 = true) → Completes (.trainingComplete p narrow margin) s fun d' =>
        d'.portState p = 2 ∧ fld (d'.reg (Reg.PORT_STATUS + 0x200 * p)) 3 4 = (if narrow then 4 else 8) ∧
        d'.port p = { Port.reset with credAt := s.dev.elapsed }) ∧
    (s.dev.portEn p = true → st = 1 ∨ st = 4 → Completes (.trainingTimeout p) s fun d' => d'.portState p = 4 ∧ bit (d'.reg (Reg.PORT_ERR + 0x200 * p)) 1 = true) ∧
    (s.dev.portEn p = true → Completes (.portDisable p) s fun d' => d'.portEn p = false ∧ (st ≠ 0 → (d'.port p).idling = true ∧
      ∀ f ∈ d'.flying, f.node = relay → ∀ c, f.copyTo p = some c → c.sent ≠ 0)) ∧
    ((s.dev.port p).idling = true → s.dev.portBusy p = false → s.dev.portEn p = false → Completes (.portIdleDone p) s fun d' =>
      d'.portState p = 0 ∧ d'.port p = { Port.reset with credAt := s.dev.elapsed }) ∧
    (st = 2 → fld (s.dev.reg (Reg.PORT_CTL + 0x200 * p)) 16 16 ≠ 0 →
      fld (s.dev.reg (Reg.PORT_CTL + 0x200 * p)) 16 16 < ((s.dev.port p).drops.filter fun t => decide (s.dev.now < t + 1000000000)).length →
      Completes (.errlimCheck p) s fun d' => d'.portState p = 3 ∧ bit (d'.reg (Reg.PORT_ERR + 0x200 * p)) 2 = true) ∧
    (s.dev.portUp p = true → Completes (.lossOfSignal p) s fun d' => d'.portState p = 4) ∧
    (s.dev.stalled p = true → Completes (.creditStall p) s fun d' =>
      bit (d'.reg (Reg.PORT_ERR + 0x200 * p)) 3 = true)

/-! ### Cicada (13) -/

namespace Sys2Proof.Claims

/-- The first good copy of a frame of type `ty` from another device, at a device that does not hand the master over on it (R313, R318). -/
def FirstCopy (ty : Byte) (fr : RingFrame) (d : Dev) : Prop :=
  fr.type = ty ∧ fr.crcOk = true ∧ fr.src ≠ d.id ∧ (d.cicBit 2 = false ∨ d.outranks fr.src d.id = false) ∧
  ∀ e ∈ d.cic.seen, e.1 = fr.src.toNat → e.2.1 = fr.fid.toNat → e.2.2 + 1000000 ≤ d.elapsed

/-- Field [lo+len-1 : lo] of device register `a` counts one event and stops at all ones (00 R6). -/
def Counts (a lo len : Nat) (d d' : Dev) : Prop := fld (d'.reg a) lo len = min (fld (d.reg a) lo len + 1) (2 ^ len - 1)

end Sys2Proof.Claims

/-- Cicada time (R309, R310, R320 to R323): a tick adds one ns, no view decreases, CIC_SET writes an unjoined idle device's time; CIC_FSW arms a switch
and FREQUENCY_SWITCH makes its code the current one; a stretch is counted and a margin sample lowers the least slacks. -/
def Obligations.CicadaTimeAndFrequency : Prop :=
  ∀ s : State,
    (s.dev.cic.slew = 0 → s.dev.cic.frac < 64 → Completes .cicadaTick s fun d' => d'.now = (s.dev.now + 1) % 2 ^ 64 ∧ d'.cic.frac = s.dev.cic.frac ∧
      d'.aon.since = s.dev.aon.since + 1 ∧ ∀ n, SMap.get (fun _ => 0) s.dev.cic.views n ≤ SMap.get (fun _ => 0) d'.cic.views n) ∧
    (s.dev.countMode = true → s.dev.now % 1024 = 0 → Completes .viewReload s fun d' => ∀ n, n < Config.nHalfBenches →
      SMap.get (fun _ => 0) d'.cic.views n = max (SMap.get (fun _ => 0) s.dev.cic.views n) s.dev.now ∧
      (s.dev.now < SMap.get (fun _ => 0) s.dev.cic.views n → d'.cic.viewHold.contains n = true)) ∧
    (∀ v : W64, s.dev.cicBit 0 = false → s.dev.loaded = [] → Completes (.cicSet v) s fun d' => d'.reg Reg.CIC_TIME = v ∧ d'.cic.frac = 0 ∧
      ∀ a, a ≠ Reg.CIC_TIME → d'.reg a = s.dev.reg a) ∧
    (∀ (code : BitVec 6) (scope : Bool), code.toNat ≤ 28 → s.dev.now + (if scope then 50000 else 20000) ≤ (s.dev.reg Reg.CIC_FSW_TIME).toNat →
      Completes (.cicFsw code scope) s fun d' => d'.cic.fsw = some ((s.dev.reg Reg.CIC_FSW_TIME).toNat, code.toNat) ∧ bit (d'.reg Reg.CIC_FSW) 7 = true ∧
        fld (d'.reg Reg.CIC_FSW) 0 6 = code.toNat ∧ d'.freqCode = s.dev.freqCode) ∧
    (∀ (code : BitVec 6) (scope : Bool), 28 < code.toNat ∨ (s.dev.reg Reg.CIC_FSW_TIME).toNat < s.dev.now + (if scope then 50000 else 20000) →
      Completes (.cicFsw code scope) s fun d' => d'.cic = s.dev.cic ∧ bit (d'.reg Reg.CIC_ERR) (if 28 < code.toNat then 4 else 3) = true ∧
        ∀ a, a ≠ Reg.CIC_ERR → d'.reg a = s.dev.reg a) ∧
    (∀ t code, s.dev.cic.fsw = some (t, code) → t ≤ s.dev.now → code < 64 → Completes .frequencySwitch s fun d' =>
      d'.freqCode = code ∧ d'.cic.fsw = none ∧ bit (d'.reg Reg.CIC_FSW) 7 = false) ∧
    ∀ n, n < Config.nHalfBenches →
      (∀ e, 1 ≤ e → e ≤ 3 → Completes (.cycleStretch n e) s fun d' => OnlyReg (Reg.CIC_RSTAT + 8 * n) s.dev d' ∧ Counts (Reg.CIC_RSTAT + 8 * n) (16 * (e - 1)) 16 s.dev d') ∧
      ∀ slack : W32, Completes (.marginSample n slack) s fun d' => OnlyReg (Reg.CIC_MARGIN + 8 * n) s.dev d' ∧ ∀ m, m < 4 →
        fld (d'.reg (Reg.CIC_MARGIN + 8 * n)) (8 * m) 8 = min (fld (s.dev.reg (Reg.CIC_MARGIN + 8 * n)) (8 * m) 8) (fld slack (8 * m) 8)

/-- Ring frames (R313 to R322): a frame whose CRC fails has no effect and is counted; the first good copy of a MARK corrects the counter and locks the time after three good marks, FREQ arms a switch, BARRIER
counts an arrival, JOIN_AT, LEAVE_AT and MEASURE_AT set their times, MASTER names the master. -/
def Obligations.RingFramesTakeEffectOnce : Prop :=
  ∀ (s : State) (fr : RingFrame),
    (FirstCopy ftMARK fr s.dev → s.dev.cicBit 0 = true → s.dev.cicBit 2 = false → s.dev.cicBit 3 = false → ∀ (arr dwell : Nat),
      let off : Int := countDiff (64 * ringU64 fr 0 + rdNat fr.payload 8 4) (s.dev.count64 + arr % 64)
      (s.dev.cicBit 1 = true → off.natAbs ≤ 1024 → Completes (.mark fr arr dwell) s fun d' => d'.cic.slew = off ∧
        d'.reg Reg.CIC_OFFSET = BitVec.ofNat 64 (BitVec.ofInt 32 off).toNat ∧ d'.masterId = fr.src) ∧
      (s.dev.cicBit 1 = false → off.natAbs ≤ 128 → s.dev.cic.good = 2 → Completes (.mark fr arr dwell) s fun d' => d'.cicBit 1 = true)) ∧
    (FirstCopy ftFREQ fr s.dev → rdNat fr.payload 8 1 % 64 ≤ 28 → s.dev.now + 20000 ≤ ringU64 fr 0 → Completes (.freq fr) s fun d' =>
      d'.cic.fsw = some (ringU64 fr 0, rdNat fr.payload 8 1 % 64) ∧ bit (d'.reg Reg.CIC_FSW) 7 = true) ∧
    (∀ k, FirstCopy ftBARRIER fr s.dev → rdNat fr.payload 0 4 ≠ 0 → s.dev.barEntry (rdNat fr.payload 0 4) = some k → Completes (.barrier fr) s fun d' =>
      Counts (Reg.CIC_BAR + 8 * k) 44 12 s.dev d' ∧ fld (d'.reg (Reg.CIC_BAR + 8 * k)) 0 44 = fld (s.dev.reg (Reg.CIC_BAR + 8 * k)) 0 44) ∧
    (FirstCopy ftJOIN_AT fr s.dev → rdNat fr.payload 8 2 % 4096 = s.dev.id.toNat → Completes (.joinAt fr) s fun d' =>
      d'.cic.tJ = some (ringU64 fr 0) ∧ (ringU64 fr 0 - 1000, ringU64 fr 0 + 5000) ∈ d'.cic.quiet) ∧
    (FirstCopy ftLEAVE_AT fr s.dev → rdNat fr.payload 8 2 % 4096 = s.dev.id.toNat → Completes (.leaveAt (.frame fr)) s fun d' =>
      d'.cic.tL = some (ringU64 fr 0) ∧ (ringU64 fr 0 - 1000, ringU64 fr 0 + 5000) ∈ d'.cic.quiet) ∧
    (FirstCopy ftMEASURE_AT fr s.dev → Completes (.measureAt fr) s fun d' => d'.cic.tW = some (ringU64 fr 0) ∧
      (ringU64 fr 0, ringU64 fr 0 + 4000) ∈ d'.cic.quiet) ∧
    (FirstCopy ftMASTER fr s.dev → Completes (.master (.frame fr)) s fun d' => d'.masterId = BitVec.ofNat 12 (rdNat fr.payload 0 2) ∧
      d'.cicBit 2 = decide (BitVec.ofNat 12 (rdNat fr.payload 0 2) = s.dev.id)) ∧
    (fr.type = ftFREQ → fr.crcOk = false → Completes (.freq fr) s fun d' => d'.cic.fsw = s.dev.cic.fsw ∧ bit (d'.reg Reg.CIC_ERR) 0 = true ∧
      fld (d'.reg Reg.CIC_RINGCNT) 32 32 = min (fld (s.dev.reg Reg.CIC_RINGCNT) 32 32 + 1) (2 ^ 32 - 1))

/-- Membership of the ring (R311 to R318): what the master sends, when the bypass opens and closes, what a window measures, who takes over, HOLDOVER, and
how a device joins and leaves. -/
def Obligations.RingMembershipChanges : Prop :=
  ∀ s : State,
    (s.dev.cicBit 0 = true → s.dev.cicBit 2 = true → s.dev.authority = true → s.dev.ringQuiet = false → Completes .markSend s fun d' => d'.out = s.dev.out ++
      [.ring (ringFrame ftMARK s.dev.id s.dev.cic.fid (leBytes 8 s.dev.now ++ leBytes 4 s.dev.outDly))] ∧ d'.cic.fid = s.dev.cic.fid + 1) ∧
    (∀ fr n rest, s.dev.cic.copies = (fr, n) :: rest → s.dev.cicBit 0 = true → s.dev.authority = true → s.dev.ringQuiet = false →
      Completes .frameCopySend s fun d' => d'.out = s.dev.out ++ [.ring fr] ∧ (n = 1 → d'.cic.copies = rest)) ∧
    (∀ t half, s.dev.cic.tW = some t → s.dev.cicBit 0 = true → t + 4000 ≤ s.dev.now → Completes (.measurementWindow half) s fun d' =>
      d'.cic.tW = none ∧ d'.cic.measured = true ∧ d'.outDly = half % 2 ^ 32) ∧
    (∀ t, s.dev.cic.tJ = some t → t ≤ s.dev.now → bit (s.dev.reg Reg.CIC_CTL) 1 = true → Completes .bypassOpen s fun d' =>
      d'.aon.bypass = false ∧ d'.cicBit 0 = true ∧ d'.cic.tJ = none) ∧
    (∀ t, s.dev.cic.tJ = some t → t ≤ s.dev.now → bit (s.dev.reg Reg.CIC_CTL) 1 = false → Completes .bypassOpen s fun d' =>
      d'.aon.bypass = s.dev.aon.bypass ∧ d'.regs = s.dev.regs ∧ d'.cic.tJ = none) ∧
    (∀ t, s.dev.cic.tL = some t → t ≤ s.dev.now → Completes .bypassClose s fun d' =>
      d'.aon.bypass = true ∧ d'.cicBit 0 = false ∧ d'.cicBit 2 = false ∧ d'.cic.tL = none) ∧
    (∀ highest, (s.dev.cicBit 0 = false → bit (s.dev.reg Reg.CIC_CTL) 1 = true → Completes (.markTimeout highest) s fun d' =>
        d'.aon.bypass = false ∧ d'.cicBit 0 = true ∧ d'.masterId = s.dev.id ∧ d'.cicBit 2 = true) ∧
      (s.dev.cicBit 0 = true → s.dev.cicBit 2 = false →
        (highest = true → s.dev.cicBit 1 = true → Completes (.markTimeout highest) s fun d' => d'.masterId = s.dev.id ∧ d'.cicBit 2 = true) ∧
        (highest = false → Completes (.markTimeout highest) s fun d' => bit (d'.reg Reg.CIC_ERR) 7 = true ∧ d'.flt.rseq = s.dev.flt.rseq + 1))) ∧
    (s.dev.cicBit 0 = true → s.dev.cicBit 3 = false → Completes .syncInLos s fun d' => d'.cicBit 3 = true ∧ bit (d'.reg Reg.CIC_ERR) 1 = true) ∧
    (Completes .cicJoinClear s fun d' => bit (d'.reg Reg.CIC_CTL) 1 = false ∧
      (s.dev.cicBit 0 = true → s.dev.cicBit 2 = false → d'.cic.wantLeave = true ∧ d'.out = s.dev.out ++ [.askLeave s.dev.masterId]) ∧
      (s.dev.cicBit 0 = true → s.dev.cicBit 2 = true → d'.cic.tL = some (s.dev.now + 20000))) ∧
    (∀ dev, s.dev.cicBit 0 = true → s.dev.cicBit 2 = true → Completes (.leaveAt (.ask dev)) s fun d' => d'.cic.tW = some (s.dev.now + 21000) ∧
      (s.dev.now + 19000, s.dev.now + 25000) ∈ d'.cic.quiet) ∧
    (∀ dev, s.dev.cicBit 0 = true → s.dev.cicBit 2 = true → dev ≠ s.dev.id → bit (s.dev.reg Reg.CIC_CTL) 2 = false →
      Completes (.master (.pref dev true)) s fun d' => d'.masterId = dev ∧ d'.cicBit 2 = false) ∧
    ∀ m dev, HostReady s m 0x0501 → s.dev.cicBit 0 = true → s.dev.cicBit 2 = true → Completes (.ringAdmit m dev) s fun d' => Replied m St.OK s.dev d' ∧
      d'.cic.tW = some (s.dev.now + 21000) ∧ (s.dev.now + 19000, s.dev.now + 25000) ∈ d'.cic.quiet

/-! ### Power (14, 17 R396 to R399) -/

/-- The voltage loop and the ledger (R325 to R332): a rail moves by one step toward its slack target and reports its limit, a sample adds to the energy
counters, a window boundary starts the usage at zero, and window lengths and budgets take effect at a synchronised count. -/
def Obligations.VoltageLoopAndEnergyLedger : Prop :=
  ∀ s : State,
    (∀ n slack, n < Config.nHalfBenches → (∀ e ∈ s.dev.pwr.slewTo, e.1 ≠ n) →
      let v := fld (s.dev.reg (Reg.PWR_VCORE + 8 * n)) 0 8
      let target := fld (s.dev.reg Reg.PWR_AVS) 0 8
      (slack < target → v < 140 → Completes (.avsLoop n slack) s fun d' => d'.reg (Reg.PWR_VCORE + 8 * n) = BitVec.ofNat 64 (v + 1)) ∧
      (target + fld (s.dev.reg Reg.PWR_AVS) 8 8 < slack → 0 < v → Completes (.avsLoop n slack) s fun d' => d'.reg (Reg.PWR_VCORE + 8 * n) = BitVec.ofNat 64 (v - 1)) ∧
      (slack < target → 140 ≤ v → 990 ≤ SMap.get (fun _ => (0 : Nat)) s.dev.pwr.lowUs n → Completes (.avsLoop n slack) s fun d' =>
        bit (d'.reg Reg.PWR_ERR) 2 = true ∧ d'.reg (Reg.PWR_VCORE + 8 * n) = s.dev.reg (Reg.PWR_VCORE + 8 * n) ∧ d'.flt.rseq = s.dev.flt.rseq + 1)) ∧
    (∀ e : EnergySample, Completes (.regionEnergyUpdate e) s fun d' => d'.reg Reg.PWR_DEVE = addCnt (s.dev.reg Reg.PWR_DEVE) 0 64 e.vin ∧
      d'.pwr.uDev = s.dev.pwr.uDev + e.vin ∧ ∀ k, k < 54 → d'.reg (Reg.PWR_RAILE + 8 * k) = addCnt (s.dev.reg (Reg.PWR_RAILE + 8 * k)) 0 64 (e.rails.getD k 0)) ∧
    (s.dev.winStart ≠ s.dev.pwr.winAt →
      Completes .energyWindowBoundary s fun d' => d'.pwr.uDev = 0 ∧ d'.pwr.uReg = [] ∧ d'.pwr.winAt = s.dev.winStart ∧ d'.pwr.recheck = false ∧
        (s.dev.limitW * s.dev.winUs < s.dev.pwr.uDev → Counts Reg.PWR_CNT 32 16 s.dev d')) ∧
    (∀ v : W64, (fld v 0 17 = 0 ∨ (100 ≤ fld v 0 17 ∧ fld v 0 17 ≤ 100000) → Completes (.pwrWinWrite v) s fun d' =>
        d' = { s.dev with pwr := { s.dev.pwr with pend := { s.dev.pwr.pend with win := some (fld v 0 17, s.dev.nextSync) } } }) ∧
      (0 < fld v 0 17 → fld v 0 17 < 100 ∨ 100000 < fld v 0 17 → Completes (.pwrWinWrite v) s fun d' =>
        d' = s.dev.setReg Reg.PWR_ERR (setBit (s.dev.reg Reg.PWR_ERR) 0))) ∧
    ((∀ w t, s.dev.pwr.pend.win = some (w, t) → t ≤ s.dev.now → Completes .synchronisedCount s fun d' => d'.reg Reg.PWR_WIN = BitVec.ofNat 64 w ∧
        d'.reg Reg.PWR_WINBASE = BitVec.ofNat 64 t ∧ d'.pwr.pend.win = none) ∧
      (∀ l t, s.dev.pwr.pend = ⟨none, some (l, t), none, none, none⟩ → t ≤ s.dev.now → l < 4096 → Completes .synchronisedCount s fun d' =>
        d'.limitW = l ∧ d'.pwr.pend = PwrPend.reset)) ∧
    (∀ v : W64, 0 < fld v 0 12 → fld v 0 12 ≤ fld (s.dev.reg Reg.PWR_LIMIT) 16 12 → fld v 28 6 ≤ 28 →
      s.dev.budgetSum Config.nRegions 0 ≤ fld v 0 12 * s.dev.winUs → Completes (.pwrBudgetWrite Reg.PWR_LIMIT v) s fun d' =>
        d'.pwr.pend.limit = some (fld v 0 12, s.dev.nextSync) ∧ fld (d'.reg Reg.PWR_LIMIT) 28 6 = fld v 28 6 ∧ d'.limitW = s.dev.limitW) ∧
    ∀ (r : Nat) (v : W64), r < Config.nRegions → s.dev.budgetSum r (fld v 0 40) ≤ s.dev.limitW * s.dev.winUs →
      Completes (.pwrBudgetWrite (Reg.PWR_REGCFG + 8 * r) v) s fun d' => d' = s.dev.setReg (Reg.PWR_REGCFG + 8 * r) (v &&& 0x1FFFFFFFFFF)

/-- Capping, the trip and the profiles (R333 to R337, 17 R396 to R399): an average above CAP caps and is counted, a junction at 110 °C stops every tile's
clocks and takes every loaded region to FAULT, SET_PROFILE writes a legal record over the older copy under the next SEQ and selects at a synchronised
count; a write torn before its COMMIT leaves the copy in force. -/
def Obligations.CappingTripAndProfiles : Prop :=
  ∀ s : State,
    (∀ avg, fld (s.dev.reg Reg.PWR_LIMIT) 16 12 < avg → Completes (.powerGuard avg) s fun d' => bit (d'.reg Reg.PWR_STATUS) 2 = true ∧
      (bit (s.dev.reg Reg.PWR_STATUS) 2 = true → Counts Reg.PWR_CNT 48 16 s.dev d') ∧
      (bit (s.dev.reg Reg.PWR_STATUS) 2 = false → d'.reg Reg.PWR_CNT = s.dev.reg Reg.PWR_CNT)) ∧
    (∀ tj tcase, (∃ t ∈ tj, 110 ≤ t) → s.dev.aon.trip = false → Completes (.thermalMonitor tj tcase) s fun d' => d'.aon.trip = true ∧ d'.aon.thermN = true ∧
      d'.aon.alertN = true ∧ bit (d'.reg Reg.PWR_ERR) 4 = true ∧ (∀ r ∈ s.dev.loaded, (d'.region r).st = .fault) ∧ ∀ t, t < Config.nTiles → (d'.tile t).stopped = true) ∧
    (∀ tj tcase, (∀ t ∈ tj, t < 110) → Completes (.thermalMonitor tj tcase) s fun d' => d'.aon.tj = tj ∧ d'.aon.tcase = tcase ∧
      fld (d'.reg Reg.PWR_STATUS) 24 8 = tcase % 256 ∧ d'.aon.trip = s.dev.aon.trip) ∧
    (∀ (m : Nat) (q : ProfileReq), HostReadyM s m 0x0600 (ProfileReq.fits q) → q.profile.toNat ≤ 2 → profOk q.prof = true → s.dev.aon.store.length = 5 →
      (q.write = true → q.select = false → (∀ b, (storeItem s.dev.aon.store q.profile.toNat).best = some b → (profSeq b).toNat < 2 ^ 32 - 2) →
        Completes (.setProfile m q) s fun d' => Replied m St.OK s.dev d' ∧ d'.profile q.profile.toNat = some q.prof ∧ d'.override = s.dev.override ∧
          ∀ p, p ≠ q.profile.toNat → d'.profile p = s.dev.profile p) ∧
      (q.write = false → q.select = true → q.sel = 0xFF → (∀ b, (storeItem s.dev.aon.store 4).best = some b → (profSeq b).toNat < 2 ^ 32 - 2) →
        Completes (.setProfile m q) s fun d' => Replied m St.OK s.dev d' ∧ d'.pwr.pend.prof = some (q.profile.toNat, s.dev.nextSync) ∧
          (∀ p, d'.profile p = s.dev.profile p) ∧ d'.override = some 0xFF)) ∧
    (∀ (i : StoreItem) (f : List Byte), f.length = 20 → (i.older (profBody i.next f)).best = i.best ∧
      ((∀ b, i.best = some b → (profSeq b).toNat < 2 ^ 32 - 2) → (i.put f).best = some (profCommit (profBody i.next f)))) ∧
    ∀ (m : Nat) (b : List Byte), HostReady s m 0x0601 → (storeItem s.dev.aon.store 0).best = some b →
      Completes (.profileQuery m) s fun d' => Replied m St.OK s.dev d' ∧ d'.mbNat m 32 4 = (profSeq b).toNat ∧ d'.mbNat m 36 2 = (ProfRec.ofRec b).limit ∧ d'.aon = s.dev.aon

/-! ### Faults and recovery (15) -/

/-- FAULT frames and the parts of a recovery (R341 to R352, R356): QUIESCE takes the named regions to FAULT and answers the originator, HOLD keeps them, RELEASE
and the last part stop them, a NOTICE of the ring class opens a window at the master, a lost device opens a recovery with its record, a lapsed ring closes
the bypass, a resync makes the tiles of that shadow send whole. -/
def Obligations.RecoveryFramesAndParts : Prop :=
  ∀ s : State,
    (∀ fr, FirstCopy ftFAULT fr s.dev → fCls fr = 3 ∨ fCls fr = 5 ∨ fCls fr = 6 ∨ fCls fr = 7 →
      (fAct fr = 1 → fCls fr = 3 ∨ fCls fr = 5 → s.dev.flt.recov = none → Completes (.faultQuiesce fr) s fun d' =>
        .ctrl (BitVec.ofNat 12 ((fRecid fr).toNat / 2 ^ 20)) (fRecid fr) ∈ d'.out ∧
        (∀ r ∈ s.dev.namedBy (fSubject fr) (fGroup fr), (d'.region r).st = .fault ∧ (d'.region r).adm = none) ∧
        ∃ v, d'.flt.recov = some v ∧ v.recid = fRecid fr ∧ v.own = false ∧ v.regions = s.dev.namedBy (fSubject fr) (fGroup fr)) ∧
      (∀ v, fAct fr = 2 → fCls fr ≠ 7 → s.dev.flt.recov = some v → v.recid = fRecid fr → Completes (.faultHold fr) s fun d' =>
        ∃ w, d'.flt.recov = some w ∧ w.stage = .held ∧ w.status = St.RECOVERY_ESCALATED ∧ w.recid = v.recid) ∧
      (∀ v, fAct fr = 3 → fCls fr ≠ 7 → s.dev.flt.recov = some v → v.recid = fRecid fr → v.own = false → Completes (.faultRelease fr) s fun d' => d'.flt.recov = none ∧
        ∀ r ∈ v.regions, (s.dev.region r).st = .fault → (d'.region r).st = .stopped) ∧
      (fAct fr = 0 → fCls fr = 7 → s.dev.cicBit 0 = true → s.dev.cicBit 2 = true → Completes (.faultNotice fr) s fun d' =>
        d'.cic.tW = some (s.dev.now + 20000))) ∧
    (∀ v dev, s.dev.flt.recov = some v → v.own = true →
      (v.stage ≠ .waitParts → Completes (.localPartDone dev v.recid) s fun d' => d'.flt.recov = some { v with parts := addNew v.parts [dev.toNat] }) ∧
      (v.stage = .waitParts → (∀ i ∈ v.needParts, i = dev.toNat ∨ i ∈ v.parts) → Completes (.localPartDone dev v.recid) s fun d' => d'.flt.recov = none ∧
        (∀ r ∈ v.regions, (s.dev.region r).st = .fault → (d'.region r).st = .stopped) ∧ ⟨v.recid, v.status, v.lost⟩ ∈ d'.flt.reports)) ∧
    (∀ dev : BitVec 12, s.dev.peerPorts dev ≠ [] → (∀ p ∈ s.dev.peerPorts dev, s.dev.portState p = 4 ∧ (s.dev.port p).downAt + s.dev.dloss ≤ s.dev.elapsed) →
      s.dev.flt.recov = none →
      (∀ p ∈ s.dev.flt.plans, p.1 ≠ dev) → Completes (.deviceLoss dev) s fun d' => Counts Reg.FLT_CNT 0 16 s.dev d' ∧
        ∃ e ∈ d'.flt.recs, e.cls = 6 ∧ e.status = St.DEVICE_LOST ∧ e.detail = dev.toNat ∧ e.rseq = s.dev.flt.rseq) ∧
    (Completes .ringKeepaliveLapse s fun d' => d'.aon.bypass = true ∧ d'.cicBit 0 = false) ∧
    ∀ src : BitVec 12, Completes (.shadowResync src) s fun d' => ∀ t, bit ((s.dev.tile t).reg Reg.WVL_SHADOW) 0 = true →
      fld ((s.dev.tile t).reg Reg.WVL_SHADOW) 4 12 = src.toNat → (d'.tile t).wvl.shWhole = true

/-- A tile recovery in its order (R339, R345 to R348): it opens for a site judged failed alone, with the region in FAULT, a failed BIST makes the site's column the skipped one, then the muxes
are set, the slices shifted and the regions loaded again; the fault commands (R358) set a group, arm and disarm a plan, and report. -/
def Obligations.TileRecoveryAndFaultCommands : Prop :=
  ∀ s : State,
    (∀ b col t, b < Config.benches → col < 48 → s.dev.tileAt b col = some t → t ∈ s.dev.flt.defects → s.dev.flt.recov = none → Completes (.tileRecovery b col) s fun d' =>
      (∃ v, d'.flt.recov = some v ∧ v.todo = [(b, col)] ∧ v.own = true ∧ v.cls = 3 ∧ v.stage = .quiesced) ∧ Counts Reg.FLT_CNT 0 16 s.dev d' ∧
      ∀ r, s.dev.regionOf t = some r → (s.dev.region r).st ≠ .empty → (d'.region r).st = .fault ∧ (d'.region r).adm = none) ∧
    (∀ b col t, b < Config.benches → col < 48 → s.dev.tileAt b col = some t → t ∉ s.dev.flt.defects → Completes (.tileRecovery b col) s fun d' => d' = s.dev) ∧
    (∀ v, s.dev.flt.recov = some v →
      (∀ b col rest t, v.stage = .quiesced → v.todo = (b, col) :: rest → s.dev.tileAt b col = some t →
        (bit (s.dev.skip (siteHalf b col)) 6 = false → bit (s.dev.reg Reg.FLT_CTL) 16 = true → Completes (.bistComplete false) s fun d' =>
          d'.skip (siteHalf b col) = BitVec.ofNat 8 (col + 192) ∧ (∃ w, d'.flt.recov = some w ∧ w.stage = .empty ∧ t ∈ w.restored) ∧
          ∀ n, n ≠ siteHalf b col → d'.skip n = s.dev.skip n) ∧
        (∀ r, rest = [] → s.dev.regionOf t = some r → Completes (.bistComplete true) s fun d' => (∀ n, d'.skip n = s.dev.skip n) ∧
          ∃ w, d'.flt.recov = some w ∧ w.stage = .reload ∧ r ∈ w.toLoad)) ∧
      (∀ b col rest sh, v.stage = .empty → v.todo = (b, col) :: rest → s.dev.halfClear (siteHalf b col) = true → Completes (.halfBenchEmpty sh) s fun d' => ∃ w, d'.flt.recov = some w ∧ w.stage = .slices) ∧
      (∀ b col rest clean, v.stage = .slices → v.todo = (b, col) :: rest → Completes (.sliceShiftDone clean) s fun d' =>
        d'.skip (siteHalf b col) = clrBit (s.dev.skip (siteHalf b col)) 7) ∧
      ∀ r k l q p ss, r < Config.nRegions → v.stage = .reload → v.toLoad = [r, k] → k ≠ r → (s.dev.region r).load = some l → l.r = r → q.dmaFail = none →
        l.model = none → s.dev.wt.weak = [] → s.dev.loadCheck { l with image := q.image, dmaFail := none } true = (St.OK, some (p, ss)) → Completes (.recoveryLoad r q) s fun d' =>
          (d'.region r).st = .fault ∧ (d'.region r).h = p.h ∧ (d'.region r).w = p.w ∧ ∃ w, d'.flt.recov = some w ∧ w.toLoad = [k]) ∧
    ∀ m : Nat,
      (∀ (g : BitVec 16) (members : BitVec 4096), HostReadyM s m 0x0502 (groupFits 512 members) → g ≠ 0 → (∀ r, r < Config.nRegions → s.dev.fltGroupOf r = g.toNat → (s.dev.region r).st ≠ .running) →
        Completes (.fltGroup m g 512 members) s fun d' => Replied m St.OK s.dev d' ∧ d'.members g.toNat = members ∧
          ∀ k, k ≠ g.toNat → d'.members k = s.dev.members k) ∧
      (∀ dev acts, HostReady s m 0x0503 → acts ≠ [] → acts.length ≤ 8 → (∀ p ∈ s.dev.flt.plans, p.1 ≠ dev) → Completes (.standbyArm m dev acts) s fun d' =>
        Replied m St.OK s.dev d' ∧ d'.flt.plans = s.dev.flt.plans ++ [(dev, acts)]) ∧
      (∀ dev, HostReady s m 0x0504 → (∃ p ∈ s.dev.flt.plans, p.1 = dev) → Completes (.standbyDisarm m dev) s fun d' =>
        Replied m St.OK s.dev d' ∧ d'.flt.plans = s.dev.flt.plans.filter fun p => decide (p.1 ≠ dev)) ∧
      ∀ recid first count x, HostReady s m 0x0702 → recid ≠ 0 → (s.dev.allReports.find? fun x => decide (x.recid = recid)) = some x →
        Completes (.fltQuery m recid first count) s fun d' => Replied m St.OK s.dev d' ∧ d'.mbNat m 20 4 = recid.toNat ∧ d'.mbNat m 24 2 = x.status.toNat

/-! ### The Hive (16) -/

/-- Cores, firmware and the latch (R360 to R369): a core reset advances the epoch and abandons the core's locks; GO and the check start the image that passes, copied into both shared memories;
a claim takes the latch, advances EPOCH and ends RUNNING mailboxes with AUTHORITY_LOST; heartbeats and refreshes are counted; SEAM_FAULT stops a half. -/
def Obligations.CoresFirmwareAndLatch : Prop :=
  ∀ s : State,
    (∀ k, k < Config.nCores → ∀ c ∈ [Instr.hiveWatchdog k, .uncorrectableHiveMemoryError k], Completes c s fun d' =>
      d'.epochOf k = (s.dev.epochOf k + 1) % 4096 ∧ ∀ n, n < 64 → d'.reg (lockReg n) = abandonLock k (s.dev.reg (lockReg n))) ∧
    (s.dev.fwBusy = false → s.dev.hive.run = false → Completes .hiveFwGo s fun d' => d'.fwBusy = true ∧
      (s.dev.phase = 2 ∨ s.dev.phase = 5 → d'.phase = 3)) ∧
    (s.dev.fwBusy = true → s.dev.phase = 3 → Completes .fwCheckComplete s fun d' => d'.fwBusy = false ∧ fld (d'.reg Reg.HIVE_FW) 0 16 = s.dev.fwCheck.toNat ∧
      d'.hive.run = (decide (s.dev.fwCheck = St.OK) || s.dev.hive.run) ∧ d'.phase = (if s.dev.fwCheck = St.OK then 4 else 5) ∧
      d'.hive.entry = (if s.dev.fwCheck = St.OK then BitVec.ofNat 32 (s.dev.fwNat 0x10 4) else s.dev.hive.entry) ∧
      ∀ k a, k < s.dev.hive.shared.length → Memory.read (d'.hive.shared.getD k []) a =
        if s.dev.fwCheck = St.OK ∧ a < s.dev.fwNat 8 4 then Memory.read s.dev.hive.staging a else Memory.read (s.dev.hive.shared.getD k []) a) ∧
    (∀ m, HostReady s m 0x0102 → (∀ r, r < Config.nRegions → (s.dev.region r).serving = false) → s.dev.wt.sessions = [] → Completes (.fwReload m) s fun d' =>
      Replied m St.OK s.dev d' ∧ d'.hive.run = false ∧ d'.aon.owner = .nobody ∧ d'.phase = 2 ∧ d'.hive.negMaj = none) ∧
    (∀ east, s.dev.hive.run = true → s.dev.aon.owner = pairOwner east → s.dev.hive.demoted.getD (pairIdx east) false = false → s.dev.seamF east = false →
      (Completes (.latchRefresh east true) s fun d' => d'.aon.since = 0 ∧ d'.hive.nack.getD (pairIdx east) 0 = 0) ∧
      (s.dev.hive.demoted.length = 2 → s.dev.hive.nack.getD (pairIdx east) 0 = 1 → Completes (.latchRefresh east false) s fun d' => d'.authority = false)) ∧
    (∀ east x, s.dev.claims east = true → s.dev.claimOk x = true → Completes (.latchClaim east x) s fun d' =>
      d'.aon.owner = pairOwner east ∧ d'.aon.epoch = s.dev.aon.epoch + 1 ∧ d'.aon.since = 0 ∧
      ∀ m, m < Config.nMailboxes → s.dev.mbState m = 2 → d'.mbState m = 3 ∧ d'.mbNat m 8 4 = St.AUTHORITY_LOST.toNat) ∧
    (∀ east, s.dev.hive.run = true → s.dev.hive.claiming.length = 2 → s.dev.hive.miss.getD (pairIdx east) 0 = 2 → s.dev.seamF east = false →
      Completes (.heartbeatMiss east) s fun d' => d'.hive.claiming.getD (pairIdx east) false = true) ∧
    (∀ east, Completes (.heartbeat east) s fun d' => d'.hive.miss.getD (pairIdx (!east)) 0 = 0 ∧ d'.hive.claiming.getD (pairIdx (!east)) false = false) ∧
    ∀ east, s.dev.seamF east = false → Completes (.seamFault east) s fun d' => d'.seamF east = true ∧ (s.dev.seamF (!east) = false → d'.aon.alertN = true) ∧
      (∀ t ∈ tilesOfHalf east, (d'.tile t).stopped = true) ∧ ∀ r ∈ s.dev.regionsOfHalf east, (d'.region r).st = .fault

/-- Locks, mailboxes, negotiation, rings and debug unlock (R370 to R384, 17 R403): ACQUIRE and RELEASE follow Table 16.2, the doorbell posts, the authority takes
the first posted message, checks it, and it runs; HELLO agrees on the features both sides have; each nonce serves one unlock. -/
def Obligations.LocksMailboxesAndNegotiation : Prop :=
  ∀ s : State,
    (∀ who n, s.dev.hive.lockRes.length = 5 →
      let k := lockIdx who
      let v := s.dev.reg (lockReg n.toNat)
      let res (st : W16) (d' : Dev) : Prop := d'.hive.lockRes.getD k 0 = st ∧ { d' with regs := s.dev.regs, hive := s.dev.hive } = s.dev
      (fld v 0 2 ≠ 1 → Completes (.lockAcquire who n) s fun d' => res (if fld v 0 2 = 0 then St.ACQUIRED else St.ACQUIRED_ABANDONED) d' ∧
        fld (d'.reg (lockReg n.toNat)) 0 2 = 1 ∧ fld (d'.reg (lockReg n.toNat)) 2 3 = k ∧ bit (d'.reg (lockReg n.toNat)) 5 = decide (fld v 0 2 ≠ 0) ∧
        fld (d'.reg (lockReg n.toNat)) 16 12 = s.dev.epochOf k) ∧
      (fld v 0 2 = 1 → Completes (.lockAcquire who n) s fun d' => res St.LOCK_HELD d' ∧ ∀ a, d'.reg a = s.dev.reg a) ∧
      (fld v 0 2 = 1 → fld v 2 3 = k → Completes (.lockRelease who n) s fun d' => res St.OK d' ∧ fld (d'.reg (lockReg n.toNat)) 0 2 = 0 ∧
        ∀ a, a ≠ lockReg n.toNat → d'.reg a = s.dev.reg a) ∧
      (fld v 0 2 ≠ 1 ∨ fld v 2 3 ≠ k → Completes (.lockRelease who n) s fun d' => res St.LOCK_NOT_OWNER d' ∧ ∀ a, d'.reg a = s.dev.reg a)) ∧
    (∀ m, m < Config.nMailboxes →
      (s.dev.mbState m = 0 → Completes (.mailboxDoorbell m) s fun d' => d'.mbState m = 1 ∧ d'.hive.order = s.dev.hive.order ++ [m]) ∧
      (s.dev.mbState m ≠ 0 → Completes (.mailboxDoorbell m) s fun d' => OnlyReg Reg.HIVE_CNT s.dev d' ∧ Counts Reg.HIVE_CNT 0 16 s.dev d') ∧
      ∀ rest, s.dev.hive.order = m :: rest → s.dev.authority = true → s.dev.hive.noReply = [] → (∀ k, k < Config.nMailboxes → s.dev.mbState k ≠ 2) →
        (s.dev.mbCheck m = St.OK → Completes .mailboxTake s fun d' => d'.mbState m = 2 ∧ d'.hive.order = rest) ∧
        (s.dev.mbCheck m ≠ St.OK → Completes .mailboxTake s fun d' => Replied m (s.dev.mbCheck m) s.dev d' ∧ d'.hive.order = rest)) ∧
    (∀ v : W32, Completes (.hiveMboxfree v) s fun d' => OnlyReg Reg.HIVE_MBOXST s.dev d' ∧ ∀ m, m < Config.nMailboxes →
      d'.mbState m = if bit v m = true ∧ s.dev.mbState m = 3 then 0 else s.dev.mbState m) ∧
    (∀ m q, HostReadyM s m 0x0100 (fun x => decide (HelloReq.ofBytes x.payload = q)) →
      (q.maj = s.dev.hive.ifmaj → Completes (.hello m q) s fun d' => Replied m St.OK s.dev d' ∧ d'.hive.negMaj = some q.maj ∧
        d'.hive.agreed = (q.feats &&& Config.fwFeatures s.dev.hive.fwver &&& 0x7F)) ∧
      (q.maj ≠ s.dev.hive.ifmaj → Completes (.hello m q) s fun d' => Replied m St.VERSION_MISMATCH s.dev d' ∧ d'.hive.negMaj = none ∧ d'.hive.agreed = 0)) ∧
    (∀ m, HostReady s m 0x0101 → Completes (.deviceQuery m) s fun d' => Replied m St.OK s.dev d' ∧ d'.mbNat m 20 4 = s.dev.hive.fwver.toNat ∧
      d'.mbNat m 32 8 = s.dev.hiveStatus.toNat) ∧
    (∀ m q, LogReq.ok q = true →
      (HostReady s m 0x0700 → Completes (.logConfig m q) s fun d' => Replied m St.OK s.dev d' ∧ (q.addr = 0 → d'.hive.logRing = none) ∧
        (q.addr ≠ 0 → ∃ g, d'.hive.logRing = some g ∧ g.q = q ∧ g.cons = 0)) ∧
      (HostReadyM s m 0x0701 (queryFits false) → Completes (.traceConfig m false q) s fun d' => Replied m St.OK s.dev d' ∧ d'.hive.traceRing = LogReq.ring q)) ∧
    (∀ g idx, (s.dev.hive.logRing = some g → Completes (.logConsumerIndex idx) s fun d' => ∃ h, d'.hive.logRing = some h ∧ h.cons = idx ∧ h.q = g.q) ∧
      (s.dev.hive.traceRing = some g → Completes (.traceConsumerIndex idx) s fun d' =>
        d' = { s.dev with hive := { s.dev.hive with traceRing := some { g with cons := idx } } })) ∧
    (∀ m, HostReady s m 0x0703 → Completes (.debugChallenge m) s fun d' => Replied m St.OK s.dev d' ∧
      ∃ n : List Byte, d'.hive.nonce = some n ∧ n.length = 32 ∧ ∀ i, i < 32 → d'.mbNat m (32 + i) 1 = (n.getD i 0).toNat) ∧
    ∀ m scope sig, HostReadyM s m 0x0704 (unlockFits scope sig) → let ok := s.dev.unlocks scope sig
      Completes (.debugUnlock m scope sig) s fun d' => Replied m (if ok then St.OK else St.DEBUG_DENIED) s.dev d' ∧ d'.hive.nonce = none ∧
        d'.hive.scope = (if ok then s.dev.hive.scope ||| scope else s.dev.hive.scope) ∧ d'.hive.fails = if ok then s.dev.hive.fails else s.dev.hive.fails + 1

/-! ### The host interface and the resets (17, 18) -/

/-- Accesses, DMA and resets (R386 to R396, Table 17.3, 18 R412, R413): a host word write and read reach the tile's scratchpad and nothing else, a read of a word that fails
parity returns the stored data and sets HOSTPAR (06 R140), a poisoned write
is discarded, a failed payload read answers COMMAND_INVALID; RESET_N and VIN clear every block but the always-on domain and the programmed pages; the host
resets clear mailboxes, rings and MSI-X and stop the regions; boot loads the selected profile. -/
def Obligations.HostAccessResetsAndBoot : Prop :=
  ∀ s : State,
    (∀ t a (w : W32), t < Config.nTiles → a % 4 = 0 → a < Config.spadBytes → s.dev.linkUp = true → s.dev.muxing (halfOf t) = false →
      let q : BarReq := ⟨2, t * 0x2000000 + a, true, false, [w], 0, false, none⟩
      (Completes (.barAccess q) s fun d' => d'.out = s.dev.out ∧ Memory.readNat (d'.tile t).spad a 4 = w.toNat ∧
        (∀ b, b < a ∨ a + 4 ≤ b → Memory.read (d'.tile t).spad b = Memory.read (s.dev.tile t).spad b) ∧ ∀ u, (d'.tile u).imem = (s.dev.tile u).imem) ∧
      (Completes (.barAccess { q with poisoned := true }) s fun d' => d' = s.dev) ∧
      ((s.dev.tile t).badWord a 4 = none → Completes (.barAccess { q with write := false, words := [], n := 1 }) s fun d' =>
        d' = s.dev.emit (.readData (BitVec.ofNat 64 (Memory.readNat (s.dev.tile t).spad a 4)))) ∧
      (∀ w, (s.dev.tile t).badWord a 4 = some w → Completes (.barAccess { q with write := false, words := [], n := 1 }) s fun d' =>
        d'.out = s.dev.out ++ [.readData (BitVec.ofNat 64 (Memory.readNat (s.dev.tile t).spad a 4))] ∧ bit ((d'.tile t).reg Reg.SPAD_ERR) 1 = true)) ∧
    (∀ e data,
      (∀ m a n, s.dev.dmaUse e = some (.payload m a n) → s.dev.mbIndirect m = true → s.dev.mbOpcode m ∉ [0x0100, 0x0400, 0x0600, 0x0704] →
        Completes (.dmaReadComplete e data) s fun d' => d'.dmaUse e = none ∧ d'.mbPayload m = slice data 0 n ∧ d'.regs = s.dev.regs ∧ d'.hive.mbox = s.dev.hive.mbox) ∧
      ∀ k, s.dev.dmaUse e = some (.haul k) → Completes (.dmaReadComplete e data) s fun d' => d'.dmaUse e = none ∧
        (∀ x ∈ d'.wt.sessions, x.q.session = k → x.q.role = .head → x.frame = some data) ∧ d'.hive = s.dev.hive) ∧
    (∀ e kind m a n, s.dev.dmaUse e = some (.payload m a n) → s.dev.authority = true → s.dev.mbState m = 2 → m ∉ s.dev.hive.noReply → m < Config.nMailboxes →
      Completes (.dmaError e kind) s fun d' => Replied m St.COMMAND_INVALID s.dev d' ∧ fld (d'.reg Reg.HOST_DMAERR) 0 3 ≠ 0) ∧
    (∀ k e, s.dev.headOf k = some e → e.retry = true → Completes (.dmaReadRepeat k) s fun d' => d'.dmaOut (.haul k) = true) ∧
    (∀ c ∈ [Instr.resetNLow, .vinDrop], Completes c s fun d' => (∀ a, a ≠ Reg.PWR_ERR → d'.reg a = devReset a) ∧ (∀ r, d'.region r = Region.reset) ∧
      (∀ t, (d'.tile t).spad = [] ∧ (d'.tile t).scb = Scarab.reset ∧ ∀ a, (d'.tile t).reg a = tileReset a) ∧ d'.hive.run = false ∧ d'.aon.owner = .nobody ∧
      d'.aon.epoch = s.dev.aon.epoch ∧ bit d'.aon.rstcause 1 = true ∧ d'.wt.data = s.dev.wt.data ∧ d'.aon.skip = s.dev.aon.skip ∧ d'.aon.store = s.dev.aon.store) ∧
    (Completes .auxLoss s fun d' => d'.aon.aux = false ∧ d'.aon.epoch = 0 ∧ d'.aon.owner = .nobody ∧ d'.aon.skip = s.dev.aon.skip ∧ d'.aon.store = s.dev.aon.store) ∧
    (∀ x, Completes (.auxRise x) s fun d' => d'.aon.aux = true ∧ d'.aon.smbAddr = x ∧ bit d'.aon.rstcause 0 = true ∧ d'.aon.epoch = 0 ∧
      d'.aon.skip = s.dev.aon.skip ∧ d'.aon.store = s.dev.aon.store) ∧
    (∀ (q : RiseIn) (r : ProfRec), s.dev.aon.resetN = false → q.powerOk = true → s.dev.override = none → s.dev.profile q.profileSel.toNat = some r →
      profOk r = true → Completes (.resetNRise q) s fun d' => d'.aon.resetN = true ∧ d'.phase = 1 ∧ d'.limitW = r.limit ∧
        fld (d'.reg Reg.PWR_STATUS) 0 2 = q.profileSel.toNat ∧ d'.authPref = q.authPref) ∧
    (s.dev.phase = 1 → Completes .bootWaitFw s fun d' => d'.phase = (if s.dev.fwBusy then 3 else 2) ∧ OnlyReg Reg.HOST_STATUS s.dev d') ∧
    (∀ c ∈ [(Instr.perstN, 2), (.flr, 3)], Completes c.1 s fun d' => bit d'.aon.rstcause c.2 = true ∧ d'.rings = [] ∧ d'.host.msix = [] ∧ d'.host.dma = [] ∧
      (∀ m, m < Config.nMailboxes → d'.mbState m = 0) ∧ d'.hive.negMaj = none ∧ d'.host.perst = (decide (c.2 = 2) || s.dev.host.perst) ∧
      ∀ r, r < Config.nRegions → (d'.region r).serving = false ∧ (d'.region r).adm = none) ∧
    Completes .perstNHigh s fun d' => d' = { s.dev with host := { s.dev.host with perst := false } }

/-- SMBus and TAP (R399 to R402, 18 R414): on AUX power each read answers with its bytes, SMB_STATUS releases ALERT_N, an override and a trip clear take effect;
while VIN is present an instruction is loaded, the boundary ones only under RESET_N, the debug ones only in their unlocked scope. -/
def Obligations.SmbusAndTap : Prop :=
  ∀ s : State,
    (s.dev.aon.aux = true →
      (Completes .smbStatus s fun d' => d'.out = s.dev.out ++ [.smb (leBytes 2 s.dev.smbWord)] ∧ d'.aon = { s.dev.aon with alertN := false }) ∧
      (∀ c ∈ [(Instr.smbJunctionTemp, leBytes 1 (if s.dev.aon.vin then s.dev.aon.tj.foldl max 0 else 0)), (.smbCaseTemp, leBytes 1 (if s.dev.aon.vin then s.dev.aon.tcase else 0)),
          (.smbVinPower, leBytes 2 (if s.dev.aon.vin then s.dev.aon.vinPower else 0)), (.smbLatchEpoch, leBytes 2 s.dev.aon.epoch.toNat),
          (.smbRstcause, leBytes 1 s.dev.aon.rstcause.toNat),
          (.smbIdentity, [0x42, 0x4D, 0x50, 0x31, 0x31, 0x35, 0x32, 0x00] ++ leBytes 8 Config.serial.toNat)],
        Completes c.1 s fun d' => d' = s.dev.emit (.smb c.2)) ∧
      (∀ sel : Byte, sel.toNat ≤ 3 ∨ sel = 0xFF → s.dev.aon.store.length = 5 → (∀ b, (storeItem s.dev.aon.store 4).best = some b → (profSeq b).toNat < 2 ^ 32 - 2) →
        Completes (.smbOverride sel) s fun d' => d' = s.dev.setOverride sel ∧ d'.override = some sel) ∧
      (Completes (.smbClearTrip 1) s fun d' => d'.aon.trip = false ∧ bit (d'.reg Reg.PWR_ERR) 4 = false ∧ ∀ a, a ≠ Reg.PWR_ERR → d'.reg a = s.dev.reg a) ∧
      (s.dev.aon.alertN = true → Completes .alertResponse s fun d' => d' = s.dev.emit (.smb (leBytes 1 (0x58 + s.dev.aon.smbAddr.toNat))))) ∧
    (s.dev.aon.vin = true →
      (∀ c ∈ [(Instr.extest, TapIr.extest), (.clamp, .clamp), (.highz, .highz)],
        Completes c.1 s fun d' => d' = { s.dev with tap := { s.dev.tap with ir := if s.dev.aon.resetN then .bypass else c.2 } }) ∧
      (∀ c ∈ [(Instr.bypass, TapIr.bypass), (.tapTestReset, .idcode)], Completes c.1 s fun d' => d' = { s.dev with tap := { s.dev.tap with ir := c.2 } }) ∧
      (Completes .idcode s fun d' => d'.tap.ir = .idcode ∧ d'.out = s.dev.out ++ [.tap (tapBits 32 idcodeWord)]) ∧
      (∀ cells, Completes (.samplePreload cells) s fun d' => d'.tap.ir = .sample ∧ d'.tap.cells = cells ∧ { d' with tap := s.dev.tap, out := s.dev.out, ctr := s.dev.ctr } = s.dev) ∧
      (∀ q : BarReq, (bit s.dev.hive.scope 1 = false → Completes (.dbgAccess q) s fun d' => d' = { s.dev with tap := { s.dev.tap with ir := .bypass } }) ∧
        ∀ t a, bit s.dev.hive.scope 1 = true → t < Config.nTiles → a % 4 = 0 → a < Config.spadBytes → s.dev.muxing (halfOf t) = false → (s.dev.tile t).badWord a 4 = none →
          q = ⟨2, t * 0x2000000 + a, false, false, [], 1, false, none⟩ → Completes (.dbgAccess q) s fun d' => d'.tap.ir = .dbgAccess ∧
            d'.out = s.dev.out ++ [.tap (tapBits 32 (Memory.readNat (s.dev.tile t).spad a 4))]) ∧
      ∀ b col pass, b < Config.benches → col < 48 → (bit s.dev.hive.scope 2 = true → s.dev.siteLoaded b col = false → Completes (.scanbist b col pass) s fun d' =>
          d' = { s.dev with tap := { s.dev.tap with ir := .scanBist, bist := some (b, col, pass) } }) ∧
        (bit s.dev.hive.scope 2 = false → Completes (.scanbist b col pass) s fun d' => d' = { s.dev with tap := { s.dev.tap with ir := .bypass } }))

/-! ### What every step keeps -/

namespace Sys2Proof.Claims

/-- The non-volatile store is legal (17 R397 to R399, Table 17.5, 01 R13): of each profile a copy may be read, and every copy that may be read is inside the
limits with a SEQ that is neither 0 nor all ones; profile 3 is as the factory wrote it; every override record that may be read names a profile or none; and in
the remap table of each half-bench stands a column of its own half. -/
def StoreOk (d : Dev) : Prop :=
  let held (k : Nat) : List (List Byte) := [(storeItem d.aon.store k).a, (storeItem d.aon.store k).b].filter fun b => profSound b
  d.aon.store.length = 5 ∧ (∀ k, k < 4 → held k ≠ [] ∧ ∀ b ∈ held k, profOk (ProfRec.ofRec b) = true) ∧
  (∀ k, k < 5 → ∀ b ∈ held k, profSeq b ≠ 0 ∧ profSeq b ≠ 0xFFFFFFFF) ∧ d.aon.store[3]? = factoryStore[3]? ∧
  (∀ b ∈ held 4, (profSel b).toNat ≤ 3 ∨ profSel b = 0xFF) ∧
  ∀ n, if n % 2 = 0 then fld (d.skip n) 0 6 < 24 else 24 ≤ fld (d.skip n) 0 6 ∧ fld (d.skip n) 0 6 < 48

end Sys2Proof.Claims

/-- The store is legal right after reset. -/
def Obligations.StoreLegalAtReset : Prop := StoreOk State.reset.dev

/-- Every step keeps the store legal, whatever the command: what writes it (SET_PROFILE, the SMBus override, a tile recovery, the replay that ends an
interrupted shift) writes within its limits. -/
def Obligations.EveryStepKeepsTheStoreLegal : Prop := ∀ s s' : State, StoreOk s.dev → step s = .next s' → StoreOk s'.dev
end

