-- ==== Sys2Proof/Laws/Bits.lean ====
section
/-! SUPPORT. Fields, bits and little-endian bytes of a word: what a field reads as after each update (00 R1). -/

namespace Sys2Proof

variable {w : Nat} (v : BitVec w)

theorem fld_lt (lo len : Nat) : fld v lo len < 2 ^ len := Nat.mod_lt _ (Nat.two_pow_pos len)

/-- The bits of a field. -/
theorem testBit_fld (lo len i : Nat) : (fld v lo len).testBit i = (decide (i < len) && v.getLsbD (lo + i)) := by
  simp [fld, Nat.testBit_mod_two_pow, Nat.testBit_div_two_pow, BitVec.getLsbD, Nat.add_comm]

/-- Two fields are equal when their bits are. -/
theorem fld_congr {u : Nat} {a : BitVec w} {b : BitVec u} {lo lo' len : Nat} (h : ∀ i, i < len → a.getLsbD (lo + i) = b.getLsbD (lo' + i)) :
    fld a lo len = fld b lo' len := by
  apply Nat.eq_of_testBit_eq
  intro i
  rw [testBit_fld, testBit_fld]
  by_cases hi : i < len
  · simp [hi, h i hi]
  · simp [hi]

/-- The bits of a word after a field was replaced. -/
theorem getLsbD_setFld (lo len x i : Nat) (h : lo + len ≤ w) :
    (setFld v lo len x).getLsbD i = if lo ≤ i ∧ i < lo + len then x.testBit (i - lo) else v.getLsbD i := by
  have e : (setFld v lo len x).getLsbD i = (decide (i < w) && (v.getLsbD i && !(decide (i < w) && (decide (lo ≤ i) && decide (i - lo < len))) ||
      (decide (lo ≤ i) && (decide (i - lo < len) && x.testBit (i - lo))))) := by
    unfold setFld
    by_cases hw : i < w <;>
      simp only [BitVec.getLsbD_or, BitVec.getLsbD_and, BitVec.getLsbD_not, BitVec.getLsbD_ofNat, Nat.testBit_mul_two_pow, Nat.testBit_mod_two_pow,
        Nat.testBit_two_pow_sub_one, hw, decide_true, decide_false, Bool.true_and, Bool.false_and, Bool.or_false, Bool.and_false]
  rw [e]
  by_cases hw : i < w
  · by_cases hl : lo ≤ i
    · by_cases hr : i < lo + len
      · have : i - lo < len := by omega
        simp [hl, hr, hw, this]
      · have : ¬ i - lo < len := by omega
        simp [hl, hr, hw, this]
    · simp [hl, hw]
  · have : ¬ (lo ≤ i ∧ i < lo + len) := by omega
    rw [if_neg this, BitVec.getLsbD_of_ge v _ (by omega)]
    simp [hw]

/-- A field that was replaced reads as the new value. -/
theorem fld_setFld_self (lo len x : Nat) (h : lo + len ≤ w) : fld (setFld v lo len x) lo len = x % 2 ^ len := by
  apply Nat.eq_of_testBit_eq
  intro i
  rw [testBit_fld, getLsbD_setFld _ _ _ _ _ h, Nat.testBit_mod_two_pow]
  by_cases hi : i < len
  · have : lo ≤ lo + i ∧ lo + i < lo + len := by omega
    simp [hi]
  · simp [hi]

/-- Another field is as it was. -/
theorem fld_setFld_other (lo len x lo' len' : Nat) (h : lo + len ≤ w) (hd : lo + len ≤ lo' ∨ lo' + len' ≤ lo) :
    fld (setFld v lo len x) lo' len' = fld v lo' len' := by
  apply fld_congr
  intro i hi
  rw [getLsbD_setFld _ _ _ _ _ h, if_neg (by omega)]

/-- A bit outside the field is as it was. -/
theorem bit_setFld_other (lo len x i : Nat) (h : lo + len ≤ w) (hd : i < lo ∨ lo + len ≤ i) : bit (setFld v lo len x) i = bit v i := by
  unfold bit
  rw [getLsbD_setFld _ _ _ _ _ h, if_neg (by omega)]

theorem getLsbD_setBit (i j : Nat) : (setBit v i).getLsbD j = (v.getLsbD j || (decide (j < w) && decide (i = j))) := by
  unfold setBit
  simp only [BitVec.getLsbD_or, BitVec.getLsbD_ofNat, Nat.testBit_two_pow]

theorem getLsbD_clrBit (i j : Nat) : (clrBit v i).getLsbD j = (v.getLsbD j && !decide (i = j)) := by
  unfold clrBit
  by_cases h : j < w
  · simp only [BitVec.getLsbD_and, BitVec.getLsbD_not, BitVec.getLsbD_ofNat, Nat.testBit_two_pow, h, decide_true, Bool.true_and]
  · rw [BitVec.getLsbD_of_ge _ _ (by omega), BitVec.getLsbD_of_ge _ _ (by omega)]; rfl

theorem bit_setBit_self (i : Nat) (h : i < w) : bit (setBit v i) i = true := by simp [bit, getLsbD_setBit, h]
theorem bit_clrBit_self (i : Nat) : bit (clrBit v i) i = false := by simp [bit, getLsbD_clrBit]
theorem bit_setBit_ne {i j : Nat} (h : i ≠ j) : bit (setBit v i) j = bit v j := by simp [bit, getLsbD_setBit, h]
theorem bit_clrBit_ne {i j : Nat} (h : i ≠ j) : bit (clrBit v i) j = bit v j := by simp [bit, getLsbD_clrBit, h]

/-- A field that does not hold the bit is as it was. -/
theorem fld_setBit_other (i lo len : Nat) (h : i < lo ∨ lo + len ≤ i) : fld (setBit v i) lo len = fld v lo len := by
  apply fld_congr
  intro k hk
  rw [getLsbD_setBit]
  have : i ≠ lo + k := by omega
  simp [this]

theorem fld_clrBit_other (i lo len : Nat) (h : i < lo ∨ lo + len ≤ i) : fld (clrBit v i) lo len = fld v lo len := by
  apply fld_congr
  intro k hk
  rw [getLsbD_clrBit]
  have : i ≠ lo + k := by omega
  simp [this]

theorem bit_putBit_self (i : Nat) (b : Bool) (h : i < w) : bit (putBit v i b) i = b := by
  cases b
  · simp [putBit, bit_clrBit_self]
  · simp [putBit, bit_setBit_self _ _ h]

theorem bit_putBit_ne {i j : Nat} (b : Bool) (h : i ≠ j) : bit (putBit v i b) j = bit v j := by
  cases b
  · simp [putBit, bit_clrBit_ne _ h]
  · simp [putBit, bit_setBit_ne _ h]

/-! ### Bytes -/

@[simp] theorem length_leBytes (n x : Nat) : (leBytes n x).length = n := by
  induction n generalizing x with
  | zero => rfl
  | succ n ih => simp [leBytes, ih]

@[simp] theorem leNat_leBytes (n x : Nat) : leNat (leBytes n x) = x % 256 ^ n := by
  induction n generalizing x with
  | zero => simp [leBytes, leNat, Nat.mod_one]
  | succ n ih =>
    simp only [leBytes, leNat, ih, BitVec.toNat_ofNat]
    have h : x % 256 ^ (n + 1) = x % 256 + 256 * (x / 256 % 256 ^ n) := by
      rw [Nat.pow_succ, Nat.mul_comm (256 ^ n) 256, Nat.mod_mul]
    omega

@[simp] theorem length_slice (l : List Byte) (off n : Nat) : (slice l off n).length = n := by
  simp only [slice, List.length_append, List.length_take, List.length_drop, List.length_replicate]
  omega

end Sys2Proof
end

