-- ==== Sys2Proof/Laws/SMap.lean ====
section
/-! SUPPORT. Laws of the sparse maps and of the byte memory: reading after writing, and the canonical form that every
operation keeps. -/

namespace Sys2Proof.Machine

variable {V : Type}

theorem SMap.get_erase_self (d : Nat → V) (m : SMap V) (k : Nat) : SMap.get d (SMap.erase m k) k = d k := by
  induction m with
  | nil => rfl
  | cons e m ih =>
    obtain ⟨k', v⟩ := e
    by_cases h : k' = k
    · simpa [SMap.erase, h] using ih
    · have h' : k ≠ k' := fun e => h e.symm
      simp only [SMap.erase, List.filter_cons, h, ne_eq, not_false_eq_true, decide_true, if_true, SMap.get, h', if_false]
      exact ih

theorem SMap.get_erase_ne (d : Nat → V) (m : SMap V) {j k : Nat} (h : j ≠ k) : SMap.get d (SMap.erase m k) j = SMap.get d m j := by
  induction m with
  | nil => rfl
  | cons e m ih =>
    obtain ⟨k', v⟩ := e
    by_cases hk : k' = k
    · subst hk
      simpa [SMap.erase, SMap.get, h] using ih
    · simp only [SMap.erase, List.filter_cons, hk, ne_eq, not_false_eq_true, decide_true, if_true, SMap.get]
      split
      · rfl
      · exact ih

theorem SMap.get_ins_self (d : Nat → V) (m : SMap V) (k : Nat) (v : V) (h : ∀ e ∈ m, e.1 ≠ k) : SMap.get d (SMap.ins m k v) k = v := by
  induction m with
  | nil => simp [SMap.ins, SMap.get]
  | cons e m ih =>
    obtain ⟨k', w⟩ := e
    have hk : k ≠ k' := fun e => h (k', w) (by simp) e.symm
    simp only [SMap.ins]
    split
    · simp [SMap.get]
    · simp only [SMap.get, hk, if_false]
      exact ih fun e he => h e (by simp [he])

theorem SMap.get_ins_ne (d : Nat → V) (m : SMap V) (k : Nat) (v : V) {j : Nat} (h : j ≠ k) : SMap.get d (SMap.ins m k v) j = SMap.get d m j := by
  induction m with
  | nil => simp [SMap.ins, SMap.get, h]
  | cons e m ih =>
    obtain ⟨k', w⟩ := e
    simp only [SMap.ins]
    split
    · simp [SMap.get, h]
    · simp only [SMap.get, ih]

theorem SMap.erase_keys (m : SMap V) (k : Nat) : ∀ e ∈ SMap.erase m k, e.1 ≠ k := by
  intro e he
  simp only [SMap.erase, List.mem_filter] at he
  simpa using he.2

/-- Reading the key just written. -/
@[simp] theorem SMap.get_set_self [DecidableEq V] (d : Nat → V) (m : SMap V) (k : Nat) (v : V) : SMap.get d (SMap.set d m k v) k = v := by
  unfold SMap.set
  split
  · rename_i h; rw [SMap.get_erase_self, h]
  · exact SMap.get_ins_self d _ k v (SMap.erase_keys m k)

/-- Reading another key. -/
@[simp] theorem SMap.get_set_ne [DecidableEq V] (d : Nat → V) (m : SMap V) (k : Nat) (v : V) {j : Nat} (h : j ≠ k) :
    SMap.get d (SMap.set d m k v) j = SMap.get d m j := by
  unfold SMap.set
  split
  · exact SMap.get_erase_ne d m h
  · rw [SMap.get_ins_ne d _ k v h, SMap.get_erase_ne d m h]

/-- What key `j` holds after key `k` is written. -/
theorem SMap.get_set [DecidableEq V] (d : Nat → V) (m : SMap V) (k : Nat) (v : V) (j : Nat) :
    SMap.get d (SMap.set d m k v) j = if j = k then v else SMap.get d m j := by
  split
  · subst j; simp
  · simp [*]

theorem SMap.erase_ins_self (m : SMap V) (k : Nat) (v : V) : SMap.erase (SMap.ins m k v) k = SMap.erase m k := by
  induction m with
  | nil => simp [SMap.ins, SMap.erase]
  | cons e m ih =>
    simp only [SMap.ins]
    split
    · simp [SMap.erase]
    · simp only [SMap.erase, List.filter_cons] at ih ⊢
      rw [ih]

/-- The later of two writes of one key stands. -/
@[simp] theorem SMap.set_set [DecidableEq V] (d : Nat → V) (m : SMap V) (k : Nat) (v w : V) : SMap.set d (SMap.set d m k v) k w = SMap.set d m k w := by
  have h : SMap.erase (SMap.set d m k v) k = SMap.erase m k := by
    unfold SMap.set
    split
    · simp [SMap.erase]
    · rw [SMap.erase_ins_self]; simp [SMap.erase]
  unfold SMap.set at h ⊢
  rw [h]

theorem SMap.wfFrom_mono [DecidableEq V] (d : Nat → V) (m : SMap V) {lo lo' : Nat} (h : lo' ≤ lo) (w : SMap.wfFrom d lo m = true) :
    SMap.wfFrom d lo' m = true := by
  cases m with
  | nil => rfl
  | cons e m =>
    obtain ⟨k, v⟩ := e
    simp only [SMap.wfFrom, Bool.and_eq_true, decide_eq_true_eq] at w ⊢
    exact ⟨⟨Nat.le_trans h w.1.1, w.1.2⟩, w.2⟩

theorem SMap.filter_wfFrom [DecidableEq V] (d : Nat → V) (p : Nat × V → Bool) (m : SMap V) (lo : Nat) (w : SMap.wfFrom d lo m = true) :
    SMap.wfFrom d lo (m.filter p) = true := by
  induction m generalizing lo with
  | nil => rfl
  | cons e m ih =>
    obtain ⟨k, v⟩ := e
    simp only [SMap.wfFrom, Bool.and_eq_true, decide_eq_true_eq] at w
    simp only [List.filter_cons]
    split
    · simp only [SMap.wfFrom, Bool.and_eq_true, decide_eq_true_eq]
      exact ⟨w.1, ih _ w.2⟩
    · exact SMap.wfFrom_mono d _ (by omega) (ih _ w.2)

theorem SMap.ins_wfFrom [DecidableEq V] (d : Nat → V) (m : SMap V) (k : Nat) (v : V) (lo : Nat) (hv : v ≠ d k) (hlo : lo ≤ k)
    (hk : ∀ e ∈ m, e.1 ≠ k) (w : SMap.wfFrom d lo m = true) : SMap.wfFrom d lo (SMap.ins m k v) = true := by
  induction m generalizing lo with
  | nil => simp [SMap.ins, SMap.wfFrom, hv, hlo]
  | cons e m ih =>
    obtain ⟨k', w'⟩ := e
    simp only [SMap.wfFrom, Bool.and_eq_true, decide_eq_true_eq] at w
    have hne : k' ≠ k := hk (k', w') (by simp)
    simp only [SMap.ins]
    split
    · rename_i hlt
      simp only [SMap.wfFrom, Bool.and_eq_true, decide_eq_true_eq]
      exact ⟨⟨hlo, hv⟩, ⟨by omega, w.1.2⟩, w.2⟩
    · rename_i hlt
      simp only [SMap.wfFrom, Bool.and_eq_true, decide_eq_true_eq]
      have : k' + 1 ≤ k := by omega
      exact ⟨w.1, ih (k' + 1) this (fun e he => hk e (by simp [he])) w.2⟩

/-- Writing keeps the canonical form. -/
theorem SMap.set_wf [DecidableEq V] (d : Nat → V) (m : SMap V) (k : Nat) (v : V) (w : SMap.wf d m = true) : SMap.wf d (SMap.set d m k v) = true := by
  unfold SMap.wf SMap.set at *
  split
  · exact SMap.filter_wfFrom d _ m 0 w
  · exact SMap.ins_wfFrom d _ k v 0 (by assumption) (by omega) (SMap.erase_keys m k) (SMap.filter_wfFrom d _ m 0 w)

/-! ### The byte memory -/

theorem Memory.read_write (m : Memory) (a b : Nat) (v : Byte) : Memory.read (Memory.write m a v) b = if b = a then v else Memory.read m b :=
  SMap.get_set _ m a v b

theorem Memory.write_wf (m : Memory) (a : Nat) (b : Byte) (w : Memory.wf m = true) : Memory.wf (Memory.write m a b) = true :=
  SMap.set_wf _ m a b w

/-- Writing bytes keeps the canonical form. -/
theorem Memory.writeN_wf (m : Memory) (a : Nat) (bs : List Byte) (w : Memory.wf m = true) : Memory.wf (Memory.writeN m a bs) = true := by
  induction bs generalizing m a with
  | nil => exact w
  | cons b bs ih => exact ih _ _ (Memory.write_wf m a b w)

/-- Clearing bytes keeps the canonical form. -/
theorem Memory.clear_wf (m : Memory) (a n : Nat) (w : Memory.wf m = true) : Memory.wf (Memory.clear m a n) = true :=
  SMap.filter_wfFrom _ _ m 0 w

/-- What a byte reads as after bytes are written from address `a`. -/
theorem Memory.read_writeN (m : Memory) (a : Nat) (bs : List Byte) (x : Nat) :
    Memory.read (Memory.writeN m a bs) x = if a ≤ x ∧ x < a + bs.length then bs.getD (x - a) 0 else Memory.read m x := by
  induction bs generalizing m a with
  | nil =>
    have : ¬ (a ≤ x ∧ x < a + ([] : List Byte).length) := by simp only [List.length_nil]; omega
    simp only [this, if_false, Memory.writeN]
  | cons b bs ih =>
    simp only [Memory.writeN, ih, Memory.read_write, List.length_cons]
    by_cases h : x = a
    · subst h
      have h2 : x ≤ x ∧ x < x + (bs.length + 1) := by omega
      simp [h2]
    · by_cases h' : a + 1 ≤ x ∧ x < a + 1 + bs.length
      · have h2 : a ≤ x ∧ x < a + (bs.length + 1) := by omega
        have h3 : x - a = (x - (a + 1)) + 1 := by omega
        simp only [h', h2, and_self, if_true, h3, List.getD_cons_succ]
      · have h2 : ¬ (a ≤ x ∧ x < a + (bs.length + 1)) := by omega
        simp only [h', h2, h, if_false]

/-- Bytes outside those written read as before. -/
theorem Memory.read_writeN_outside (m : Memory) (a : Nat) (bs : List Byte) (x : Nat) (h : x < a ∨ a + bs.length ≤ x) :
    Memory.read (Memory.writeN m a bs) x = Memory.read m x := by
  rw [Memory.read_writeN]
  have : ¬ (a ≤ x ∧ x < a + bs.length) := by omega
  simp [this]

/-- The bytes just written read back. -/
theorem Memory.readN_writeN (m : Memory) (a : Nat) (bs : List Byte) : Memory.readN (Memory.writeN m a bs) a bs.length = bs := by
  have key : ∀ (n : Nat) (m : Memory) (a : Nat) (bs : List Byte), bs.length = n → Memory.readN (Memory.writeN m a bs) a n = bs := by
    intro n
    induction n with
    | zero => intro m a bs h; rw [List.length_eq_zero_iff] at h; subst h; rfl
    | succ n ih =>
      intro m a bs h
      cases bs with
      | nil => simp at h
      | cons b bs =>
        simp only [List.length_cons, Nat.add_right_cancel_iff] at h
        have h1 : Memory.read (Memory.writeN m a (b :: bs)) a = b := by simp [Memory.read_writeN]
        simp only [Memory.readN, h1]
        exact congrArg _ (ih _ _ _ h)
  exact key _ m a bs rfl

end Sys2Proof.Machine
end

