-- ==== Sys2Proof/Laws/State.lean ====
section
/-! SUPPORT. The fields of the device and of a tile after each named update: an update writes its own field and leaves every
other as it was. -/

namespace Sys2Proof.Machine

variable (d : Dev) (x : Tile)

/-! ### Dev.setTile -/

@[simp] theorem Dev.setTile_regs (t : Nat) (x : Tile) : (d.setTile t x).regs = d.regs := rfl
@[simp] theorem Dev.setTile_hostCap (t : Nat) (x : Tile) : (d.setTile t x).hostCap = d.hostCap := rfl
@[simp] theorem Dev.setTile_flying (t : Nat) (x : Tile) : (d.setTile t x).flying = d.flying := rfl
@[simp] theorem Dev.setTile_cyc (t : Nat) (x : Tile) : (d.setTile t x).cyc = d.cyc := rfl
@[simp] theorem Dev.setTile_unitIn (t : Nat) (x : Tile) : (d.setTile t x).unitIn = d.unitIn := rfl
@[simp] theorem Dev.setTile_gwIn (t : Nat) (x : Tile) : (d.setTile t x).gwIn = d.gwIn := rfl
@[simp] theorem Dev.setTile_rxIn (t : Nat) (x : Tile) : (d.setTile t x).rxIn = d.rxIn := rfl
@[simp] theorem Dev.setTile_routes (t : Nat) (x : Tile) : (d.setTile t x).routes = d.routes := rfl
@[simp] theorem Dev.setTile_regions (t : Nat) (x : Tile) : (d.setTile t x).regions = d.regions := rfl
@[simp] theorem Dev.setTile_rings (t : Nat) (x : Tile) : (d.setTile t x).rings = d.rings := rfl
@[simp] theorem Dev.setTile_slots (t : Nat) (x : Tile) : (d.setTile t x).slots = d.slots := rfl
@[simp] theorem Dev.setTile_tenants (t : Nat) (x : Tile) : (d.setTile t x).tenants = d.tenants := rfl
@[simp] theorem Dev.setTile_wt (t : Nat) (x : Tile) : (d.setTile t x).wt = d.wt := rfl
@[simp] theorem Dev.setTile_hive (t : Nat) (x : Tile) : (d.setTile t x).hive = d.hive := rfl
@[simp] theorem Dev.setTile_cic (t : Nat) (x : Tile) : (d.setTile t x).cic = d.cic := rfl
@[simp] theorem Dev.setTile_ports (t : Nat) (x : Tile) : (d.setTile t x).ports = d.ports := rfl
@[simp] theorem Dev.setTile_rxFlows (t : Nat) (x : Tile) : (d.setTile t x).rxFlows = d.rxFlows := rfl
@[simp] theorem Dev.setTile_naks (t : Nat) (x : Tile) : (d.setTile t x).naks = d.naks := rfl
@[simp] theorem Dev.setTile_unitHeld (t : Nat) (x : Tile) : (d.setTile t x).unitHeld = d.unitHeld := rfl
@[simp] theorem Dev.setTile_unitSeq (t : Nat) (x : Tile) : (d.setTile t x).unitSeq = d.unitSeq := rfl
@[simp] theorem Dev.setTile_txFlows (t : Nat) (x : Tile) : (d.setTile t x).txFlows = d.txFlows := rfl
@[simp] theorem Dev.setTile_pwr (t : Nat) (x : Tile) : (d.setTile t x).pwr = d.pwr := rfl
@[simp] theorem Dev.setTile_flt (t : Nat) (x : Tile) : (d.setTile t x).flt = d.flt := rfl
@[simp] theorem Dev.setTile_host (t : Nat) (x : Tile) : (d.setTile t x).host = d.host := rfl
@[simp] theorem Dev.setTile_aon (t : Nat) (x : Tile) : (d.setTile t x).aon = d.aon := rfl
@[simp] theorem Dev.setTile_tap (t : Nat) (x : Tile) : (d.setTile t x).tap = d.tap := rfl
@[simp] theorem Dev.setTile_out (t : Nat) (x : Tile) : (d.setTile t x).out = d.out := rfl
@[simp] theorem Dev.setTile_ctr (t : Nat) (x : Tile) : (d.setTile t x).ctr = d.ctr := rfl
@[simp] theorem Dev.setTile_region (t : Nat) (x : Tile) (k' : Nat) : (d.setTile t x).region k' = d.region k' := rfl
@[simp] theorem Dev.setTile_ring (t : Nat) (x : Tile) (k' : Nat) : (d.setTile t x).ring k' = d.ring k' := rfl
@[simp] theorem Dev.setTile_slot (t : Nat) (x : Tile) (k' : Nat) : (d.setTile t x).slot k' = d.slot k' := rfl
@[simp] theorem Dev.setTile_tenant (t : Nat) (x : Tile) (k' : Nat) : (d.setTile t x).tenant k' = d.tenant k' := rfl
@[simp] theorem Dev.setTile_port (t : Nat) (x : Tile) (k' : Nat) : (d.setTile t x).port k' = d.port k' := rfl
@[simp] theorem Dev.setTile_route (t : Nat) (x : Tile) (k' : Nat) : (d.setTile t x).route k' = d.route k' := rfl
@[simp] theorem Dev.setTile_reg (t : Nat) (x : Tile) (k' : Nat) : (d.setTile t x).reg k' = d.reg k' := rfl

/-! ### Dev.modTile -/

@[simp] theorem Dev.modTile_regs (t : Nat) (f : Tile → Tile) : (d.modTile t f).regs = d.regs := rfl
@[simp] theorem Dev.modTile_hostCap (t : Nat) (f : Tile → Tile) : (d.modTile t f).hostCap = d.hostCap := rfl
@[simp] theorem Dev.modTile_flying (t : Nat) (f : Tile → Tile) : (d.modTile t f).flying = d.flying := rfl
@[simp] theorem Dev.modTile_cyc (t : Nat) (f : Tile → Tile) : (d.modTile t f).cyc = d.cyc := rfl
@[simp] theorem Dev.modTile_unitIn (t : Nat) (f : Tile → Tile) : (d.modTile t f).unitIn = d.unitIn := rfl
@[simp] theorem Dev.modTile_gwIn (t : Nat) (f : Tile → Tile) : (d.modTile t f).gwIn = d.gwIn := rfl
@[simp] theorem Dev.modTile_rxIn (t : Nat) (f : Tile → Tile) : (d.modTile t f).rxIn = d.rxIn := rfl
@[simp] theorem Dev.modTile_routes (t : Nat) (f : Tile → Tile) : (d.modTile t f).routes = d.routes := rfl
@[simp] theorem Dev.modTile_regions (t : Nat) (f : Tile → Tile) : (d.modTile t f).regions = d.regions := rfl
@[simp] theorem Dev.modTile_rings (t : Nat) (f : Tile → Tile) : (d.modTile t f).rings = d.rings := rfl
@[simp] theorem Dev.modTile_slots (t : Nat) (f : Tile → Tile) : (d.modTile t f).slots = d.slots := rfl
@[simp] theorem Dev.modTile_tenants (t : Nat) (f : Tile → Tile) : (d.modTile t f).tenants = d.tenants := rfl
@[simp] theorem Dev.modTile_wt (t : Nat) (f : Tile → Tile) : (d.modTile t f).wt = d.wt := rfl
@[simp] theorem Dev.modTile_hive (t : Nat) (f : Tile → Tile) : (d.modTile t f).hive = d.hive := rfl
@[simp] theorem Dev.modTile_cic (t : Nat) (f : Tile → Tile) : (d.modTile t f).cic = d.cic := rfl
@[simp] theorem Dev.modTile_ports (t : Nat) (f : Tile → Tile) : (d.modTile t f).ports = d.ports := rfl
@[simp] theorem Dev.modTile_rxFlows (t : Nat) (f : Tile → Tile) : (d.modTile t f).rxFlows = d.rxFlows := rfl
@[simp] theorem Dev.modTile_naks (t : Nat) (f : Tile → Tile) : (d.modTile t f).naks = d.naks := rfl
@[simp] theorem Dev.modTile_unitHeld (t : Nat) (f : Tile → Tile) : (d.modTile t f).unitHeld = d.unitHeld := rfl
@[simp] theorem Dev.modTile_unitSeq (t : Nat) (f : Tile → Tile) : (d.modTile t f).unitSeq = d.unitSeq := rfl
@[simp] theorem Dev.modTile_txFlows (t : Nat) (f : Tile → Tile) : (d.modTile t f).txFlows = d.txFlows := rfl
@[simp] theorem Dev.modTile_pwr (t : Nat) (f : Tile → Tile) : (d.modTile t f).pwr = d.pwr := rfl
@[simp] theorem Dev.modTile_flt (t : Nat) (f : Tile → Tile) : (d.modTile t f).flt = d.flt := rfl
@[simp] theorem Dev.modTile_host (t : Nat) (f : Tile → Tile) : (d.modTile t f).host = d.host := rfl
@[simp] theorem Dev.modTile_aon (t : Nat) (f : Tile → Tile) : (d.modTile t f).aon = d.aon := rfl
@[simp] theorem Dev.modTile_tap (t : Nat) (f : Tile → Tile) : (d.modTile t f).tap = d.tap := rfl
@[simp] theorem Dev.modTile_out (t : Nat) (f : Tile → Tile) : (d.modTile t f).out = d.out := rfl
@[simp] theorem Dev.modTile_ctr (t : Nat) (f : Tile → Tile) : (d.modTile t f).ctr = d.ctr := rfl
@[simp] theorem Dev.modTile_region (t : Nat) (f : Tile → Tile) (k' : Nat) : (d.modTile t f).region k' = d.region k' := rfl
@[simp] theorem Dev.modTile_ring (t : Nat) (f : Tile → Tile) (k' : Nat) : (d.modTile t f).ring k' = d.ring k' := rfl
@[simp] theorem Dev.modTile_slot (t : Nat) (f : Tile → Tile) (k' : Nat) : (d.modTile t f).slot k' = d.slot k' := rfl
@[simp] theorem Dev.modTile_tenant (t : Nat) (f : Tile → Tile) (k' : Nat) : (d.modTile t f).tenant k' = d.tenant k' := rfl
@[simp] theorem Dev.modTile_port (t : Nat) (f : Tile → Tile) (k' : Nat) : (d.modTile t f).port k' = d.port k' := rfl
@[simp] theorem Dev.modTile_route (t : Nat) (f : Tile → Tile) (k' : Nat) : (d.modTile t f).route k' = d.route k' := rfl
@[simp] theorem Dev.modTile_reg (t : Nat) (f : Tile → Tile) (k' : Nat) : (d.modTile t f).reg k' = d.reg k' := rfl

/-! ### Dev.setRegion -/

@[simp] theorem Dev.setRegion_regs (r : Nat) (x : Region) : (d.setRegion r x).regs = d.regs := rfl
@[simp] theorem Dev.setRegion_hostCap (r : Nat) (x : Region) : (d.setRegion r x).hostCap = d.hostCap := rfl
@[simp] theorem Dev.setRegion_tiles (r : Nat) (x : Region) : (d.setRegion r x).tiles = d.tiles := rfl
@[simp] theorem Dev.setRegion_flying (r : Nat) (x : Region) : (d.setRegion r x).flying = d.flying := rfl
@[simp] theorem Dev.setRegion_cyc (r : Nat) (x : Region) : (d.setRegion r x).cyc = d.cyc := rfl
@[simp] theorem Dev.setRegion_unitIn (r : Nat) (x : Region) : (d.setRegion r x).unitIn = d.unitIn := rfl
@[simp] theorem Dev.setRegion_gwIn (r : Nat) (x : Region) : (d.setRegion r x).gwIn = d.gwIn := rfl
@[simp] theorem Dev.setRegion_rxIn (r : Nat) (x : Region) : (d.setRegion r x).rxIn = d.rxIn := rfl
@[simp] theorem Dev.setRegion_routes (r : Nat) (x : Region) : (d.setRegion r x).routes = d.routes := rfl
@[simp] theorem Dev.setRegion_rings (r : Nat) (x : Region) : (d.setRegion r x).rings = d.rings := rfl
@[simp] theorem Dev.setRegion_slots (r : Nat) (x : Region) : (d.setRegion r x).slots = d.slots := rfl
@[simp] theorem Dev.setRegion_tenants (r : Nat) (x : Region) : (d.setRegion r x).tenants = d.tenants := rfl
@[simp] theorem Dev.setRegion_wt (r : Nat) (x : Region) : (d.setRegion r x).wt = d.wt := rfl
@[simp] theorem Dev.setRegion_hive (r : Nat) (x : Region) : (d.setRegion r x).hive = d.hive := rfl
@[simp] theorem Dev.setRegion_cic (r : Nat) (x : Region) : (d.setRegion r x).cic = d.cic := rfl
@[simp] theorem Dev.setRegion_ports (r : Nat) (x : Region) : (d.setRegion r x).ports = d.ports := rfl
@[simp] theorem Dev.setRegion_rxFlows (r : Nat) (x : Region) : (d.setRegion r x).rxFlows = d.rxFlows := rfl
@[simp] theorem Dev.setRegion_naks (r : Nat) (x : Region) : (d.setRegion r x).naks = d.naks := rfl
@[simp] theorem Dev.setRegion_unitHeld (r : Nat) (x : Region) : (d.setRegion r x).unitHeld = d.unitHeld := rfl
@[simp] theorem Dev.setRegion_unitSeq (r : Nat) (x : Region) : (d.setRegion r x).unitSeq = d.unitSeq := rfl
@[simp] theorem Dev.setRegion_txFlows (r : Nat) (x : Region) : (d.setRegion r x).txFlows = d.txFlows := rfl
@[simp] theorem Dev.setRegion_pwr (r : Nat) (x : Region) : (d.setRegion r x).pwr = d.pwr := rfl
@[simp] theorem Dev.setRegion_flt (r : Nat) (x : Region) : (d.setRegion r x).flt = d.flt := rfl
@[simp] theorem Dev.setRegion_host (r : Nat) (x : Region) : (d.setRegion r x).host = d.host := rfl
@[simp] theorem Dev.setRegion_aon (r : Nat) (x : Region) : (d.setRegion r x).aon = d.aon := rfl
@[simp] theorem Dev.setRegion_tap (r : Nat) (x : Region) : (d.setRegion r x).tap = d.tap := rfl
@[simp] theorem Dev.setRegion_out (r : Nat) (x : Region) : (d.setRegion r x).out = d.out := rfl
@[simp] theorem Dev.setRegion_ctr (r : Nat) (x : Region) : (d.setRegion r x).ctr = d.ctr := rfl
@[simp] theorem Dev.setRegion_tile (r : Nat) (x : Region) (k' : Nat) : (d.setRegion r x).tile k' = d.tile k' := rfl
@[simp] theorem Dev.setRegion_ring (r : Nat) (x : Region) (k' : Nat) : (d.setRegion r x).ring k' = d.ring k' := rfl
@[simp] theorem Dev.setRegion_slot (r : Nat) (x : Region) (k' : Nat) : (d.setRegion r x).slot k' = d.slot k' := rfl
@[simp] theorem Dev.setRegion_tenant (r : Nat) (x : Region) (k' : Nat) : (d.setRegion r x).tenant k' = d.tenant k' := rfl
@[simp] theorem Dev.setRegion_port (r : Nat) (x : Region) (k' : Nat) : (d.setRegion r x).port k' = d.port k' := rfl
@[simp] theorem Dev.setRegion_route (r : Nat) (x : Region) (k' : Nat) : (d.setRegion r x).route k' = d.route k' := rfl
@[simp] theorem Dev.setRegion_reg (r : Nat) (x : Region) (k' : Nat) : (d.setRegion r x).reg k' = d.reg k' := rfl

/-! ### Dev.modRegion -/

@[simp] theorem Dev.modRegion_regs (r : Nat) (f : Region → Region) : (d.modRegion r f).regs = d.regs := rfl
@[simp] theorem Dev.modRegion_hostCap (r : Nat) (f : Region → Region) : (d.modRegion r f).hostCap = d.hostCap := rfl
@[simp] theorem Dev.modRegion_tiles (r : Nat) (f : Region → Region) : (d.modRegion r f).tiles = d.tiles := rfl
@[simp] theorem Dev.modRegion_flying (r : Nat) (f : Region → Region) : (d.modRegion r f).flying = d.flying := rfl
@[simp] theorem Dev.modRegion_cyc (r : Nat) (f : Region → Region) : (d.modRegion r f).cyc = d.cyc := rfl
@[simp] theorem Dev.modRegion_unitIn (r : Nat) (f : Region → Region) : (d.modRegion r f).unitIn = d.unitIn := rfl
@[simp] theorem Dev.modRegion_gwIn (r : Nat) (f : Region → Region) : (d.modRegion r f).gwIn = d.gwIn := rfl
@[simp] theorem Dev.modRegion_rxIn (r : Nat) (f : Region → Region) : (d.modRegion r f).rxIn = d.rxIn := rfl
@[simp] theorem Dev.modRegion_routes (r : Nat) (f : Region → Region) : (d.modRegion r f).routes = d.routes := rfl
@[simp] theorem Dev.modRegion_rings (r : Nat) (f : Region → Region) : (d.modRegion r f).rings = d.rings := rfl
@[simp] theorem Dev.modRegion_slots (r : Nat) (f : Region → Region) : (d.modRegion r f).slots = d.slots := rfl
@[simp] theorem Dev.modRegion_tenants (r : Nat) (f : Region → Region) : (d.modRegion r f).tenants = d.tenants := rfl
@[simp] theorem Dev.modRegion_wt (r : Nat) (f : Region → Region) : (d.modRegion r f).wt = d.wt := rfl
@[simp] theorem Dev.modRegion_hive (r : Nat) (f : Region → Region) : (d.modRegion r f).hive = d.hive := rfl
@[simp] theorem Dev.modRegion_cic (r : Nat) (f : Region → Region) : (d.modRegion r f).cic = d.cic := rfl
@[simp] theorem Dev.modRegion_ports (r : Nat) (f : Region → Region) : (d.modRegion r f).ports = d.ports := rfl
@[simp] theorem Dev.modRegion_rxFlows (r : Nat) (f : Region → Region) : (d.modRegion r f).rxFlows = d.rxFlows := rfl
@[simp] theorem Dev.modRegion_naks (r : Nat) (f : Region → Region) : (d.modRegion r f).naks = d.naks := rfl
@[simp] theorem Dev.modRegion_unitHeld (r : Nat) (f : Region → Region) : (d.modRegion r f).unitHeld = d.unitHeld := rfl
@[simp] theorem Dev.modRegion_unitSeq (r : Nat) (f : Region → Region) : (d.modRegion r f).unitSeq = d.unitSeq := rfl
@[simp] theorem Dev.modRegion_txFlows (r : Nat) (f : Region → Region) : (d.modRegion r f).txFlows = d.txFlows := rfl
@[simp] theorem Dev.modRegion_pwr (r : Nat) (f : Region → Region) : (d.modRegion r f).pwr = d.pwr := rfl
@[simp] theorem Dev.modRegion_flt (r : Nat) (f : Region → Region) : (d.modRegion r f).flt = d.flt := rfl
@[simp] theorem Dev.modRegion_host (r : Nat) (f : Region → Region) : (d.modRegion r f).host = d.host := rfl
@[simp] theorem Dev.modRegion_aon (r : Nat) (f : Region → Region) : (d.modRegion r f).aon = d.aon := rfl
@[simp] theorem Dev.modRegion_tap (r : Nat) (f : Region → Region) : (d.modRegion r f).tap = d.tap := rfl
@[simp] theorem Dev.modRegion_out (r : Nat) (f : Region → Region) : (d.modRegion r f).out = d.out := rfl
@[simp] theorem Dev.modRegion_ctr (r : Nat) (f : Region → Region) : (d.modRegion r f).ctr = d.ctr := rfl
@[simp] theorem Dev.modRegion_tile (r : Nat) (f : Region → Region) (k' : Nat) : (d.modRegion r f).tile k' = d.tile k' := rfl
@[simp] theorem Dev.modRegion_ring (r : Nat) (f : Region → Region) (k' : Nat) : (d.modRegion r f).ring k' = d.ring k' := rfl
@[simp] theorem Dev.modRegion_slot (r : Nat) (f : Region → Region) (k' : Nat) : (d.modRegion r f).slot k' = d.slot k' := rfl
@[simp] theorem Dev.modRegion_tenant (r : Nat) (f : Region → Region) (k' : Nat) : (d.modRegion r f).tenant k' = d.tenant k' := rfl
@[simp] theorem Dev.modRegion_port (r : Nat) (f : Region → Region) (k' : Nat) : (d.modRegion r f).port k' = d.port k' := rfl
@[simp] theorem Dev.modRegion_route (r : Nat) (f : Region → Region) (k' : Nat) : (d.modRegion r f).route k' = d.route k' := rfl
@[simp] theorem Dev.modRegion_reg (r : Nat) (f : Region → Region) (k' : Nat) : (d.modRegion r f).reg k' = d.reg k' := rfl

/-! ### Dev.setRing -/

@[simp] theorem Dev.setRing_regs (p : Nat) (x : Ring) : (d.setRing p x).regs = d.regs := rfl
@[simp] theorem Dev.setRing_hostCap (p : Nat) (x : Ring) : (d.setRing p x).hostCap = d.hostCap := rfl
@[simp] theorem Dev.setRing_tiles (p : Nat) (x : Ring) : (d.setRing p x).tiles = d.tiles := rfl
@[simp] theorem Dev.setRing_flying (p : Nat) (x : Ring) : (d.setRing p x).flying = d.flying := rfl
@[simp] theorem Dev.setRing_cyc (p : Nat) (x : Ring) : (d.setRing p x).cyc = d.cyc := rfl
@[simp] theorem Dev.setRing_unitIn (p : Nat) (x : Ring) : (d.setRing p x).unitIn = d.unitIn := rfl
@[simp] theorem Dev.setRing_gwIn (p : Nat) (x : Ring) : (d.setRing p x).gwIn = d.gwIn := rfl
@[simp] theorem Dev.setRing_rxIn (p : Nat) (x : Ring) : (d.setRing p x).rxIn = d.rxIn := rfl
@[simp] theorem Dev.setRing_routes (p : Nat) (x : Ring) : (d.setRing p x).routes = d.routes := rfl
@[simp] theorem Dev.setRing_regions (p : Nat) (x : Ring) : (d.setRing p x).regions = d.regions := rfl
@[simp] theorem Dev.setRing_slots (p : Nat) (x : Ring) : (d.setRing p x).slots = d.slots := rfl
@[simp] theorem Dev.setRing_tenants (p : Nat) (x : Ring) : (d.setRing p x).tenants = d.tenants := rfl
@[simp] theorem Dev.setRing_wt (p : Nat) (x : Ring) : (d.setRing p x).wt = d.wt := rfl
@[simp] theorem Dev.setRing_hive (p : Nat) (x : Ring) : (d.setRing p x).hive = d.hive := rfl
@[simp] theorem Dev.setRing_cic (p : Nat) (x : Ring) : (d.setRing p x).cic = d.cic := rfl
@[simp] theorem Dev.setRing_ports (p : Nat) (x : Ring) : (d.setRing p x).ports = d.ports := rfl
@[simp] theorem Dev.setRing_rxFlows (p : Nat) (x : Ring) : (d.setRing p x).rxFlows = d.rxFlows := rfl
@[simp] theorem Dev.setRing_naks (p : Nat) (x : Ring) : (d.setRing p x).naks = d.naks := rfl
@[simp] theorem Dev.setRing_unitHeld (p : Nat) (x : Ring) : (d.setRing p x).unitHeld = d.unitHeld := rfl
@[simp] theorem Dev.setRing_unitSeq (p : Nat) (x : Ring) : (d.setRing p x).unitSeq = d.unitSeq := rfl
@[simp] theorem Dev.setRing_txFlows (p : Nat) (x : Ring) : (d.setRing p x).txFlows = d.txFlows := rfl
@[simp] theorem Dev.setRing_pwr (p : Nat) (x : Ring) : (d.setRing p x).pwr = d.pwr := rfl
@[simp] theorem Dev.setRing_flt (p : Nat) (x : Ring) : (d.setRing p x).flt = d.flt := rfl
@[simp] theorem Dev.setRing_host (p : Nat) (x : Ring) : (d.setRing p x).host = d.host := rfl
@[simp] theorem Dev.setRing_aon (p : Nat) (x : Ring) : (d.setRing p x).aon = d.aon := rfl
@[simp] theorem Dev.setRing_tap (p : Nat) (x : Ring) : (d.setRing p x).tap = d.tap := rfl
@[simp] theorem Dev.setRing_out (p : Nat) (x : Ring) : (d.setRing p x).out = d.out := rfl
@[simp] theorem Dev.setRing_ctr (p : Nat) (x : Ring) : (d.setRing p x).ctr = d.ctr := rfl
@[simp] theorem Dev.setRing_tile (p : Nat) (x : Ring) (k' : Nat) : (d.setRing p x).tile k' = d.tile k' := rfl
@[simp] theorem Dev.setRing_region (p : Nat) (x : Ring) (k' : Nat) : (d.setRing p x).region k' = d.region k' := rfl
@[simp] theorem Dev.setRing_slot (p : Nat) (x : Ring) (k' : Nat) : (d.setRing p x).slot k' = d.slot k' := rfl
@[simp] theorem Dev.setRing_tenant (p : Nat) (x : Ring) (k' : Nat) : (d.setRing p x).tenant k' = d.tenant k' := rfl
@[simp] theorem Dev.setRing_port (p : Nat) (x : Ring) (k' : Nat) : (d.setRing p x).port k' = d.port k' := rfl
@[simp] theorem Dev.setRing_route (p : Nat) (x : Ring) (k' : Nat) : (d.setRing p x).route k' = d.route k' := rfl
@[simp] theorem Dev.setRing_reg (p : Nat) (x : Ring) (k' : Nat) : (d.setRing p x).reg k' = d.reg k' := rfl

/-! ### Dev.setSlot -/

@[simp] theorem Dev.setSlot_regs (k : Nat) (x : Slot) : (d.setSlot k x).regs = d.regs := rfl
@[simp] theorem Dev.setSlot_hostCap (k : Nat) (x : Slot) : (d.setSlot k x).hostCap = d.hostCap := rfl
@[simp] theorem Dev.setSlot_tiles (k : Nat) (x : Slot) : (d.setSlot k x).tiles = d.tiles := rfl
@[simp] theorem Dev.setSlot_flying (k : Nat) (x : Slot) : (d.setSlot k x).flying = d.flying := rfl
@[simp] theorem Dev.setSlot_cyc (k : Nat) (x : Slot) : (d.setSlot k x).cyc = d.cyc := rfl
@[simp] theorem Dev.setSlot_unitIn (k : Nat) (x : Slot) : (d.setSlot k x).unitIn = d.unitIn := rfl
@[simp] theorem Dev.setSlot_gwIn (k : Nat) (x : Slot) : (d.setSlot k x).gwIn = d.gwIn := rfl
@[simp] theorem Dev.setSlot_rxIn (k : Nat) (x : Slot) : (d.setSlot k x).rxIn = d.rxIn := rfl
@[simp] theorem Dev.setSlot_routes (k : Nat) (x : Slot) : (d.setSlot k x).routes = d.routes := rfl
@[simp] theorem Dev.setSlot_regions (k : Nat) (x : Slot) : (d.setSlot k x).regions = d.regions := rfl
@[simp] theorem Dev.setSlot_rings (k : Nat) (x : Slot) : (d.setSlot k x).rings = d.rings := rfl
@[simp] theorem Dev.setSlot_tenants (k : Nat) (x : Slot) : (d.setSlot k x).tenants = d.tenants := rfl
@[simp] theorem Dev.setSlot_wt (k : Nat) (x : Slot) : (d.setSlot k x).wt = d.wt := rfl
@[simp] theorem Dev.setSlot_hive (k : Nat) (x : Slot) : (d.setSlot k x).hive = d.hive := rfl
@[simp] theorem Dev.setSlot_cic (k : Nat) (x : Slot) : (d.setSlot k x).cic = d.cic := rfl
@[simp] theorem Dev.setSlot_ports (k : Nat) (x : Slot) : (d.setSlot k x).ports = d.ports := rfl
@[simp] theorem Dev.setSlot_rxFlows (k : Nat) (x : Slot) : (d.setSlot k x).rxFlows = d.rxFlows := rfl
@[simp] theorem Dev.setSlot_naks (k : Nat) (x : Slot) : (d.setSlot k x).naks = d.naks := rfl
@[simp] theorem Dev.setSlot_unitHeld (k : Nat) (x : Slot) : (d.setSlot k x).unitHeld = d.unitHeld := rfl
@[simp] theorem Dev.setSlot_unitSeq (k : Nat) (x : Slot) : (d.setSlot k x).unitSeq = d.unitSeq := rfl
@[simp] theorem Dev.setSlot_txFlows (k : Nat) (x : Slot) : (d.setSlot k x).txFlows = d.txFlows := rfl
@[simp] theorem Dev.setSlot_pwr (k : Nat) (x : Slot) : (d.setSlot k x).pwr = d.pwr := rfl
@[simp] theorem Dev.setSlot_flt (k : Nat) (x : Slot) : (d.setSlot k x).flt = d.flt := rfl
@[simp] theorem Dev.setSlot_host (k : Nat) (x : Slot) : (d.setSlot k x).host = d.host := rfl
@[simp] theorem Dev.setSlot_aon (k : Nat) (x : Slot) : (d.setSlot k x).aon = d.aon := rfl
@[simp] theorem Dev.setSlot_tap (k : Nat) (x : Slot) : (d.setSlot k x).tap = d.tap := rfl
@[simp] theorem Dev.setSlot_out (k : Nat) (x : Slot) : (d.setSlot k x).out = d.out := rfl
@[simp] theorem Dev.setSlot_ctr (k : Nat) (x : Slot) : (d.setSlot k x).ctr = d.ctr := rfl
@[simp] theorem Dev.setSlot_tile (k : Nat) (x : Slot) (k' : Nat) : (d.setSlot k x).tile k' = d.tile k' := rfl
@[simp] theorem Dev.setSlot_region (k : Nat) (x : Slot) (k' : Nat) : (d.setSlot k x).region k' = d.region k' := rfl
@[simp] theorem Dev.setSlot_ring (k : Nat) (x : Slot) (k' : Nat) : (d.setSlot k x).ring k' = d.ring k' := rfl
@[simp] theorem Dev.setSlot_tenant (k : Nat) (x : Slot) (k' : Nat) : (d.setSlot k x).tenant k' = d.tenant k' := rfl
@[simp] theorem Dev.setSlot_port (k : Nat) (x : Slot) (k' : Nat) : (d.setSlot k x).port k' = d.port k' := rfl
@[simp] theorem Dev.setSlot_route (k : Nat) (x : Slot) (k' : Nat) : (d.setSlot k x).route k' = d.route k' := rfl
@[simp] theorem Dev.setSlot_reg (k : Nat) (x : Slot) (k' : Nat) : (d.setSlot k x).reg k' = d.reg k' := rfl

/-! ### Dev.setTenant -/

@[simp] theorem Dev.setTenant_regs (k : Nat) (x : Tenant) : (d.setTenant k x).regs = d.regs := rfl
@[simp] theorem Dev.setTenant_hostCap (k : Nat) (x : Tenant) : (d.setTenant k x).hostCap = d.hostCap := rfl
@[simp] theorem Dev.setTenant_tiles (k : Nat) (x : Tenant) : (d.setTenant k x).tiles = d.tiles := rfl
@[simp] theorem Dev.setTenant_flying (k : Nat) (x : Tenant) : (d.setTenant k x).flying = d.flying := rfl
@[simp] theorem Dev.setTenant_cyc (k : Nat) (x : Tenant) : (d.setTenant k x).cyc = d.cyc := rfl
@[simp] theorem Dev.setTenant_unitIn (k : Nat) (x : Tenant) : (d.setTenant k x).unitIn = d.unitIn := rfl
@[simp] theorem Dev.setTenant_gwIn (k : Nat) (x : Tenant) : (d.setTenant k x).gwIn = d.gwIn := rfl
@[simp] theorem Dev.setTenant_rxIn (k : Nat) (x : Tenant) : (d.setTenant k x).rxIn = d.rxIn := rfl
@[simp] theorem Dev.setTenant_routes (k : Nat) (x : Tenant) : (d.setTenant k x).routes = d.routes := rfl
@[simp] theorem Dev.setTenant_regions (k : Nat) (x : Tenant) : (d.setTenant k x).regions = d.regions := rfl
@[simp] theorem Dev.setTenant_rings (k : Nat) (x : Tenant) : (d.setTenant k x).rings = d.rings := rfl
@[simp] theorem Dev.setTenant_slots (k : Nat) (x : Tenant) : (d.setTenant k x).slots = d.slots := rfl
@[simp] theorem Dev.setTenant_wt (k : Nat) (x : Tenant) : (d.setTenant k x).wt = d.wt := rfl
@[simp] theorem Dev.setTenant_hive (k : Nat) (x : Tenant) : (d.setTenant k x).hive = d.hive := rfl
@[simp] theorem Dev.setTenant_cic (k : Nat) (x : Tenant) : (d.setTenant k x).cic = d.cic := rfl
@[simp] theorem Dev.setTenant_ports (k : Nat) (x : Tenant) : (d.setTenant k x).ports = d.ports := rfl
@[simp] theorem Dev.setTenant_rxFlows (k : Nat) (x : Tenant) : (d.setTenant k x).rxFlows = d.rxFlows := rfl
@[simp] theorem Dev.setTenant_naks (k : Nat) (x : Tenant) : (d.setTenant k x).naks = d.naks := rfl
@[simp] theorem Dev.setTenant_unitHeld (k : Nat) (x : Tenant) : (d.setTenant k x).unitHeld = d.unitHeld := rfl
@[simp] theorem Dev.setTenant_unitSeq (k : Nat) (x : Tenant) : (d.setTenant k x).unitSeq = d.unitSeq := rfl
@[simp] theorem Dev.setTenant_txFlows (k : Nat) (x : Tenant) : (d.setTenant k x).txFlows = d.txFlows := rfl
@[simp] theorem Dev.setTenant_pwr (k : Nat) (x : Tenant) : (d.setTenant k x).pwr = d.pwr := rfl
@[simp] theorem Dev.setTenant_flt (k : Nat) (x : Tenant) : (d.setTenant k x).flt = d.flt := rfl
@[simp] theorem Dev.setTenant_host (k : Nat) (x : Tenant) : (d.setTenant k x).host = d.host := rfl
@[simp] theorem Dev.setTenant_aon (k : Nat) (x : Tenant) : (d.setTenant k x).aon = d.aon := rfl
@[simp] theorem Dev.setTenant_tap (k : Nat) (x : Tenant) : (d.setTenant k x).tap = d.tap := rfl
@[simp] theorem Dev.setTenant_out (k : Nat) (x : Tenant) : (d.setTenant k x).out = d.out := rfl
@[simp] theorem Dev.setTenant_ctr (k : Nat) (x : Tenant) : (d.setTenant k x).ctr = d.ctr := rfl
@[simp] theorem Dev.setTenant_tile (k : Nat) (x : Tenant) (k' : Nat) : (d.setTenant k x).tile k' = d.tile k' := rfl
@[simp] theorem Dev.setTenant_region (k : Nat) (x : Tenant) (k' : Nat) : (d.setTenant k x).region k' = d.region k' := rfl
@[simp] theorem Dev.setTenant_ring (k : Nat) (x : Tenant) (k' : Nat) : (d.setTenant k x).ring k' = d.ring k' := rfl
@[simp] theorem Dev.setTenant_slot (k : Nat) (x : Tenant) (k' : Nat) : (d.setTenant k x).slot k' = d.slot k' := rfl
@[simp] theorem Dev.setTenant_port (k : Nat) (x : Tenant) (k' : Nat) : (d.setTenant k x).port k' = d.port k' := rfl
@[simp] theorem Dev.setTenant_route (k : Nat) (x : Tenant) (k' : Nat) : (d.setTenant k x).route k' = d.route k' := rfl
@[simp] theorem Dev.setTenant_reg (k : Nat) (x : Tenant) (k' : Nat) : (d.setTenant k x).reg k' = d.reg k' := rfl

/-! ### Dev.setPort -/

@[simp] theorem Dev.setPort_regs (p : Nat) (x : Port) : (d.setPort p x).regs = d.regs := rfl
@[simp] theorem Dev.setPort_hostCap (p : Nat) (x : Port) : (d.setPort p x).hostCap = d.hostCap := rfl
@[simp] theorem Dev.setPort_tiles (p : Nat) (x : Port) : (d.setPort p x).tiles = d.tiles := rfl
@[simp] theorem Dev.setPort_flying (p : Nat) (x : Port) : (d.setPort p x).flying = d.flying := rfl
@[simp] theorem Dev.setPort_cyc (p : Nat) (x : Port) : (d.setPort p x).cyc = d.cyc := rfl
@[simp] theorem Dev.setPort_unitIn (p : Nat) (x : Port) : (d.setPort p x).unitIn = d.unitIn := rfl
@[simp] theorem Dev.setPort_gwIn (p : Nat) (x : Port) : (d.setPort p x).gwIn = d.gwIn := rfl
@[simp] theorem Dev.setPort_rxIn (p : Nat) (x : Port) : (d.setPort p x).rxIn = d.rxIn := rfl
@[simp] theorem Dev.setPort_routes (p : Nat) (x : Port) : (d.setPort p x).routes = d.routes := rfl
@[simp] theorem Dev.setPort_regions (p : Nat) (x : Port) : (d.setPort p x).regions = d.regions := rfl
@[simp] theorem Dev.setPort_rings (p : Nat) (x : Port) : (d.setPort p x).rings = d.rings := rfl
@[simp] theorem Dev.setPort_slots (p : Nat) (x : Port) : (d.setPort p x).slots = d.slots := rfl
@[simp] theorem Dev.setPort_tenants (p : Nat) (x : Port) : (d.setPort p x).tenants = d.tenants := rfl
@[simp] theorem Dev.setPort_wt (p : Nat) (x : Port) : (d.setPort p x).wt = d.wt := rfl
@[simp] theorem Dev.setPort_hive (p : Nat) (x : Port) : (d.setPort p x).hive = d.hive := rfl
@[simp] theorem Dev.setPort_cic (p : Nat) (x : Port) : (d.setPort p x).cic = d.cic := rfl
@[simp] theorem Dev.setPort_rxFlows (p : Nat) (x : Port) : (d.setPort p x).rxFlows = d.rxFlows := rfl
@[simp] theorem Dev.setPort_naks (p : Nat) (x : Port) : (d.setPort p x).naks = d.naks := rfl
@[simp] theorem Dev.setPort_unitHeld (p : Nat) (x : Port) : (d.setPort p x).unitHeld = d.unitHeld := rfl
@[simp] theorem Dev.setPort_unitSeq (p : Nat) (x : Port) : (d.setPort p x).unitSeq = d.unitSeq := rfl
@[simp] theorem Dev.setPort_txFlows (p : Nat) (x : Port) : (d.setPort p x).txFlows = d.txFlows := rfl
@[simp] theorem Dev.setPort_pwr (p : Nat) (x : Port) : (d.setPort p x).pwr = d.pwr := rfl
@[simp] theorem Dev.setPort_flt (p : Nat) (x : Port) : (d.setPort p x).flt = d.flt := rfl
@[simp] theorem Dev.setPort_host (p : Nat) (x : Port) : (d.setPort p x).host = d.host := rfl
@[simp] theorem Dev.setPort_aon (p : Nat) (x : Port) : (d.setPort p x).aon = d.aon := rfl
@[simp] theorem Dev.setPort_tap (p : Nat) (x : Port) : (d.setPort p x).tap = d.tap := rfl
@[simp] theorem Dev.setPort_out (p : Nat) (x : Port) : (d.setPort p x).out = d.out := rfl
@[simp] theorem Dev.setPort_ctr (p : Nat) (x : Port) : (d.setPort p x).ctr = d.ctr := rfl
@[simp] theorem Dev.setPort_tile (p : Nat) (x : Port) (k' : Nat) : (d.setPort p x).tile k' = d.tile k' := rfl
@[simp] theorem Dev.setPort_region (p : Nat) (x : Port) (k' : Nat) : (d.setPort p x).region k' = d.region k' := rfl
@[simp] theorem Dev.setPort_ring (p : Nat) (x : Port) (k' : Nat) : (d.setPort p x).ring k' = d.ring k' := rfl
@[simp] theorem Dev.setPort_slot (p : Nat) (x : Port) (k' : Nat) : (d.setPort p x).slot k' = d.slot k' := rfl
@[simp] theorem Dev.setPort_tenant (p : Nat) (x : Port) (k' : Nat) : (d.setPort p x).tenant k' = d.tenant k' := rfl
@[simp] theorem Dev.setPort_route (p : Nat) (x : Port) (k' : Nat) : (d.setPort p x).route k' = d.route k' := rfl
@[simp] theorem Dev.setPort_reg (p : Nat) (x : Port) (k' : Nat) : (d.setPort p x).reg k' = d.reg k' := rfl

/-! ### Dev.modPort -/

@[simp] theorem Dev.modPort_regs (p : Nat) (f : Port → Port) : (d.modPort p f).regs = d.regs := rfl
@[simp] theorem Dev.modPort_hostCap (p : Nat) (f : Port → Port) : (d.modPort p f).hostCap = d.hostCap := rfl
@[simp] theorem Dev.modPort_tiles (p : Nat) (f : Port → Port) : (d.modPort p f).tiles = d.tiles := rfl
@[simp] theorem Dev.modPort_flying (p : Nat) (f : Port → Port) : (d.modPort p f).flying = d.flying := rfl
@[simp] theorem Dev.modPort_cyc (p : Nat) (f : Port → Port) : (d.modPort p f).cyc = d.cyc := rfl
@[simp] theorem Dev.modPort_unitIn (p : Nat) (f : Port → Port) : (d.modPort p f).unitIn = d.unitIn := rfl
@[simp] theorem Dev.modPort_gwIn (p : Nat) (f : Port → Port) : (d.modPort p f).gwIn = d.gwIn := rfl
@[simp] theorem Dev.modPort_rxIn (p : Nat) (f : Port → Port) : (d.modPort p f).rxIn = d.rxIn := rfl
@[simp] theorem Dev.modPort_routes (p : Nat) (f : Port → Port) : (d.modPort p f).routes = d.routes := rfl
@[simp] theorem Dev.modPort_regions (p : Nat) (f : Port → Port) : (d.modPort p f).regions = d.regions := rfl
@[simp] theorem Dev.modPort_rings (p : Nat) (f : Port → Port) : (d.modPort p f).rings = d.rings := rfl
@[simp] theorem Dev.modPort_slots (p : Nat) (f : Port → Port) : (d.modPort p f).slots = d.slots := rfl
@[simp] theorem Dev.modPort_tenants (p : Nat) (f : Port → Port) : (d.modPort p f).tenants = d.tenants := rfl
@[simp] theorem Dev.modPort_wt (p : Nat) (f : Port → Port) : (d.modPort p f).wt = d.wt := rfl
@[simp] theorem Dev.modPort_hive (p : Nat) (f : Port → Port) : (d.modPort p f).hive = d.hive := rfl
@[simp] theorem Dev.modPort_cic (p : Nat) (f : Port → Port) : (d.modPort p f).cic = d.cic := rfl
@[simp] theorem Dev.modPort_rxFlows (p : Nat) (f : Port → Port) : (d.modPort p f).rxFlows = d.rxFlows := rfl
@[simp] theorem Dev.modPort_naks (p : Nat) (f : Port → Port) : (d.modPort p f).naks = d.naks := rfl
@[simp] theorem Dev.modPort_unitHeld (p : Nat) (f : Port → Port) : (d.modPort p f).unitHeld = d.unitHeld := rfl
@[simp] theorem Dev.modPort_unitSeq (p : Nat) (f : Port → Port) : (d.modPort p f).unitSeq = d.unitSeq := rfl
@[simp] theorem Dev.modPort_txFlows (p : Nat) (f : Port → Port) : (d.modPort p f).txFlows = d.txFlows := rfl
@[simp] theorem Dev.modPort_pwr (p : Nat) (f : Port → Port) : (d.modPort p f).pwr = d.pwr := rfl
@[simp] theorem Dev.modPort_flt (p : Nat) (f : Port → Port) : (d.modPort p f).flt = d.flt := rfl
@[simp] theorem Dev.modPort_host (p : Nat) (f : Port → Port) : (d.modPort p f).host = d.host := rfl
@[simp] theorem Dev.modPort_aon (p : Nat) (f : Port → Port) : (d.modPort p f).aon = d.aon := rfl
@[simp] theorem Dev.modPort_tap (p : Nat) (f : Port → Port) : (d.modPort p f).tap = d.tap := rfl
@[simp] theorem Dev.modPort_out (p : Nat) (f : Port → Port) : (d.modPort p f).out = d.out := rfl
@[simp] theorem Dev.modPort_ctr (p : Nat) (f : Port → Port) : (d.modPort p f).ctr = d.ctr := rfl
@[simp] theorem Dev.modPort_tile (p : Nat) (f : Port → Port) (k' : Nat) : (d.modPort p f).tile k' = d.tile k' := rfl
@[simp] theorem Dev.modPort_region (p : Nat) (f : Port → Port) (k' : Nat) : (d.modPort p f).region k' = d.region k' := rfl
@[simp] theorem Dev.modPort_ring (p : Nat) (f : Port → Port) (k' : Nat) : (d.modPort p f).ring k' = d.ring k' := rfl
@[simp] theorem Dev.modPort_slot (p : Nat) (f : Port → Port) (k' : Nat) : (d.modPort p f).slot k' = d.slot k' := rfl
@[simp] theorem Dev.modPort_tenant (p : Nat) (f : Port → Port) (k' : Nat) : (d.modPort p f).tenant k' = d.tenant k' := rfl
@[simp] theorem Dev.modPort_route (p : Nat) (f : Port → Port) (k' : Nat) : (d.modPort p f).route k' = d.route k' := rfl
@[simp] theorem Dev.modPort_reg (p : Nat) (f : Port → Port) (k' : Nat) : (d.modPort p f).reg k' = d.reg k' := rfl

/-! ### Dev.setReg -/

@[simp] theorem Dev.setReg_hostCap (a : Nat) (v : W64) : (d.setReg a v).hostCap = d.hostCap := rfl
@[simp] theorem Dev.setReg_tiles (a : Nat) (v : W64) : (d.setReg a v).tiles = d.tiles := rfl
@[simp] theorem Dev.setReg_flying (a : Nat) (v : W64) : (d.setReg a v).flying = d.flying := rfl
@[simp] theorem Dev.setReg_cyc (a : Nat) (v : W64) : (d.setReg a v).cyc = d.cyc := rfl
@[simp] theorem Dev.setReg_unitIn (a : Nat) (v : W64) : (d.setReg a v).unitIn = d.unitIn := rfl
@[simp] theorem Dev.setReg_gwIn (a : Nat) (v : W64) : (d.setReg a v).gwIn = d.gwIn := rfl
@[simp] theorem Dev.setReg_rxIn (a : Nat) (v : W64) : (d.setReg a v).rxIn = d.rxIn := rfl
@[simp] theorem Dev.setReg_routes (a : Nat) (v : W64) : (d.setReg a v).routes = d.routes := rfl
@[simp] theorem Dev.setReg_regions (a : Nat) (v : W64) : (d.setReg a v).regions = d.regions := rfl
@[simp] theorem Dev.setReg_rings (a : Nat) (v : W64) : (d.setReg a v).rings = d.rings := rfl
@[simp] theorem Dev.setReg_slots (a : Nat) (v : W64) : (d.setReg a v).slots = d.slots := rfl
@[simp] theorem Dev.setReg_tenants (a : Nat) (v : W64) : (d.setReg a v).tenants = d.tenants := rfl
@[simp] theorem Dev.setReg_wt (a : Nat) (v : W64) : (d.setReg a v).wt = d.wt := rfl
@[simp] theorem Dev.setReg_hive (a : Nat) (v : W64) : (d.setReg a v).hive = d.hive := rfl
@[simp] theorem Dev.setReg_cic (a : Nat) (v : W64) : (d.setReg a v).cic = d.cic := rfl
@[simp] theorem Dev.setReg_ports (a : Nat) (v : W64) : (d.setReg a v).ports = d.ports := rfl
@[simp] theorem Dev.setReg_rxFlows (a : Nat) (v : W64) : (d.setReg a v).rxFlows = d.rxFlows := rfl
@[simp] theorem Dev.setReg_naks (a : Nat) (v : W64) : (d.setReg a v).naks = d.naks := rfl
@[simp] theorem Dev.setReg_unitHeld (a : Nat) (v : W64) : (d.setReg a v).unitHeld = d.unitHeld := rfl
@[simp] theorem Dev.setReg_unitSeq (a : Nat) (v : W64) : (d.setReg a v).unitSeq = d.unitSeq := rfl
@[simp] theorem Dev.setReg_txFlows (a : Nat) (v : W64) : (d.setReg a v).txFlows = d.txFlows := rfl
@[simp] theorem Dev.setReg_pwr (a : Nat) (v : W64) : (d.setReg a v).pwr = d.pwr := rfl
@[simp] theorem Dev.setReg_flt (a : Nat) (v : W64) : (d.setReg a v).flt = d.flt := rfl
@[simp] theorem Dev.setReg_host (a : Nat) (v : W64) : (d.setReg a v).host = d.host := rfl
@[simp] theorem Dev.setReg_aon (a : Nat) (v : W64) : (d.setReg a v).aon = d.aon := rfl
@[simp] theorem Dev.setReg_tap (a : Nat) (v : W64) : (d.setReg a v).tap = d.tap := rfl
@[simp] theorem Dev.setReg_out (a : Nat) (v : W64) : (d.setReg a v).out = d.out := rfl
@[simp] theorem Dev.setReg_ctr (a : Nat) (v : W64) : (d.setReg a v).ctr = d.ctr := rfl
@[simp] theorem Dev.setReg_tile (a : Nat) (v : W64) (k' : Nat) : (d.setReg a v).tile k' = d.tile k' := rfl
@[simp] theorem Dev.setReg_region (a : Nat) (v : W64) (k' : Nat) : (d.setReg a v).region k' = d.region k' := rfl
@[simp] theorem Dev.setReg_ring (a : Nat) (v : W64) (k' : Nat) : (d.setReg a v).ring k' = d.ring k' := rfl
@[simp] theorem Dev.setReg_slot (a : Nat) (v : W64) (k' : Nat) : (d.setReg a v).slot k' = d.slot k' := rfl
@[simp] theorem Dev.setReg_tenant (a : Nat) (v : W64) (k' : Nat) : (d.setReg a v).tenant k' = d.tenant k' := rfl
@[simp] theorem Dev.setReg_port (a : Nat) (v : W64) (k' : Nat) : (d.setReg a v).port k' = d.port k' := rfl
@[simp] theorem Dev.setReg_route (a : Nat) (v : W64) (k' : Nat) : (d.setReg a v).route k' = d.route k' := rfl

/-! ### Dev.modReg -/

@[simp] theorem Dev.modReg_hostCap (a : Nat) (f : W64 → W64) : (d.modReg a f).hostCap = d.hostCap := rfl
@[simp] theorem Dev.modReg_tiles (a : Nat) (f : W64 → W64) : (d.modReg a f).tiles = d.tiles := rfl
@[simp] theorem Dev.modReg_flying (a : Nat) (f : W64 → W64) : (d.modReg a f).flying = d.flying := rfl
@[simp] theorem Dev.modReg_cyc (a : Nat) (f : W64 → W64) : (d.modReg a f).cyc = d.cyc := rfl
@[simp] theorem Dev.modReg_unitIn (a : Nat) (f : W64 → W64) : (d.modReg a f).unitIn = d.unitIn := rfl
@[simp] theorem Dev.modReg_gwIn (a : Nat) (f : W64 → W64) : (d.modReg a f).gwIn = d.gwIn := rfl
@[simp] theorem Dev.modReg_rxIn (a : Nat) (f : W64 → W64) : (d.modReg a f).rxIn = d.rxIn := rfl
@[simp] theorem Dev.modReg_routes (a : Nat) (f : W64 → W64) : (d.modReg a f).routes = d.routes := rfl
@[simp] theorem Dev.modReg_regions (a : Nat) (f : W64 → W64) : (d.modReg a f).regions = d.regions := rfl
@[simp] theorem Dev.modReg_rings (a : Nat) (f : W64 → W64) : (d.modReg a f).rings = d.rings := rfl
@[simp] theorem Dev.modReg_slots (a : Nat) (f : W64 → W64) : (d.modReg a f).slots = d.slots := rfl
@[simp] theorem Dev.modReg_tenants (a : Nat) (f : W64 → W64) : (d.modReg a f).tenants = d.tenants := rfl
@[simp] theorem Dev.modReg_wt (a : Nat) (f : W64 → W64) : (d.modReg a f).wt = d.wt := rfl
@[simp] theorem Dev.modReg_hive (a : Nat) (f : W64 → W64) : (d.modReg a f).hive = d.hive := rfl
@[simp] theorem Dev.modReg_cic (a : Nat) (f : W64 → W64) : (d.modReg a f).cic = d.cic := rfl
@[simp] theorem Dev.modReg_ports (a : Nat) (f : W64 → W64) : (d.modReg a f).ports = d.ports := rfl
@[simp] theorem Dev.modReg_rxFlows (a : Nat) (f : W64 → W64) : (d.modReg a f).rxFlows = d.rxFlows := rfl
@[simp] theorem Dev.modReg_naks (a : Nat) (f : W64 → W64) : (d.modReg a f).naks = d.naks := rfl
@[simp] theorem Dev.modReg_unitHeld (a : Nat) (f : W64 → W64) : (d.modReg a f).unitHeld = d.unitHeld := rfl
@[simp] theorem Dev.modReg_unitSeq (a : Nat) (f : W64 → W64) : (d.modReg a f).unitSeq = d.unitSeq := rfl
@[simp] theorem Dev.modReg_txFlows (a : Nat) (f : W64 → W64) : (d.modReg a f).txFlows = d.txFlows := rfl
@[simp] theorem Dev.modReg_pwr (a : Nat) (f : W64 → W64) : (d.modReg a f).pwr = d.pwr := rfl
@[simp] theorem Dev.modReg_flt (a : Nat) (f : W64 → W64) : (d.modReg a f).flt = d.flt := rfl
@[simp] theorem Dev.modReg_host (a : Nat) (f : W64 → W64) : (d.modReg a f).host = d.host := rfl
@[simp] theorem Dev.modReg_aon (a : Nat) (f : W64 → W64) : (d.modReg a f).aon = d.aon := rfl
@[simp] theorem Dev.modReg_tap (a : Nat) (f : W64 → W64) : (d.modReg a f).tap = d.tap := rfl
@[simp] theorem Dev.modReg_out (a : Nat) (f : W64 → W64) : (d.modReg a f).out = d.out := rfl
@[simp] theorem Dev.modReg_ctr (a : Nat) (f : W64 → W64) : (d.modReg a f).ctr = d.ctr := rfl
@[simp] theorem Dev.modReg_tile (a : Nat) (f : W64 → W64) (k' : Nat) : (d.modReg a f).tile k' = d.tile k' := rfl
@[simp] theorem Dev.modReg_region (a : Nat) (f : W64 → W64) (k' : Nat) : (d.modReg a f).region k' = d.region k' := rfl
@[simp] theorem Dev.modReg_ring (a : Nat) (f : W64 → W64) (k' : Nat) : (d.modReg a f).ring k' = d.ring k' := rfl
@[simp] theorem Dev.modReg_slot (a : Nat) (f : W64 → W64) (k' : Nat) : (d.modReg a f).slot k' = d.slot k' := rfl
@[simp] theorem Dev.modReg_tenant (a : Nat) (f : W64 → W64) (k' : Nat) : (d.modReg a f).tenant k' = d.tenant k' := rfl
@[simp] theorem Dev.modReg_port (a : Nat) (f : W64 → W64) (k' : Nat) : (d.modReg a f).port k' = d.port k' := rfl
@[simp] theorem Dev.modReg_route (a : Nat) (f : W64 → W64) (k' : Nat) : (d.modReg a f).route k' = d.route k' := rfl

/-! ### Dev.count -/

@[simp] theorem Dev.count_hostCap (a lo len n : Nat) : (d.count a lo len n).hostCap = d.hostCap := rfl
@[simp] theorem Dev.count_tiles (a lo len n : Nat) : (d.count a lo len n).tiles = d.tiles := rfl
@[simp] theorem Dev.count_flying (a lo len n : Nat) : (d.count a lo len n).flying = d.flying := rfl
@[simp] theorem Dev.count_cyc (a lo len n : Nat) : (d.count a lo len n).cyc = d.cyc := rfl
@[simp] theorem Dev.count_unitIn (a lo len n : Nat) : (d.count a lo len n).unitIn = d.unitIn := rfl
@[simp] theorem Dev.count_gwIn (a lo len n : Nat) : (d.count a lo len n).gwIn = d.gwIn := rfl
@[simp] theorem Dev.count_rxIn (a lo len n : Nat) : (d.count a lo len n).rxIn = d.rxIn := rfl
@[simp] theorem Dev.count_routes (a lo len n : Nat) : (d.count a lo len n).routes = d.routes := rfl
@[simp] theorem Dev.count_regions (a lo len n : Nat) : (d.count a lo len n).regions = d.regions := rfl
@[simp] theorem Dev.count_rings (a lo len n : Nat) : (d.count a lo len n).rings = d.rings := rfl
@[simp] theorem Dev.count_slots (a lo len n : Nat) : (d.count a lo len n).slots = d.slots := rfl
@[simp] theorem Dev.count_tenants (a lo len n : Nat) : (d.count a lo len n).tenants = d.tenants := rfl
@[simp] theorem Dev.count_wt (a lo len n : Nat) : (d.count a lo len n).wt = d.wt := rfl
@[simp] theorem Dev.count_hive (a lo len n : Nat) : (d.count a lo len n).hive = d.hive := rfl
@[simp] theorem Dev.count_cic (a lo len n : Nat) : (d.count a lo len n).cic = d.cic := rfl
@[simp] theorem Dev.count_ports (a lo len n : Nat) : (d.count a lo len n).ports = d.ports := rfl
@[simp] theorem Dev.count_rxFlows (a lo len n : Nat) : (d.count a lo len n).rxFlows = d.rxFlows := rfl
@[simp] theorem Dev.count_naks (a lo len n : Nat) : (d.count a lo len n).naks = d.naks := rfl
@[simp] theorem Dev.count_unitHeld (a lo len n : Nat) : (d.count a lo len n).unitHeld = d.unitHeld := rfl
@[simp] theorem Dev.count_unitSeq (a lo len n : Nat) : (d.count a lo len n).unitSeq = d.unitSeq := rfl
@[simp] theorem Dev.count_txFlows (a lo len n : Nat) : (d.count a lo len n).txFlows = d.txFlows := rfl
@[simp] theorem Dev.count_pwr (a lo len n : Nat) : (d.count a lo len n).pwr = d.pwr := rfl
@[simp] theorem Dev.count_flt (a lo len n : Nat) : (d.count a lo len n).flt = d.flt := rfl
@[simp] theorem Dev.count_host (a lo len n : Nat) : (d.count a lo len n).host = d.host := rfl
@[simp] theorem Dev.count_aon (a lo len n : Nat) : (d.count a lo len n).aon = d.aon := rfl
@[simp] theorem Dev.count_tap (a lo len n : Nat) : (d.count a lo len n).tap = d.tap := rfl
@[simp] theorem Dev.count_out (a lo len n : Nat) : (d.count a lo len n).out = d.out := rfl
@[simp] theorem Dev.count_ctr (a lo len n : Nat) : (d.count a lo len n).ctr = d.ctr := rfl
@[simp] theorem Dev.count_tile (a lo len n : Nat) (k' : Nat) : (d.count a lo len n).tile k' = d.tile k' := rfl
@[simp] theorem Dev.count_region (a lo len n : Nat) (k' : Nat) : (d.count a lo len n).region k' = d.region k' := rfl
@[simp] theorem Dev.count_ring (a lo len n : Nat) (k' : Nat) : (d.count a lo len n).ring k' = d.ring k' := rfl
@[simp] theorem Dev.count_slot (a lo len n : Nat) (k' : Nat) : (d.count a lo len n).slot k' = d.slot k' := rfl
@[simp] theorem Dev.count_tenant (a lo len n : Nat) (k' : Nat) : (d.count a lo len n).tenant k' = d.tenant k' := rfl
@[simp] theorem Dev.count_port (a lo len n : Nat) (k' : Nat) : (d.count a lo len n).port k' = d.port k' := rfl
@[simp] theorem Dev.count_route (a lo len n : Nat) (k' : Nat) : (d.count a lo len n).route k' = d.route k' := rfl

/-! ### Dev.emit -/

@[simp] theorem Dev.emit_regs (o : Output) : (d.emit o).regs = d.regs := rfl
@[simp] theorem Dev.emit_hostCap (o : Output) : (d.emit o).hostCap = d.hostCap := rfl
@[simp] theorem Dev.emit_tiles (o : Output) : (d.emit o).tiles = d.tiles := rfl
@[simp] theorem Dev.emit_flying (o : Output) : (d.emit o).flying = d.flying := rfl
@[simp] theorem Dev.emit_cyc (o : Output) : (d.emit o).cyc = d.cyc := rfl
@[simp] theorem Dev.emit_unitIn (o : Output) : (d.emit o).unitIn = d.unitIn := rfl
@[simp] theorem Dev.emit_gwIn (o : Output) : (d.emit o).gwIn = d.gwIn := rfl
@[simp] theorem Dev.emit_rxIn (o : Output) : (d.emit o).rxIn = d.rxIn := rfl
@[simp] theorem Dev.emit_routes (o : Output) : (d.emit o).routes = d.routes := rfl
@[simp] theorem Dev.emit_regions (o : Output) : (d.emit o).regions = d.regions := rfl
@[simp] theorem Dev.emit_rings (o : Output) : (d.emit o).rings = d.rings := rfl
@[simp] theorem Dev.emit_slots (o : Output) : (d.emit o).slots = d.slots := rfl
@[simp] theorem Dev.emit_tenants (o : Output) : (d.emit o).tenants = d.tenants := rfl
@[simp] theorem Dev.emit_wt (o : Output) : (d.emit o).wt = d.wt := rfl
@[simp] theorem Dev.emit_hive (o : Output) : (d.emit o).hive = d.hive := rfl
@[simp] theorem Dev.emit_cic (o : Output) : (d.emit o).cic = d.cic := rfl
@[simp] theorem Dev.emit_ports (o : Output) : (d.emit o).ports = d.ports := rfl
@[simp] theorem Dev.emit_rxFlows (o : Output) : (d.emit o).rxFlows = d.rxFlows := rfl
@[simp] theorem Dev.emit_naks (o : Output) : (d.emit o).naks = d.naks := rfl
@[simp] theorem Dev.emit_unitHeld (o : Output) : (d.emit o).unitHeld = d.unitHeld := rfl
@[simp] theorem Dev.emit_unitSeq (o : Output) : (d.emit o).unitSeq = d.unitSeq := rfl
@[simp] theorem Dev.emit_txFlows (o : Output) : (d.emit o).txFlows = d.txFlows := rfl
@[simp] theorem Dev.emit_pwr (o : Output) : (d.emit o).pwr = d.pwr := rfl
@[simp] theorem Dev.emit_flt (o : Output) : (d.emit o).flt = d.flt := rfl
@[simp] theorem Dev.emit_host (o : Output) : (d.emit o).host = d.host := rfl
@[simp] theorem Dev.emit_aon (o : Output) : (d.emit o).aon = d.aon := rfl
@[simp] theorem Dev.emit_tap (o : Output) : (d.emit o).tap = d.tap := rfl
@[simp] theorem Dev.emit_ctr (o : Output) : (d.emit o).ctr = d.ctr := rfl
@[simp] theorem Dev.emit_tile (o : Output) (k' : Nat) : (d.emit o).tile k' = d.tile k' := rfl
@[simp] theorem Dev.emit_region (o : Output) (k' : Nat) : (d.emit o).region k' = d.region k' := rfl
@[simp] theorem Dev.emit_ring (o : Output) (k' : Nat) : (d.emit o).ring k' = d.ring k' := rfl
@[simp] theorem Dev.emit_slot (o : Output) (k' : Nat) : (d.emit o).slot k' = d.slot k' := rfl
@[simp] theorem Dev.emit_tenant (o : Output) (k' : Nat) : (d.emit o).tenant k' = d.tenant k' := rfl
@[simp] theorem Dev.emit_port (o : Output) (k' : Nat) : (d.emit o).port k' = d.port k' := rfl
@[simp] theorem Dev.emit_route (o : Output) (k' : Nat) : (d.emit o).route k' = d.route k' := rfl
@[simp] theorem Dev.emit_reg (o : Output) (k' : Nat) : (d.emit o).reg k' = d.reg k' := rfl

/-! ### Dev.drawn -/

@[simp] theorem Dev.drawn_regs  : (d.drawn ).regs = d.regs := rfl
@[simp] theorem Dev.drawn_hostCap  : (d.drawn ).hostCap = d.hostCap := rfl
@[simp] theorem Dev.drawn_tiles  : (d.drawn ).tiles = d.tiles := rfl
@[simp] theorem Dev.drawn_flying  : (d.drawn ).flying = d.flying := rfl
@[simp] theorem Dev.drawn_cyc  : (d.drawn ).cyc = d.cyc := rfl
@[simp] theorem Dev.drawn_unitIn  : (d.drawn ).unitIn = d.unitIn := rfl
@[simp] theorem Dev.drawn_gwIn  : (d.drawn ).gwIn = d.gwIn := rfl
@[simp] theorem Dev.drawn_rxIn  : (d.drawn ).rxIn = d.rxIn := rfl
@[simp] theorem Dev.drawn_routes  : (d.drawn ).routes = d.routes := rfl
@[simp] theorem Dev.drawn_regions  : (d.drawn ).regions = d.regions := rfl
@[simp] theorem Dev.drawn_rings  : (d.drawn ).rings = d.rings := rfl
@[simp] theorem Dev.drawn_slots  : (d.drawn ).slots = d.slots := rfl
@[simp] theorem Dev.drawn_tenants  : (d.drawn ).tenants = d.tenants := rfl
@[simp] theorem Dev.drawn_wt  : (d.drawn ).wt = d.wt := rfl
@[simp] theorem Dev.drawn_hive  : (d.drawn ).hive = d.hive := rfl
@[simp] theorem Dev.drawn_cic  : (d.drawn ).cic = d.cic := rfl
@[simp] theorem Dev.drawn_ports  : (d.drawn ).ports = d.ports := rfl
@[simp] theorem Dev.drawn_rxFlows  : (d.drawn ).rxFlows = d.rxFlows := rfl
@[simp] theorem Dev.drawn_naks  : (d.drawn ).naks = d.naks := rfl
@[simp] theorem Dev.drawn_unitHeld  : (d.drawn ).unitHeld = d.unitHeld := rfl
@[simp] theorem Dev.drawn_unitSeq  : (d.drawn ).unitSeq = d.unitSeq := rfl
@[simp] theorem Dev.drawn_txFlows  : (d.drawn ).txFlows = d.txFlows := rfl
@[simp] theorem Dev.drawn_pwr  : (d.drawn ).pwr = d.pwr := rfl
@[simp] theorem Dev.drawn_flt  : (d.drawn ).flt = d.flt := rfl
@[simp] theorem Dev.drawn_host  : (d.drawn ).host = d.host := rfl
@[simp] theorem Dev.drawn_aon  : (d.drawn ).aon = d.aon := rfl
@[simp] theorem Dev.drawn_tap  : (d.drawn ).tap = d.tap := rfl
@[simp] theorem Dev.drawn_out  : (d.drawn ).out = d.out := rfl
@[simp] theorem Dev.drawn_tile  (k' : Nat) : (d.drawn ).tile k' = d.tile k' := rfl
@[simp] theorem Dev.drawn_region  (k' : Nat) : (d.drawn ).region k' = d.region k' := rfl
@[simp] theorem Dev.drawn_ring  (k' : Nat) : (d.drawn ).ring k' = d.ring k' := rfl
@[simp] theorem Dev.drawn_slot  (k' : Nat) : (d.drawn ).slot k' = d.slot k' := rfl
@[simp] theorem Dev.drawn_tenant  (k' : Nat) : (d.drawn ).tenant k' = d.tenant k' := rfl
@[simp] theorem Dev.drawn_port  (k' : Nat) : (d.drawn ).port k' = d.port k' := rfl
@[simp] theorem Dev.drawn_route  (k' : Nat) : (d.drawn ).route k' = d.route k' := rfl
@[simp] theorem Dev.drawn_reg  (k' : Nat) : (d.drawn ).reg k' = d.reg k' := rfl

/-! ### Dev.modWt -/

@[simp] theorem Dev.modWt_regs (f : WTier → WTier) : (d.modWt f).regs = d.regs := rfl
@[simp] theorem Dev.modWt_hostCap (f : WTier → WTier) : (d.modWt f).hostCap = d.hostCap := rfl
@[simp] theorem Dev.modWt_tiles (f : WTier → WTier) : (d.modWt f).tiles = d.tiles := rfl
@[simp] theorem Dev.modWt_flying (f : WTier → WTier) : (d.modWt f).flying = d.flying := rfl
@[simp] theorem Dev.modWt_cyc (f : WTier → WTier) : (d.modWt f).cyc = d.cyc := rfl
@[simp] theorem Dev.modWt_unitIn (f : WTier → WTier) : (d.modWt f).unitIn = d.unitIn := rfl
@[simp] theorem Dev.modWt_gwIn (f : WTier → WTier) : (d.modWt f).gwIn = d.gwIn := rfl
@[simp] theorem Dev.modWt_rxIn (f : WTier → WTier) : (d.modWt f).rxIn = d.rxIn := rfl
@[simp] theorem Dev.modWt_routes (f : WTier → WTier) : (d.modWt f).routes = d.routes := rfl
@[simp] theorem Dev.modWt_regions (f : WTier → WTier) : (d.modWt f).regions = d.regions := rfl
@[simp] theorem Dev.modWt_rings (f : WTier → WTier) : (d.modWt f).rings = d.rings := rfl
@[simp] theorem Dev.modWt_slots (f : WTier → WTier) : (d.modWt f).slots = d.slots := rfl
@[simp] theorem Dev.modWt_tenants (f : WTier → WTier) : (d.modWt f).tenants = d.tenants := rfl
@[simp] theorem Dev.modWt_hive (f : WTier → WTier) : (d.modWt f).hive = d.hive := rfl
@[simp] theorem Dev.modWt_cic (f : WTier → WTier) : (d.modWt f).cic = d.cic := rfl
@[simp] theorem Dev.modWt_ports (f : WTier → WTier) : (d.modWt f).ports = d.ports := rfl
@[simp] theorem Dev.modWt_rxFlows (f : WTier → WTier) : (d.modWt f).rxFlows = d.rxFlows := rfl
@[simp] theorem Dev.modWt_naks (f : WTier → WTier) : (d.modWt f).naks = d.naks := rfl
@[simp] theorem Dev.modWt_unitHeld (f : WTier → WTier) : (d.modWt f).unitHeld = d.unitHeld := rfl
@[simp] theorem Dev.modWt_unitSeq (f : WTier → WTier) : (d.modWt f).unitSeq = d.unitSeq := rfl
@[simp] theorem Dev.modWt_txFlows (f : WTier → WTier) : (d.modWt f).txFlows = d.txFlows := rfl
@[simp] theorem Dev.modWt_pwr (f : WTier → WTier) : (d.modWt f).pwr = d.pwr := rfl
@[simp] theorem Dev.modWt_flt (f : WTier → WTier) : (d.modWt f).flt = d.flt := rfl
@[simp] theorem Dev.modWt_host (f : WTier → WTier) : (d.modWt f).host = d.host := rfl
@[simp] theorem Dev.modWt_aon (f : WTier → WTier) : (d.modWt f).aon = d.aon := rfl
@[simp] theorem Dev.modWt_tap (f : WTier → WTier) : (d.modWt f).tap = d.tap := rfl
@[simp] theorem Dev.modWt_out (f : WTier → WTier) : (d.modWt f).out = d.out := rfl
@[simp] theorem Dev.modWt_ctr (f : WTier → WTier) : (d.modWt f).ctr = d.ctr := rfl
@[simp] theorem Dev.modWt_tile (f : WTier → WTier) (k' : Nat) : (d.modWt f).tile k' = d.tile k' := rfl
@[simp] theorem Dev.modWt_region (f : WTier → WTier) (k' : Nat) : (d.modWt f).region k' = d.region k' := rfl
@[simp] theorem Dev.modWt_ring (f : WTier → WTier) (k' : Nat) : (d.modWt f).ring k' = d.ring k' := rfl
@[simp] theorem Dev.modWt_slot (f : WTier → WTier) (k' : Nat) : (d.modWt f).slot k' = d.slot k' := rfl
@[simp] theorem Dev.modWt_tenant (f : WTier → WTier) (k' : Nat) : (d.modWt f).tenant k' = d.tenant k' := rfl
@[simp] theorem Dev.modWt_port (f : WTier → WTier) (k' : Nat) : (d.modWt f).port k' = d.port k' := rfl
@[simp] theorem Dev.modWt_route (f : WTier → WTier) (k' : Nat) : (d.modWt f).route k' = d.route k' := rfl
@[simp] theorem Dev.modWt_reg (f : WTier → WTier) (k' : Nat) : (d.modWt f).reg k' = d.reg k' := rfl

/-! ### Tile.setReg -/

@[simp] theorem Tile.setReg_imem (a : Nat) (v : W64) : (x.setReg a v).imem = x.imem := rfl
@[simp] theorem Tile.setReg_dmem (a : Nat) (v : W64) : (x.setReg a v).dmem = x.dmem := rfl
@[simp] theorem Tile.setReg_spad (a : Nat) (v : W64) : (x.setReg a v).spad = x.spad := rfl
@[simp] theorem Tile.setReg_parInv (a : Nat) (v : W64) : (x.setReg a v).parInv = x.parInv := rfl
@[simp] theorem Tile.setReg_ocache (a : Nat) (v : W64) : (x.setReg a v).ocache = x.ocache := rfl
@[simp] theorem Tile.setReg_ocSeed (a : Nat) (v : W64) : (x.setReg a v).ocSeed = x.ocSeed := rfl
@[simp] theorem Tile.setReg_scb (a : Nat) (v : W64) : (x.setReg a v).scb = x.scb := rfl
@[simp] theorem Tile.setReg_cap (a : Nat) (v : W64) : (x.setReg a v).cap = x.cap := rfl
@[simp] theorem Tile.setReg_ags (a : Nat) (v : W64) : (x.setReg a v).ags = x.ags := rfl
@[simp] theorem Tile.setReg_acwQ (a : Nat) (v : W64) : (x.setReg a v).acwQ = x.acwQ := rfl
@[simp] theorem Tile.setReg_vecQ (a : Nat) (v : W64) : (x.setReg a v).vecQ = x.vecQ := rfl
@[simp] theorem Tile.setReg_nextId (a : Nat) (v : W64) : (x.setReg a v).nextId = x.nextId := rfl
@[simp] theorem Tile.setReg_arrs (a : Nat) (v : W64) : (x.setReg a v).arrs = x.arrs := rfl
@[simp] theorem Tile.setReg_qctx (a : Nat) (v : W64) : (x.setReg a v).qctx = x.qctx := rfl
@[simp] theorem Tile.setReg_qwait (a : Nat) (v : W64) : (x.setReg a v).qwait = x.qwait := rfl
@[simp] theorem Tile.setReg_reasm (a : Nat) (v : W64) : (x.setReg a v).reasm = x.reasm := rfl
@[simp] theorem Tile.setReg_localIn (a : Nat) (v : W64) : (x.setReg a v).localIn = x.localIn := rfl
@[simp] theorem Tile.setReg_wvl (a : Nat) (v : W64) : (x.setReg a v).wvl = x.wvl := rfl
@[simp] theorem Tile.setReg_slot0 (a : Nat) (v : W64) : (x.setReg a v).slot0 = x.slot0 := rfl
@[simp] theorem Tile.setReg_rot (a : Nat) (v : W64) : (x.setReg a v).rot = x.rot := rfl
@[simp] theorem Tile.setReg_replay (a : Nat) (v : W64) : (x.setReg a v).replay = x.replay := rfl
@[simp] theorem Tile.setReg_replayAt (a : Nat) (v : W64) : (x.setReg a v).replayAt = x.replayAt := rfl
@[simp] theorem Tile.setReg_txWait (a : Nat) (v : W64) : (x.setReg a v).txWait = x.txWait := rfl
@[simp] theorem Tile.setReg_flowSeq (a : Nat) (v : W64) : (x.setReg a v).flowSeq = x.flowSeq := rfl
@[simp] theorem Tile.setReg_exWindow (a : Nat) (v : W64) : (x.setReg a v).exWindow = x.exWindow := rfl
@[simp] theorem Tile.setReg_exQueue (a : Nat) (v : W64) : (x.setReg a v).exQueue = x.exQueue := rfl
@[simp] theorem Tile.setReg_exBound (a : Nat) (v : W64) : (x.setReg a v).exBound = x.exBound := rfl
@[simp] theorem Tile.setReg_exUnsync (a : Nat) (v : W64) : (x.setReg a v).exUnsync = x.exUnsync := rfl
@[simp] theorem Tile.setReg_tdcBase (a : Nat) (v : W64) : (x.setReg a v).tdcBase = x.tdcBase := rfl
@[simp] theorem Tile.setReg_stopped (a : Nat) (v : W64) : (x.setReg a v).stopped = x.stopped := rfl
@[simp] theorem Tile.setReg_ag (a : Nat) (v : W64) (k' : Nat) : (x.setReg a v).ag k' = x.ag k' := rfl
@[simp] theorem Tile.setReg_arr (a : Nat) (v : W64) (k' : Nat) : (x.setReg a v).arr k' = x.arr k' := rfl
@[simp] theorem Tile.setReg_qc (a : Nat) (v : W64) (k' : Nat) : (x.setReg a v).qc k' = x.qc k' := rfl

/-! ### Tile.modReg -/

@[simp] theorem Tile.modReg_imem (a : Nat) (f : W64 → W64) : (x.modReg a f).imem = x.imem := rfl
@[simp] theorem Tile.modReg_dmem (a : Nat) (f : W64 → W64) : (x.modReg a f).dmem = x.dmem := rfl
@[simp] theorem Tile.modReg_spad (a : Nat) (f : W64 → W64) : (x.modReg a f).spad = x.spad := rfl
@[simp] theorem Tile.modReg_parInv (a : Nat) (f : W64 → W64) : (x.modReg a f).parInv = x.parInv := rfl
@[simp] theorem Tile.modReg_ocache (a : Nat) (f : W64 → W64) : (x.modReg a f).ocache = x.ocache := rfl
@[simp] theorem Tile.modReg_ocSeed (a : Nat) (f : W64 → W64) : (x.modReg a f).ocSeed = x.ocSeed := rfl
@[simp] theorem Tile.modReg_scb (a : Nat) (f : W64 → W64) : (x.modReg a f).scb = x.scb := rfl
@[simp] theorem Tile.modReg_cap (a : Nat) (f : W64 → W64) : (x.modReg a f).cap = x.cap := rfl
@[simp] theorem Tile.modReg_ags (a : Nat) (f : W64 → W64) : (x.modReg a f).ags = x.ags := rfl
@[simp] theorem Tile.modReg_acwQ (a : Nat) (f : W64 → W64) : (x.modReg a f).acwQ = x.acwQ := rfl
@[simp] theorem Tile.modReg_vecQ (a : Nat) (f : W64 → W64) : (x.modReg a f).vecQ = x.vecQ := rfl
@[simp] theorem Tile.modReg_nextId (a : Nat) (f : W64 → W64) : (x.modReg a f).nextId = x.nextId := rfl
@[simp] theorem Tile.modReg_arrs (a : Nat) (f : W64 → W64) : (x.modReg a f).arrs = x.arrs := rfl
@[simp] theorem Tile.modReg_qctx (a : Nat) (f : W64 → W64) : (x.modReg a f).qctx = x.qctx := rfl
@[simp] theorem Tile.modReg_qwait (a : Nat) (f : W64 → W64) : (x.modReg a f).qwait = x.qwait := rfl
@[simp] theorem Tile.modReg_reasm (a : Nat) (f : W64 → W64) : (x.modReg a f).reasm = x.reasm := rfl
@[simp] theorem Tile.modReg_localIn (a : Nat) (f : W64 → W64) : (x.modReg a f).localIn = x.localIn := rfl
@[simp] theorem Tile.modReg_wvl (a : Nat) (f : W64 → W64) : (x.modReg a f).wvl = x.wvl := rfl
@[simp] theorem Tile.modReg_slot0 (a : Nat) (f : W64 → W64) : (x.modReg a f).slot0 = x.slot0 := rfl
@[simp] theorem Tile.modReg_rot (a : Nat) (f : W64 → W64) : (x.modReg a f).rot = x.rot := rfl
@[simp] theorem Tile.modReg_replay (a : Nat) (f : W64 → W64) : (x.modReg a f).replay = x.replay := rfl
@[simp] theorem Tile.modReg_replayAt (a : Nat) (f : W64 → W64) : (x.modReg a f).replayAt = x.replayAt := rfl
@[simp] theorem Tile.modReg_txWait (a : Nat) (f : W64 → W64) : (x.modReg a f).txWait = x.txWait := rfl
@[simp] theorem Tile.modReg_flowSeq (a : Nat) (f : W64 → W64) : (x.modReg a f).flowSeq = x.flowSeq := rfl
@[simp] theorem Tile.modReg_exWindow (a : Nat) (f : W64 → W64) : (x.modReg a f).exWindow = x.exWindow := rfl
@[simp] theorem Tile.modReg_exQueue (a : Nat) (f : W64 → W64) : (x.modReg a f).exQueue = x.exQueue := rfl
@[simp] theorem Tile.modReg_exBound (a : Nat) (f : W64 → W64) : (x.modReg a f).exBound = x.exBound := rfl
@[simp] theorem Tile.modReg_exUnsync (a : Nat) (f : W64 → W64) : (x.modReg a f).exUnsync = x.exUnsync := rfl
@[simp] theorem Tile.modReg_tdcBase (a : Nat) (f : W64 → W64) : (x.modReg a f).tdcBase = x.tdcBase := rfl
@[simp] theorem Tile.modReg_stopped (a : Nat) (f : W64 → W64) : (x.modReg a f).stopped = x.stopped := rfl
@[simp] theorem Tile.modReg_ag (a : Nat) (f : W64 → W64) (k' : Nat) : (x.modReg a f).ag k' = x.ag k' := rfl
@[simp] theorem Tile.modReg_arr (a : Nat) (f : W64 → W64) (k' : Nat) : (x.modReg a f).arr k' = x.arr k' := rfl
@[simp] theorem Tile.modReg_qc (a : Nat) (f : W64 → W64) (k' : Nat) : (x.modReg a f).qc k' = x.qc k' := rfl

/-! ### Tile.count -/

@[simp] theorem Tile.count_imem (a n : Nat) : (x.count a n).imem = x.imem := rfl
@[simp] theorem Tile.count_dmem (a n : Nat) : (x.count a n).dmem = x.dmem := rfl
@[simp] theorem Tile.count_spad (a n : Nat) : (x.count a n).spad = x.spad := rfl
@[simp] theorem Tile.count_parInv (a n : Nat) : (x.count a n).parInv = x.parInv := rfl
@[simp] theorem Tile.count_ocache (a n : Nat) : (x.count a n).ocache = x.ocache := rfl
@[simp] theorem Tile.count_ocSeed (a n : Nat) : (x.count a n).ocSeed = x.ocSeed := rfl
@[simp] theorem Tile.count_scb (a n : Nat) : (x.count a n).scb = x.scb := rfl
@[simp] theorem Tile.count_cap (a n : Nat) : (x.count a n).cap = x.cap := rfl
@[simp] theorem Tile.count_ags (a n : Nat) : (x.count a n).ags = x.ags := rfl
@[simp] theorem Tile.count_acwQ (a n : Nat) : (x.count a n).acwQ = x.acwQ := rfl
@[simp] theorem Tile.count_vecQ (a n : Nat) : (x.count a n).vecQ = x.vecQ := rfl
@[simp] theorem Tile.count_nextId (a n : Nat) : (x.count a n).nextId = x.nextId := rfl
@[simp] theorem Tile.count_arrs (a n : Nat) : (x.count a n).arrs = x.arrs := rfl
@[simp] theorem Tile.count_qctx (a n : Nat) : (x.count a n).qctx = x.qctx := rfl
@[simp] theorem Tile.count_qwait (a n : Nat) : (x.count a n).qwait = x.qwait := rfl
@[simp] theorem Tile.count_reasm (a n : Nat) : (x.count a n).reasm = x.reasm := rfl
@[simp] theorem Tile.count_localIn (a n : Nat) : (x.count a n).localIn = x.localIn := rfl
@[simp] theorem Tile.count_wvl (a n : Nat) : (x.count a n).wvl = x.wvl := rfl
@[simp] theorem Tile.count_slot0 (a n : Nat) : (x.count a n).slot0 = x.slot0 := rfl
@[simp] theorem Tile.count_rot (a n : Nat) : (x.count a n).rot = x.rot := rfl
@[simp] theorem Tile.count_replay (a n : Nat) : (x.count a n).replay = x.replay := rfl
@[simp] theorem Tile.count_replayAt (a n : Nat) : (x.count a n).replayAt = x.replayAt := rfl
@[simp] theorem Tile.count_txWait (a n : Nat) : (x.count a n).txWait = x.txWait := rfl
@[simp] theorem Tile.count_flowSeq (a n : Nat) : (x.count a n).flowSeq = x.flowSeq := rfl
@[simp] theorem Tile.count_exWindow (a n : Nat) : (x.count a n).exWindow = x.exWindow := rfl
@[simp] theorem Tile.count_exQueue (a n : Nat) : (x.count a n).exQueue = x.exQueue := rfl
@[simp] theorem Tile.count_exBound (a n : Nat) : (x.count a n).exBound = x.exBound := rfl
@[simp] theorem Tile.count_exUnsync (a n : Nat) : (x.count a n).exUnsync = x.exUnsync := rfl
@[simp] theorem Tile.count_tdcBase (a n : Nat) : (x.count a n).tdcBase = x.tdcBase := rfl
@[simp] theorem Tile.count_stopped (a n : Nat) : (x.count a n).stopped = x.stopped := rfl
@[simp] theorem Tile.count_ag (a n : Nat) (k' : Nat) : (x.count a n).ag k' = x.ag k' := rfl
@[simp] theorem Tile.count_arr (a n : Nat) (k' : Nat) : (x.count a n).arr k' = x.arr k' := rfl
@[simp] theorem Tile.count_qc (a n : Nat) (k' : Nat) : (x.count a n).qc k' = x.qc k' := rfl

/-! ### Tile.setAg -/

@[simp] theorem Tile.setAg_imem (n : Nat) (y : Ag) : (x.setAg n y).imem = x.imem := rfl
@[simp] theorem Tile.setAg_dmem (n : Nat) (y : Ag) : (x.setAg n y).dmem = x.dmem := rfl
@[simp] theorem Tile.setAg_spad (n : Nat) (y : Ag) : (x.setAg n y).spad = x.spad := rfl
@[simp] theorem Tile.setAg_parInv (n : Nat) (y : Ag) : (x.setAg n y).parInv = x.parInv := rfl
@[simp] theorem Tile.setAg_ocache (n : Nat) (y : Ag) : (x.setAg n y).ocache = x.ocache := rfl
@[simp] theorem Tile.setAg_ocSeed (n : Nat) (y : Ag) : (x.setAg n y).ocSeed = x.ocSeed := rfl
@[simp] theorem Tile.setAg_regs (n : Nat) (y : Ag) : (x.setAg n y).regs = x.regs := rfl
@[simp] theorem Tile.setAg_scb (n : Nat) (y : Ag) : (x.setAg n y).scb = x.scb := rfl
@[simp] theorem Tile.setAg_cap (n : Nat) (y : Ag) : (x.setAg n y).cap = x.cap := rfl
@[simp] theorem Tile.setAg_acwQ (n : Nat) (y : Ag) : (x.setAg n y).acwQ = x.acwQ := rfl
@[simp] theorem Tile.setAg_vecQ (n : Nat) (y : Ag) : (x.setAg n y).vecQ = x.vecQ := rfl
@[simp] theorem Tile.setAg_nextId (n : Nat) (y : Ag) : (x.setAg n y).nextId = x.nextId := rfl
@[simp] theorem Tile.setAg_arrs (n : Nat) (y : Ag) : (x.setAg n y).arrs = x.arrs := rfl
@[simp] theorem Tile.setAg_qctx (n : Nat) (y : Ag) : (x.setAg n y).qctx = x.qctx := rfl
@[simp] theorem Tile.setAg_qwait (n : Nat) (y : Ag) : (x.setAg n y).qwait = x.qwait := rfl
@[simp] theorem Tile.setAg_reasm (n : Nat) (y : Ag) : (x.setAg n y).reasm = x.reasm := rfl
@[simp] theorem Tile.setAg_localIn (n : Nat) (y : Ag) : (x.setAg n y).localIn = x.localIn := rfl
@[simp] theorem Tile.setAg_wvl (n : Nat) (y : Ag) : (x.setAg n y).wvl = x.wvl := rfl
@[simp] theorem Tile.setAg_slot0 (n : Nat) (y : Ag) : (x.setAg n y).slot0 = x.slot0 := rfl
@[simp] theorem Tile.setAg_rot (n : Nat) (y : Ag) : (x.setAg n y).rot = x.rot := rfl
@[simp] theorem Tile.setAg_replay (n : Nat) (y : Ag) : (x.setAg n y).replay = x.replay := rfl
@[simp] theorem Tile.setAg_replayAt (n : Nat) (y : Ag) : (x.setAg n y).replayAt = x.replayAt := rfl
@[simp] theorem Tile.setAg_txWait (n : Nat) (y : Ag) : (x.setAg n y).txWait = x.txWait := rfl
@[simp] theorem Tile.setAg_flowSeq (n : Nat) (y : Ag) : (x.setAg n y).flowSeq = x.flowSeq := rfl
@[simp] theorem Tile.setAg_exWindow (n : Nat) (y : Ag) : (x.setAg n y).exWindow = x.exWindow := rfl
@[simp] theorem Tile.setAg_exQueue (n : Nat) (y : Ag) : (x.setAg n y).exQueue = x.exQueue := rfl
@[simp] theorem Tile.setAg_exBound (n : Nat) (y : Ag) : (x.setAg n y).exBound = x.exBound := rfl
@[simp] theorem Tile.setAg_exUnsync (n : Nat) (y : Ag) : (x.setAg n y).exUnsync = x.exUnsync := rfl
@[simp] theorem Tile.setAg_tdcBase (n : Nat) (y : Ag) : (x.setAg n y).tdcBase = x.tdcBase := rfl
@[simp] theorem Tile.setAg_stopped (n : Nat) (y : Ag) : (x.setAg n y).stopped = x.stopped := rfl
@[simp] theorem Tile.setAg_reg (n : Nat) (y : Ag) (k' : Nat) : (x.setAg n y).reg k' = x.reg k' := rfl
@[simp] theorem Tile.setAg_arr (n : Nat) (y : Ag) (k' : Nat) : (x.setAg n y).arr k' = x.arr k' := rfl
@[simp] theorem Tile.setAg_qc (n : Nat) (y : Ag) (k' : Nat) : (x.setAg n y).qc k' = x.qc k' := rfl

/-! ### Tile.setArr -/

@[simp] theorem Tile.setArr_imem (j : Nat) (y : Arr) : (x.setArr j y).imem = x.imem := rfl
@[simp] theorem Tile.setArr_dmem (j : Nat) (y : Arr) : (x.setArr j y).dmem = x.dmem := rfl
@[simp] theorem Tile.setArr_spad (j : Nat) (y : Arr) : (x.setArr j y).spad = x.spad := rfl
@[simp] theorem Tile.setArr_parInv (j : Nat) (y : Arr) : (x.setArr j y).parInv = x.parInv := rfl
@[simp] theorem Tile.setArr_ocache (j : Nat) (y : Arr) : (x.setArr j y).ocache = x.ocache := rfl
@[simp] theorem Tile.setArr_ocSeed (j : Nat) (y : Arr) : (x.setArr j y).ocSeed = x.ocSeed := rfl
@[simp] theorem Tile.setArr_regs (j : Nat) (y : Arr) : (x.setArr j y).regs = x.regs := rfl
@[simp] theorem Tile.setArr_scb (j : Nat) (y : Arr) : (x.setArr j y).scb = x.scb := rfl
@[simp] theorem Tile.setArr_cap (j : Nat) (y : Arr) : (x.setArr j y).cap = x.cap := rfl
@[simp] theorem Tile.setArr_ags (j : Nat) (y : Arr) : (x.setArr j y).ags = x.ags := rfl
@[simp] theorem Tile.setArr_acwQ (j : Nat) (y : Arr) : (x.setArr j y).acwQ = x.acwQ := rfl
@[simp] theorem Tile.setArr_vecQ (j : Nat) (y : Arr) : (x.setArr j y).vecQ = x.vecQ := rfl
@[simp] theorem Tile.setArr_nextId (j : Nat) (y : Arr) : (x.setArr j y).nextId = x.nextId := rfl
@[simp] theorem Tile.setArr_qctx (j : Nat) (y : Arr) : (x.setArr j y).qctx = x.qctx := rfl
@[simp] theorem Tile.setArr_qwait (j : Nat) (y : Arr) : (x.setArr j y).qwait = x.qwait := rfl
@[simp] theorem Tile.setArr_reasm (j : Nat) (y : Arr) : (x.setArr j y).reasm = x.reasm := rfl
@[simp] theorem Tile.setArr_localIn (j : Nat) (y : Arr) : (x.setArr j y).localIn = x.localIn := rfl
@[simp] theorem Tile.setArr_wvl (j : Nat) (y : Arr) : (x.setArr j y).wvl = x.wvl := rfl
@[simp] theorem Tile.setArr_slot0 (j : Nat) (y : Arr) : (x.setArr j y).slot0 = x.slot0 := rfl
@[simp] theorem Tile.setArr_rot (j : Nat) (y : Arr) : (x.setArr j y).rot = x.rot := rfl
@[simp] theorem Tile.setArr_replay (j : Nat) (y : Arr) : (x.setArr j y).replay = x.replay := rfl
@[simp] theorem Tile.setArr_replayAt (j : Nat) (y : Arr) : (x.setArr j y).replayAt = x.replayAt := rfl
@[simp] theorem Tile.setArr_txWait (j : Nat) (y : Arr) : (x.setArr j y).txWait = x.txWait := rfl
@[simp] theorem Tile.setArr_flowSeq (j : Nat) (y : Arr) : (x.setArr j y).flowSeq = x.flowSeq := rfl
@[simp] theorem Tile.setArr_exWindow (j : Nat) (y : Arr) : (x.setArr j y).exWindow = x.exWindow := rfl
@[simp] theorem Tile.setArr_exQueue (j : Nat) (y : Arr) : (x.setArr j y).exQueue = x.exQueue := rfl
@[simp] theorem Tile.setArr_exBound (j : Nat) (y : Arr) : (x.setArr j y).exBound = x.exBound := rfl
@[simp] theorem Tile.setArr_exUnsync (j : Nat) (y : Arr) : (x.setArr j y).exUnsync = x.exUnsync := rfl
@[simp] theorem Tile.setArr_tdcBase (j : Nat) (y : Arr) : (x.setArr j y).tdcBase = x.tdcBase := rfl
@[simp] theorem Tile.setArr_stopped (j : Nat) (y : Arr) : (x.setArr j y).stopped = x.stopped := rfl
@[simp] theorem Tile.setArr_reg (j : Nat) (y : Arr) (k' : Nat) : (x.setArr j y).reg k' = x.reg k' := rfl
@[simp] theorem Tile.setArr_ag (j : Nat) (y : Arr) (k' : Nat) : (x.setArr j y).ag k' = x.ag k' := rfl
@[simp] theorem Tile.setArr_qc (j : Nat) (y : Arr) (k' : Nat) : (x.setArr j y).qc k' = x.qc k' := rfl

/-! ### Tile.setQc -/

@[simp] theorem Tile.setQc_imem (q : Nat) (y : QCtx) : (x.setQc q y).imem = x.imem := rfl
@[simp] theorem Tile.setQc_dmem (q : Nat) (y : QCtx) : (x.setQc q y).dmem = x.dmem := rfl
@[simp] theorem Tile.setQc_spad (q : Nat) (y : QCtx) : (x.setQc q y).spad = x.spad := rfl
@[simp] theorem Tile.setQc_parInv (q : Nat) (y : QCtx) : (x.setQc q y).parInv = x.parInv := rfl
@[simp] theorem Tile.setQc_ocache (q : Nat) (y : QCtx) : (x.setQc q y).ocache = x.ocache := rfl
@[simp] theorem Tile.setQc_ocSeed (q : Nat) (y : QCtx) : (x.setQc q y).ocSeed = x.ocSeed := rfl
@[simp] theorem Tile.setQc_regs (q : Nat) (y : QCtx) : (x.setQc q y).regs = x.regs := rfl
@[simp] theorem Tile.setQc_scb (q : Nat) (y : QCtx) : (x.setQc q y).scb = x.scb := rfl
@[simp] theorem Tile.setQc_cap (q : Nat) (y : QCtx) : (x.setQc q y).cap = x.cap := rfl
@[simp] theorem Tile.setQc_ags (q : Nat) (y : QCtx) : (x.setQc q y).ags = x.ags := rfl
@[simp] theorem Tile.setQc_acwQ (q : Nat) (y : QCtx) : (x.setQc q y).acwQ = x.acwQ := rfl
@[simp] theorem Tile.setQc_vecQ (q : Nat) (y : QCtx) : (x.setQc q y).vecQ = x.vecQ := rfl
@[simp] theorem Tile.setQc_nextId (q : Nat) (y : QCtx) : (x.setQc q y).nextId = x.nextId := rfl
@[simp] theorem Tile.setQc_arrs (q : Nat) (y : QCtx) : (x.setQc q y).arrs = x.arrs := rfl
@[simp] theorem Tile.setQc_qwait (q : Nat) (y : QCtx) : (x.setQc q y).qwait = x.qwait := rfl
@[simp] theorem Tile.setQc_reasm (q : Nat) (y : QCtx) : (x.setQc q y).reasm = x.reasm := rfl
@[simp] theorem Tile.setQc_localIn (q : Nat) (y : QCtx) : (x.setQc q y).localIn = x.localIn := rfl
@[simp] theorem Tile.setQc_wvl (q : Nat) (y : QCtx) : (x.setQc q y).wvl = x.wvl := rfl
@[simp] theorem Tile.setQc_slot0 (q : Nat) (y : QCtx) : (x.setQc q y).slot0 = x.slot0 := rfl
@[simp] theorem Tile.setQc_rot (q : Nat) (y : QCtx) : (x.setQc q y).rot = x.rot := rfl
@[simp] theorem Tile.setQc_replay (q : Nat) (y : QCtx) : (x.setQc q y).replay = x.replay := rfl
@[simp] theorem Tile.setQc_replayAt (q : Nat) (y : QCtx) : (x.setQc q y).replayAt = x.replayAt := rfl
@[simp] theorem Tile.setQc_txWait (q : Nat) (y : QCtx) : (x.setQc q y).txWait = x.txWait := rfl
@[simp] theorem Tile.setQc_flowSeq (q : Nat) (y : QCtx) : (x.setQc q y).flowSeq = x.flowSeq := rfl
@[simp] theorem Tile.setQc_exWindow (q : Nat) (y : QCtx) : (x.setQc q y).exWindow = x.exWindow := rfl
@[simp] theorem Tile.setQc_exQueue (q : Nat) (y : QCtx) : (x.setQc q y).exQueue = x.exQueue := rfl
@[simp] theorem Tile.setQc_exBound (q : Nat) (y : QCtx) : (x.setQc q y).exBound = x.exBound := rfl
@[simp] theorem Tile.setQc_exUnsync (q : Nat) (y : QCtx) : (x.setQc q y).exUnsync = x.exUnsync := rfl
@[simp] theorem Tile.setQc_tdcBase (q : Nat) (y : QCtx) : (x.setQc q y).tdcBase = x.tdcBase := rfl
@[simp] theorem Tile.setQc_stopped (q : Nat) (y : QCtx) : (x.setQc q y).stopped = x.stopped := rfl
@[simp] theorem Tile.setQc_reg (q : Nat) (y : QCtx) (k' : Nat) : (x.setQc q y).reg k' = x.reg k' := rfl
@[simp] theorem Tile.setQc_ag (q : Nat) (y : QCtx) (k' : Nat) : (x.setQc q y).ag k' = x.ag k' := rfl
@[simp] theorem Tile.setQc_arr (q : Nat) (y : QCtx) (k' : Nat) : (x.setQc q y).arr k' = x.arr k' := rfl

/-! ### Reading what an update wrote -/

@[simp] theorem Dev.tile_setTile_self (k : Nat) (y : Tile) : (d.setTile k y).tile k = y := SMap.get_set_self _ _ _ _
@[simp] theorem Dev.tile_setTile_ne (k : Nat) (y : Tile) {j : Nat} (h : j ≠ k) : (d.setTile k y).tile j = d.tile j := SMap.get_set_ne _ _ _ _ h
@[simp] theorem Dev.region_setRegion_self (k : Nat) (y : Region) : (d.setRegion k y).region k = y := SMap.get_set_self _ _ _ _
@[simp] theorem Dev.region_setRegion_ne (k : Nat) (y : Region) {j : Nat} (h : j ≠ k) : (d.setRegion k y).region j = d.region j := SMap.get_set_ne _ _ _ _ h
@[simp] theorem Dev.ring_setRing_self (k : Nat) (y : Ring) : (d.setRing k y).ring k = y := SMap.get_set_self _ _ _ _
@[simp] theorem Dev.ring_setRing_ne (k : Nat) (y : Ring) {j : Nat} (h : j ≠ k) : (d.setRing k y).ring j = d.ring j := SMap.get_set_ne _ _ _ _ h
@[simp] theorem Dev.slot_setSlot_self (k : Nat) (y : Slot) : (d.setSlot k y).slot k = y := SMap.get_set_self _ _ _ _
@[simp] theorem Dev.slot_setSlot_ne (k : Nat) (y : Slot) {j : Nat} (h : j ≠ k) : (d.setSlot k y).slot j = d.slot j := SMap.get_set_ne _ _ _ _ h
@[simp] theorem Dev.tenant_setTenant_self (k : Nat) (y : Tenant) : (d.setTenant k y).tenant k = y := SMap.get_set_self _ _ _ _
@[simp] theorem Dev.tenant_setTenant_ne (k : Nat) (y : Tenant) {j : Nat} (h : j ≠ k) : (d.setTenant k y).tenant j = d.tenant j := SMap.get_set_ne _ _ _ _ h
@[simp] theorem Dev.port_setPort_self (k : Nat) (y : Port) : (d.setPort k y).port k = y := SMap.get_set_self _ _ _ _
@[simp] theorem Dev.port_setPort_ne (k : Nat) (y : Port) {j : Nat} (h : j ≠ k) : (d.setPort k y).port j = d.port j := SMap.get_set_ne _ _ _ _ h
@[simp] theorem Dev.reg_setReg_self (k : Nat) (y : W64) : (d.setReg k y).reg k = y := SMap.get_set_self _ _ _ _
@[simp] theorem Dev.reg_setReg_ne (k : Nat) (y : W64) {j : Nat} (h : j ≠ k) : (d.setReg k y).reg j = d.reg j := SMap.get_set_ne _ _ _ _ h
@[simp] theorem Tile.reg_setReg_self (k : Nat) (y : W64) : (x.setReg k y).reg k = y := SMap.get_set_self _ _ _ _
@[simp] theorem Tile.reg_setReg_ne (k : Nat) (y : W64) {j : Nat} (h : j ≠ k) : (x.setReg k y).reg j = x.reg j := SMap.get_set_ne _ _ _ _ h
@[simp] theorem Tile.ag_setAg_self (k : Nat) (y : Ag) : (x.setAg k y).ag k = y := SMap.get_set_self _ _ _ _
@[simp] theorem Tile.ag_setAg_ne (k : Nat) (y : Ag) {j : Nat} (h : j ≠ k) : (x.setAg k y).ag j = x.ag j := SMap.get_set_ne _ _ _ _ h
@[simp] theorem Tile.arr_setArr_self (k : Nat) (y : Arr) : (x.setArr k y).arr k = y := SMap.get_set_self _ _ _ _
@[simp] theorem Tile.arr_setArr_ne (k : Nat) (y : Arr) {j : Nat} (h : j ≠ k) : (x.setArr k y).arr j = x.arr j := SMap.get_set_ne _ _ _ _ h
@[simp] theorem Tile.qc_setQc_self (k : Nat) (y : QCtx) : (x.setQc k y).qc k = y := SMap.get_set_self _ _ _ _
@[simp] theorem Tile.qc_setQc_ne (k : Nat) (y : QCtx) {j : Nat} (h : j ≠ k) : (x.setQc k y).qc j = x.qc j := SMap.get_set_ne _ _ _ _ h
@[simp] theorem Dev.tile_modTile_self (k : Nat) (f : Tile → Tile) : (d.modTile k f).tile k = f (d.tile k) := SMap.get_set_self _ _ _ _
@[simp] theorem Dev.tile_modTile_ne (k : Nat) (f : Tile → Tile) {j : Nat} (h : j ≠ k) : (d.modTile k f).tile j = d.tile j := SMap.get_set_ne _ _ _ _ h
@[simp] theorem Dev.region_modRegion_self (k : Nat) (f : Region → Region) : (d.modRegion k f).region k = f (d.region k) := SMap.get_set_self _ _ _ _
@[simp] theorem Dev.region_modRegion_ne (k : Nat) (f : Region → Region) {j : Nat} (h : j ≠ k) : (d.modRegion k f).region j = d.region j := SMap.get_set_ne _ _ _ _ h
@[simp] theorem Dev.port_modPort_self (k : Nat) (f : Port → Port) : (d.modPort k f).port k = f (d.port k) := SMap.get_set_self _ _ _ _
@[simp] theorem Dev.port_modPort_ne (k : Nat) (f : Port → Port) {j : Nat} (h : j ≠ k) : (d.modPort k f).port j = d.port j := SMap.get_set_ne _ _ _ _ h
@[simp] theorem Dev.reg_modReg_self (k : Nat) (f : W64 → W64) : (d.modReg k f).reg k = f (d.reg k) := SMap.get_set_self _ _ _ _
@[simp] theorem Dev.reg_modReg_ne (k : Nat) (f : W64 → W64) {j : Nat} (h : j ≠ k) : (d.modReg k f).reg j = d.reg j := SMap.get_set_ne _ _ _ _ h
@[simp] theorem Tile.reg_modReg_self (k : Nat) (f : W64 → W64) : (x.modReg k f).reg k = f (x.reg k) := SMap.get_set_self _ _ _ _
@[simp] theorem Tile.reg_modReg_ne (k : Nat) (f : W64 → W64) {j : Nat} (h : j ≠ k) : (x.modReg k f).reg j = x.reg j := SMap.get_set_ne _ _ _ _ h
@[simp] theorem Dev.setTile_setTile (k : Nat) (y z : Tile) : (d.setTile k y).setTile k z = d.setTile k z := by simp [Dev.setTile]
@[simp] theorem Dev.setRegion_setRegion (k : Nat) (y z : Region) : (d.setRegion k y).setRegion k z = d.setRegion k z := by simp [Dev.setRegion]
@[simp] theorem Dev.setRing_setRing (k : Nat) (y z : Ring) : (d.setRing k y).setRing k z = d.setRing k z := by simp [Dev.setRing]
@[simp] theorem Dev.setSlot_setSlot (k : Nat) (y z : Slot) : (d.setSlot k y).setSlot k z = d.setSlot k z := by simp [Dev.setSlot]
@[simp] theorem Dev.setTenant_setTenant (k : Nat) (y z : Tenant) : (d.setTenant k y).setTenant k z = d.setTenant k z := by simp [Dev.setTenant]
@[simp] theorem Dev.setPort_setPort (k : Nat) (y z : Port) : (d.setPort k y).setPort k z = d.setPort k z := by simp [Dev.setPort]
@[simp] theorem Dev.setReg_setReg (k : Nat) (y z : W64) : (d.setReg k y).setReg k z = d.setReg k z := by simp [Dev.setReg]
@[simp] theorem Tile.setReg_setReg (k : Nat) (y z : W64) : (x.setReg k y).setReg k z = x.setReg k z := by simp [Tile.setReg]
@[simp] theorem Tile.setAg_setAg (k : Nat) (y z : Ag) : (x.setAg k y).setAg k z = x.setAg k z := by simp [Tile.setAg]
@[simp] theorem Tile.setArr_setArr (k : Nat) (y z : Arr) : (x.setArr k y).setArr k z = x.setArr k z := by simp [Tile.setArr]
@[simp] theorem Tile.setQc_setQc (k : Nat) (y z : QCtx) : (x.setQc k y).setQc k z = x.setQc k z := by simp [Tile.setQc]
@[simp] theorem Dev.emit_out (o : Output) : (d.emit o).out = d.out ++ [o] := rfl
@[simp] theorem Dev.modWt_wt (f : WTier → WTier) : (d.modWt f).wt = f d.wt := rfl

end Sys2Proof.Machine
end

