-- ==== Sys2Proof/Laws/Ops.lean ====
section
/-! SUPPORT. What the shared operations can do, one lemma each: the forms of a meaning, free values, mailboxes and replies, and the
Scarab's ways to go on, to wait, to jump and to trap. -/

namespace Sys2Proof.Machine

/-! ### The forms of a meaning -/

/-- A command that answers a next state leaves the waiting commands alone, and it names a unit that exists. -/
theorem onUnit_next {n i : Nat} {s s' : State} {f : Dev → Dev} (h : onUnit n i s f = .next s') : i < n ∧ s' = { s with dev := f s.dev } := by
  unfold onUnit at h
  split at h
  · rename_i hi
    simp only [onDev, Host.Outcome.next.injEq] at h
    exact ⟨hi, h.symm⟩
  · cases h

theorem onUnit_of_lt {n i : Nat} (s : State) (f : Dev → Dev) (h : i < n) : onUnit n i s f = .next { s with dev := f s.dev } := by
  simp [onUnit, h, onDev]

theorem onUnit_of_ge {n i : Nat} (s : State) (f : Dev → Dev) (h : n ≤ i) : onUnit n i s f = .fault .noSuchUnit := by
  simp [onUnit, Nat.not_lt.mpr h]

theorem onHostM_of_lt {m op : Nat} {ok : Message → Bool} (s : State) (f : Dev → Dev) (h : m < Config.nMailboxes) :
    onHostM m op ok s f = .next { s with dev := if s.dev.accepts m op ok then f (s.dev.begin_ m) else s.dev } :=
  onUnit_of_lt s _ h

theorem onHost_of_lt {m op : Nat} (s : State) (f : Dev → Dev) (h : m < Config.nMailboxes) :
    onHost m op s f = .next { s with dev := if s.dev.accepts m op (fun _ => true) then f (s.dev.begin_ m) else s.dev } :=
  onHostM_of_lt s f h

/-- A command whose message holds its parameters and that may begin takes place. -/
theorem Dev.accepts_of_canBegin {d : Dev} {m op : Nat} {ok : Message → Bool} (h : d.canBegin m op = true) (hm : ok (d.message m) = true) :
    d.accepts m op ok = true := by simp [Dev.accepts, h, hm]

theorem onScb_of_lt {t : Nat} (s : State) (f : Dev → Dev) (h : t < Config.nTiles) :
    onScb t s f = .next { s with dev := if (s.dev.tile t).canIssue then f s.dev else s.dev } :=
  onUnit_of_lt s _ h

/-! ### What leaves the device -/

@[simp] theorem Dev.out_emit (d : Dev) (o : Output) : (d.emit o).out = d.out ++ [o] := rfl

/-- An interrupt changes nothing but the MSI-X window and what has left the device. -/
theorem Dev.irq_frame (d : Dev) (v : Nat) : ∃ h o, d.irq v = { d with host := { d.host with msix := h }, out := o } := by
  unfold Dev.irq
  split
  · split
    · exact ⟨_, d.out, rfl⟩
    · exact ⟨d.host.msix, _, rfl⟩
  · exact ⟨d.host.msix, d.out, rfl⟩

/-! ### Mailboxes -/

/-- A mailbox has the state it was given. -/
theorem Dev.mbState_setMbState_self (d : Dev) (m st : Nat) (h : m < 32) : (d.setMbState m st).mbState m = st % 4 := by
  simp only [Dev.mbState, Dev.setMbState, Dev.modReg, Dev.reg_setReg_self]
  exact fld_setFld_self _ _ _ _ (by omega)

/-- Another mailbox keeps its state. -/
theorem Dev.mbState_setMbState_ne (d : Dev) {m k : Nat} (st : Nat) (h : m < 32) (hk : k ≠ m) : (d.setMbState m st).mbState k = d.mbState k := by
  simp only [Dev.mbState, Dev.setMbState, Dev.modReg, Dev.reg_setReg_self]
  exact fld_setFld_other _ _ _ _ _ _ (by omega) (by omega)

/-- A reply leaves the mailbox DONE, every other mailbox in its state, and everything but HIVE_MBOXST, the message area, the lists of
begun commands and the interrupt as it was. -/
theorem Dev.replyFull_spec (d : Dev) (m : Nat) (st : W16) (detail : W32) (w57 : List W32) (data : List Byte) (hm : m < 32)
    (ha : d.authority = true) (hn : m ∉ d.hive.noReply) (hr : d.mbState m = 2) :
    (d.replyFull m st detail w57 data).mbState m = 3 ∧ (∀ k, k ≠ m → (d.replyFull m st detail w57 data).mbState k = d.mbState k) ∧
    ∃ regs hive host out, d.replyFull m st detail w57 data = { d with regs := regs, hive := hive, host := host, out := out } ∧
      (∀ a, a ≠ Reg.HIVE_MBOXST → SMap.get devReset regs a = d.reg a) := by
  unfold Dev.replyFull
  have hc : d.hive.noReply.contains m = false := by simpa using hn
  simp only [ha, hc, hr, Bool.true_eq_false, Bool.false_eq_true, if_false, if_true]
  generalize he : ({ d with hive := _ } : Dev) = e
  have hreg : ∀ a, e.reg a = d.reg a := by intro a; rw [← he]; rfl
  have hst : ∀ k, e.mbState k = d.mbState k := fun k => by simp only [Dev.mbState, hreg]
  have key : ∀ f : Dev, (∃ h o, f = { e.setMbState m 3 with host := h, out := o }) → f.mbState m = 3 ∧ (∀ k, k ≠ m → f.mbState k = d.mbState k) ∧
      ∃ regs hive host out, f = { d with regs := regs, hive := hive, host := host, out := out } ∧ (∀ a, a ≠ Reg.HIVE_MBOXST → SMap.get devReset regs a = d.reg a) := by
    rintro f ⟨h, o, rfl⟩
    refine ⟨Dev.mbState_setMbState_self e m 3 hm, fun k hk => (Dev.mbState_setMbState_ne e 3 hm hk).trans (hst k), ?_⟩
    refine ⟨(e.setMbState m 3).regs, e.hive, h, o, ?_, ?_⟩
    · rw [← he]; rfl
    · intro a ha
      exact (Dev.reg_setReg_ne e _ _ ha).trans (hreg a)
  split
  · exact key _ ⟨_, _, rfl⟩
  · obtain ⟨h, o, hf⟩ := Dev.irq_frame (e.setMbState m 3) (2016 + m)
    exact key _ ⟨_, o, hf⟩

/-- Without the authority a command has no reply. -/
theorem Dev.replyFull_no_authority (d : Dev) (m : Nat) (st : W16) (detail : W32) (w57 : List W32) (data : List Byte) (ha : d.authority = false) :
    d.replyFull m st detail w57 data = d := by simp [Dev.replyFull, ha]

/-! ### The Scarab -/

/-- A general register reads as it was written, but for g0. -/
theorem Tile.gr_setGr (t : Tile) (rd n : R5) (v : W32) : (t.setGr rd v).gr n = if n = rd ∧ n ≠ 0 then v else t.gr n := by
  by_cases hn : n = 0
  · simp [Tile.gr, hn]
  · by_cases h0 : rd = 0
    · have : n ≠ rd := fun e => hn (e.trans h0)
      rw [Tile.setGr, if_pos h0, if_neg (fun c => this c.1)]
    · rw [Tile.setGr, if_neg h0, Tile.gr, if_neg hn]
      by_cases hr : n = rd
      · rw [if_pos ⟨hr, hn⟩, hr]
        exact SMap.get_set_self _ _ _ _
      · have : n.toNat ≠ rd.toNat := fun e => hr (BitVec.eq_of_toNat_eq e)
        rw [if_neg (fun c => hr c.1), Tile.gr, if_neg hn]
        exact SMap.get_set_ne _ _ _ _ this

/-- A write of a general register changes nothing else of the tile. -/
theorem Tile.setGr_frame (t : Tile) (rd : R5) (v : W32) : ∃ g, t.setGr rd v = { t with scb := { t.scb with g := g } } := by
  unfold Tile.setGr
  split
  · exact ⟨t.scb.g, rfl⟩
  · exact ⟨_, rfl⟩

@[simp] theorem Tile.setGr_scb_pc (t : Tile) (rd : R5) (v : W32) : (t.setGr rd v).scb.pc = t.scb.pc := by
  unfold Tile.setGr; split <;> rfl

/-- An instruction that goes on: the PC moves past its word, and nothing else changes. -/
theorem Dev.scbNext_eq (d : Dev) (t : Nat) (h : (d.tile t).scb.pc.toNat + 4 < 0x10000) :
    d.scbNext t = d.setTile t { d.tile t with scb := { (d.tile t).scb with pc := (d.tile t).scb.pc + 4, stall := .none } } := by
  have : ¬ ((d.tile t).scb.pc + 4).toNat ≥ 0x10000 := by
    rw [BitVec.toNat_add]; simp; omega
  simp only [Dev.scbNext, Dev.modTile, Dev.tile_setTile_self]
  rw [if_neg this]

/-- An instruction that writes a register and goes on changes the register, the PC and nothing else. -/
theorem Dev.scbSet_eq (d : Dev) (t : Nat) (rd : R5) (v : W32) (h : (d.tile t).scb.pc.toNat + 4 < 0x10000) :
    d.scbSet t rd v = d.setTile t { (d.tile t).setGr rd v with
      scb := { ((d.tile t).setGr rd v).scb with pc := (d.tile t).scb.pc + 4, stall := .none } } := by
  unfold Dev.scbSet
  rw [Dev.scbNext_eq]
  · simp only [Dev.modTile, Dev.tile_setTile_self, Dev.setTile_setTile, Tile.setGr_scb_pc]
  · simpa only [Dev.modTile, Dev.tile_setTile_self, Tile.setGr_scb_pc] using h

/-- A jump to a target in IMEM. -/
theorem Dev.scbGoto_eq (d : Dev) (t : Nat) (target : W32) (f : Tile → Tile) (h : target.toNat < 0x10000) :
    d.scbGoto t target f = d.setTile t { f (d.tile t) with scb := { (f (d.tile t)).scb with pc := target } } := by
  have : ¬ target.toNat ≥ 0x10000 := by omega
  simp only [Dev.scbGoto, this, if_false, Dev.modTile]

/-- A synchronous cause outside a trap changes one tile. -/
theorem Dev.scbTrap_eq (d : Dev) (t code : Nat) (tval : W32) (h : (d.tile t).scb.inTrap = false) :
    d.scbTrap t code tval = d.setTile t ((d.tile t).trapTo code tval) := by
  simp [Dev.scbTrap, h, Dev.modTile]

/-- The registers of a tile do not read its Scarab. -/
theorem Tile.reg_scb (x : Tile) (f : Scarab) (a : Nat) : ({ x with scb := f } : Tile).reg a = x.reg a := rfl

/-- The general registers of a tile. -/
theorem Tile.gr_scb (x : Tile) (f : Scarab) (n : R5) (h : f.g = x.scb.g) : ({ x with scb := f } : Tile).gr n = x.gr n := by
  simp only [Tile.gr, h]

/-- A taken trap changes registers, INTRAP, the wait and the PC, and nothing else of the tile. -/
theorem Tile.trapTo_frame (t : Tile) (code : Nat) (tval : W32) :
    ∃ regs pc, t.trapTo code tval = { t with regs := regs, scb := { t.scb with inTrap := true, stall := .none, pc := pc } } := by
  unfold Tile.trapTo Tile.setReg
  exact ⟨_, _, rfl⟩

/-- A taken trap: INTRAP is set, SCB_EPC is the PC, SCB_CAUSE the cause, and the PC is SCB_TVEC. -/
theorem Tile.trapTo_spec (t : Tile) (code : Nat) (tval : W32) :
    (t.trapTo code tval).scb.inTrap = true ∧ (t.trapTo code tval).reg Reg.SCB_EPC = BitVec.ofNat 64 t.scb.pc.toNat ∧
    (t.trapTo code tval).reg Reg.SCB_CAUSE = BitVec.ofNat 64 (code + tval.toNat * 2 ^ 32) ∧
    (t.trapTo code tval).scb.pc = BitVec.ofNat 32 (fld (t.reg Reg.SCB_TVEC) 0 16) ∧
    (∀ a, a ≠ Reg.SCB_EPC → a ≠ Reg.SCB_CAUSE → (t.trapTo code tval).reg a = t.reg a) ∧ (∀ n, (t.trapTo code tval).gr n = t.gr n) := by
  have hE : Reg.SCB_EPC ≠ Reg.SCB_CAUSE := by decide
  have hT : Reg.SCB_TVEC ≠ Reg.SCB_EPC := by decide
  have hT' : Reg.SCB_TVEC ≠ Reg.SCB_CAUSE := by decide
  simp only [Tile.trapTo]
  refine ⟨trivial, ?_, ?_, ?_, ?_, ?_⟩
  · rw [Tile.reg_scb, Tile.reg_setReg_ne _ _ _ hE, Tile.reg_setReg_self]
  · rw [Tile.reg_scb, Tile.reg_setReg_self]
  · simp only [Tile.reg_setReg_ne _ _ _ hT', Tile.reg_setReg_ne _ _ _ hT]
  · intro a h1 h2
    rw [Tile.reg_scb, Tile.reg_setReg_ne _ _ _ h2, Tile.reg_setReg_ne _ _ _ h1]
  · intro n
    rw [Tile.gr_scb]
    · simp only [Tile.gr, Tile.setReg]
    · rfl


/-! ### Parity of the scratchpad -/

/-- The stored bit of a word is wrong exactly for the words that `parInv` lists. -/
theorem Tile.parBit_ne_iff (x : Tile) (a : Nat) : x.parBit a ≠ parityBit a (x.spad.readNat a 4) ↔ a ∈ x.parInv := by
  unfold Tile.parBit
  cases parityBit a (x.spad.readNat a 4) <;> by_cases h : a ∈ x.parInv <;> simp [h]

/-- Where every word holds its parity bit, no read and no merge fails. -/
theorem Tile.badWord_of_good {x : Tile} (h : x.parInv = []) (a n : Nat) : x.badWord a n = none := by simp [Tile.badWord, h]
theorem Tile.mergeBad_of_good {x : Tile} (h : x.parInv = []) (a n : Nat) : x.mergeBad a n = none := by simp [Tile.mergeBad, h]
theorem Dev.spadCheck_of_good {d : Dev} {t : Nat} (h : (d.tile t).parInv = []) (a n : Nat) : d.spadCheck t a n = (d, false) := by
  simp [Dev.spadCheck, Tile.badWord_of_good h]
theorem Dev.spadChecks_of_good {d : Dev} (h : ∀ t, (d.tile t).parInv = []) (qs : List (Nat × Nat × Nat)) : Dev.spadChecks qs d = (d, false) := by
  induction qs with
  | nil => rfl
  | cons q qs ih => simp [Dev.spadChecks, Dev.spadCheck_of_good (h q.1), ih]

end Sys2Proof.Machine
end

