-- ==== Sys2Proof/Laws/Store.lean ====
section
/-! SUPPORT. Laws of the profile store (17 R397): a record reads back, one without its COMMIT is no record, and a torn write leaves the copy in
force as it was. -/

namespace Sys2Proof.Machine

/-- A part of a list of bytes, cut out by its place. -/
theorem slice_middle (a b c : List Byte) (off n : Nat) (ha : a.length = off) (hb : b.length = n) : slice (a ++ b ++ c) off n = b := by
  subst ha hb
  simp [slice]

theorem length_profBody (seq : W32) (f : List Byte) (h : f.length = 20) : (profBody seq f).length = 32 := by simp [profBody, h]

/-- What a committed record is: the body without its last byte, then COMMIT. -/
theorem profCommit_profBody (seq : W32) (f : List Byte) (h : f.length = 20) :
    profCommit (profBody seq f) = leBytes 4 seq.toNat ++ f ++ leBytes 4 (crc32c (leBytes 4 seq.toNat ++ f)) ++ leBytes 3 0 ++ [0xA5] := by
  simp only [profCommit, profBody]
  congr 1
  rw [List.take_append_of_le_length (by simp [h]), List.take_of_length_le (by simp [h])]

/-- The CRC of 24 bytes fits its field. -/
theorem crcLsb_lt (poly : Nat) (h : poly < 2 ^ 32) (b : List Byte) : crcLsb poly b < 2 ^ 32 := by
  have bitLt : ∀ c, c < 2 ^ 32 → crcLsbBit poly c < 2 ^ 32 := by
    intro c hc
    unfold crcLsbBit
    split
    · exact Nat.xor_lt_two_pow (by omega) h
    · omega
  have bits : ∀ (l : List Nat) c, c < 2 ^ 32 → l.foldl (fun c _ => crcLsbBit poly c) c < 2 ^ 32 := by
    intro l
    induction l with
    | nil => intro c hc; exact hc
    | cons _ l ih => intro c hc; exact ih _ (bitLt c hc)
  have bytes : ∀ (l : List Byte) c, c < 2 ^ 32 → l.foldl (fun c x => (List.range 8).foldl (fun c _ => crcLsbBit poly c) (c ^^^ x.toNat)) c < 2 ^ 32 := by
    intro l
    induction l with
    | nil => intro c hc; exact hc
    | cons x l ih => intro c hc; exact ih _ (bits _ _ (Nat.xor_lt_two_pow hc (Nat.lt_of_lt_of_le x.isLt (by decide))))
  exact Nat.xor_lt_two_pow (bytes b _ (by decide)) (by decide)

/-- A written record may be read. -/
theorem profSound_commit (seq : W32) (f : List Byte) (h : f.length = 20) : profSound (profCommit (profBody seq f)) = true := by
  rw [profCommit_profBody seq f h]
  have e1 : slice (leBytes 4 seq.toNat ++ f ++ leBytes 4 (crc32c (leBytes 4 seq.toNat ++ f)) ++ leBytes 3 0 ++ [0xA5]) 24 4 =
      leBytes 4 (crc32c (leBytes 4 seq.toNat ++ f)) := by
    have := slice_middle (leBytes 4 seq.toNat ++ f) (leBytes 4 (crc32c (leBytes 4 seq.toNat ++ f))) (leBytes 3 0 ++ [0xA5]) 24 4 (by simp [h]) (by simp)
    simpa [List.append_assoc] using this
  have e2 : slice (leBytes 4 seq.toNat ++ f ++ leBytes 4 (crc32c (leBytes 4 seq.toNat ++ f)) ++ leBytes 3 0 ++ [0xA5]) 0 24 = leBytes 4 seq.toNat ++ f := by
    have := slice_middle [] (leBytes 4 seq.toNat ++ f) (leBytes 4 (crc32c (leBytes 4 seq.toNat ++ f)) ++ (leBytes 3 0 ++ [0xA5])) 0 24 rfl (by simp [h])
    simpa [List.append_assoc] using this
  have e3 : (leBytes 4 seq.toNat ++ f ++ leBytes 4 (crc32c (leBytes 4 seq.toNat ++ f)) ++ leBytes 3 0 ++ ([0xA5] : List Byte)).getD 31 0 = 0xA5 := by
    rw [List.getD_append_right _ _ _ _ (by simp [h])]
    simp [h]
  have hc : crc32c (leBytes 4 seq.toNat ++ f) < 256 ^ 4 := crcLsb_lt _ (by decide) _
  simp only [profSound, rdNat, e1, e2, e3, leNat_leBytes, Nat.mod_eq_of_lt hc, decide_true, Bool.and_self]

/-- A record without its COMMIT may not be read. -/
theorem profSound_body (seq : W32) (f : List Byte) (h : f.length = 20) : profSound (profBody seq f) = false := by
  have e3 : (profBody seq f).getD 31 0 = 0xFF := by
    simp only [profBody]
    rw [List.getD_append_right _ _ _ _ (by simp [h])]
    simp [h]
  simp only [profSound, e3]
  simp

/-- A torn write leaves the copy in force as it was (17 R397). -/
theorem StoreItem.best_torn (i : StoreItem) (x : List Byte) (h : profSound x = false) : (i.older x).best = i.best := by
  unfold StoreItem.best StoreItem.older StoreItem.newer
  cases ha : profSound i.a <;> cases hb : profSound i.b <;> simp [ha, hb, h]
  split <;> simp_all

/-- SEQ of a written record. -/
theorem profSeq_commit (seq : W32) (f : List Byte) (h : f.length = 20) : profSeq (profCommit (profBody seq f)) = seq := by
  rw [profCommit_profBody seq f h]
  have e : slice (leBytes 4 seq.toNat ++ f ++ leBytes 4 (crc32c (leBytes 4 seq.toNat ++ f)) ++ leBytes 3 0 ++ [0xA5]) 0 4 = leBytes 4 seq.toNat := by
    have := slice_middle [] (leBytes 4 seq.toNat) (f ++ leBytes 4 (crc32c (leBytes 4 seq.toNat ++ f)) ++ (leBytes 3 0 ++ [0xA5])) 0 4 rfl (by simp)
    simpa [List.append_assoc] using this
  have hs : seq.toNat < 256 ^ 4 := seq.isLt
  simp only [profSeq, rdNat, e, leNat_leBytes, Nat.mod_eq_of_lt hs, BitVec.ofNat_toNat, BitVec.setWidth_eq]

/-- The bytes of a written record's fields. -/
theorem slice_commit_fields (seq : W32) (f : List Byte) (h : f.length = 20) (off n : Nat) (hn : off + n ≤ 20) :
    slice (profCommit (profBody seq f)) (4 + off) n = slice f off n := by
  rw [profCommit_profBody seq f h]
  have e : leBytes 4 seq.toNat ++ f ++ leBytes 4 (crc32c (leBytes 4 seq.toNat ++ f)) ++ leBytes 3 0 ++ ([0xA5] : List Byte) =
      (leBytes 4 seq.toNat ++ f.take off) ++ (f.drop off).take n ++
        ((f.drop off).drop n ++ leBytes 4 (crc32c (leBytes 4 seq.toNat ++ f)) ++ leBytes 3 0 ++ [0xA5]) := by
    have hf : f = f.take off ++ ((f.drop off).take n ++ (f.drop off).drop n) := by rw [List.take_append_drop, List.take_append_drop]
    generalize leBytes 4 (crc32c (leBytes 4 seq.toNat ++ f)) = c
    conv_lhs => rw [hf]
    simp only [List.append_assoc]
  have hl : ((f.drop off).take n).length = n := by simp [h]; omega
  rw [e, slice_middle _ _ _ _ _ (by simp [h]; omega) hl]
  simp only [slice, hl, Nat.sub_self, List.replicate_zero, List.append_nil]

theorem length_fields (q : ProfRec) (sel : Byte) : (ProfRec.fields q sel).length = 20 := by simp [ProfRec.fields]

/-- A profile inside the limits of Table 17.5 reads back from its record. -/
theorem ofRec_commit (seq : W32) (q : ProfRec) (sel : Byte) (h : profOk q = true) : ProfRec.ofRec (profCommit (profBody seq (ProfRec.fields q sel))) = q := by
  obtain ⟨limit, cap, code, slow, twarn, lidmax, opt⟩ := q
  simp only [profOk, Bool.and_eq_true, decide_eq_true_eq] at h
  have at_ : ∀ (a b c : List Byte) off n, a.length = off → b.length = n → off + n ≤ 20 →
      ProfRec.fields ⟨limit, cap, code, slow, twarn, lidmax, opt⟩ sel = a ++ b ++ c →
      slice (profCommit (profBody seq (ProfRec.fields ⟨limit, cap, code, slow, twarn, lidmax, opt⟩ sel))) (4 + off) n = b := by
    intro a b c off n ha hb hn e
    rw [slice_commit_fields seq _ (length_fields _ _) off n hn, e, slice_middle a b c off n ha hb]
  have e1 := at_ [] (leBytes 2 limit) (leBytes 2 cap ++ leBytes 1 code ++ leBytes 1 slow ++ leBytes 1 twarn ++ leBytes 1 lidmax ++
    leBytes 1 (if opt then 1 else 0) ++ [sel] ++ leBytes 10 0) 0 2 rfl (by simp) (by decide) (by simp [ProfRec.fields])
  have e2 := at_ (leBytes 2 limit) (leBytes 2 cap) (leBytes 1 code ++ leBytes 1 slow ++ leBytes 1 twarn ++ leBytes 1 lidmax ++
    leBytes 1 (if opt then 1 else 0) ++ [sel] ++ leBytes 10 0) 2 2 (by simp) (by simp) (by decide) (by simp [ProfRec.fields])
  have e3 := at_ (leBytes 2 limit ++ leBytes 2 cap) (leBytes 1 code) (leBytes 1 slow ++ leBytes 1 twarn ++ leBytes 1 lidmax ++
    leBytes 1 (if opt then 1 else 0) ++ [sel] ++ leBytes 10 0) 4 1 (by simp) (by simp) (by decide) (by simp [ProfRec.fields])
  have e4 := at_ (leBytes 2 limit ++ leBytes 2 cap ++ leBytes 1 code) (leBytes 1 slow) (leBytes 1 twarn ++ leBytes 1 lidmax ++
    leBytes 1 (if opt then 1 else 0) ++ [sel] ++ leBytes 10 0) 5 1 (by simp) (by simp) (by decide) (by simp [ProfRec.fields])
  have e5 := at_ (leBytes 2 limit ++ leBytes 2 cap ++ leBytes 1 code ++ leBytes 1 slow) (leBytes 1 twarn) (leBytes 1 lidmax ++
    leBytes 1 (if opt then 1 else 0) ++ [sel] ++ leBytes 10 0) 6 1 (by simp) (by simp) (by decide) (by simp [ProfRec.fields])
  have e6 := at_ (leBytes 2 limit ++ leBytes 2 cap ++ leBytes 1 code ++ leBytes 1 slow ++ leBytes 1 twarn) (leBytes 1 lidmax)
    (leBytes 1 (if opt then 1 else 0) ++ [sel] ++ leBytes 10 0) 7 1 (by simp) (by simp) (by decide) (by simp [ProfRec.fields])
  have e7 := at_ (leBytes 2 limit ++ leBytes 2 cap ++ leBytes 1 code ++ leBytes 1 slow ++ leBytes 1 twarn ++ leBytes 1 lidmax)
    (leBytes 1 (if opt then 1 else 0)) ([sel] ++ leBytes 10 0) 8 1 (by simp) (by simp) (by decide) (by simp [ProfRec.fields])
  simp only [Nat.reduceAdd] at e1 e2 e3 e4 e5 e6 e7
  simp only [ProfRec.ofRec, rdNat, e1, e2, e3, e4, e5, e6, e7, leNat_leBytes, ProfRec.mk.injEq]
  refine ⟨by omega, by omega, by omega, by omega, by omega, by omega, ?_⟩
  cases opt <;> decide

/-- SEL of a written override record. -/
theorem profSel_commit (seq : W32) (sel : Byte) : profSel (profCommit (profBody seq (leBytes 9 0 ++ [sel] ++ leBytes 10 0))) = sel := by
  rw [profCommit_profBody _ _ (by simp)]
  simp [profSel, List.getD, leBytes]

end Sys2Proof.Machine
end

