-- ==== Sys2Proof/Machine/Lands.lean ====
section
/-! DEFINITION. The lands of the module (18 R404 to R408, Tables 18.1 to 18.3) and the fibres of its optical receptacles (18 R410): names,
groups, signals, and what a land reads as when the board leaves it open. -/

namespace Sys2Proof.Machine

/-- Second letters of row names, in their order. -/
def rowLetters : List Char := "ABCDEFGHJKLMNPTUVWYZ".toList

/-- A land: its row index, 0 to 59, and its column, 1 to 80 (R404). -/
structure Land where
  row : Nat
  col : Nat
deriving DecidableEq, Repr

/-- The index of a row name. -/
def rowIndex (a b : Char) : Nat := 20 * (a.toNat - 'A'.toNat) + rowLetters.findIdx fun c => decide (c = b)

/-- The land of a row name and a column. -/
def land (a b : Char) (col : Nat) : Land := ⟨rowIndex a b, col⟩

/-- The two letters of a land's row. -/
def Land.letters (l : Land) : Char × Char := (['A', 'B', 'C'].getD (l.row / 20) 'C', rowLetters.getD (l.row % 20) 'Z')

/-- Every land of the grid. -/
def lands : List Land := (List.range 60).flatMap fun r => (List.range 80).map fun c => ⟨r, c + 1⟩

/-- A leg of a lane: receive or transmit, the lane, and whether it is the N leg. -/
structure Leg where
  rx : Bool
  lane : Nat
  neg : Bool
deriving DecidableEq, Repr

/-- The block of a land in the edge blocks of the fabric ports: port, depth and position (R406, Table 18.3). -/
def Land.block (l : Land) : Option (Nat × Nat × Nat) :=
  let side : Option (Nat × Nat × Nat) := if 8 ≤ l.row ∧ l.row < 40 then some ((l.row - 8) / 8, 0, (l.row - 8) % 8) else none
  if l.col ≤ 8 then side.map fun x => (x.1, l.col - 1, x.2.2)
  else if 73 ≤ l.col then side.map fun x => (8 + x.1, 80 - l.col, x.2.2)
  else if l.row < 8 ∧ 25 ≤ l.col ∧ l.col < 57 then some (4 + (l.col - 25) / 8, l.row, (l.col - 25) % 8)
  else none

/-- The fabric port and the leg of a land; odd depths carry GND (R406). -/
def Land.fabric (l : Land) : Option (Nat × Leg) :=
  match l.block with
  | some (p, d, u) => if d % 2 = 1 then none else some (p, ⟨decide (4 ≤ d), 4 * (d / 2 % 2) + u / 2, decide (u % 2 = 1)⟩)
  | none => none

/-- The PCIe leg of a land (R407). -/
def Land.pcie (l : Land) : Option Leg :=
  let k := l.col - 65
  let leg (rx : Bool) (lane0 : Nat) : Option Leg := some ⟨rx, lane0 + k / 2, decide (k % 2 = 1)⟩
  if l.col < 65 ∨ 80 < l.col then none
  else if l.row = rowIndex 'C' 'E' then leg false 0
  else if l.row = rowIndex 'C' 'G' then leg false 8
  else if l.row = rowIndex 'C' 'J' then leg true 0
  else if l.row = rowIndex 'C' 'L' then leg true 8
  else none

/-- The low-speed signals (R408, Table 18.2); the operand is a bit of a bus or, for a differential pair, whether it is the N leg. -/
inductive Signal where
  | sysRefclk (neg : Bool)
  | pcieRefclk (neg : Bool)
  | syncIn (neg : Bool)
  | syncOut (neg : Bool)
  | smbClk
  | smbDat
  | smbAddr (i : Nat)
  | alertN
  | thermN
  | tck
  | tms
  | tdi
  | tdo
  | trstN
  | profileSel (i : Nat)
  | authPref
  | resetN
  | perstN
deriving DecidableEq, Repr

/-- Where each low-speed signal lies. -/
def lowSpeed : List (Land × Signal) :=
  [(land 'C' 'T' 8, .sysRefclk false), (land 'C' 'T' 9, .sysRefclk true), (land 'C' 'T' 12, .pcieRefclk false), (land 'C' 'T' 13, .pcieRefclk true),
   (land 'C' 'V' 8, .syncIn false), (land 'C' 'V' 9, .syncIn true), (land 'C' 'V' 12, .syncOut false), (land 'C' 'V' 13, .syncOut true),
   (land 'C' 'Y' 2, .smbClk), (land 'C' 'Y' 3, .smbDat), (land 'C' 'Y' 6, .smbAddr 2), (land 'C' 'Y' 5, .smbAddr 1), (land 'C' 'Y' 4, .smbAddr 0),
   (land 'C' 'Y' 7, .alertN), (land 'C' 'Y' 8, .thermN), (land 'C' 'Z' 2, .tck), (land 'C' 'Z' 3, .tms), (land 'C' 'Z' 4, .tdi), (land 'C' 'Z' 5, .tdo),
   (land 'C' 'Z' 6, .trstN), (land 'C' 'W' 16, .profileSel 1), (land 'C' 'W' 15, .profileSel 0), (land 'C' 'W' 17, .authPref),
   (land 'C' 'W' 18, .resetN), (land 'C' 'W' 19, .perstN)]

/-- The signal of a land. -/
def Land.signal (l : Land) : Option Signal := (lowSpeed.find? fun e => decide (e.1 = l)).map (·.2)

/-- The internal bias of a signal: the level that an open land reads as (Table 18.2). -/
def Signal.open_ : Signal → Option Bool
  | .tms => some true
  | .tdi => some true
  | .smbAddr _ => some false
  | .trstN => some false
  | .profileSel _ => some false
  | .authPref => some false
  | .resetN => some false
  | .perstN => some false
  | _ => none

/-- Lands of the low-speed class that must stay unconnected. -/
def rsvdLands : List Land :=
  [land 'A' 'A' 1, land 'A' 'A' 80, land 'C' 'Z' 1, land 'C' 'Z' 80] ++ (List.range 5).map (fun i => land 'C' 'V' (15 + i)) ++
  (List.range 3).map fun i => land 'C' 'Y' (15 + i)

/-- The groups of Table 18.1. -/
inductive LandGroup where
  | vin
  | gnd
  | aux
  | fabric
  | pcie
  | lowSpeed
  | rsvd
deriving DecidableEq, Repr

/-- The group of a land (R405): GND is every land that no other group names. -/
def Land.group (l : Land) : LandGroup :=
  if rowIndex 'C' 'T' ≤ l.row ∧ 21 ≤ l.col ∧ l.col ≤ 60 ∧ (l.row + l.col) % 2 = 0 then .vin
  else if (l.row = rowIndex 'C' 'T' ∨ l.row = rowIndex 'C' 'U') ∧ 2 ≤ l.col ∧ l.col ≤ 5 then .aux
  else if l.fabric.isSome then .fabric
  else if l.pcie.isSome then .pcie
  else if l.signal.isSome then .lowSpeed
  else if rsvdLands.contains l then .rsvd
  else .gnd

/-- The lane of a fibre, 1 to 16, of an optical receptacle, and whether it is a receive lane (R410). -/
def fibreLane (k : Nat) : Nat × Bool := ((k - 1) % 8, decide (9 ≤ k))

/-- The receptacle of an optical port: whether it lies on the East end face, and its distance from the north edge in mm (R410). -/
def receptacle (p : Nat) : Bool × Nat := (decide (14 ≤ p), if p % 2 = 0 then 20 else 60)

end Sys2Proof.Machine
end

