-- ==== Sys2Proof/Tests/Slice0.lean ====
section
/-! SUPPORT. The model's own tests: the smoke test of WellFormed (`smoke_…`), and for every statement a concrete state and
operands that meet its hypotheses together, clause by clause, with a field or two of what the manual says follows (`witness_…`). -/

set_option maxRecDepth 100000

namespace Sys2Proof.Tests

open Sys2Proof.Machine Sys2Proof.Claims

/-! ### Helpers -/

/-- A state with nothing waiting. -/
def st (d : Dev) : State := ⟨d, []⟩

/-- Reset with tile `t` set to `x`. -/
def sTile (t : Nat) (x : Tile) : State := st (Dev.reset.setTile t x)

/-- `c` answers a next state at `s` whose device passes the test. -/
def after (c : Instr) (s : State) (p : Dev → Bool) : Bool :=
  match exec c s with
  | .next s' => p s'.dev
  | _ => false

/-- `c` answers a next state other than `s`. -/
def moves (c : Instr) (s : State) : Bool := after c s fun d => decide (d ≠ s.dev)

/-- The command names a unit that does not exist, and stops so. -/
def refusedUnit (c : Instr) : Bool :=
  !c.wf && (match exec c State.reset with | .fault .noSuchUnit => true | _ => false)

/-- A Scarab that runs at `pc` with the general registers `g`. -/
def scbRun (pc : Nat) (g : SMap W32) : Scarab := { Scarab.reset with mode := .run, pc := BitVec.ofNat 32 pc, g := g }

/-- A tile whose Scarab runs. -/
def tRun (pc : Nat) (g : SMap W32) : Tile := { Tile.reset with scb := scbRun pc g }

/-- A packet of one word on VC3 from device 5, tile 6, for queue 3 of tile `t` in region 2. -/
def pk (t : Nat) : Packet :=
  { route := 0, hopptr := 0, segn := 0, segptr := 0, segs := 0, dtile := BitVec.ofNat 11 t, dqid := 3, regtag := 2, vc := 3, srcdev := 5, srctile := 6, flowseq := 0,
    len := 1, lastw := 0, kind := 0, rmc := false, rb0 := 0, rb1 := 0, rc0 := 0, rc1 := 0, mcast := false, hops := 0, ddev := 0, sflow := 0, ackfloor := 0,
    resend := false, loc := 0, e2e := false, rpath := 0, nakType := 0, words := [0x1234] }

/-! ### Ill-formed commands, a term for each check of WellFormed -/

theorem smoke_units : [Instr.alu 1104 0 0 0 0 0, .stepStart 64, .linkFrameArrival 16 ⟨[], 0, 0⟩, .ringDoorbell 4096 0, .mailboxDoorbell 32, .avsLoop 48 0, .hiveWatchdog 4,
    .gatewayIngress 8 (pk 0), .tileRecovery 24 0, .tileRecovery 0 48, .scanbist 24 0 true, .scanbist 0 48 true, .regionLoad 0 ⟨64, 0, 0, 0, 0, [], 0, [], none, none⟩,
    .regionStart 0 64, .regionStart 32 0, .registerWrite .host (.tile 1104 0) true 0, .captureRead .host (.tile 1104 0)].all refusedUnit = true := by decide
theorem smoke_well_formed : [Instr.alu 1103 31 31 31 63 31, .stepStart 63, .ringDoorbell 4095 0, .mailboxDoorbell 31, .avsLoop 47 0, .hiveWatchdog 3, .gatewayIngress 7 (pk 0),
    .tileRecovery 23 47].all Instr.wf = true := by decide
/-- The queue: the front runs on the rest; with an empty queue a tile cycle passes. -/
theorem test_queue : (match step ⟨Dev.reset, [.cicSet 5, .flr]⟩ with | .next s => s.pending == [.flr] && s.dev.now == 5 | _ => false) = true ∧
    (match step ⟨Dev.reset, []⟩ with | .next s => s == ⟨{ Dev.reset with cyc := 1 }, []⟩ | _ => false) = true := by decide

/-! ### The Scarab -/

/-- The last instruction that fits in IMEM with a successor; g1 = 0x7FFFFFFF, g2 = 1, in the last tile. -/
def sAlu : State := sTile 1103 (tRun 0xFFF8 [(1, 0x7FFFFFFF), (2, 1)])

theorem witness_arithmetic : ScbReady sAlu 1103 ∧ (sAlu.dev.tile 1103).scb.inTrap = false ∧ 0x0D < (0x13#5).toNat ∧
    (0x13#5).toNat ∉ [0x10, 0x11, 0x12, 0x14, 0x15, 0x16, 0x17] ∧
    after (.alu 1103 3 1 2 0 0x13) sAlu (fun d => (d.tile 1103).reg Reg.SCB_CAUSE == 0x0061101300000001) = true ∧
    after (.alu 1103 3 2 0 0 0x14) sAlu (fun d => (d.tile 1103).gr 3 == 0xFFFFFFFF) = true ∧
    after (.alu 1103 3 1 2 0 0) sAlu (fun d => (d.tile 1103).gr 3 == 0x80000000 && (d.tile 1103).scb.pc == 0xFFFC) = true := by
  unfold ScbReady; decide
theorem test_slti : after (.slti 1103 3 1 0x8000) sAlu (fun d => (d.tile 1103).gr 3 == 0) = true := by decide
theorem test_lui_g0 : after (.lui 1103 0 0 0xFFFF) sAlu (fun d => (d.tile 1103).gr 0 == 0) = true := by decide

/-- R78: SRAI by 31, the mode that is not listed, a reserved bit. -/
theorem witness_shifts : ScbReady sAlu 1103 ∧ (sAlu.dev.tile 1103).scb.inTrap = false ∧ (31#16).toNat / 32 = 0 ∧ (0x3F#16).toNat / 32 = 1 ∧
    (0x5F#16).toNat / 32 = 2 ∧ 3 ≤ (0x60#16).toNat / 32 ∧ (1 : BitVec 6) ≠ 0 ∧
    after (.shi 1103 3 2 31) sAlu (fun d => (d.tile 1103).gr 3 == 0x80000000) = true ∧
    after (.shi 1103 3 1 0x60) sAlu (fun d => (d.tile 1103).reg Reg.SCB_CAUSE == 0x1861006000000001) = true := by
  unfold ScbReady; decide

/-- DMEM with 0x80 at its last byte; g1 = 0xFFFC. -/
def sMem : State := sTile 0 { tRun 0 [(1, 0xFFFC), (2, 0x10000), (3, 0xDEADBEEF)] with dmem := [(0xFFFC, 0x11), (0xFFFF, 0x80)] }

theorem witness_loads : ScbReady sMem 0 ∧ (∀ e ∈ (sMem.dev.tile 0).scb.sbuf, e.meets 0xFFFC 4 = false) ∧
    (((sMem.dev.tile 0).gr 1) + (0#16).signExtend 32).toNat = 0xFFFC ∧ 0xFFFC + 4 ≤ 0x10000 ∧
    after (.lw 0 4 1 0) sMem (fun d => (d.tile 0).gr 4 == 0x80000011) = true ∧ after (.lb 0 4 1 3) sMem (fun d => (d.tile 0).gr 4 == 0xFFFFFF80) = true ∧
    after (.lhu 0 4 1 2) sMem (fun d => (d.tile 0).gr 4 == 0x8000) = true := by
  unfold ScbReady; decide

/-- A buffer with seven entries takes one more. -/
def sBuf : State := sTile 0 { tRun 0 [(1, 0xFFFC), (3, 0xDEADBEEF)] with
  scb := { scbRun 0 [(1, 0xFFFC), (3, 0xDEADBEEF)] with sbuf := (List.range 7).map fun i => ⟨4 * i, [1, 2, 3, 4]⟩ } }

theorem witness_stores : ScbReady sBuf 0 ∧ (sBuf.dev.tile 0).scb.sbuf.length < 8 ∧ (sBuf.dev.tile 0).scb.sbuf.head? = some ⟨0, [1, 2, 3, 4]⟩ ∧
    (((sBuf.dev.tile 0).gr 1) + (0#16).signExtend 32).toNat < 0x10000 ∧
    after (.sw 0 3 1 0) sBuf (fun d => (d.tile 0).scb.sbuf.length == 8) = true ∧
    after (.storeBufferWrite 0) sBuf (fun d => Memory.readN (d.tile 0).dmem 0 5 == [1, 2, 3, 4, 0]) = true := by
  unfold ScbReady; decide

/-- A buffered store of four bytes: a load inside it gets its bytes, one that reaches past it waits. -/
def sFwd : State := sTile 0 { tRun 0 [(1, 0xFFFC)] with scb := { scbRun 0 [(1, 0xFFFC)] with sbuf := [⟨0xFFFC, [1, 0x82]⟩] }, dmem := [(0xFFFC, 0x11)] }
theorem witness_forwarded_loads : ScbReady sFwd 0 ∧ LoadGets (sFwd.dev.tile 0) 0xFFFC [1, 0x82] ∧ LoadStalls (sFwd.dev.tile 0) 0xFFFC 4 ∧ 0xFFFC % 4 = 0 ∧
    after (.lh 0 4 1 0) sFwd (fun d => (d.tile 0).gr 4 == 0xFFFF8201) = true ∧
    after (.lw 0 4 1 0) sFwd (fun d => (d.tile 0).scb.stall == .load 0xFFFC 4 false 4 && (d.tile 0).scb.pc == 0) = true := by
  refine ⟨by unfold ScbReady; decide, .inr ⟨[], ⟨0xFFFC, [1, 0x82]⟩, [], ?_⟩, ⟨[], ⟨0xFFFC, [1, 0x82]⟩, [], ?_⟩, ?_⟩ <;> decide

/-- A full store buffer: the store waits. -/
def sFull : State := sTile 0 { tRun 0 [(3, 0xDEADBEEF)] with
  scb := { scbRun 0 [(3, 0xDEADBEEF)] with sbuf := (List.range 8).map fun i => ⟨4 * i, [1, 2, 3, 4]⟩ } }
theorem witness_full_buffer : ScbReady sFull 0 ∧ 8 ≤ (sFull.dev.tile 0).scb.sbuf.length ∧ (((sFull.dev.tile 0).gr 0) + (2#16).signExtend 32).toNat % 2 = 0 ∧
    after (.sh 0 3 0 2) sFull (fun d => (d.tile 0).scb.stall == .store ⟨2, [0xEF, 0xBE]⟩ && (d.tile 0).scb.pc == 0) = true := by
  unfold ScbReady; decide

theorem witness_access_traps : ScbReady sMem 0 ∧ (sMem.dev.tile 0).scb.inTrap = false ∧
    (((sMem.dev.tile 0).gr 2) + (0#16).signExtend 32).toNat = 0x10000 ∧ (((sMem.dev.tile 0).gr 1) + (1#16).signExtend 32).toNat % 2 = 1 ∧
    (((sMem.dev.tile 0).gr 1) + (2#16).signExtend 32).toNat % 4 = 2 ∧
    after (.lb 0 4 2 0) sMem (fun d => (d.tile 0).reg Reg.SCB_CAUSE == 0x0001000000000003) = true ∧
    after (.sw 0 4 1 2) sMem (fun d => (d.tile 0).reg Reg.SCB_CAUSE == 0x0000FFFE00000002) = true := by
  unfold ScbReady; decide

theorem witness_branches : ScbReady sAlu 1103 ∧ (0xFFF8#32 + 4 * (1#16).signExtend 32).toNat < 0x10000 ∧ (0xFFF8#32 + 4 * (0xFFFF#16).signExtend 32).toNat < 0x10000 ∧
    (((sAlu.dev.tile 1103).gr 0 + (0x7FFF#16).signExtend 32) &&& ~~~3#32).toNat < 0x10000 ∧
    after (.beq 1103 0 0 0xFFFF) sAlu (fun d => (d.tile 1103).scb.pc == 0xFFF4) = true ∧
    after (.bge 1103 2 1 0xFFFF) sAlu (fun d => (d.tile 1103).scb.pc == 0xFFF4) = true ∧
    after (.jal 1103 31 0x1FFFFE) sAlu (fun d => (d.tile 1103).scb.pc == 0xFFF0 && (d.tile 1103).gr 31 == 0xFFFC) = true ∧
    after (.jalr 1103 2 2 0x7FFF) sAlu (fun d => (d.tile 1103).scb.pc == 0x8000 && (d.tile 1103).gr 2 == 0xFFFC) = true := by
  unfold ScbReady; decide

/-- Targets outside IMEM, and an instruction in its last word. -/
def sEnd : State := sTile 0 (tRun 0xFFFC [(1, 7)])
theorem witness_pc_range : 0x10000 ≤ (0xFFF8#32 + 4 * (2#16).signExtend 32).toNat ∧ 0x10000 ≤ (((sAlu.dev.tile 1103).gr 1 + (0#16).signExtend 32) &&& ~~~3#32).toNat ∧
    (sEnd.dev.tile 0).canIssue = true ∧ (sEnd.dev.tile 0).scb.pc = 0xFFFC ∧ (sEnd.dev.tile 0).scb.inTrap = false ∧
    after (.beq 1103 0 0 2) sAlu (fun d => (d.tile 1103).reg Reg.SCB_CAUSE == 0x1000000000004 && (d.tile 1103).reg Reg.SCB_EPC == 0xFFF8) = true ∧
    after (.jalr 1103 3 1 0) sAlu (fun d => (d.tile 1103).reg Reg.SCB_CAUSE == 0x7FFFFFFC00000004 && (d.tile 1103).gr 3 == 0) = true ∧
    after (.addi 0 2 1 0xFFFF) sEnd (fun d => (d.tile 0).reg Reg.SCB_EPC == 0x10000 && (d.tile 0).gr 2 == 6) = true := by decide

/-- 0x3FC is an unlisted offset of the SCB core block; 0x7FC is a reserved word of AG15. -/
theorem witness_control_space : ScbReady sAlu 1103 ∧ (sAlu.dev.tile 1103).scb.inTrap = false ∧
    ctlValid (((sAlu.dev.tile 1103).gr 0) + (0x3FC#16).signExtend 32).toNat = false ∧
    after (.crd 1103 1 0 0x3FC) sAlu (fun d => (d.tile 1103).reg Reg.SCB_CAUSE == 0x3FC00000005) = true ∧
    after (.crd 1103 1 0 0x7FC) sAlu (fun d => (d.tile 1103).gr 1 == 0 && (d.tile 1103).scb.inTrap == false) = true := by
  unfold ScbReady; decide

/-- The view of the half-bench of tile 0 is at 100; g2 and g3 are the target. -/
def sView (g2 : W32) : State :=
  let d := Dev.reset.setTile 0 { tRun 0 [(2, g2)] with regs := [(Reg.SCB_EVENT, 5)] }
  st { d with cic := { d.cic with views := [(0, 100)] } }

theorem witness_waits : ScbReady (sView 99) 0 ∧ ScbReady (sView 100) 0 ∧ ScbReady (sView 101) 0 ∧ (sView 99).dev.view 0 = 100 ∧ (2 : R5).toNat % 2 = 0 ∧
    after (.waitt 0 0 2 0) (sView 99) (fun d => (d.tile 0).reg Reg.SCB_WAITT_LATE == 0x1000001 && (d.tile 0).scb.pc == 4) = true ∧
    after (.waitt 0 0 2 0) (sView 100) (fun d => (d.tile 0).reg Reg.SCB_WAITT_LATE == 0 && (d.tile 0).scb.pc == 4) = true ∧
    after (.waitt 0 0 2 0) (sView 101) (fun d => (d.tile 0).scb.stall == .waitt 101 && (d.tile 0).scb.pc == 0) = true := by
  unfold ScbReady; decide

/-- A target 2^32 + 1 ns ahead of the view of 100, and forms with a set reserved bit, an odd RS1 and an empty mask. -/
def sFar : State :=
  let d := Dev.reset.setTile 0 (tRun 0 [(2, 101), (3, 1)])
  st { d with cic := { d.cic with views := [(0, 100)] } }
theorem witness_wait_traps : ScbReady sFar 0 ∧ (sFar.dev.tile 0).scb.inTrap = false ∧ sFar.dev.view 0 = 100 ∧
    100 + 2 ^ 32 < ((sFar.dev.tile 0).gr 2).toNat + 2 ^ 32 * ((sFar.dev.tile 0).gr (2 + 1)).toNat ∧ (3 : R5).toNat % 2 = 1 ∧ 32 ≤ (32 : I16).toNat ∧
    after (.waitt 0 0 2 0) sFar (fun d => (d.tile 0).reg Reg.SCB_CAUSE == 0x650000000C) = true ∧
    after (.waitt 0 0 3 0) sFar (fun d => (d.tile 0).reg Reg.SCB_CAUSE == 0x7403000000000001) = true ∧
    after (.waite 0 7 0 0) sFar (fun d => (d.tile 0).reg Reg.SCB_CAUSE == 0x78E0000000000001) = true ∧
    after (.fence 0 0 0 32) sFar (fun d => (d.tile 0).reg Reg.SCB_CAUSE == 0x7C00002000000001) = true := by
  unfold ScbReady; decide

/-- WAITE for bit 1 waits, for bit 2 takes it and leaves bit 0. -/
theorem witness_waite : ((sView 0).dev.tile 0).reg Reg.SCB_EVENT = 5 ∧ (2 : I16) ≠ 0 ∧
    after (.waite 0 7 0 2) (sView 0) (fun d => (d.tile 0).scb.stall == .waite 7 2) = true ∧
    after (.waite 0 7 0 4) (sView 0) (fun d => (d.tile 0).reg Reg.SCB_EVENT == 1 && (d.tile 0).gr 7 == 4) = true := by decide

/-- FENCE with every condition: complete with nothing under way, waiting behind a buffered store. -/
theorem witness_fence : (31 : I16).toNat < 32 ∧ (sBuf.dev.tile 0).fenceOk 1 = false ∧ (sMem.dev.tile 0).fenceOk 31 = true ∧
    after (.fence 0 0 0 31) sMem (fun d => (d.tile 0).scb.pc == 4) = true ∧
    after (.fence 0 0 0 1) sBuf (fun d => (d.tile 0).scb.stall == .fence 1) = true := by decide

/-- Tile 0 of `sView` waiting. -/
def sWaiting (k : Stall) : State := let x := (sView 0).dev.tile 0; st ((sView 0).dev.setTile 0 { x with scb := { x.scb with stall := k } })

theorem witness_wait_ends : 0 < Config.nTiles ∧ ((sWaiting (.waitt 100)).dev.tile 0).mayRun = true ∧ 100 ≤ (sWaiting (.waitt 100)).dev.view 0 ∧
    ((sWaiting (.fence 31)).dev.tile 0).fenceOk 31 = true ∧ ((sWaiting (.waite 7 1)).dev.tile 0).matched 1 ≠ 0 ∧
    after (.waittComplete 0) (sWaiting (.waitt 100)) (fun d => (d.tile 0).scb.pc == 4) = true ∧
    after (.fenceComplete 0) (sWaiting (.fence 31)) (fun d => (d.tile 0).scb.pc == 4) = true ∧
    after (.waiteComplete 0) (sWaiting (.waite 7 1)) (fun d => (d.tile 0).gr 7 == 1 && (d.tile 0).reg Reg.SCB_EVENT == 4) = true := by decide

theorem witness_time_traps_halt : ScbReady (sView 0) 0 ∧ (6 : R5) ≠ 0 ∧ (6 : R5).toNat % 2 = 0 ∧ ((sView 0).dev.tile 0).scb.inTrap = false ∧
    (lo32 (((sView 0).dev.tile 0).reg Reg.SCB_EPC)).toNat < 0x10000 ∧ ((sView 0).dev.tile 0).scb.pend = [] ∧
    after (.time 0 6 0 0) (sView 0) (fun d => (d.tile 0).gr 6 == 100 && (d.tile 0).gr 7 == 0) = true ∧
    after (.trap 0 1 2 ⟨0x3F, 3⟩) (sView 0) (fun d => (d.tile 0).reg Reg.SCB_CAUSE == 0xFC22000300000001) = true ∧
    after (.trap 0 0 0 ⟨0x21, 0xFFF0⟩) (sView 0) (fun d => (d.tile 0).reg Reg.SCB_CAUSE == 0xFFF0000000D) = true ∧
    after (.halt 0 0 0 0) (sView 0) (fun d => (d.tile 0).scb.mode == .halted && (d.tile 0).scb.pc == 4) = true := by
  unfold ScbReady; decide

/-- A handler with two causes waiting, the older ARR_FLAG, whose TVAL is read when it is taken; and one whose SCB_EPC lies outside IMEM. -/
def sHandler (epc : W64) : State := sTile 0 { Tile.reset with
  scb := { scbRun 0x40 [] with inTrap := true, pend := [(.arrFlag, 0), (.veFlag, 5)] }, regs := [(Reg.SCB_EPC, epc), (Reg.ARR_FLAGS, 9)] }
theorem witness_eret_and_fault : ScbReady (sHandler 0x80) 0 ∧ (lo32 (((sHandler 0x80).dev.tile 0).reg Reg.SCB_EPC)).toNat < 0x10000 ∧
    ((sHandler 0x80).dev.tile 0).scb.pend = (.arrFlag, 0) :: [(.veFlag, 5)] ∧ ((sHandler 0x80).dev.tile 0).scb.inTrap = true ∧
    0x10000 ≤ (lo32 (((sHandler 0x10000).dev.tile 0).reg Reg.SCB_EPC)).toNat ∧ 3 ≤ (3 : I16).toNat % 16 ∧ (1 : BitVec 12) ≠ 0 ∧
    after (.eret 0 0 0 0) (sHandler 0x80) (fun d => (d.tile 0).scb.pend == [(.veFlag, 5)] && (d.tile 0).reg Reg.SCB_EPC == 0x80 &&
      (d.tile 0).reg Reg.SCB_CAUSE >>> 32 == 9) = true ∧
    after (.eret 0 0 0 0) (sHandler 0x10000) (fun d => (d.tile 0).scb.mode == .fault) = true ∧
    after (.trap 0 0 0 ⟨0x21, 0⟩) (sHandler 0x80) (fun d => (d.tile 0).scb.mode == .fault) = true ∧
    after (.trap 0 0 0 ⟨0x21, 3⟩) (sView 0) (fun d => (d.tile 0).reg Reg.SCB_CAUSE == 0x8400000300000001) = true ∧
    after (.halt 0 0 0 1) (sView 0) (fun d => (d.tile 0).reg Reg.SCB_CAUSE == 0x8400001200000001) = true ∧
    after (.time 0 5 0 0) (sView 0) (fun d => (d.tile 0).reg Reg.SCB_CAUSE == 0x80A0000000000001) = true := by
  unfold ScbReady; decide

/-- A tile whose Scarab is halted with an entry point. -/
def sHalted : State := sTile 5 { Tile.reset with regs := [(Reg.SCB_ENTRY, 0x1230)] }

/-- A running Scarab with a cause, a HALT request or a watchdog that has run out. -/
def sCause : State := sTile 0 { Tile.reset with scb := { scbRun 0x40 [] with pend := [(.agEmpty, 3), (.veFlag, 0)] } }
def sHaltReq : State := sTile 0 { Tile.reset with scb := { scbRun 0x40 [] with haltReq := true } }
def sWdog : State := sTile 0 { Tile.reset with scb := { scbRun 0x40 [] with wdogNs := 1000 }, regs := [(Reg.SCB_WDOG, 1)] }

theorem witness_run_control : (sHalted.dev.tile 5).scb.mode = .halted ∧ (sCause.dev.tile 0).scb.mode = .run ∧ (sCause.dev.tile 0).scb.inTrap = false ∧
    (sCause.dev.tile 0).stopped = false ∧ (sCause.dev.tile 0).scb.pend.head? = some (.agEmpty, 3) ∧ (sHaltReq.dev.tile 0).scb.haltReq = true ∧
    (sWdog.dev.tile 0).waitsStart = false ∧
    fld ((sWdog.dev.tile 0).reg Reg.SCB_WDOG) 0 24 * 1000 ≤ (sWdog.dev.tile 0).scb.wdogNs ∧
    after (.scbCtlRun 5) sHalted (fun d => (d.tile 5).scb.mode == .run && (d.tile 5).scb.pc == 0x1230) = true ∧
    after (.scbCtlHalt 0) sCause (fun d => (d.tile 0).scb.haltReq) = true ∧
    after (.haltedAtBoundary 0) sHaltReq (fun d => (d.tile 0).scb.mode == .halted) = true ∧
    after (.asyncTrap 0) sCause (fun d => (d.tile 0).scb.pend == [(.veFlag, 0)] && (d.tile 0).reg Reg.SCB_EPC == 0x40) = true ∧
    after (.watchdog 0) sWdog (fun d => (d.tile 0).scb.wdogNs == 0 && (d.tile 0).scb.pend.length == 1) = true ∧
    after (.scbWdogKick 0) sWdog (fun d => (d.tile 0).scb.wdogNs == 0) = true := by decide

/-- RUN in RUN does nothing; HALT and its boundary in WAIT; ARR_FLAG as the cause taken; a watchdog that runs out in the handler. -/
def sArrCause : State := sTile 0 { Tile.reset with scb := { scbRun 0x40 [] with pend := [(.arrFlag, 3)] }, regs := [(Reg.ARR_FLAGS, 9)] }
def sWaitMode : State := sTile 0 { Tile.reset with scb := { scbRun 0x40 [] with mode := .wait, haltReq := true } }
def sWdogIn : State := sTile 0 { Tile.reset with scb := { scbRun 0x40 [] with wdogNs := 1000, inTrap := true }, regs := [(Reg.SCB_WDOG, 1)] }
theorem witness_run_control_2 : (sCause.dev.tile 0).scb.mode ≠ .halted ∧ (sWaitMode.dev.tile 0).scb.mode = .wait ∧ (sWdogIn.dev.tile 0).waitsStart = false ∧
    after (.scbCtlRun 0) sCause (fun d => (d.tile 0).scb.pc == 0x40) = true ∧
    after (.haltedAtBoundary 0) sWaitMode (fun d => (d.tile 0).scb.mode == .halted) = true ∧
    after (.asyncTrap 0) sArrCause (fun d => (d.tile 0).reg Reg.SCB_CAUSE >>> 32 == 9) = true ∧
    after (.watchdog 0) sWdogIn (fun d => (d.tile 0).scb.mode == .fault) = true := by decide

theorem witness_host_imem : 0xFFFC < 0x10000 ∧ 0xFFFC % 4 = 0 ∧
    after (.hostImemWrite 5 0xFFFC 0x01020304) sHalted (fun d => Memory.readN (d.tile 5).imem 0xFFFC 4 == [4, 3, 2, 1]) = true ∧
    after (.hostImemWrite 0 0xFFFC 1) sCause (fun d => (d.tile 0).reg Reg.SCB_HOSTDROP == 1 && (d.tile 0).imem == []) = true := by decide

/-- A block of zeros is a NOP, a VMOV-like word of zeros or a LOCAL program of one unit, wherever it lies. -/
def sIssue : State := sTile 0 (tRun 0 [(1, 0xFFD0), (2, 0xFFE8), (3, 0xFFE0)])

theorem witness_issue : ScbReady sIssue 0 ∧ (sIssue.dev.tile 0).scb.sbuf = [] ∧ 0xFFD0 + 48 ≤ 0x10000 ∧ 0xFFD0 % 16 = 0 ∧ 0xFFE8 + 24 ≤ 0x10000 ∧
    0xFFE8 % 8 = 0 ∧ Acw.check 0 = none ∧ (sIssue.dev.tile 0).acwRoleOk 0 = true ∧ VWord.check 0 = none ∧ (sIssue.dev.tile 0).vecRoleOk 0 = true ∧
    rangesOk (rangeWords (List.replicate 48 0) 32) = true ∧ (sIssue.dev.tile 0).boardFree (rangeWords (List.replicate 48 0) 32) = true ∧
    rangesOk (rangeWords (List.replicate 24 0) 8) = true ∧ (agParse (descWords (List.replicate 32 0))).bad = false ∧
    ((sIssue.dev.tile 0).ag 15).pending = none ∧ ((sIssue.dev.tile 0).ag 15).tickets = [] ∧ (agParse ((sIssue.dev.tile 0).ag 15).staging).bad = false ∧
    after (.acwp 0 0 1 0) sIssue (fun d => (d.tile 0).acwQ.length == 1 && (d.tile 0).scb.pc == 4) = true ∧
    after (.viss 0 0 2 0) sIssue (fun d => (d.tile 0).vecQ.length == 1 && (d.tile 0).scb.pc == 4) = true ∧
    after (.ags 0 15 3 0) sIssue (fun d => (d.tile 0).scb.pc == 4) = true ∧
    after (.agCommit 0 15 .scarab) sIssue (fun d => (d.tile 0).scb.pc == 4) = true := by
  unfold ScbReady; decide

def sStalled : State := sWaiting (.store ⟨8, [1]⟩)
theorem witness_issue_resume : (sStalled.dev.tile 0).mayRun = true ∧ (sStalled.dev.tile 0).scb.sbuf.length < 8 ∧
    after (.issueResume 0) sStalled (fun d => (d.tile 0).scb.sbuf == [⟨8, [1]⟩]) = true := by decide
/-- A load that waited for a buffered store, now in DMEM. -/
def sLoadWait : State := let x := (sWaiting (.load 8 2 true 4)).dev.tile 0; sTile 0 { x with dmem := [(9, 0x80)] }
theorem witness_load_resume : (sLoadWait.dev.tile 0).mayRun = true ∧ (sLoadWait.dev.tile 0).scb.stall = .load 8 2 true 4 ∧
    (∀ e ∈ (sLoadWait.dev.tile 0).scb.sbuf, e.meets 8 2 = false) ∧
    after (.issueResume 0) sLoadWait (fun d => (d.tile 0).gr 4 == 0xFFFF8000 && (d.tile 0).scb.stall == .none) = true := by decide

/-! ### Registers -/

/-- FLT_CTL keeps its RW bits; WT's register of W1C bits is cleared by ones. -/
theorem witness_register_write : devRow Reg.FLT_CTL = some ⟨0x700008, 1, 1, 8, 0x30005, 0x3ffff, 0, 0, 0⟩ ∧
    (∀ n, Dev.reset.devEffect0 Reg.FLT_CTL fullMask 5 n = none) ∧ (∀ n, Dev.reset.devEffect1 Reg.FLT_CTL fullMask 5 n = none) ∧
    after (.registerWrite .host (.dev Reg.FLT_CTL) true 0xFFFFFFFFFFFFFFFF) State.reset (fun d => d.reg Reg.FLT_CTL == 0x3ffff) = true :=
  ⟨by decide, fun _ => rfl, fun _ => rfl, by decide⟩
/-- The low word alone: bits 31:0 are those of the full write. -/
theorem witness_register_word_write : (devRow Reg.FLT_CTL).isSome = true ∧ Reg.FLT_CTL % 8 = 0 ∧
    (∀ m w n, Dev.reset.devEffect0 Reg.FLT_CTL m w n = none) ∧ (∀ m w n, Dev.reset.devEffect1 Reg.FLT_CTL m w n = none) ∧
    after (.registerWrite .host (.dev (Reg.FLT_CTL + 0)) false 0xFFFFFFFFFFFF0000) State.reset (fun d => d.reg Reg.FLT_CTL == 0x30000) = true ∧
    after (.registerWrite .host (.dev (Reg.FLT_CTL + 4)) false 0xFFFFFFFFFFFF0000) State.reset (fun d => d.reg Reg.FLT_CTL == 0x30005) = true :=
  ⟨by decide, by decide, fun _ _ _ => rfl, fun _ _ _ => rfl, by decide⟩

/-- The event bits of SCB_EVENT are cleared by ones (Table 4.6); 0x5400 is the first register of the slot tables. -/
theorem witness_tile_register_write : (tileRow Reg.SCB_EVENT).isSome = true ∧ Reg.SCB_EVENT ∉ ownWrites ∧ Reg.SCB_EVENT < 0x400 ∧ (tileRow 0x5400).isSome = true ∧
    0x5400 ∉ ownWrites ∧ 0x800 ≤ 0x5400 ∧
    after (.registerWrite .host (.tile 0 Reg.SCB_EVENT) true 0xF4) (sView 0) (fun d => (d.tile 0).reg Reg.SCB_EVENT == 1) = true ∧
    after (.registerWrite .host (.tile 0 0x5400) true 0x1234) (sView 0) (fun d => (d.tile 0).reg 0x5400 == 0x1234) = true := by decide

theorem witness_cwr : ScbReady (sView 0xFFFFFFFF) 0 ∧ (((sView 0).dev.tile 0).gr 0 + (0x30#16).signExtend 32).toNat = Reg.SCB_EVENT ∧
    after (.cwr 0 2 0 0x30) (sView 0xFFFFFFFF) (fun d => (d.tile 0).reg Reg.SCB_EVENT == 0 && (d.tile 0).scb.pc == 4) = true := by
  unfold ScbReady; decide

/-- 00 R3: RC bits are cleared by the read (0x3248); the capture serves the high word. -/
def sRc : State := sTile 0 { tRun 0 [] with regs := [(0x3248, 0x0000000500000007)] }
theorem witness_register_read : (tileRow 0x3248).isSome = true ∧ cycleCounter 0x3248 = false ∧ (devRow 0x402018).isSome = true ∧
    after (.crd 0 9 0 0x3248) sRc (fun d => (d.tile 0).gr 9 == 7 && (d.tile 0).reg 0x3248 == 0 && (d.tile 0).cap == some (capKey 0 0x3248, 0x0000000500000007)) = true ∧
    after (.captureRead .host (.dev Reg.FLT_CTL)) State.reset (fun d => d.out == [.readData 0x30005] && d.hostCap == some (Reg.FLT_CTL, 0x30005)) = true := by decide
def sCaptured : State := st { Dev.reset with hostCap := some (Reg.FLT_CTL, 0x0000000900000001) }
theorem witness_register_read_high : sCaptured.dev.hostCap = some (Reg.FLT_CTL, 0x0000000900000001) ∧
    after (.captureRead .host (.dev (Reg.FLT_CTL + 4))) sCaptured (fun d => d.out == [.readData 9]) = true := by decide

/-! ### The array unit -/

/-- An ACW that waits alone in the queue, with the heads of its AGs' tickets; AG 1 reads at byte 64. -/
def aE (w : Acw) (ags : List Nat) : AcwEntry :=
  { id := 0, acw := w, ranges := [], rmask := 0xFFFFFFFF, cmask := 0xFFFFFFFF, ags := ags, started := false, done := false, prog := 0, item := [],
    itemTrunc := false, loaded := 0, got := [], added := false, sent := 0 }
def ag64 : Ag := { Ag.reset with tickets := [0], cur := { AgProg.reset with base := 64 } }
def tAcw (w : Acw) (ags : List Nat) : Tile := { Tile.reset with acwQ := [aE w ags], ags := [(1, ag64)], spad := [(64, 3), (65, 0xFF)] }
def sAcw (w : Acw) (ags : List Nat) : State := sTile 0 (tAcw w ags)

/-- ACWs of each kind: one array, one row; activations and weights INT8 through AG 1. -/
def wCompute : Acw := BitVec.ofNat 256 (1 + 2 ^ 4 + 2 ^ 32 + 32 * 2 ^ 128 + 32 * 2 ^ 140 + 2 ^ 162)
def wWload : Acw := BitVec.ofNat 256 (2 + 2 ^ 4 + 2 ^ 25 + 2 ^ 32 + 2 ^ 166)
def wCbload : Acw := BitVec.ofNat 256 (3 + 2 ^ 4 + 2 ^ 32 + 2 ^ 121 + 2 ^ 166)
def wDrain : Acw := BitVec.ofNat 256 (4 + 2 ^ 4 + 3 * 2 ^ 27 + 2 ^ 29 + 2 ^ 32 + 127 * 2 ^ 48)
def wXadd : Acw := BitVec.ofNat 256 (5 + 2 ^ 4 + 2 ^ 32 + 2 ^ 162)

/-- The ACW of tile 0 is complete. -/
def acwDone (d : Dev) : Bool := (d.tile 0).acwQ.all fun e => e.started && e.done

theorem witness_nop : AcwAt (sAcw 0 []) 0 kNOP (aE 0 []) ∧ after (.nop 0) (sAcw 0 []) acwDone = true := by unfold AcwAt; decide
def sRetire : State := sTile 0 { Tile.reset with acwQ := [{ aE (BitVec.ofNat 256 (2 ^ 55)) [] with started := true, done := true }] }
theorem witness_retire : ((sRetire.dev.tile 0).acwQ.find? (sRetire.dev.tile 0).acwRetirable).isSome = true ∧
    after (.acwRetire 0) sRetire (fun d => (d.tile 0).acwQ == [] && (d.tile 0).reg Reg.ARR_ACWDONE == 1 && (d.tile 0).reg Reg.SCB_EVENT == 1) = true := by decide

theorem witness_compute : AcwAt (sAcw wCompute [1]) 0 kCOMPUTE (aE wCompute [1]) ∧ wCompute.passes * wCompute.rep = 1 ∧ wCompute.loads = false ∧ wCompute.drains = false ∧
    wCompute.asrc = 0 ∧ wCompute.ags.Nodup ∧ afmtScaled wCompute.afmt = false ∧
    ArrServes (tAcw wCompute [1]) 1 1 (fun _ => wCompute.vecLen * wCompute.abytes) (fun _ => 64) ∧ wCompute.outs 0 0 = [] ∧
    (∀ j ∈ wCompute.jobs 0 0, (tAcw wCompute [1]).addHeld 0 j.arr j.row = false) ∧ after (.compute 0 Upset.none) (sAcw wCompute [1]) acwDone = true := by
  unfold AcwAt ArrServes AgServes; decide

/-- Two vectors from AG 1, the first after a plane load through AG 3 (SWAP, FOLD NSPREAD), each row drained as INT8 to the scratchpad through AG 2. -/
def wFold : Acw := BitVec.ofNat 256 (1 + 2 ^ 4 + 2 ^ 8 + 2 ^ 22 + 2 ^ 25 + 2 ^ 27 + 3 * 2 ^ 29 + 2 * 2 ^ 32 + 5 * 2 ^ 114 + 2 * 2 ^ 128 + 32 * 2 ^ 140 + 2 ^ 162 + 3 * 2 ^ 166 + 2 * 2 ^ 182)
def agAt (b : W32) (n : BitVec 16) (str : W32) : Ag := { Ag.reset with tickets := [0], cur := { AgProg.reset with base := b, cnts := [n, 1, 1, 1], strs := [str, 0, 0, 0] } }
def tFold : Tile :=
  { Tile.reset with acwQ := [aE wFold [1, 2, 3]], ags := [(1, agAt 64 2 32), (2, agAt 4096 2 32), (3, agAt 8192 1 0)], spad := [(64, 3), (96, 5), (97, 1), (8192, 2), (8224, 4)] }
theorem witness_fold_window : AcwAt (sTile 0 tFold) 0 kCOMPUTE (aE wFold [1, 2, 3]) ∧ wFold.passes * wFold.rep = 2 ∧ wFold.loads = true ∧ wFold.ags = [1, 3, 2] ∧
    ArrServes tFold 1 2 (fun _ => wFold.vecLen * wFold.abytes) (fun k => 64 + 32 * k) ∧ ArrServes tFold 3 1 (fun _ => blockBytes wFold.wfmt) (fun _ => 8192) ∧
    ArrServes tFold 2 2 (fun _ => 32) (fun k => 4096 + 32 * k) := by
  unfold AcwAt ArrServes AgServes; decide
/-- 3 × 2, and 5 × 2 + 1 × 4. -/
theorem test_fold_window : after (.compute 0 Upset.none) (sTile 0 tFold) (fun d => acwDone d && Memory.readN (d.tile 0).spad 4096 1 == [6] && Memory.readN (d.tile 0).spad 4128 1 == [14]) = true := by
  decide

/-- An item whose payload is a whole vector, in queue 3. -/
def wItem : Acw := BitVec.ofNat 256 (1 + 2 ^ 4 + 2 ^ 23 + 2 ^ 32 + 32 * 2 ^ 128 + 32 * 2 ^ 140 + 3 * 2 ^ 152)
def tItem (w : Acw) (n : Nat) : Tile := { Tile.reset with
  acwQ := [aE w []], qctx := [(3, { QCtx.reset with w0 := BitVec.ofNat 64 (1 + 8 * 2 ^ 32), items := [⟨5, 6, 0, n, n, false⟩] })], spad := [(16, 0x11)] }
theorem witness_compute_item : AcwAt (sTile 0 (tItem wItem 3)) 0 kCOMPUTE (aE wItem []) ∧ wItem.asrc = 1 ∧ wItem.passes * wItem.rep = 1 ∧ wItem.loads = false ∧
    wItem.drains = false ∧ (((tItem wItem 3).qTake wItem.qid).map (·.1)) = some ⟨5, 6, 0, 3, 3, false⟩ ∧ (tItem wItem 3).parInv = [] ∧
    ((tItem wItem 3).payload ((tItem wItem 3).qc 3) ⟨5, 6, 0, 3, 3, false⟩).length = 32 ∧
    after (.compute 0 Upset.none) (sTile 0 (tItem wItem 3)) (fun d => acwDone d && ((d.tile 0).qc 3).items == []) = true := by
  unfold AcwAt; decide

theorem witness_wload : AcwAt (sAcw wWload [1]) 0 kWLOAD (aE wWload [1]) ∧ wWload.arrays = [0] ∧ wWload.na = 1 ∧ wWload.loads = true ∧ wWload.ags.Nodup ∧
    ArrServes (tAcw wWload [1]) wWload.agw 1 (fun _ => blockBytes wWload.wfmt) (fun _ => 64) := by
  unfold AcwAt ArrServes AgServes; decide
/-- Two arrays of sparse MXFP4: values, scales and metadata through AGs 1, 2 and 3. -/
def wSparse : Acw := BitVec.ofNat 256 (2 + 3 * 2 ^ 4 + 9 * 2 ^ 16 + 2 ^ 20 + 2 ^ 25 + 2 ^ 32 + 2 ^ 166 + 2 * 2 ^ 174 + 3 * 2 ^ 178)
def tSparse : Tile := { Tile.reset with acwQ := [aE wSparse [1, 2, 3]], ags := [(1, agAt 0 2 1024), (2, agAt 4096 2 128), (3, agAt 8192 2 512)] }
theorem witness_wload_sparse : AcwAt (sTile 0 tSparse) 0 kWLOAD (aE wSparse [1, 2, 3]) ∧ wSparse.arrays = [0, 1] ∧ wSparse.ags = [1, 2, 3] ∧ wfmtScaled wSparse.wfmt = true ∧
    wSparse.sparse = true := by
  unfold AcwAt; decide
theorem witness_wload_streams : blockBytes wSparse.wfmt = 1024 ∧ wSparse.kb = 128 ∧ metaBytes wSparse.wfmt = 512 ∧
    ArrServes tSparse 1 2 (fun _ => 1024) (fun k => 1024 * k) ∧ AgServes tSparse 2 2 (fun _ => 128) (fun k => 4096 + 128 * k) ∧
    AgServes tSparse 3 2 (fun _ => 512) (fun k => 8192 + 512 * k) := by
  unfold ArrServes AgServes; decide

theorem witness_cbload : AcwAt (sAcw wCbload [1]) 0 kCBLOAD (aE wCbload [1]) ∧ ArrServes (tAcw wCbload [1]) wCbload.agw 1 (fun _ => 64) (fun _ => 64) ∧
    after (.cbload 0 Upset.none) (sAcw wCbload [1]) (fun d => acwDone d && ((d.tile 0).arr 0).cbType == 1 && ((d.tile 0).arr 0).cb.take 3 == [3, 0xFF, 0]) = true := by
  unfold AcwAt ArrServes AgServes; decide

theorem witness_drain : AcwAt (sAcw wDrain []) 0 kDRAIN (aE wDrain []) ∧ wDrain.arrays = [0] ∧ wDrain.rep = 1 ∧ wDrain.odst = 3 ∧ wDrain.rowbase = 127 ∧
    wDrain.accop % 2 = 1 ∧ (tAcw wDrain []).drainHeld 0 0 127 = false ∧
    after (.drain 0) (sAcw wDrain []) (fun d => acwDone d && (d.tile 0).wvl.appendQ.length == 1) = true := by
  unfold AcwAt; decide

theorem witness_xadd : AcwAt (sAcw wXadd [1]) 0 kXADD (aE wXadd [1]) ∧ wXadd.arrays = [0] ∧ wXadd.rep = 1 ∧ wXadd.asrc = 0 ∧
    ArrServes (tAcw wXadd [1]) wXadd.aga 1 (fun _ => 528) (fun _ => 64) := by
  unfold AcwAt ArrServes AgServes; decide
/-- An item of 33 payload words, an XPS block. -/
def wXaddItem : Acw := BitVec.ofNat 256 (5 + 2 ^ 4 + 2 ^ 23 + 2 ^ 32 + 3 * 2 ^ 152)
theorem witness_xadd_item : AcwAt (sTile 0 (tItem wXaddItem 34)) 0 kXADD (aE wXaddItem []) ∧ wXaddItem.asrc = 1 ∧ wXaddItem.rep * wXaddItem.na = 1 ∧
    (((tItem wXaddItem 34).qTake wXaddItem.qid).map (·.1)) = some ⟨5, 6, 0, 34, 34, false⟩ ∧
    ((tItem wXaddItem 34).payload ((tItem wXaddItem 34).qc 3) ⟨5, 6, 0, 34, 34, false⟩).length = 528 := by
  unfold AcwAt; decide

/-! ### The vector engine -/

/-- A vector word (05 Table 5.1) on one entry: entry 1 from entries 2, 3 and 4, AG 1. -/
def vw (op ty fn : Nat) : W64 := BitVec.ofNat 64 (op + ty * 2 ^ 6 + fn * 2 ^ 10 + 2 ^ 14 + 2 * 2 ^ 22 + 3 * 2 ^ 30 + 4 * 2 ^ 38 + 2 ^ 46 + 2 ^ 54)
/-- The head of the vector queue, for lane 0 alone. -/
def vE (w : W64) (ags : List Nat) : VecEntry := ⟨0, w, [], 1, 0, 0, 0, 0, ags, 0, false, 0⟩
/-- FP32 1.5 and 2.5 in lane 0 of entries 2 and 3; the AG reads at byte 64. -/
def tVec (w : W64) (ags : List Nat) : Tile :=
  { Tile.reset with vecQ := [vE w ags], ags := [(1, ag64)], spad := [(64, 7)], ocache := [(514, 0xC0), (515, 0x3F), (770, 0x20), (771, 0x40)] }
def sVec (w : W64) (ags : List Nat) : State := sTile 0 (tVec w ags)

/-- Lane 0 of entry 1 after a command on an instruction. -/
def lane0 (c : Instr) (op ty fn n : Nat) (v : Nat) : Bool :=
  decide ((vecTile op ty fn).vecHead op = some (vE (vw op ty fn) [])) && decide (VWord.n (vw op ty fn) = 1) &&
    after c (sVec (vw op ty fn) []) fun d => rdNat ((d.tile 0).ocRead 256 n) 0 n == v && (d.tile 0).vecQ.all (·.done)
where vecTile (op ty fn : Nat) : Tile := (sVec (vw op ty fn) []).dev.tile 0

theorem witness_fadd : lane0 (.fadd 0) oFADD 4 0 4 0x40800000 = true := by decide
theorem witness_fsub : lane0 (.fsub 0) oFSUB 4 0 4 0xBF800000 = true := by decide
theorem witness_fmul : lane0 (.fmul 0) oFMUL 4 0 4 0x40700000 = true := by decide
theorem witness_ffma : lane0 (.ffma 0) oFFMA 4 0 4 0x40700000 = true := by decide
theorem witness_fdiv : lane0 (.fdiv 0) oFDIV 4 0 4 0x3F19999A = true := by decide
theorem witness_fsqrt : lane0 (.fsqrt 0) oFSQRT 4 0 4 0x3F9CC471 = true := by decide
theorem witness_fmin : lane0 (.fmin 0) oFMIN 4 0 4 0x3FC00000 = true := by decide
theorem witness_fmax : lane0 (.fmax 0) oFMAX 4 0 4 0x40200000 = true := by decide
theorem witness_fcmp : lane0 (.fcmp 0) oFCMP 4 1 4 0xFFFFFFFF = true := by decide
theorem witness_fsgn : lane0 (.fsgn 0) oFSGN 4 1 4 0xBFC00000 = true := by decide
theorem witness_iadd : lane0 (.iadd 0) oIADD 1 1 4 0x7FE00000 = true := by decide
theorem witness_isub : lane0 (.isub 0) oISUB 1 0 4 0xFFA00000 = true := by decide
theorem witness_imul : lane0 (.imul 0) oIMUL 1 1 4 0x7FFFFFFF = true := by decide
theorem witness_imin : lane0 (.imin 0) oIMIN 1 0 4 0x3FC00000 = true := by decide
theorem witness_imax : lane0 (.imax 0) oIMAX 1 0 4 0x40200000 = true := by decide
theorem witness_ilog : lane0 (.ilog 0) oILOG 1 3 4 0x3FC00000 = true := by decide
theorem witness_ish : lane0 (.ish 0) oISH 1 0 4 0x3FC00000 = true := by decide
theorem witness_icmp : lane0 (.icmp 0) oICMP 1 2 4 0xFFFFFFFF = true := by decide
theorem witness_sel : lane0 (.sel 0) oSEL 1 0 4 0x40200000 = true := by decide
theorem witness_mov : lane0 (.mov 0) oMOV 1 0 4 0x3FC00000 = true := by decide
theorem witness_ftrn : VecAt (sVec (vw oFTRN 4 6) []) 0 oFTRN (vE (vw oFTRN 4 6) []) := by unfold VecAt; decide

theorem witness_vnop : VecAt (sVec (vw oVNOP 0 0) []) 0 oVNOP (vE (vw oVNOP 0 0) []) ∧ after (.vnop 0) (sVec (vw oVNOP 0 0) []) (fun d => (d.tile 0).vecQ.all (·.done)) = true := by
  unfold VecAt; decide
theorem witness_vld : VecAt (sVec (vw oVLD 0 0) [1]) 0 oVLD (vE (vw oVLD 0 0) [1]) ∧ AgServes (tVec (vw oVLD 0 0) [1]) 1 1 (fun _ => 256) (fun _ => 64) ∧
    after (.vld 0 Upset.none) (sVec (vw oVLD 0 0) [1]) (fun d => (d.tile 0).ocRead 256 2 == [7, 0]) = true := by
  unfold VecAt AgServes; decide
theorem witness_vst : VecAt (sVec (vw oVST 0 0) [1]) 0 oVST (vE (vw oVST 0 0) [1]) ∧ AgServes (tVec (vw oVST 0 0) [1]) 1 1 (fun _ => 256) (fun _ => 64) ∧
    after (.vst 0) (sVec (vw oVST 0 0) [1]) (fun d => Memory.readN (d.tile 0).spad 64 4 == [0, 0, 0xC0, 0x3F]) = true := by
  unfold VecAt AgServes; decide

/-- A receive queue (queue 3 of the lower 256) with an item of one header word and sixteen payload words: one entry. -/
def qRx : QCtx := { QCtx.reset with w0 := BitVec.ofNat 64 (1 + 8 * 2 ^ 32), items := [⟨5, 6, 0, 17, 17, false⟩] }
def sVldq : State := let x := tVec (vw oVLDQ 0 0) []; sTile 0 { x with qctx := [(3, qRx)], spad := [(0, 0xAB), (16, 0xCD)] }
theorem witness_vldq : (sVldq.dev.tile 0).vecHead oVLDQ = some (vE (vw oVLDQ 0 0) []) ∧ VWord.qid (vw oVLDQ 0 0) = 3 ∧ ((sVldq.dev.tile 0).qc 3).rx = true ∧
    ((sVldq.dev.tile 0).qc 3).head? = some ⟨5, 6, 0, 17, 17, false⟩ ∧ cdiv (17 - 1) 16 = 1 ∧ VWord.n (vw oVLDQ 0 0) = 1 ∧
    after (.vldq 0 Upset.none) sVldq (fun d => (d.tile 0).reg Reg.SPAD_QHDR0 == 0xAB && (d.tile 0).ocRead 256 2 == [0xCD, 0] && ((d.tile 0).qc 3).items == []) = true := by
  decide
/-- One word more and the item is longer than the instruction's one entry. -/
def sLong : State := let x := sVldq.dev.tile 0; sTile 0 { x with qctx := [(3, { qRx with items := [⟨5, 6, 0, 18, 18, false⟩] })] }
theorem witness_vldq_long : (sLong.dev.tile 0).vecHead oVLDQ = some (vE (vw oVLDQ 0 0) []) ∧ VWord.n (vw oVLDQ 0 0) < cdiv (18 - 1) 16 ∧
    after (.vldq 0 Upset.none) sLong (fun d => bit ((d.tile 0).qc 3).w3 47 && ((d.tile 0).qc 3).items.length == 1) = true := by decide

/-- A send queue whose route entry 0 has one alternate. -/
def altHere : RouteAlt := ⟨0, 0, 0, 0, false⟩
def sVstq : State :=
  let x := tVec (vw oVSTQ 0 0) []
  let d := Dev.reset.setTile 0 { x with qctx := [(3, { QCtx.reset with w0 := 3 })] }
  st { d with routes := [(0, ⟨1, 0, 0, [altHere]⟩)] }
theorem witness_vstq : VecAt sVstq 0 oVSTQ (vE (vw oVSTQ 0 0) []) ∧ (sVstq.dev.routeAlt (fld ((sVstq.dev.tile 0).qc 3).w1 48 16)).isSome = true ∧
    after (.vstq 0) sVstq (fun d => fld ((d.tile 0).qc 3).w2 0 16 == 1) = true := by
  unfold VecAt; decide
def sSetm : State := sTile 0 { Tile.reset with vecQ := [{ vE (vw oSETM 1 0) [] with lmask := 3 }], ocache := [(516, 1)] }
/-- Lane 0 of the entry is zero and lane 1 is not; the other bits of the mask register keep their reset value. -/
theorem witness_setm : VecAt sSetm 0 oSETM { vE (vw oSETM 1 0) [] with lmask := 3 } ∧
    after (.setm 0) sSetm (fun d => (d.tile 0).reg (Reg.VE_LMASK + 32) == 0xFFFFFFFFFFFFFFFE) = true := by
  unfold VecAt; decide
theorem witness_red : VecAt (sVec (vw oRED 1 0) []) 0 oRED (vE (vw oRED 1 0) []) ∧
    after (.red 0) (sVec (vw oRED 1 0) []) (fun d => rdNat ((d.tile 0).ocRead 256 4) 0 4 == 0x3FC00000) = true := by
  unfold VecAt; decide
theorem witness_rand : VecAt (sVec (vw oRAND 1 0) []) 0 oRAND (vE (vw oRAND 1 0) []) := by unfold VecAt; decide
theorem witness_xps : VecAt (sVec (vw oXADD 15 0) []) 0 oXADD (vE (vw oXADD 15 0) []) ∧ VecAt (sVec (vw oXCVT 15 0) []) 0 oXCVT (vE (vw oXCVT 15 0) []) := by
  unfold VecAt; decide
/-- CVT from FP32 to BF16: type 4 to the type code 2 in VC. -/
def wCvt : W64 := BitVec.ofNat 64 (oCVT + 4 * 2 ^ 6 + 2 ^ 14 + 2 * 2 ^ 22 + 2 * 2 ^ 38 + 2 ^ 46)
theorem witness_cvt : VecAt (sVec wCvt []) 0 oCVT (vE wCvt []) ∧ tyMx (VWord.ty wCvt) = false ∧ tyMx (VWord.vc wCvt % 16) = false ∧ tyWidth (VWord.ty wCvt) = 32 ∧
    tyWidth (VWord.vc wCvt % 16) = 16 ∧ VWord.cvtE wCvt = 64 := by unfold VecAt; decide
/-- Two units, the second reading what the first wrote (R117): MOV of entries 2 and 3 to entries 3 and 4. -/
def wMov2 : W64 := BitVec.ofNat 64 (oMOV + 2 ^ 6 + 3 * 2 ^ 14 + 2 * 2 ^ 22 + 2 * 2 ^ 46)
theorem witness_units : VecAt (sVec wMov2 []) 0 oMOV (vE wMov2 []) ∧ VWord.n wMov2 = 2 ∧
    after (.mov 0) (sVec wMov2 []) (fun d => rdNat ((d.tile 0).ocRead 1024 4) 0 4 == 0x3FC00000) = true := by unfold VecAt; decide
/-- VLD of two entries from an AG that steps by 256 bytes. -/
def tVld2 : Tile :=
  let w := BitVec.ofNat 64 (oVLD + 2 ^ 14 + 2 * 2 ^ 46 + 2 ^ 54)
  { tVec w [1] with ags := [(1, { ag64 with cur := { ag64.cur with cnts := [2, 1, 1, 1], strs := [256, 0, 0, 0] } })], spad := [(64, 7), (320, 9)] }
theorem witness_vld_two : AgServes tVld2 1 2 (fun _ => 256) (fun k => 64 + 256 * k) ∧ VWord.n ((tVld2.vecQ.map (·.word)).headD 0) = 2 ∧
    after (.vld 0 Upset.none) (sTile 0 tVld2) (fun d => (d.tile 0).ocRead 256 2 == [7, 0] && (d.tile 0).ocRead 512 2 == [9, 0]) = true := by
  unfold AgServes; decide
/-- FP32 to MXFP8 E4M3, one entry: 1.5 needs scale 2^-8 and the code of 384. -/
def wCvtMx : W64 := BitVec.ofNat 64 (oCVT + 4 * 2 ^ 6 + 2 ^ 14 + 2 * 2 ^ 22 + 9 * 2 ^ 30 + 8 * 2 ^ 38 + 2 ^ 46)
theorem witness_cvt_mx : VecAt (sVec wCvtMx []) 0 oCVT (vE wCvtMx []) ∧ tyMx (VWord.vc wCvtMx % 16) = true ∧ tyMx (VWord.ty wCvtMx) = false ∧
    cdiv (VWord.cvtE wCvtMx * 8) 2048 = 1 ∧ Apart 9 (cdiv (cdiv (VWord.cvtE wCvtMx) 32) 256) 1 1 ∧
    after (.cvt 0) (sVec wCvtMx []) (fun d => (d.tile 0).ocRead (256 * 9) 1 == [119] && (d.tile 0).ocRead 256 1 == [0x7C]) = true := by
  unfold VecAt Apart; decide
def sVecDone : State := sTile 0 { Tile.reset with vecQ := [{ vE (vw oMOV 1 0 ||| 0x4000000000000000) [] with done := true, flags := 5 }] }
theorem witness_vec_retire : (sVecDone.dev.tile 0).vecQ.all (·.done) = true ∧
    after (.vecRetire 0) sVecDone (fun d => (d.tile 0).vecQ == [] && (d.tile 0).reg Reg.VE_FLAGS == 5 && (d.tile 0).reg Reg.SCB_EVENT == 2) = true := by decide

/-! ### Stream queues and the mesh -/

/-- The entry expects the word at word 31, the last of the ring. -/
def sQitem : State := sTile 0 { Tile.reset with localIn := [pk 0], qctx := [(3, qRx)], reasm := [⟨5, 6, 3, 1, 1, 31, false, false⟩] }
theorem witness_qitem : (sQitem.dev.tile 0).localIn = [pk 0] ∧ (pk 0).words = [0x1234] ∧ ((sQitem.dev.tile 0).qc 3).rx = true ∧ sQitem.dev.shut 0 = false ∧
    (sQitem.dev.tile 0).entry 5 6 3 = some ⟨5, 6, 3, 1, 1, 31, false, false⟩ ∧ ((sQitem.dev.tile 0).qc 3).addr 31 = 496 ∧
    after (.qitemArrival 0) sQitem (fun d => Memory.readN (d.tile 0).spad 495 4 == [0, 0x34, 0x12, 0] && (d.tile 0).localIn == []) = true := by decide

/-- A command word of SPAD_QCMD: context 3, operation `o`. -/
def tQcmd (o : Nat) : Tile := { Tile.reset with regs := [(Reg.SPAD_QCMD, BitVec.ofNat 64 (3 + o * 2 ^ 10 + 2 ^ 16))], qctx := [(3, qRx)], reasm := [⟨5, 6, 3, 1, 1, 31, false, false⟩] }
def sQcmd (o : Nat) : State := sTile 0 (tQcmd o)
def endedOk (d : Dev) : Bool := !bit ((d.tile 0).reg Reg.SPAD_QCMD) 16 && fld ((d.tile 0).reg Reg.SPAD_QCMD) 32 16 == 0
theorem witness_qcmd_read : (tQcmd 0).qwait = false ∧ (tQcmd 0).qcmd = some (3, 0) ∧
    after (.qcmdRead 0) (sQcmd 0) (fun d => endedOk d && (d.tile 0).reg Reg.SPAD_QCTX == qRx.w0) = true := by decide
theorem witness_qcmd_flush : (tQcmd 2).qcmd = some (3, 2) ∧ ((tQcmd 2).qc 3).tx = false ∧
    after (.qcmdFlush 0) (sQcmd 2) (fun d => endedOk d && ((d.tile 0).qc 3).items == [] && (d.tile 0).reasm.all (·.skip)) = true := by decide
theorem witness_qcmd_reset : (tQcmd 3).qcmd = some (3, 3) ∧ ((tQcmd 3).qc 3).tx = false ∧
    after (.qcmdReset 0) (sQcmd 3) (fun d => endedOk d && ((d.tile 0).qc 3).items == []) = true := by decide
/-- CONFIG takes context 3, which holds nothing, as the send queue that the staging words give; RESET of it waits and ends. -/
def tConfig (o : Nat) : Tile := { Tile.reset with regs := [(Reg.SPAD_QCMD, BitVec.ofNat 64 (3 + o * 2 ^ 10 + 2 ^ 16)), (Reg.SPAD_QCTX, 3)], qctx := [(3, { QCtx.reset with w0 := 3 })] }
theorem witness_qcmd_config : (tConfig 1).qcmd = some (3, 1) ∧ ((tConfig 1).qc 3).items = [] ∧ (∀ e ∈ (tConfig 1).reasm, e.qid ≠ 3) ∧
    (sTile 0 (tConfig 1)).dev.sending 0 (some 3) = false ∧ qCheck 3 0 = St.OK ∧
    after (.qcmdConfig 0) (sTile 0 (tConfig 1)) (fun d => endedOk d && ((d.tile 0).qc 3).tx) = true := by decide
theorem witness_qcmd_tx_reset : (tConfig 3).qcmd = some (3, 3) ∧ ((tConfig 3).qc 3).tx = true ∧ after (.qcmdReset 0) (sTile 0 (tConfig 3)) (fun d => (d.tile 0).qwait) = true ∧
    after (.qcmdTxResetDone 0) (sTile 0 { tConfig 3 with qwait := true }) (fun d => endedOk d && !(d.tile 0).qwait) = true := by decide

/-- A device on which a packet is on its way. -/
def dFly (d : Dev) (l : List Flight) : State := st { d with flying := l }
def onLink (t inp : Nat) (k : Packet) : Flight := ⟨t, inp, k, none⟩
/-- Two segments: none South, then 1 East. -/
def pkEast : Packet := { pk 1 with segn := 2, segs := 0x0502 }
theorem witness_forward : GoodHeader (dFly Dev.reset [onLink 0 1 pkEast]) 0 .east pkEast 0 (onLink 0 1 pkEast) ∧ pkEast.vc ≠ 0 ∧
    (Packet.skipSegs 4 pkEast).segptr.toNat < (Packet.skipSegs 4 pkEast).segn.toNat ∧
    neighbour 0 (dirPort ((Packet.skipSegs 4 pkEast).seg (Packet.skipSegs 4 pkEast).segptr.toNat).1) = some (1, .west) ∧
    after (.packetArrival 0 .east pkEast) (dFly Dev.reset [onLink 0 1 pkEast])
      (fun d => (d.flying[0]?.bind fun f => f.copyTo 1) == some ⟨1, { pkEast.hdr with segptr := 1, segs := 0x0102 }, 0, false⟩) = true := by
  unfold GoodHeader; decide
/-- Tile 1 is of region 2. -/
def sRegion2 : State := sTile 1 { Tile.reset with regs := [(Reg.MESH_REGION, 2)] }
def sArrive (k : Packet) : State := dFly sRegion2.dev [onLink 1 3 k]
theorem witness_deliver : GoodHeader (sArrive (pk 1)) 1 .west (pk 1) 0 (onLink 1 3 (pk 1)) ∧ (Packet.skipSegs 4 (pk 1)).segn.toNat ≤ (Packet.skipSegs 4 (pk 1)).segptr.toNat ∧
    (Packet.skipSegs 4 (pk 1)).hopLeft = false ∧
    after (.packetArrival 1 .west (pk 1)) (sArrive (pk 1)) (fun d => (d.flying[0]?.bind fun f => f.copyTo 4) == some ⟨4, (pk 1).hdr, 0, false⟩) = true := by
  unfold GoodHeader; decide
theorem witness_malformed : let k := { pk 1 with segptr := 5 }
    (sArrive k).dev.inputOpen 1 .west = true ∧ (sArrive k).dev.arriving 1 .west k.vc = some 0 ∧ k.malformed false = true ∧
    after (.packetArrival 1 .west k) (sArrive k) (fun d => (d.tile 1).reg Reg.MESH_MISROUTE == 1 && (d.flying.all fun f => f.outs == some [])) = true := by decide
theorem witness_boundary_drop : let k := { pk 1 with vc := 0, regtag := 63 }
    GoodHeader (sArrive k) 1 .west k 0 (onLink 1 3 k) ∧ ((sArrive k).dev.tile 1).meshRegion ≠ 63 ∧ ((sArrive k).dev.tile 1).meshRegion ≠ 0x7F ∧
    after (.packetArrival 1 .west k) (sArrive k) (fun d => (d.tile 1).reg Reg.MESH_BOUND_DROP == 1) = true := by
  unfold GoodHeader; decide
/-- An acknowledgement that has come whole, but for its last flit at the Local output. -/
def pkAck : Packet := ({ packet0 with dtile := 1, regtag := 2, vc := 1, kind := 6, len := 2, segn := 0 } : Packet).sealed false
def dLast : Dev := { sRegion2.dev with flying := [⟨1, 3, pkAck, some [⟨4, pkAck.hdr, 1, false⟩]⟩] }
theorem test_last_flit : pkAck.crcOk = true ∧ (dLast.cycle).flying = [] ∧ dLast.cycle.unitIn = [(1, pkAck)] := by decide
theorem witness_last_flit : LastFlit dLast ⟨1, 3, pkAck, some [⟨4, pkAck.hdr, 1, false⟩]⟩ ⟨4, pkAck.hdr, 1, false⟩ := by
  unfold LastFlit; decide

/-- A header field at its place in the flit (11 Table 11.1, 12 Table 12.3): DTILE [182:172], LEN [262:257], KIND [268:265], DDEV [310:299], TYPE [493:492]. -/
theorem test_header_bits : Packet.head { packet0 with dtile := 5, len := 2, kind := 6, ddev := 0x2A2, nakType := 1 } =
    BitVec.ofNat 512 (5 * 2 ^ 172 + 2 * 2 ^ 257 + 6 * 2 ^ 265 + 0x2A2 * 2 ^ 299 + 2 ^ 492) := by decide
/-- The check values of CRC-32 and CRC-32C of the nine bytes "123456789". -/
theorem test_crc32 : linkCrc [0x31, 0x32, 0x33, 0x34, 0x35, 0x36, 0x37, 0x38, 0x39] = 0xCBF43926 ∧
    crc32c [0x31, 0x32, 0x33, 0x34, 0x35, 0x36, 0x37, 0x38, 0x39] = 0xE3069283 := by decide

/-- The slot table of output East names the West input and queue 3 in slot 0, and the packet of that queue waits there. -/
def pkSlot : Packet := { pk 5 with vc := 0 }
def sSlot : State :=
  dFly (sTile 1 { Tile.reset with regs := [(Reg.MESH_SLOTCFG, 0x4001), (Reg.MESH_SLOTTAB + 512, 3 + 8 * 3)], slot0 := 1 }).dev
    [⟨1, 3, pkSlot, some [⟨1, pkSlot.hdr, 0, false⟩]⟩]
theorem witness_slot : (sSlot.dev.tile 1).slotsOn = true ∧ sSlot.dev.slotNow 1 = some (0, true) ∧ (sSlot.dev.tile 1).slotEntry .east 0 = some (.west, 3) ∧
    (heads sSlot.dev.flying 1 1 0).length = 1 ∧ pkSlot.dqid.toNat = 3 ∧
    after (.slotStart 1 .east 0) sSlot (fun d => d.flying.any fun f => (f.copyTo 1).any fun c => c.go) = true := by decide

theorem witness_gateway : 7 < Config.nGateways ∧ ({ sRegion2.dev with gwIn := [(7, pk 1)] } : Dev).ingressNext 7 (pk 1) = some (pk 1) ∧ (sRegion2.dev.tile 1).meshRegion ≠ 0x7F ∧
    sRegion2.dev.gatewayShut 7 = false ∧ (State.reset.dev.tile 1).meshRegion = 0x7F ∧
    after (.gatewayIngress 7 (pk 1)) (st { sRegion2.dev with gwIn := [(7, pk 1)] }) (fun d => d.flying.length == 1) = true ∧
    after (.gatewayIngress 7 (pk 1)) (st { Dev.reset with gwIn := [(7, pk 1)] }) (fun d => d.reg Reg.PORT_DROPCNT == 1) = true := by decide

/-! ### The weight tier -/

/-- The West pair holds the latch and runs; the command of opcode `op` for region `r` runs in mailbox `m`; the tier is ready with four copies. -/
def hd (m op r : Nat) : Dev :=
  { Dev.reset with
    regs := [(Reg.HIVE_MBOXST, BitVec.ofNat 64 (2 * 4 ^ m)), (Reg.WT_STATUS, 0x3C1)],
    hive := { Hive.reset with run := true, mbox := Memory.writeN (Memory.writeN [] (4096 * m + 2) (leBytes 2 op)) (4096 * m + 12) (leBytes 1 r), agreed := 0xFFF },
    aon := { AlwaysOn.reset with owner := .west } }
/-- The same with PARAM0 and a payload in its message (16 Table 16.3). -/
def hdP (m op r p : Nat) (payload : List Byte) : Dev :=
  let d := hd m op r
  let put (a : Nat) (bs : List Byte) (x : Memory) : Memory := Memory.writeN x (4096 * m + a) bs
  { d with hive := { d.hive with mbox := put 32 payload (put 16 (leBytes 4 p) (put 8 (leBytes 4 payload.length) d.hive.mbox)) } }
/-- The mailbox is DONE with this status. -/
def ans (m : Nat) (status : W16) (d : Dev) : Bool := d.mbState m == 3 && d.mbNat m 8 4 == status.toNat

/-- Image (1, 2) in extent 3 of tile 0, without shards. -/
def img (k : ImgState) : Image :=
  { id := 1, gen := 2, ikind := 3, st := k, rect := ⟨0, 0, 0, 0⟩, xset := 8, mbytes := 0, mdigest := [], shards := [], adapters := [⟨9, 16, 2⟩], manOk := true, stored := [],
    priorGen := 0, trialLimit := 0, boots := 0, badShards := [], before := .empty, lastSeq := 0 }
def dImg (m op : Nat) (k : ImgState) : Dev := let d := hd m op 0; { d with wt := { d.wt with images := [img k] } }
def jp : JPend := ⟨.activate, img .verified, 0, some 31, 0, none, none⟩

/-- The record `jp` waits with `k` commit stages done, of which stage 1 has programmed body `b`. -/
def sJournal (k : Nat) (pages : SMap (List Byte)) (p : JPend) : State :=
  let d := dImg 31 0x0204 .verified
  st { d with wt := { d.wt with jq := [p], jstage := k, jpages := pages }, hive := { d.hive with began := [31] } }
def jbody : List Byte := (sJournal 0 [] jp).dev.nextBody jp
theorem witness_journal : (sJournal 0 [] jp).dev.jReady = true ∧ (sJournal 0 [] jp).dev.authority = true ∧ (sJournal 0 [] jp).dev.wt.jq = [jp] ∧ (sJournal 0 [] jp).dev.jcopies ≠ 0 ∧
    (sJournal 0 [] jp).dev.wt.recLegal jp = true ∧ copiesOf (sJournal 0 [] jp).dev.jcopies = [0, 1, 2, 3] ∧
    after (.journalCommit 0) (sJournal 0 [] jp) (fun d => d.wt.jstage == 1 && d.wt.jread 3 18 == recPage jbody 0 && d.reg Reg.WT_JSEQ == 0) = true := by decide
theorem witness_journal_force : after (.journalCommit 1) (sJournal 1 [(18, recPage jbody 0), (8210, recPage jbody 0)] jp) (fun d =>
    d.wt.jstage == 2 && recCommitted (d.wt.jread 1 18) && !recCommitted (d.wt.jread 0 18) && d.reg Reg.WT_JSEQ == 1 && d.wt.trial 1 != none && d.jcopies == 14) = true := by decide
theorem witness_journal_end : after (.journalCommit 0) (sJournal 2 [] { jp with reply := none }) (fun d => d.wt.jstage == 0 && d.wt.jq == []) = true ∧
    4 * 0 < 3 * journalPages ∧ after (.journalCommit 0) (sJournal 2 [] jp) (ans 31 St.OK) = true := by decide
/-- A committed record is found by the replay (R175); the same page with COMMIT = 0 is not. Offsets are those of Table 7.6. -/
theorem test_record : recOk (recPage jbody 0xA5) = true ∧ rdNat jbody 6 1 = 2 ∧ rdNat jbody 8 8 = 1 ∧ rdNat jbody 0x10 4 = 1 ∧ rdNat jbody 0x14 4 = 2 ∧ rdNat jbody 0x19 1 = 4 ∧
    rdNat jbody 0x20 4 = 8 ∧ (WTier.recordsInForce { WTier.reset with jpages := [(16402, recPage jbody 0xA5)] } [2]).length = 1 ∧
    WTier.recordsInForce { WTier.reset with jpages := [(16402, recPage jbody 0)] } [2] = [] := by decide
def dReplay (w : WTier) : State := st { Dev.reset with regs := [(Reg.HOST_STATUS, 2)], wt := w }
theorem witness_replay : 2 ≤ (dReplay .reset).dev.phase ∧ State.reset.dev.jReady = false ∧
    after .journalReplay (dReplay .reset) (fun d => d.wt.replayed && !d.jReady) = true ∧
    after .journalReplay (dReplay { WTier.reset with replayed := true }) (fun d => d.jReady) = true := by decide
/-- Extents in DOWNLOADING without a DOWNLOADED record are reported INCOMPLETE, then freed (R175 item 4, Table 7.10). -/
theorem test_incomplete : after .journalReplay (dReplay { WTier.reset with hdrs := [(5, MetaPair.reset.write true true (ownerBytes (5, 3, 1, 2, true)))] })
      (fun d => d.wt.images.map (fun i => (i.id, i.gen, i.st)) == [(1, 2, .incomplete)] && d.wt.owners == [(5, 3, 1, 2, true)]) = true ∧
    after .journalReplay (dReplay { WTier.reset with replayed := true, owners := [(5, 3, 1, 2, true)], images := [{ img .incomplete with gen := 2 }] })
      (fun d => d.wt.images == [] && d.wt.owners == []) = true := by decide
def sRefresh : State := st { Dev.reset with wt := { WTier.reset with refreshQ := [(1103, 262143)] } }
theorem witness_refresh : 1103 < Config.nTiles ∧ 262143 < 262144 ∧ sRefresh.dev.wt.refreshQ = [(1103, 262143)] ∧ (sRefresh.dev.wt.poolPage 1103).isSome = true := by decide
def sScrub (v : W64) : State := st { Dev.reset with regs := [(Reg.WT_STATUS, v)] }
theorem witness_scrub : (sScrub 1).dev.jReady = true ∧ fld ((sScrub 1).dev.reg Reg.WT_SCRUB_CTL) 0 16 ≠ 0 ∧ bit ((sScrub 1).dev.reg Reg.WT_STATUS) 2 = false ∧
    bit ((sScrub 5).dev.reg Reg.WT_STATUS) 2 = true ∧ after (.scrubPassStart []) (sScrub 1) (fun d => bit (d.reg Reg.WT_STATUS) 2) = true ∧
    after .scrubPassComplete (sScrub 5) (fun d => d.reg Reg.WT_SCRUB_PASS == 1) = true := by decide

def allocQ : AllocReq := ⟨1, 2, 4, ⟨23, 23, 45, 45⟩, 1, some 0x4000, 64, []⟩
theorem witness_image_alloc : HostReady (st (hd 31 0x0200 0)) 31 0x0200 ∧ (hd 31 0x0200 0).jReady = true ∧ pairBad 1 2 = false ∧ (hd 31 0x0200 0).wt.image? 1 2 = none ∧
    rectOk allocQ.rect = true ∧ (hd 31 0x0200 0).wt.chooseExt allocQ = some 0x4000 ∧
    after (.imageAlloc 31 allocQ) (st (hd 31 0x0200 0)) (fun d => ans 31 St.OK d && d.wt.images.length == 1) = true := by
  unfold HostReady; decide
theorem witness_image_verify : HostReady (st (dImg 0 0x0203 .downloaded)) 0 0x0203 ∧ (dImg 0 0x0203 .downloaded).wt.image? 1 2 = some (img .downloaded) ∧
    after (.imageVerify 0 1 2) (st (dImg 0 0x0203 .downloaded)) (fun d => d.wt.verifying == [⟨1, 2, some 0⟩]) = true := by
  unfold HostReady; decide
def sVerify : State := let d := dImg 0 0 .downloaded; st { d with wt := { d.wt with verifying := [⟨1, 2, none⟩] } }
theorem witness_verify_complete : sVerify.dev.wt.image? 1 2 = some (img .downloaded) ∧ sVerify.dev.wt.firstBad (img .downloaded) = none ∧
    after (.verifyComplete 1 2 []) sVerify (fun d => d.wt.image? 1 2 == some (img .verified)) = true := by decide
theorem witness_image_activate : HostReady (st (dImg 0 0x0204 .verified)) 0 0x0204 ∧ (dImg 0 0x0204 .verified).jOk = true ∧ (dImg 0 0x0204 .verified).wt.trial 1 = none ∧
    (dImg 0 0x0204 .verified).wt.active 1 = none ∧ after (.imageActivate 0 1 2 0) (st (dImg 0 0x0204 .verified)) (fun d => d.wt.jq.map (·.kind) == [.activate]) = true := by
  unfold HostReady; decide
theorem witness_image_confirm : HostReady (st (dImg 0 0x0205 .trial)) 0 0x0205 ∧ (img .trial).priorGen = 0 ∧
    after (.imageConfirm 0 1 2) (st (dImg 0 0x0205 .trial)) (fun d => d.wt.jq.map (·.kind) == [.confirm]) = true := by
  unfold HostReady; decide
theorem witness_image_revert : HostReady (st (dImg 0 0x0206 .trial)) 0 0x0206 ∧ (dImg 0 0x0206 .trial).mapped (img .trial) = false ∧
    after (.imageRevert 0 1 2) (st (dImg 0 0x0206 .trial)) (fun d => d.wt.jq.map (·.kind) == [.revert]) = true := by
  unfold HostReady; decide
theorem witness_image_retire : HostReady (st (dImg 0 0x0207 .confirmed)) 0 0x0207 ∧ (dImg 0 0x0207 .confirmed).wt.revertTarget (img .confirmed) = false ∧
    (dImg 0 0x0207 .confirmed).mapped (img .confirmed) = false ∧
    after (.imageRetire 0 1 2) (st (dImg 0 0x0207 .confirmed)) (fun d => d.wt.jq.map (·.kind) == [.retire]) = true := by
  unfold HostReady; decide
theorem witness_image_query : HostReady (st (dImg 0 0x0208 .bad)) 0 0x0208 ∧ after (.imageQuery 0 1 (some 2)) (st (dImg 0 0x0208 .bad)) (ans 0 St.OK) = true := by
  unfold HostReady; decide

/-- A haul session of a role, with the shards that have landed. -/
def haulQ (r : HaulRole) : HaulReq := ⟨7, r, 1, 2, 10, 11, 12, 13, false⟩
def ses (r : HaulRole) (landed : List Nat) : Session := ⟨haulQ r, [], [], [], landed, false, false, 0, none⟩
def dHaul (op : Nat) (r : HaulRole) (landed : List Nat) : Dev := let d := hd 3 op 0; { d with wt := { d.wt with sessions := [ses r landed] } }
def haulFr : HaulFrame := ⟨7, 1, 2, 0, 2048, 16, 0, [1]⟩
theorem witness_haul_open : HostReady (st (hd 3 0x0201 0)) 3 0x0201 ∧ (haulQ .head).role = .head ∧ (hd 3 0x0201 0).wt.sessions.length < 4 ∧
    after (.haulOpen 3 (haulQ .head)) (st (hd 3 0x0201 0)) (fun d => ans 3 St.OK d && d.dmaOut (.haul 7)) = true := by
  unfold HostReady; decide
theorem witness_haul_close : HostReady (st (dHaul 0x0202 .tail [])) 3 0x0202 ∧ (∃ e ∈ (dHaul 0x0202 .tail []).wt.sessions, e.q.session = 7) ∧
    after (.haulClose 3 7) (st (dHaul 0x0202 .tail [])) (fun d => ans 3 St.OK d && d.wt.sessions == []) = true := by
  unfold HostReady; decide
/-- Route 10 has one hop over port 0 and leads to device 9; the port is up. -/
def haulOut (d : Dev) : Dev :=
  { d with routes := [(10, ⟨1, 0, 9, [⟨0, 1, 0, 0, false⟩]⟩), (11, ⟨1, 0, 9, [⟨0, 1, 0, 0, false⟩]⟩)], regs := d.regs ++ [(Reg.PORT_CTL, 1), (Reg.PORT_STATUS, 2), (Reg.PORT_DEVID, 0x1005)] }
def pkUnit (kind : BitVec 4) (ws : List W128) : Packet := ({ packet0 with dtile := 0x7FF, regtag := 0x7F, kind := kind, vc := 3, hopptr := 1, hops := 1 } : Packet).withWords ws
def inUnit (d : Dev) (k : Packet) : Dev := { d with unitIn := [(0x7FF, k)] }
def pkHaul : Packet := (pkUnit 4 haulFr.words).sealed false
def ack4 : HaulAck := ⟨7, 5, 4, 1, 2, 0, 0, 0⟩
def pkHack : Packet := (pkUnit 5 ack4.words).sealed false
theorem test_haul_packet : pkHaul.flits = 35 ∧ pkHaul.lastw = 0 ∧ pkHaul.words.length = 136 ∧ pkHaul.haul = some { haulFr with data := slice [1] 0 2048 } := by decide
def haulGot : HaulFrame := { haulFr with data := slice [1] 0 2048 }
/-- The bytes of that frame as a head reads them (07 Table 7.11). -/
def headBytes : List Byte := leBytes 4 7 ++ leBytes 4 1 ++ leBytes 4 2 ++ leBytes 4 0 ++ leBytes 4 2048 ++ leBytes 2 16 ++ leBytes 42 0 ++ [1]
def dHead : Dev := let d := haulOut (dHaul 0 .head []); { d with wt := { d.wt with sessions := [{ ses .head [] with frame := some (headBytes) }] } }
theorem witness_haul_head : dHead.headOf 7 = some { ses .head [] with frame := some (headBytes) } ∧ ({ ses .head [] with frame := some (headBytes) } : Session).frame.map HaulFrame.ofBytes = some haulGot ∧
    (none : Option (List Byte)).map HaulFrame.ofBytes ≠ some haulGot ∧ after (.haulHeadSend 7 haulGot) (st (haulOut (dHaul 0 .head []))) (fun d => d.flying == []) = true ∧
    after (.haulHeadSend 7 haulGot) (st dHead) (fun d => d.flying.length == 1 && d.unitHeld.length == 1) = true := by decide
theorem witness_haul_ack : (((inUnit (dHaul 0 .head []) pkHack).unitPkt 0x7FF 5 fun _ => true) == some pkHack && pkHack.haulAck == ack4) = true ∧
    after (.haulAckArrival ack4) (st (inUnit (dHaul 0 .head []) pkHack)) (fun d => bit (d.reg Reg.WT_ERR) 4 && d.unitIn == []) = true := by decide
theorem witness_haul_arrival : (hd 3 0 0).session? haulGot.session = none ∧ (dHaul 0 .member []).session? 7 = some (ses .member []) ∧ frameBad haulGot none = false ∧
    (dHaul 0 .member []).wt.image? 1 2 = none ∧ after (.haulFrameArrival haulGot) (st (inUnit (hd 3 0 0) pkHaul)) (fun d => d.reg Reg.WT_HAUL_BAD == 1) = true ∧
    after (.haulFrameArrival haulGot) (st (inUnit (haulOut (dHaul 0 .member [])) pkHaul)) (fun d => d.flying.length == 1) = true := by decide
theorem witness_shard_ok : (dHaul 0 .tail [5]).session? 7 = some (ses .tail [5]) ∧ (5 : W32).toNat = 5 ∧
    after (.shardOk 7 5) (st (haulOut (dHaul 0 .tail [5]))) (fun d => d.unitHeld.any fun h => h.pkt.haulAck.kind == 1) = true := by decide

/-- Region 63 of tile 0, stopped, with an adapter slot at line 2. -/
def aSlot : AdSlot := ⟨2, 1, .loading, 9, some ⟨1, 2, 9, 16, 2, false⟩, false⟩
def rg : Region := { Region.reset with st := .stopped, h := 1, w := 1, adslots := [aSlot] }
def dRg (op : Nat) : Dev := { dImg 3 op .confirmed with regions := [(63, rg)] }
theorem witness_layer_swap : HostReady (st (dRg 0x0209)) 3 0x0209 ∧ (dRg 0x0209).feature 1 = true ∧ (0x8000000000000000 : W64).getLsbD 63 = true ∧ (dRg 0x0209).swapArmed 63 = false ∧
    (dRg 0x0209).wt.mapServes ((dRg 0x0209).reg (Reg.WT_XMAP_NEXT + 8 * 63)) = true ∧ ((dRg 0x0209).region 63).residents = [] ∧
    after (.layerSwap 3 0x8000000000000000 false 0) (st (dRg 0x0209)) (fun d => d.wt.swaps.map (·.mask) == [0x8000000000000000]) = true := by
  unfold HostReady; decide
def sSwapped : State := let d := hd 3 0x0209 0; st { d with wt := { d.wt with swaps := [⟨0, true, 0, 0, 0, none, 3⟩] }, hive := { d.hive with began := [3] } }
theorem witness_swap_reply : sSwapped.dev.authority = true ∧ sSwapped.dev.mbState 3 = 2 ∧ sSwapped.dev.hive.noReply = [] ∧ Swap.waits ⟨0, true, 0, 0, 0, none, 3⟩ = [] ∧
    after (.layerSwapReply 3) sSwapped (fun d => ans 3 St.OK d && d.wt.swaps == []) = true := by decide
def sReload : State := st { Dev.reset with regions := [(63, { rg with reload := true, residents := [⟨0, 64, 2, 1⟩] })] }
theorem witness_reload : (sReload.dev.region 63).reload = true ∧ (sReload.dev.region 63).residents = [⟨0, 64, 2, 1⟩] ∧
    after (.residentWeightReloadDone 63) sReload (fun d => !(d.region 63).reload) = true := by decide
def dAd (op : Nat) : Dev := { dImg 3 op .confirmed with regions := [(63, rg)], hive := (hd 3 op 63).hive }
theorem witness_adapter : HostReadyR (st (dAd 0x020A)) 3 0x020A 63 ∧ (dAd 0x020A).feature 5 = true ∧ ((dAd 0x020A).region 63).adslots[0]? = some aSlot ∧
    (img .confirmed).adapters.find? (fun e => decide (e.ad = 9)) = some ⟨9, 16, 2⟩ ∧ ((dAd 0x020A).region 63).tileList.all (fun t => rectHolds (img .confirmed).rect t) = true ∧
    ((dAd 0).region 63).tileList = [0] ∧ HostReadyR (st (dAd 0x020B)) 3 0x020B 63 ∧
    after (.adapterLoad 3 63 0 1 2 9) (st (dAd 0x020A)) (ans 3 St.OK) = true ∧
    after (.adapterCopyDone 63 0) (st (dAd 0)) (fun d => ((d.region 63).adslots.map fun b => b.job.map (·.copied)) == [some true]) = true ∧
    after (.adapterEvict 3 63 0) (st (dAd 0x020B)) (fun d => ans 3 St.OK d && (d.region 63).adslots.all (·.evict)) = true := by
  unfold HostReadyR HostReady; decide

/-! ### The Weevil -/

/-- Region 2 is tile 0: an arena of two frames from line 64, four positions of sixteen bytes a page; the directories of slots 5 and 6, of two
pages, at line 0. Slot 5 has length 1, and its page 0 is frame 1. Entry 0 of the ragged table at line 32 is slot 5. -/
def tKv : Tile :=
  { Tile.reset with
    regs := [(Reg.WVL_CFG, BitVec.ofNat 64 (64 + 2 * 2 ^ 16 + 16 * 2 ^ 28 + 4 * 2 ^ 40)), (Reg.WVL_DIR, BitVec.ofNat 64 (5 * 2 ^ 16 + 2 * 2 ^ 32 + 2 * 2 ^ 48)),
      (Reg.WVL_KVS, BitVec.ofNat 64 (32 + 2 ^ 16)), (Reg.WVL_DCFG, 1), (Reg.WVL_SHADOW, 1), (Reg.WVL_SHSTEP, 77),
      (Reg.WVL_FQ0, BitVec.ofNat 64 (5 + 2 ^ 16)), (Reg.WVL_FQ1, BitVec.ofNat 64 (16 * 2 ^ 12 + 3072 * 2 ^ 24))],
    spad := [(0, 1), (16, 9), (2048, 5), (8192, 0xEE)],
    wvl := { Weevil.reset with ft := [(1, 65537)], appendQ := [⟨0, List.replicate 16 7, 0⟩], fq := [(BitVec.ofNat 64 (5 + 2 ^ 16), BitVec.ofNat 64 (16 * 2 ^ 12 + 3072 * 2 ^ 24))], nUnits := 1 } }
def rg2 : Region := { Region.reset with st := .running, h := 1, w := 1 }
def kv (d : Dev) (x : Tile) : State := st { d.setTile 0 x with regions := [(2, rg2)] }
def sKv : State := kv Dev.reset tKv

theorem witness_append : ParityGood sKv.dev ∧ (tKv.wvl.appendQ = [⟨0, List.replicate 16 7, 0⟩]) ∧ SMap.get (fun _ => ((0, 0) : Nat × Nat)) tKv.wvl.cursor 0 = (0, 0) ∧
    BitVec.ofNat 64 (tKv.spad.readNat (32 * 64) 8) = 5 ∧ sKv.dev.regionOf 0 = some 2 ∧ sKv.dev.homeOf 2 5 = some 0 ∧ tKv.clen 5 = 1 ∧ 1 / tKv.kvPpp < tKv.dirLen ∧
    tKv.pte 5 0 = 9 ∧ pteV 9 = true ∧ pteShared 9 = false ∧ pteTile 9 = 0 ∧ sKv.dev.frameOk 2 9 false = true ∧ tKv.frameAddr 1 = 8192 ∧ tKv.dirAddr 5 = 0 ∧
    after (.appendRow 0 Upset.none) sKv (fun d => (d.tile 0).plen 5 == 1 && Memory.readN (d.tile 0).spad 8207 2 == [0, 7]) = true := by unfold ParityGood; decide
theorem witness_fetch : ParityGood sKv.dev ∧ tKv.wvl.fq.length = 1 ∧ (sKv.dev.translate 2 0 5 0).2 = some 9 ∧
    after (.fetch 0 Upset.none) sKv (fun d => (d.tile 0).reg Reg.WVL_FDONE == 1 && Memory.read (d.tile 0).spad 3072 == 0xEE) = true := by unfold ParityGood; decide
theorem witness_fq_commit : tKv.fetchOk (tKv.reg Reg.WVL_FQ0) (tKv.reg Reg.WVL_FQ1) = true ∧ after (.wvlFqCommit 0) sKv (fun d => (d.tile 0).wvl.fq.length == 2) = true := by decide
theorem witness_wvl_requests : tKv.parInv = [] ∧ tKv.claims (6 : BitVec 16).toNat = true ∧ 1 < tKv.dirLen ∧ 1 < tKv.kvFrames ∧
    after (.wvlReqArrival 0 (.walk 9 5 0)) sKv (fun d => d.out == [.wvlData 9 [9, 0, 0, 0, 1, 0, 0, 0, 0, 0, 0, 0]]) = true ∧
    after (.wvlReqArrival 0 (.read 9 1 0 1)) sKv (fun d => d.out == [.wvlData 9 [0xEE]]) = true ∧
    after (.wvlReqArrival 0 (.claim 9)) sKv (fun d => d.out == [.wvl 9 (.claimed 0)]) = true ∧
    after (.wvlReqArrival 0 (.claimed 4)) (kv Dev.reset { tKv with wvl := { tKv.wvl with claimOut := 1 } }) (fun d => (d.tile 0).reg Reg.WVL_CLAIMED == 4) = true := by decide

/-- WVL_CMD busy with operation `op` on slot 5, page 1, or frame 1. -/
def sWvlCmd (op : Nat) : State := kv Dev.reset (({ tKv with wvl := { tKv.wvl with ptlb := [⟨5, 1, 9, 1⟩] } } : Tile).setReg Reg.WVL_CMD (BitVec.ofNat 64 (1 + op * 2 ^ 12 + 5 * 2 ^ 16 + 2 ^ 32)))
def wvlOk (d : Dev) : Bool := !bit ((d.tile 0).reg Reg.WVL_CMD) 32 && fld ((d.tile 0).reg Reg.WVL_CMD) 48 16 == 0
theorem witness_wvl_commands : bit (((sWvlCmd 0).dev.tile 0).reg Reg.WVL_CMD) 32 = true ∧ fld (((sWvlCmd 4).dev.tile 0).reg Reg.WVL_CMD) 12 3 = 4 ∧ (sWvlCmd 0).dev.homedAt 0 5 = true ∧
    after (.readpte 0) (sWvlCmd 0) wvlOk = true ∧ after (.writepte 0) (sWvlCmd 1) (fun d => wvlOk d && (d.tile 0).wvl.ptlb == []) = true ∧
    after (.ptlbInv 0) (sWvlCmd 2) (fun d => wvlOk d && (d.tile 0).wvl.ptlb == []) = true ∧ after (.ptlbInvSlot 0) (sWvlCmd 3) (fun d => wvlOk d && (d.tile 0).wvl.ptlb == []) = true ∧
    after (.readft 0) (sWvlCmd 4) (fun d => wvlOk d && (d.tile 0).reg Reg.WVL_CMDDATA == 65537) = true := by decide
theorem witness_wvl_config : Tile.reset.wvlCfgOk (tKv.reg Reg.WVL_CFG) = true ∧ Tile.reset.wvlDirOk (tKv.reg Reg.WVL_DIR) = true ∧ tKv.allFree = false ∧
    after (.wvlCfgWrite 0 (tKv.reg Reg.WVL_CFG)) State.reset (fun d => (d.tile 0).reg Reg.WVL_CFG == tKv.reg Reg.WVL_CFG) = true ∧
    after (.wvlDirWrite 0 0) sKv (fun d => bit ((d.tile 0).reg Reg.WVL_ERR) 17 && (d.tile 0).reg Reg.WVL_DIR == tKv.reg Reg.WVL_DIR) = true := by decide

theorem kv_frames (d : Dev) (h v : Nat) : ftRef (((kv { d with tiles := [] } tKv).dev.tile h).ft v) + ftCwd (((kv { d with tiles := [] } tKv).dev.tile h).ft v) + 1 ≤ 255 := by
  have e : ((kv { d with tiles := [] } tKv).dev.tile h).ft v = 65537 ∨ ((kv { d with tiles := [] } tKv).dev.tile h).ft v = 0 := by
    by_cases g : h = 0
    · subst g
      by_cases k : v = 1
      · subst k; exact .inl rfl
      · exact .inr (show (if v = 1 then (65537 : W32) else 0) = 0 from if_neg k)
    · have : (kv { d with tiles := [] } tKv).dev.tile h = Tile.reset := show (if h = 0 then tKv else Tile.reset) = _ from if_neg g
      rw [this]; exact .inr rfl
  rcases e with e | e <;> rw [e] <;> decide
/-- The KV commands in mailbox 3, for region 2. -/
def sKvHost (op : Nat) : State := kv (hd 3 op 2) tKv
theorem witness_kv_share : ParityGood (sKvHost 0x040B).dev ∧ HostReadyR (sKvHost 0x040B) 3 0x040B 2 ∧ (sKvHost 0x040B).dev.homeOf 2 6 = some 0 ∧ (tKv.ptes 6 0 tKv.dirLen).all (fun e => !pteV e.2) = true ∧ tKv.clen 6 = 0 ∧
    anyPending (tKv.ptes 5 0 1) = false ∧ (∀ h v, ftRef (((sKvHost 0x040B).dev.tile h).ft v) + ftCwd (((sKvHost 0x040B).dev.tile h).ft v) + 1 ≤ 255) ∧
    after (.kvShare 3 2 5 6 1) (sKvHost 0x040B) (fun d => ans 3 St.OK d && (d.tile 0).clen 6 == 1) = true :=
  ⟨by unfold ParityGood; decide, by unfold HostReadyR HostReady; decide, by decide, by decide, by decide, by decide, kv_frames (hd 3 0x040B 2), by decide⟩
theorem witness_kv_free : HostReadyR (sKvHost 0x040C) 3 0x040C 2 ∧ 0 + cnt0 2 4096 ≤ tKv.dirLen ∧ anyPending (tKv.ptes 5 0 2) = false ∧
    after (.kvFree 3 2 5 0 2 Upset.none) (sKvHost 0x040C) (fun d => ans 3 St.OK d && !pteV ((d.tile 0).pte 5 0)) = true := by
  unfold HostReadyR HostReady; decide
theorem witness_kv_free_slot : HostReadyR (sKvHost 0x040D) 3 0x040D 2 ∧
    after (.kvFreeSlot 3 2 5) (sKvHost 0x040D) (fun d => ans 3 St.OK d && (d.tile 0).clen 5 == 0) = true := by
  unfold HostReadyR HostReady; decide
def sKvRestore : State := let s := sKvHost 0x040E; st { s.dev with regions := [(2, { rg2 with st := .stopped })] }
theorem witness_kv_restore : HostReadyR sKvRestore 3 0x040E 2 ∧ (sKvRestore.dev.region 2).tileList = [0] ∧ bit (tKv.reg Reg.WVL_SHADOW) 0 = true ∧ tKv.reg Reg.WVL_SHSTEP ≠ 0 ∧
    after (.kvRestore 3 0 ⟨0, 0, 0, 0⟩ 2) sKvRestore (fun d => ans 3 St.OK d && d.mbNat 3 20 8 == 77) = true := by
  unfold HostReadyR HostReady; decide

def shRec (k : BitVec 4) : ShadowRec := ⟨k, 1, 0, 78, [1, 2, 3]⟩
def sShadow : State := kv Dev.reset ({ tKv with wvl := { tKv.wvl with shadowQ := [shRec 0], shStep := 5 } }.setReg Reg.WVL_SHADOW (BitVec.ofNat 64 (1 + 9 * 16 + 1000 * 2 ^ 32 + 2 * 2 ^ 48)))
def pkSh (k : BitVec 4) : Packet := ({ packet0 with srcdev := 4, kind := 3, vc := 3 } : Packet).withWords (shRec k).words
def sShIn (k : BitVec 4) : State := st { sShadow.dev with unitIn := [(0, pkSh k)] }
theorem witness_claims : tKv.wvl.claimOut = 0 ∧ (0 ∈ sKv.dev.group 2) ∧ bit (tKv.reg Reg.WVL_DCFG) 1 = false ∧
    after (.wvlClaim 0) sKv (fun d => (d.tile 0).reg Reg.WVL_CLAIMED == 0 && (d.tile 0).wvl.claimCtr == 1) = true ∧
    after (.wvlClaimed 0 .host) sKv (fun d => d.out == [.readData 0xFFFFFFFF]) = true := by decide
theorem witness_shadow : bit ((sShadow.dev.tile 0).reg Reg.WVL_SHADOW) 0 = true ∧ (shRec 2).kind = 2 ∧ (shRec 0).offset.toNat + 16 * cnt0 (shRec 0).len.toNat 4096 ≤ (sShadow.dev.tile 0).shBytes ∧
    (sShadow.dev.tile 0).shBase + (sShadow.dev.tile 0).shBytes ≤ Config.spadBytes ∧ (sShadow.dev.tile 0).shWaits = true ∧
    after (.shadowSend 0) sShadow (fun d => (d.tile 0).reg Reg.MESH_RPT_MISS == 1 && (d.tile 0).wvl.shadowQ == []) = true ∧
    after (.shadowSend 0) (st { sShadow.dev with routes := [(0, ⟨1, 0, 9, [⟨0, 1, 0, 0, false⟩]⟩)] }) (fun d => d.flying.length == 1 && (d.tile 0).replay.length == 1) = true ∧
    after (.shadowRecordArrival 0 4 (pkSh 2).shadow) (sShIn 2) (fun d => d.out == [.shadowAck 0 4 78]) = true ∧
    after (.shadowRecordArrival 0 4 (pkSh 0).shadow) (sShIn 0) (fun d => Memory.readN (d.tile 0).spad 64000 4 == [1, 2, 3, 0]) = true ∧
    after (.shadowAckArrival 0 6) sShadow (fun d => (d.tile 0).reg Reg.WVL_SHACK == 6) = true := by decide
theorem witness_shadow_timeout : after (.shadowAckTimeout 0) sShadow (fun d => bit ((d.tile 0).reg Reg.WVL_ERR) 22 && (d.tile 0).wvl.shadowQ == []) = true := by decide

/-- A flipped data bit and a flipped parity bit are found by the parity of 06 R139; both together are not. -/
theorem test_parity : let x := tKv.flip ⟨0, 8192, 3⟩
    Memory.read x.spad 8192 = 0xE6 ∧ x.badWord 8190 4 = some 8192 ∧ x.badWord 8196 64 = none ∧ (x.spadWrite 8192 [1, 2, 3, 4]).badWord 8192 4 = none ∧
    x.mergeBad 8193 3 = some 8192 ∧ x.mergeBad 8192 4 = none ∧ (tKv.flip ⟨0, 8192, 32⟩).badWord 8192 1 = some 8192 ∧
    (x.flip ⟨0, 8192, 32⟩).badWord 8192 4 = none ∧ parityBit 0x3FFFFC 0xFFFFFFFF = false ∧ parityBit 4 0 = true ∧ parityBit 8 3 = true := by decide

/-! ### Programs and the step sequencer -/

/-- A program of one tile with one empty section (09 Table 9.1): header, digest of the section table, section. -/
def image0 : List Byte :=
  leBytes 4 0x54504731 ++ leBytes 4 1 ++ [1, 1, 0xFF, 0] ++ leBytes 2 1 ++ leBytes 2 1 ++ leBytes 8 76631700941969432 ++ leBytes 8 1170940301431344128 ++ leBytes 8 21394297257460480 ++ leBytes 8 112 ++
    leBytes 32 0x94683200d838cd1aeca74f6638a0b37ee17deb1c25bda12a84ac71d83a3b1675 ++ List.replicate 16 0 ++ (leBytes 2 6 ++ leBytes 2 0xFFFF ++ List.replicate 12 0)
def loadQ : LoadReq := ⟨63, 23, 45, 0, 112, image0, 0, [5], none, none⟩
theorem witness_load_check : ((hd 0 0x0300 0).loadCheck loadQ false).1 = St.OK ∧ ((hd 0 0x0300 0).loadCheck loadQ false).2.isSome = true ∧ HostReady (st (hd 0 0x0300 0)) 0 0x0300 := by
  unfold HostReady; decide
theorem witness_load : after (.regionLoad 0 loadQ) (st (hd 0 0x0300 0)) (fun d => ans 0 St.OK d && (d.region 63).st == .stopped) = true := by decide
def sUnload : State := st { hd 0 0x0301 63 with regions := [(63, { rg with adslots := [], routes := [4095] })], routes := [(4095, ⟨2, 0, 5, [altHere, altHere]⟩)] }
theorem witness_unload : HostReadyR sUnload 0 0x0301 63 ∧ (sUnload.dev.region 63).st = .stopped ∧ sUnload.dev.swapArmed 63 = false ∧ (sUnload.dev.region 63).tileList = [0] ∧
    after (.regionUnload 0 63) sUnload (fun d => ans 0 St.OK d && (d.region 63).st == .empty && d.routes == []) = true := by
  unfold HostReadyR HostReady; decide
def sSelect : State := st { hd 0 0x0500 0 with routes := [(4095, ⟨2, 0, 5, [altHere, altHere]⟩)] }
theorem witness_route_select : HostReady sSelect 0 0x0500 ∧ (1 : Byte).toNat < (sSelect.dev.route 4095).nalt ∧ [4095].Nodup ∧
    after (.routeSelect 0 [⟨4095, 1⟩]) sSelect (fun d => ans 0 St.OK d && (d.route 4095).active == 1) = true := by
  unfold HostReady; decide

/-- Ring descriptors of region 2: STEP at pair 0, EGRESS at pair 4095, sixteen entries a direction, no interrupts. -/
def rd (kind : Byte) : RingDesc := ⟨kind, 2, 4, if kind = 2 then 0 else 4, 0xFFFF, 0, 0x1000, 0x2000, 0x3000, 5, 0⟩
def rings2 : SMap Ring := [(0, ⟨rd 1, 1, 0, 0, 0, 0, 0⟩), (4095, ⟨rd 3, 0, 0, 15, 0, 0, 0⟩)]
def dRing3 : Dev := hdP 0 0x0400 0 0 (leBytes 6 0xFFFF04040203 ++ leBytes 2 0 ++ leBytes 8 0x1000 ++ leBytes 8 0x2000 ++ leBytes 8 0x3000 ++ leBytes 8 5 ++ leBytes 24 0)
theorem witness_ring_config : HostReadyM (st dRing3) 0 0x0400 (fun x => decide (RingDesc.ofBytes x.payload = rd 3)) ∧ 4095 < Config.nPairs ∧ RingDesc.bad (rd 3) = false ∧ dRing3.pairOf 2 3 = none ∧
    (dRing3.ring 4095).d.kind = 0 ∧ (dRing3.region 2).serving = false ∧
    after (.ringConfig 0 4095 (rd 3)) (st dRing3) (fun d => ans 0 St.OK d && (d.ring 4095).d == rd 3) = true ∧
    after (.ringConfig 0 4095 (rd 1)) (st dRing3) (fun d => d == dRing3) = true := by
  unfold HostReadyM HostReady; decide
/-- Two entries wait for their interrupt on vector 2047, which is not masked. -/
def sIrq : State :=
  st { Dev.reset with rings := [(4095, ⟨{ rd 3 with vector := 2047, imod := 9 }, 0, 0, 2, 0, 2, 9⟩)], cic := { Cicada.reset with ns := 9 }, host := { HostIf.reset with msix := SMap.set msixDefault [] (16 * 2047 + 12) 0 } }
theorem witness_ring_indices : (sIrq.dev.ring 4095).irqAt ≤ sIrq.dev.elapsed ∧ (sIrq.dev.ring 4095).irq ≠ 0 ∧ (sIrq.dev.ring 4095).d.vector.toNat < 2048 ∧ bit (sIrq.dev.msixByte (16 * 2047 + 12)) 0 = false ∧
    after (.ringInterruptModeration 4095) sIrq (fun d => d.out == [.msix 2047]) = true ∧
    after (.ringInterruptModeration 4095) (st { sIrq.dev with cic := { Cicada.reset with ns := 8 } }) (fun d => d.out == []) = true ∧
    after (.ringDoorbell 4095 0xFFFFFFFF) sIrq (fun d => (d.ring 4095).h2dProd == 0xFFFFFFFF) = true ∧
    after (.d2hConsumerIndex 4095 1) sIrq (fun d => (d.ring 4095).d2hCons == 1) = true := by decide

/-- A step of one masked entry. -/
def step1 : StepIn := ⟨1, 16, 0, 1, 0, 0, false, 0, 0, [BitVec.ofNat 128 (7 + 2 ^ 78)], [], []⟩
def sRun (x : Region) (t : Tile) : State := st { Dev.reset.setTile 0 t with regions := [(2, x)], rings := rings2, host := { HostIf.reset with dma := [(0, .step 2)] } }
theorem witness_step_fetch : (sRun rg2 .reset).dev.dmaOut (.step 2) = true ∧ rg2.st = .running ∧ rg2.fetched = none ∧
    after (.stepDescriptorFetch 2 step1) (sRun rg2 .reset) (fun d => (d.region 2).fetched == some step1) = true := by decide
def rgFetched : Region := { rg2 with fetched := some step1 }
theorem witness_step_admission : rgFetched.ready = true ∧ (sRun rgFetched .reset).dev.stepCheck 2 step1 = St.OK ∧ (sRun rgFetched .reset).dev.ingMissing 2 step1 = false ∧
    bit step1.flags 0 = false ∧ bit (step1.rag.getD 0 0) 78 = true := by decide
def adm1 : Adm := ⟨step1, [], 1, 0, 0, false, false⟩
def rgPhase (p : Phase) : Region := { rg2 with adm := some adm1, phase := p }
def tWait : Tile := { Tile.reset with scb := { scbRun 0 [] with mode := .wait } }
theorem witness_step_start : (sRun (rgPhase .admitted) tWait).dev.group 2 = [] ∧ (rgPhase .admitted).reload = false ∧ (sRun (rgPhase .admitted) tWait).dev.swapHolds 2 = false ∧
    (sRun (rgPhase .aborted) tWait).dev.undrained 2 = false ∧
    after (.stepStart 2) (sRun (rgPhase .admitted) tWait) (fun d => (d.region 2).phase == .running && (d.tile 0).scb.mode == .run && (d.tile 0).reg Reg.SCB_STEP == 1) = true ∧
    after (.stepRerunStart 2) (sRun (rgPhase .aborted) tWait) (fun d => (d.region 2).phase == .running && (d.region 2).rerun == 1) = true := by decide

def tDone : Tile := { Tile.reset with scb := { scbRun 0 [] with stall := .waite 0 8 } }
theorem witness_step_boundary : ParityGood (sRun (rgPhase .running) tDone).dev ∧ (∀ t ∈ (rgPhase .running).tileList, (sRun (rgPhase .running) tDone).dev.tileDone t = true ∧ ((sRun (rgPhase .running) tDone).dev.tile t).shadowDue = false) ∧
    (rgPhase .running).toks = [] ∧ (rgPhase .running).tileList = [0] := by unfold ParityGood; decide
def tok1 (pl : List Byte) : Tok := ⟨1, 7, 0, 5, 0, 0, 0, 0, pl, pl.length, 0, 0⟩
def rgTok (pl : List Byte) : Region := { rg2 with toks := [tok1 pl] }
theorem witness_tokens : (sRun (rgTok []) .reset).dev.pairOf 2 rkEGRESS = some 4095 ∧ (rgTok []).fins = [] ∧ ((sRun (rgTok []) .reset).dev.ring 4095).room = true ∧
    ((sRun (rgTok [1]) .reset).dev.ring 4095).posted = 0 ∧ ((sRun (rgTok [1]) .reset).dev.ring 4095).d.rxWait ≠ 0xFFFFFFFF ∧ bit ((sRun (rgTok [1]) .reset).dev.ring 4095).d.flags 0 = false ∧
    after (.tokenRecordWrite 2 []) (sRun (rgTok []) .reset) (fun d => (d.region 2).toks == [] && (d.ring 4095).d2hProd == 16) = true ∧
    after (.rxWaitExpiry 2) (sRun (rgTok [1]) .reset) (fun d => (d.region 2).toks.map (·.status) == [St.TRUNCATED]) = true := by decide
theorem witness_step_abort : (rgPhase .running).phase = .running ∧ (rgPhase .running).adm = some adm1 ∧ { rgPhase .running with rerun := 1 }.rerun < 2 := by decide
theorem test_step_abort_rerun : after (.stepAbort 2 true) (sRun { rgPhase .running with rerun := 1 } (tAcw 0 [])) (fun d => (d.region 2).phase == .aborted && (d.tile 0).acwQ == []) = true := by decide
theorem test_step_abort_fault : after (.stepAbort 2 true) (sRun { rgPhase .running with rerun := 2 } (tAcw 0 [])) (fun d => (d.region 2).st == .fault && (d.region 2).adm == none) = true := by decide

def sHostRg (op : Nat) (x : Region) : State := st { hd 31 op 2 with regions := [(2, x)], rings := rings2 }
theorem witness_region_start : HostReadyR (sHostRg 0x0401 { rg2 with st := .stopped }) 31 0x0401 2 ∧ (sHostRg 0x0401 rg2).dev.pairOf 2 rkSTEP ≠ none ∧
    (sHostRg 0x0401 rg2).dev.pairOf 2 rkEGRESS ≠ none ∧ rg2.holds ((sHostRg 0x0401 rg2).dev.etile 2) = true ∧
    (sHostRg 0x0401 rg2).dev.rtline 2 + cdiv ((sHostRg 0x0401 rg2).dev.nmax 2) 4 ≤ Config.spadLines ∧
    (sHostRg 0x0401 rg2).dev.egline 2 + 2 * cdiv ((sHostRg 0x0401 rg2).dev.nmax 2) 2 ≤ Config.spadLines ∧
    after (.regionStart 31 2) (sHostRg 0x0401 { rg2 with st := .stopped }) (fun d => ans 31 St.OK d && (d.region 2).st == .running) = true := by
  unfold HostReadyR HostReady; decide
theorem witness_region_stop : HostReadyR (sHostRg 0x0402 rg2) 31 0x0402 2 ∧ rg2.adm = none ∧ rg2.stopM = [] ∧ (rgPhase .running).adm ≠ none ∧
    after (.regionStop 31 2) (sHostRg 0x0402 rg2) (fun d => ans 31 St.OK d && (d.region 2).st == .stopped) = true ∧
    after (.regionStop 31 2) (sHostRg 0x0402 (rgPhase .running)) (fun d => (d.region 2).st == .stopping && (d.region 2).stopM == [31]) = true := by
  unfold HostReadyR HostReady; decide
theorem witness_region_resume : HostReadyR (sHostRg 0x0403 { rg2 with st := .held }) 31 0x0403 2 ∧
    after (.regionResume 31 2) (sHostRg 0x0403 { rg2 with st := .held }) (fun d => ans 31 St.OK d && (d.region 2).st == .running) = true := by
  unfold HostReadyR HostReady; decide
theorem witness_region_abort : HostReadyR (sHostRg 0x0404 (rgPhase .running)) 31 0x0404 2 ∧ (rgPhase .running).cancels = [] ∧ (rgPhase .running).stopM = [] ∧
    after (.regionAbort 31 2) (sHostRg 0x0404 (rgPhase .running)) (fun d => ans 31 St.OK d && (d.region 2).st == .stopped && (d.region 2).adm == none) = true := by
  unfold HostReadyR HostReady; decide

theorem witness_seq_cancel : HostReadyR (sHostRg 0x0405 rg2) 31 0x0405 2 ∧ rg2.namesSlot 7 = false ∧ ((sHostRg 0x0405 rg2).dev.slot 7).st ≠ .complete ∧ (rgPhase .running).namesSlot 7 = true ∧
    after (.seqCancel 31 2 7) (sHostRg 0x0405 rg2) (fun d => ans 31 St.OK d && (d.slot 7).st == .cancelled) = true ∧
    after (.seqCancel 31 2 7) (sHostRg 0x0405 (rgPhase .running)) (fun d => (d.region 2).cancels == [(31, 7)]) = true := by
  unfold HostReadyR HostReady; decide
def sSlot7 : State := let s := sHostRg 0x0406 rg2; st { s.dev with slots := [(0xFFFE, ⟨.complete, true⟩)] }
theorem witness_seq_reset : HostReady sSlot7 31 0x0406 ∧ (∀ e ∈ sSlot7.dev.regions, e.2.namesSlot 0xFFFE = false) ∧
    after (.seqReset 31 0xFFFE) sSlot7 (fun d => ans 31 St.OK d && d.slots == []) = true := by
  unfold HostReady; decide
def sRollback : State := st { ((hd 31 0x0407 2).setTile 0 tKv) with regions := [(2, { rg2 with st := .stopped })] }
theorem witness_seq_rollback : HostReadyR sRollback 31 0x0407 2 ∧ sRollback.dev.homeOf 2 5 = some 0 ∧ 0 ≤ tKv.clen 5 ∧ cdiv 0 tKv.kvPpp ≤ 0 ∧
    after (.seqRollback 31 2 5 0) sRollback (fun d => ans 31 St.OK d && (d.tile 0).clen 5 == 0 && !pteV ((d.tile 0).pte 5 0)) = true := by
  unfold HostReadyR HostReady; decide
theorem witness_tenants : HostReady (st (hd 31 0x0408 0)) 31 0x0408 ∧ HostReady (st (hd 31 0x0409 0)) 31 0x0409 ∧ HostReady (st (hd 31 0x040A 0)) 31 0x040A ∧
    after (.tenantSet 31 0xFFFF 5 1 2) (st (hd 31 0x0408 0)) (fun d => ans 31 St.OK d && d.tenant 0xFFFF == ⟨5, 1, 2, []⟩) = true ∧
    after (.tenantCredit 31 3 0xFFFFFFFFFFFF) (st { hd 31 0x0409 0 with tenants := [(3, ⟨5, 0, 0, []⟩)] }) (fun d => (d.tenant 3).balance == 0xFFFFFFFFFFFF) = true ∧
    after (.tenantQuery 31 3) (st { hd 31 0x040A 0 with tenants := [(3, ⟨5, 0, 0, []⟩)] }) (fun d => ans 31 St.OK d && d.mbNat 31 32 8 == 5) = true := by
  unfold HostReady; decide

/-! ### Fabric ports -/

/-- Port `p` enabled in STATE `k`. -/
def dPort (p k : Nat) (x : Port) : Dev :=
  { Dev.reset with regs := [(Reg.PORT_CTL + 0x200 * p, 1), (Reg.PORT_STATUS + 0x200 * p, BitVec.ofNat 64 k)], ports := [(p, x)] }
def pRx : Port := { Port.reset with rxSeq := some 0 }
def pkE : Packet := ({ pk 1 with e2e := true, hops := 1, hopptr := 1, words := [], len := 2 } : Packet).sealed false
def fE (p : Nat) : Flight := ⟨relay, p, pkE.hdr, some [⟨outHere, pkE.hdr, 1, false⟩]⟩
def frame1 (p : Nat) (sl : List (Nat × BitVec 512)) : LinkFrame := ⟨frameBytes p 0 (sl ++ List.replicate (frameSlots p - sl.length) (0, 0)), 0, 0⟩
theorem witness_link_frame : (dPort 15 2 pRx).portCarries 15 = true ∧ optical 15 = true ∧ (frame1 15 []).crcOk 15 = true ∧ (frame1 15 []).reserved 15 = false ∧ (frame1 15 []).fseq = 0 ∧
    after (.linkFrameArrival 15 (frame1 15 [])) (st (dPort 15 2 pRx)) (fun d => (d.port 15).rxSeq == some 1) = true ∧
    after (.linkFrameArrival 15 ⟨[], 0, 0⟩) (st { dPort 15 2 pRx with flying := [fE 15] })
      (fun d => fld (d.reg (Reg.PORT_CNT + 0x200 * 15)) 0 32 == 1 && d.flying == [] && d.rxIn.any fun k => !k.crcOk) = true := by decide
/-- A frame with a HEAD and a BODY brings a packet of two flits. -/
theorem witness_link_packet : pkE.crcOk = true ∧ (fE 0).at_ relay 0 3 = true ∧ (fE 0).pkt.got + 1 = (fE 0).pkt.flits ∧
    after (.linkFrameArrival 0 (frame1 0 [(15, BitVec.ofNat 512 (leNat (ofWords pkE.words)))])) (st { dPort 0 2 pRx with flying := [fE 0] })
      (fun d => d.rxIn == [pkE] && d.flying == []) = true ∧
    after (.linkFrameArrival 0 (frame1 0 [(11, pkE.head), (15, BitVec.ofNat 512 (leNat (ofWords pkE.words)))])) (st (dPort 0 2 pRx)) (fun d => d.rxIn == [pkE]) = true := by decide
theorem witness_credit : let d := { dPort 0 2 pRx with aon := { Dev.reset.aon with since := 1000 } }
    d.creditDue 0 = true ∧ after (.creditUpdateSend 0) (st d) (fun d => d.out.length == 1 && (d.port 0).txSeq == 1) = true := by decide
/-- The device that receives a credit sends no more flits than it allows. -/
def dSend (n : Nat) : Dev := { dPort 0 2 { Port.reset with free := [0, 0, 0, n] } with flying := [⟨relay, 16, pkE, some [⟨0, pkE.hdr, 0, false⟩]⟩] }
theorem test_port_credit : ((dSend 1).cycle.flying.any fun f => (f.copyTo 0).any fun c => c.sent == 1) = true ∧ (dSend 2).cycle.flying = [] := by decide
/-- Port 3 with slots of 10 ns; slot 0 names source 5. -/
def dSlot : Dev :=
  let d := dPort 3 2 Port.reset
  { d with regs := d.regs ++ [(Reg.PORT_SLOTCFG + 0x600, BitVec.ofNat 64 (10 + 2 ^ 16 + 2 ^ 24)), (Reg.PORT_SLOTTAB + 0x600, 5)], flying := [⟨relay, 5, pkSlot, some [⟨3, pkSlot.hdr, 0, false⟩]⟩] }
theorem witness_port_slot : dSlot.portCarries 3 = true ∧ dSlot.portSlots 3 = true ∧ dSlot.portClock = some 0 ∧ 0 % dSlot.portSlotNs 3 = 0 ∧ dSlot.portSrc 3 = some 5 ∧
    after (.portSlotStart 3) (st dSlot) (fun d => d.flying.any fun f => (f.copyTo 3).any fun c => c.go) = true := by decide

/-- The receive entry of the flow of `pkE`, which expects sequence 0. -/
def rxE (unacked : Nat) : RxFlow := ⟨pkE.flow, 0, unacked, 0, pkE, 0⟩
def dFlow (unacked now : Nat) : Dev := { Dev.reset with rxFlows := [rxE unacked], regs := [(Reg.CIC_TIME, BitVec.ofNat 64 now)] }
theorem witness_flows : (dFlow 0 0).rxFlow pkE.flow = some (rxE 0) ∧ pkE.flowseq = (rxE 0).x ∧ pkE.dtile.toNat ≠ 0x7FF ∧ (rxE 1).unacked ≠ 0 ∧ (rxE 1).oldest + 2000 ≤ (dFlow 1 2000).now ∧
    (rxE 0).last + 1000000 ≤ (dFlow 0 1000000).now ∧
    after (.e2ePacketArrival pkE) (st { dFlow 0 0 with rxIn := [pkE] }) (fun d => d.gwIn.length == 1 && (d.rxFlow pkE.flow).any fun g => g.x == 1) = true ∧
    after (.ackSend pkE.flow) (st (dFlow 1 2000)) (fun d => (d.rxFlow pkE.flow).any fun g => g.unacked == 0) = true ∧
    after (.flowEntryExpiry pkE.flow) (st (dFlow 0 1000000)) (fun d => d.rxFlows == []) = true := by decide

/-- Two copies of a flow of tile 1 are held. -/
def fk : FlowKey := ⟨0, 1, 3⟩
def held (n : W32) : Held := ⟨fk, n, 0, { pk 1 with srcdev := 0, srctile := 1, sflow := 3, flowseq := n }, [48128, 48129], 0⟩
def dHeld (now : Nat) : Dev := { Dev.reset.setTile 1 { Tile.reset with replay := [held 0, held 1] } with regs := [(Reg.CIC_TIME, BitVec.ofNat 64 now)] }
/-- Device 9 answers with an ACK (type 0) or NAK (type 1) of `n`. -/
def dAns (type : BitVec 2) (n : W32) : Dev := { dHeld 0 with unitIn := [(1, { pkAck with srcdev := 9, sflow := 3, nakType := type, ackfloor := n })] }
theorem witness_resend : (dHeld 0).ownFlow fk = true ∧ (dHeld 0).heldOf fk = [held 0, held 1] ∧ ((dHeld 0).tile 1).txWait = [] ∧ (held 0).sent + (dHeld 20000).rto ≤ (dHeld 20000).now ∧
    ((dHeld 0).txFlow fk).timeouts + 1 < (dHeld 0).breakN ∧
    ((dAns 0 0).nakNext fk 0 0 9).isSome = true ∧ ((dAns 1 1).nakNext fk 1 1 9).isSome = true ∧
    after (.ackArrival fk 0 9) (st (dAns 0 0)) (fun d => d.heldOf fk == [held 1]) = true ∧
    after (.nakArrival fk 1 9) (st (dAns 1 1)) (fun d => d.reg Reg.PORT_RESEND == 1 && d.flying.length == 1) = true ∧
    after (.resendTimeout fk) (st (dHeld 20000)) (fun d => (d.txFlow fk).timeouts == 1) = true := by decide

theorem witness_port_states : (dPort 11 0 .reset).portState 11 = 0 ∧ optical 11 = false ∧ optical 12 = true ∧ (dPort 12 0 .reset).pwr.optEn = true ∧ (dPort 12 4 .reset).portEn 12 = true ∧
    after (.portEnable 11) (st Dev.reset) (fun d => d.portEn 11 && d.portState 11 == 1) = true ∧
    after (.trainingComplete 12 false 0) (st (dPort 12 4 .reset)) (fun d => d.portState 12 == 2) = true ∧
    after (.trainingTimeout 12) (st (dPort 12 1 .reset)) (fun d => d.portState 12 == 4 && bit (d.reg (Reg.PORT_ERR + 0x200 * 12)) 1) = true ∧
    after (.portDisable 12) (st (dPort 12 2 .reset)) (fun d => !d.portEn 12 && (d.port 12).idling) = true ∧
    after (.lossOfSignal 12) (st (dPort 12 3 .reset)) (fun d => d.portState 12 == 4) = true := by decide
def dIdle : Dev := { Dev.reset with ports := [(12, { Port.reset with idling := true })], regs := [(Reg.PORT_STATUS + 0x1800, 2)] }
def dErrlim : Dev := { dPort 0 2 { Port.reset with drops := [0, 0] } with regs := [(Reg.PORT_CTL, 0x10001), (Reg.PORT_STATUS, 2)] }
def dStall : Dev := { dPort 0 2 Port.reset with flying := [⟨relay, 5, pk 1, some [⟨0, (pk 1).hdr, 0, false⟩]⟩] }
theorem witness_port_stops : (dIdle.port 12).idling = true ∧ dIdle.portEn 12 = false ∧ fld (dErrlim.reg Reg.PORT_CTL) 16 16 ≠ 0 ∧
    fld (dErrlim.reg Reg.PORT_CTL) 16 16 < ((dErrlim.port 0).drops.filter fun t => decide (dErrlim.now < t + 1000000000)).length ∧
    dIdle.portBusy 12 = false ∧ dStall.stalled 0 = true ∧
    after (.portIdleDone 12) (st dIdle) (fun d => d.portState 12 == 0) = true ∧
    after (.errlimCheck 0) (st dErrlim) (fun d => d.portState 0 == 3 && bit (d.reg Reg.PORT_ERR) 2) = true ∧
    after (.creditStall 0) (st dStall) (fun d => bit (d.reg Reg.PORT_ERR) 3) = true := by decide

/-! ### Cicada and power -/

/-- Cicada time `now`, CIC_STATUS `s`, CIC_CTL `c`. -/
def dCic (now s c : Nat) : Dev := { hd 3 0x0501 0 with regs := (hd 3 0x0501 0).regs ++ [(Reg.CIC_TIME, BitVec.ofNat 64 now), (Reg.CIC_STATUS, BitVec.ofNat 64 s), (Reg.CIC_CTL, BitVec.ofNat 64 c)] }
theorem witness_time : Dev.reset.cic.slew = 0 ∧ Dev.reset.cic.frac < 64 ∧ (dCic 2048 0 1).countMode = true ∧ (dCic 2048 0 1).now % 1024 = 0 ∧ (dCic 0 0 0).cicBit 0 = false ∧ (dCic 0 0 0).loaded = [] ∧
    after .cicadaTick (st (dCic 0xFFFFFFFFFFFFFFFF 0 0)) (fun d => d.now == 0 && d.aon.since == 1) = true ∧
    after (.cicSet 77) (st (dCic 0 0 0)) (fun d => d.now == 77) = true := by decide
/-- CIC_FSW_TIME holds a time exactly as far ahead as the scope asks. -/
def dFsw : Dev := { dCic 1000 0 0 with regs := (dCic 1000 0 0).regs ++ [(Reg.CIC_FSW_TIME, 51000)] }
def dArmed : Dev := let d := dCic 51000 0 0; { d with cic := { d.cic with fsw := some (51000, 28) } }
theorem witness_frequency : (28 : BitVec 6).toNat ≤ 28 ∧ dFsw.now + 50000 ≤ (dFsw.reg Reg.CIC_FSW_TIME).toNat ∧ 51000 ≤ dArmed.now ∧
    after (.cicFsw 28 true) (st dFsw) (fun d => d.cic.fsw == some (51000, 28)) = true ∧ after .frequencySwitch (st dArmed) (fun d => d.freqCode == 28 && d.cic.fsw == none) = true ∧
    after (.cycleStretch 47 3) (st Dev.reset) (fun d => fld (d.reg (Reg.CIC_RSTAT + 376)) 32 16 == 1) = true ∧
    after (.marginSample 47 0x01020304) (st Dev.reset) (fun d => fld (d.reg (Reg.CIC_MARGIN + 376)) 0 32 == 0x01020304) = true := by decide

/-- The check values that the catalogues of CRCs publish for the nine characters 1 to 9. -/
theorem test_crc : crcMsb 16 0x1021 0xFFFF [0x31, 0x32, 0x33, 0x34, 0x35, 0x36, 0x37, 0x38, 0x39] = 0x29B1 ∧
    crc32c [0x31, 0x32, 0x33, 0x34, 0x35, 0x36, 0x37, 0x38, 0x39] = 0xE3069283 ∧
    crcLsb 0xEDB88320 [0x31, 0x32, 0x33, 0x34, 0x35, 0x36, 0x37, 0x38, 0x39] = 0xCBF43926 := by decide
/-- Frames from device 5, to a joined device 0. -/
def fr5 (ty : Byte) (pl : List Byte) : RingFrame := ringFrame ty 5 9 pl
theorem witness_marks : FirstCopy ftMARK (fr5 ftMARK (leBytes 8 116 ++ leBytes 8 0)) (dCic 100 3 2) ∧ (dCic 100 3 2).cicBit 0 = true ∧ (dCic 100 3 2).cicBit 1 = true ∧ (dCic 100 3 2).cicBit 2 = false ∧
    (dCic 100 3 2).cicBit 3 = false ∧ (countDiff (64 * ringU64 (fr5 ftMARK (leBytes 8 116 ++ leBytes 8 0)) 0 + 0) ((dCic 100 3 2).count64 + 0 % 64)).natAbs ≤ 1024 ∧
    after (.mark (fr5 ftMARK (leBytes 8 116 ++ leBytes 8 0)) 0 0) (st (dCic 100 3 2)) (fun d => d.cic.slew == 1024 && d.masterId == 5) = true := by
  unfold FirstCopy; decide
def dUnlocked : Dev := let d := dCic 100 1 2; { d with cic := { d.cic with good := 2 } }
theorem witness_mark_locks : dUnlocked.cicBit 1 = false ∧ dUnlocked.cic.good = 2 ∧
    after (.mark (fr5 ftMARK (leBytes 8 101 ++ leBytes 8 0)) 63 0) (st dUnlocked) (fun d => d.cicBit 1) = true := by decide
def frFreq : RingFrame := fr5 ftFREQ (leBytes 8 20100 ++ leBytes 8 28)
def frBar : RingFrame := fr5 ftBARRIER (leBytes 4 7 ++ List.replicate 12 0)
def frAt (ty : Byte) (dev : Nat) : RingFrame := fr5 ty (leBytes 8 30000 ++ leBytes 2 dev ++ List.replicate 6 0)
def dBar : Dev := { dCic 100 3 2 with regs := (dCic 100 3 2).regs ++ [(Reg.CIC_BAR + 120, 7)] }
theorem witness_ring_frames : FirstCopy ftFREQ frFreq (dCic 100 3 2) ∧ rdNat frFreq.payload 8 1 % 64 ≤ 28 ∧ (dCic 100 3 2).now + 20000 ≤ ringU64 frFreq 0 ∧ FirstCopy ftBARRIER frBar dBar ∧
    rdNat frBar.payload 0 4 ≠ 0 ∧ dBar.barEntry 7 = some 15 ∧ FirstCopy ftJOIN_AT (frAt ftJOIN_AT 0) (dCic 100 0 2) ∧ rdNat (frAt ftJOIN_AT 0).payload 8 2 % 4096 = (dCic 100 0 2).id.toNat ∧
    bit ((dCic 100 0 2).reg Reg.CIC_CTL) 1 = true ∧ FirstCopy ftLEAVE_AT (frAt ftLEAVE_AT 0) (dCic 100 3 2) ∧ FirstCopy ftMEASURE_AT (frAt ftMEASURE_AT 0) (dCic 100 3 2) ∧
    FirstCopy ftMASTER (fr5 ftMASTER (leBytes 16 5)) (dCic 100 3 2) := by
  unfold FirstCopy; decide
theorem test_ring_frames : after (.freq frFreq) (st (dCic 100 3 2)) (fun d => d.cic.fsw == some (20100, 28)) = true ∧
    after (.barrier frBar) (st dBar) (fun d => fld (d.reg (Reg.CIC_BAR + 120)) 44 12 == 1) = true ∧
    after (.joinAt (frAt ftJOIN_AT 0)) (st (dCic 100 0 2)) (fun d => d.cic.tJ == some 30000) = true ∧ after (.leaveAt (.frame (frAt ftLEAVE_AT 0))) (st (dCic 100 3 2)) (fun d => d.cic.tL == some 30000) = true ∧
    after (.freq { frFreq with bytes := frFreq.bytes.set 22 0 }) (st (dCic 100 3 2)) (fun d => d.cic.fsw == none && bit (d.reg Reg.CIC_ERR) 0 && fld (d.reg Reg.CIC_RINGCNT) 32 32 == 1) = true ∧
    after (.measureAt (frAt ftMEASURE_AT 0)) (st (dCic 100 3 2)) (fun d => d.cic.tW == some 30000) = true ∧
    after (.master (.frame (fr5 ftMASTER (leBytes 16 5)))) (st (dCic 100 3 2)) (fun d => d.masterId == 5) = true := by decide

/-- The ring with times that have come, and a copy to send. -/
def dRing (now s c : Nat) : Dev := let d := dCic now s c; { d with cic := { d.cic with copies := [(frBar, 1)], tW := some 10, tJ := some 10, tL := some 10 } }
theorem witness_ring_membership : (dRing 5000 5 2).cicBit 2 = true ∧ (dRing 5000 5 2).authority = true ∧ (dRing 5000 5 2).ringQuiet = false ∧ 10 + 4000 ≤ (dRing 5000 5 2).now ∧
    HostReady (st (dRing 5000 5 2)) 3 0x0501 ∧ (dRing 5000 3 2).cicBit 1 = true ∧ (dRing 5000 3 2).cicBit 2 = false ∧
    after .markSend (st (dRing 5000 5 2)) (fun d => d.out.length == 1 && d.cic.fid == 1) = true ∧ after .frameCopySend (st (dRing 5000 5 2)) (fun d => d.out == [.ring frBar] && d.cic.copies == []) = true ∧
    after (.measurementWindow 640) (st (dRing 5000 3 2)) (fun d => d.cic.measured && d.outDly == 640) = true ∧ after .bypassOpen (st (dRing 5000 0 2)) (fun d => !d.aon.bypass && d.cicBit 0) = true ∧
    after .bypassClose (st (dRing 5000 3 2)) (fun d => d.aon.bypass && !d.cicBit 0) = true ∧ after (.ringAdmit 3 6) (st (dRing 5000 5 2)) (fun d => ans 3 St.OK d && d.cic.tW == some 26000) = true := by
  unfold HostReady; decide
theorem witness_ring_loss : after (.markTimeout true) (st (dRing 5000 0 2)) (fun d => d.cicBit 0 && d.cicBit 2) = true ∧ after (.markTimeout true) (st (dRing 5000 3 2)) (fun d => d.cicBit 2) = true ∧
    after (.markTimeout false) (st (dRing 5000 3 2)) (fun d => bit (d.reg Reg.CIC_ERR) 7) = true ∧ after .syncInLos (st (dRing 5000 3 2)) (fun d => d.cicBit 3) = true ∧
    after .cicJoinClear (st (dRing 5000 3 2)) (fun d => d.cic.wantLeave && d.out == [.askLeave 0]) = true ∧ after .cicJoinClear (st (dRing 5000 5 2)) (fun d => d.cic.tL == some 25000) = true := by decide

/-- Device registers of the power block. -/
def dPwr (now : Nat) (rs : SMap W64) : Dev := { Dev.reset with regs := (Reg.CIC_TIME, BitVec.ofNat 64 now) :: rs }
def dRail (v us : Nat) : Dev := let d := dPwr 0 [(Reg.PWR_VCORE + 376, BitVec.ofNat 64 v), (Reg.PWR_AVS, 0x0410)]; { d with pwr := { d.pwr with lowUs := [(47, us)] } }
theorem witness_avs : fld ((dRail 139 0).reg Reg.PWR_AVS) 0 8 = 16 ∧ fld ((dRail 139 0).reg (Reg.PWR_VCORE + 376)) 0 8 = 139 ∧ 990 ≤ SMap.get (fun _ => (0 : Nat)) (dRail 140 990).pwr.lowUs 47 ∧
    after (.avsLoop 47 15) (st (dRail 139 0)) (fun d => d.reg (Reg.PWR_VCORE + 376) == 140) = true ∧ after (.avsLoop 47 21) (st (dRail 1 0)) (fun d => d.reg (Reg.PWR_VCORE + 376) == 0) = true ∧
    after (.avsLoop 47 15) (st (dRail 140 990)) (fun d => bit (d.reg Reg.PWR_ERR) 2 && d.reg (Reg.PWR_VCORE + 376) == 140) = true := by decide
def dWin : Dev := let d := dPwr 1048576 [(Reg.PWR_WIN, 100), (Reg.PWR_WINBASE, 948576), (Reg.PWR_LIMIT, BitVec.ofNat 64 (1600 + 1850 * 2 ^ 16))]; { d with pwr := { d.pwr with uDev := 200000, pend := ⟨some (500, 1048576), none, none, none, none⟩ } }
theorem witness_windows : dWin.winStart = dWin.now ∧ dWin.winStart ≠ dWin.pwr.winAt ∧
    dWin.limitW * dWin.winUs < dWin.pwr.uDev ∧ after .energyWindowBoundary (st dWin) (fun d => d.pwr.uDev == 0 && fld (d.reg Reg.PWR_CNT) 32 16 == 1) = true ∧
    after .synchronisedCount (st dWin) (fun d => d.reg Reg.PWR_WIN == 500 && (d.reg Reg.PWR_WINBASE).toNat == 1048576) = true ∧
    after (.pwrWinWrite 100000) (st dWin) (fun d => d.pwr.pend.win.map (·.1) == some 100000) = true ∧ after (.pwrWinWrite 99) (st dWin) (fun d => bit (d.reg Reg.PWR_ERR) 0) = true ∧
    after (.regionEnergyUpdate ⟨9, [1, 2], []⟩) (st dWin) (fun d => d.reg Reg.PWR_DEVE == 9 && d.reg (Reg.PWR_RAILE + 8) == 2) = true := by decide
def dLim : Dev := let d := dPwr 1048576 []; { d with pwr := { d.pwr with pend := ⟨none, some (900, 1048576), none, none, none⟩ } }
theorem witness_budgets : 0 < fld (BitVec.ofNat 64 (1850 + 28 * 2 ^ 28)) 0 12 ∧ fld (BitVec.ofNat 64 (1850 + 28 * 2 ^ 28)) 0 12 ≤ fld (dWin.reg Reg.PWR_LIMIT) 16 12 ∧ fld (BitVec.ofNat 64 (1850 + 28 * 2 ^ 28)) 28 6 ≤ 28 ∧
    dWin.budgetSum Config.nRegions 0 ≤ 1850 * dWin.winUs ∧ dWin.budgetSum 63 160000 ≤ dWin.limitW * dWin.winUs ∧
    after .synchronisedCount (st dLim) (fun d => d.limitW == 900) = true ∧ after (.pwrBudgetWrite Reg.PWR_LIMIT (BitVec.ofNat 64 (1850 + 28 * 2 ^ 28))) (st dWin) (fun d => d.limitW == 1600 && d.pwr.pend.limit.map (·.1) == some 1850) = true ∧
    after (.pwrBudgetWrite (Reg.PWR_REGCFG + 504) 160000) (st dWin) (fun d => d.reg (Reg.PWR_REGCFG + 504) == 160000) = true := by decide

def prof1 : ProfRec := ⟨100, 100, 28, 28, 60, 30, false⟩
def dWr : Dev := hdP 3 0x0600 0 0x102 (leBytes 4 0 ++ ProfRec.fields prof1 0 ++ leBytes 8 0)
def dSel : Dev := hdP 3 0x0600 0 0x3FE02 []
theorem witness_profiles : HostReadyM (st dWr) 3 0x0600 (ProfileReq.fits ⟨2, true, false, 0, prof1⟩) ∧ HostReadyM (st dSel) 3 0x0600 (ProfileReq.fits ⟨2, false, true, 0xFF, prof1⟩) ∧
    profOk prof1 = true ∧ dWr.aon.store.length = 5 ∧ (storeItem dWr.aon.store 2).best.all (fun b => (profSeq b).toNat == 1) = true ∧ (storeItem dSel.aon.store 4).best = none ∧
    HostReady (st (hd 3 0x0601 0)) 3 0x0601 ∧
    after (.setProfile 3 ⟨2, true, false, 0, prof1⟩) (st dWr) (fun d => ans 3 St.OK d && d.profile 2 == some prof1) = true ∧
    after (.setProfile 3 ⟨2, false, true, 0xFF, prof1⟩) (st dSel) (fun d => ans 3 St.OK d && d.pwr.pend.prof.map (·.1) == some 2 && d.override == some 0xFF) = true ∧
    after (.profileQuery 3) (st (hd 3 0x0601 0)) (fun d => ans 3 St.OK d && d.mbNat 3 36 2 == 1600) = true := by
  unfold HostReadyM HostReady; decide
/-- Two copies: the one with the higher SEQ is in force, a torn write of the other leaves it, and a copy whose COMMIT or CRC fails is no record. -/
theorem test_profile_store : let i : StoreItem := ⟨profCommit (profBody 7 (ProfRec.fields prof1 0)), profCommit (profBody 6 (ProfRec.fields prof1 3))⟩
    i.best = some i.a ∧ (i.older (profBody 8 (ProfRec.fields prof1 3))).best = some i.a ∧ (i.put (ProfRec.fields prof1 3)).best.map profSel = some 3 ∧
    (StoreItem.best ⟨i.a.set 4 0xFF, profBody 9 (ProfRec.fields prof1 0)⟩) = none := by decide
theorem witness_guard : fld (dWin.reg Reg.PWR_LIMIT) 16 12 < 1851 ∧ after (.powerGuard 1851) (st dWin) (fun d => bit (d.reg Reg.PWR_STATUS) 2) = true ∧
    after (.thermalMonitor [109, 109] 70) (st Dev.reset) (fun d => d.aon.tcase == 70 && !d.aon.trip) = true := by decide
theorem witness_trip : Dev.reset.aon.trip = false ∧ 110 ≤ 110 := by decide

/-! ### Faults, recovery and the Hive -/

/-- Region 63 of tile 0 runs in fault group 5; the device is joined, not master, and the authority runs; `rc` is the recovery it holds. -/
def dFlt (rc : Option Recovery) : Dev :=
  let d := dCic 100 3 2
  { d with regs := d.regs ++ [(Reg.FLT_GROUP + 504, 5)], regions := [(63, { rg with st := .running, adslots := [] })], flt := { d.flt with recov := rc } }
/-- A FAULT frame (15 Table 15.3) of class `c` and action `a` for subject 9 and group 5. -/
def frFault (c a : Nat) : RingFrame := fr5 ftFAULT (leBytes 1 c ++ leBytes 1 a ++ leBytes 2 9 ++ leBytes 2 5 ++ leBytes 4 0x00500001 ++ List.replicate 6 0)
def rec5 (own : Bool) (k : RecStage) : Recovery :=
  { recid := 0x00500001, causes := [⟨3, 9, 0, [5]⟩], relay := false, sites := [(0, 1)], todo := [(0, 1)], moved := [], restored := [], lost := [], restarts := 0,
    stage := k, own := own, regions := [63], parts := [], needParts := [7], toLoad := [63, 5], status := St.OK }
def dHeldFault (rc : Recovery) : Dev := { dFlt (some rc) with regions := [(63, { rg with st := .fault, adslots := [] })] }

theorem witness_fault_frames : FirstCopy ftFAULT (frFault 3 1) (dFlt none) ∧ fCls (frFault 3 1) = 3 ∧ fAct (frFault 3 1) = 1 ∧ (dFlt none).flt.recov = none ∧ (dFlt none).namedBy 9 5 = [63] ∧
    FirstCopy ftFAULT (frFault 3 2) (dFlt (some (rec5 false .waitParts))) ∧ fAct (frFault 3 2) = 2 ∧ FirstCopy ftFAULT (frFault 3 3) (dHeldFault (rec5 false .waitParts)) ∧ fAct (frFault 3 3) = 3 ∧
    fRecid (frFault 3 3) = (rec5 false .waitParts).recid ∧ fCls (frFault 7 0) = 7 ∧ fAct (frFault 7 0) = 0 := by
  unfold FirstCopy; decide
theorem test_fault_quiesce : after (.faultQuiesce (frFault 3 1)) (st (dFlt none)) (fun d => (d.region 63).st == .fault && d.flt.recov.any fun v => v.regions == [63]) = true := by decide
theorem test_fault_hold : after (.faultHold (frFault 3 2)) (st (dFlt (some (rec5 false .waitParts)))) (fun d => d.flt.recov.any fun v => v.stage == .held) = true := by decide
theorem test_fault_release : after (.faultRelease (frFault 3 3)) (st (dHeldFault (rec5 false .waitParts))) (fun d => (d.region 63).st == .stopped && d.flt.recov == none) = true := by decide
def dMaster : Dev := dCic 100 5 6
theorem witness_fault_notice : FirstCopy ftFAULT (frFault 7 0) dMaster ∧ dMaster.cicBit 0 = true ∧ dMaster.cicBit 2 = true ∧
    after (.faultNotice (frFault 7 0)) (st dMaster) (fun d => d.cic.tW == some 20100) = true := by
  unfold FirstCopy; decide
theorem witness_part_done : (rec5 true .reload).own = true ∧ (rec5 true .reload).stage ≠ .waitParts ∧ (∀ i ∈ (rec5 true .waitParts).needParts, i = (7 : BitVec 12).toNat ∨ i ∈ (rec5 true .waitParts).parts) ∧
    after (.localPartDone 7 0x00500001) (st (dHeldFault (rec5 true .reload))) (fun d => d.flt.recov.any fun v => v.parts == [7]) = true ∧
    after (.localPartDone 7 0x00500001) (st (dHeldFault (rec5 true .waitParts))) (fun d => d.flt.recov == none && (d.region 63).st == .stopped) = true := by decide
/-- Port 15 to device 9 has been DOWN for exactly the 5 ms of FLT_CTL.DLOSS at reset. -/
def dLost : Dev := { dFlt none with
  regs := [(Reg.FLT_PEER + 120, 0x1009), (Reg.PORT_STATUS + 0x1E00, 4)], cic := { Cicada.reset with ns := 5000007 }
  ports := [(15, { Port.reset with downAt := 7 })] }
theorem witness_device_loss : dLost.peerPorts 9 = [15] ∧ dLost.portState 15 = 4 ∧ (dLost.port 15).downAt + dLost.dloss ≤ dLost.elapsed ∧ (∀ p ∈ dLost.flt.plans, p.1 ≠ 9) ∧ dLost.flt.recov = none ∧
    after (.deviceLoss 9) (st dLost) (fun d => fld (d.reg Reg.FLT_CNT) 0 16 == 1 && d.flt.recs.any fun e => e.cls == 6 && e.detail == 9) = true ∧
    after .ringKeepaliveLapse (st (dFlt none)) (fun d => d.aon.bypass && !d.cicBit 0) = true ∧
    after (.shadowResync 9) sShadow (fun d => (d.tile 0).wvl.shWhole) = true := by decide

def dDefect : Dev := let d := dFlt none; { d with flt := { d.flt with defects := [0] } }
theorem witness_tile_recovery : dDefect.tileAt 0 1 = some 0 ∧ 0 ∈ dDefect.flt.defects ∧ 0 ∉ (dFlt none).flt.defects ∧ (dFlt none).regionOf 0 = some 63 ∧ 1 < 48 ∧ bit ((dFlt none).skip (siteHalf 0 1)) 6 = false ∧ bit ((dFlt none).reg Reg.FLT_CTL) 16 = true ∧
    after (.tileRecovery 0 1) (st dDefect) (fun d => (d.region 63).st == .fault && d.flt.recov.any fun v => v.todo == [(0, 1)]) = true := by decide
theorem witness_bist : (rec5 true .quiesced).todo = [(0, 1)] ∧ (rec5 true .quiesced).stage = .quiesced ∧
    after (.bistComplete false) (st (dHeldFault (rec5 true .quiesced))) (fun d => d.skip 0 == 193 && d.flt.recov.any fun v => v.stage == .empty) = true ∧
    after (.bistComplete true) (st (dHeldFault (rec5 true .quiesced))) (fun d => d.flt.recov.any fun v => v.stage == .reload) = true := by decide
theorem witness_slices : (rec5 true .empty).stage = .empty ∧ (rec5 true .slices).stage = .slices ∧
    after (.halfBenchEmpty none) (st (dHeldFault (rec5 true .empty))) (fun d => d.flt.recov.any fun v => v.stage == .slices) = true ∧
    after (.sliceShiftDone true) (st (let d := dHeldFault (rec5 true .slices); { d with aon := { d.aon with skip := [(0, 193)] } })) (fun d => d.skip 0 == 65) = true := by decide
def dReload : Dev := { dHeldFault (rec5 true .reload) with regions := [(63, { rg with st := .fault, b0 := 23, c0 := 45, adslots := [], load := some loadQ })] }
theorem witness_recovery_load : (dReload.region 63).load = some loadQ ∧ loadQ.r = 63 ∧ loadQ.dmaFail = none ∧ (dReload.loadCheck { loadQ with image := loadQ.image, dmaFail := none } true).1 = St.OK ∧
    after (.recoveryLoad 63 loadQ) (st dReload) (fun d => (d.region 63).st == .fault && d.flt.recov.any fun v => v.toLoad == [5]) = true := by decide
def dFltCmd (op : Nat) : Dev := let d := hd 3 op 0; { d with flt := { d.flt with plans := [(9, [.unload 1])], reports := [⟨77, St.RECOVERY_ESCALATED, []⟩] } }
/-- A member set of 512 bytes that names devices 1 and 2. -/
def dGroup : Dev := let d := hdP 3 0x0502 0 5 [6]; { d with hive := { d.hive with mbox := Memory.writeN d.hive.mbox (4096 * 3 + 8) (leBytes 4 512) } }
theorem witness_fault_commands : HostReadyM (st dGroup) 3 0x0502 (groupFits 512 6) ∧ HostReady (st (dFltCmd 0x0503)) 3 0x0503 ∧ HostReady (st (dFltCmd 0x0504)) 3 0x0504 ∧ HostReady (st (dFltCmd 0x0702)) 3 0x0702 ∧
    (∀ r, r < Config.nRegions → dGroup.fltGroupOf r = (5 : BitVec 16).toNat → (dGroup.region r).st ≠ .running) ∧ (∀ p ∈ (dFltCmd 0x0503).flt.plans, p.1 ≠ 8) ∧
    (∃ p ∈ (dFltCmd 0x0504).flt.plans, p.1 = 9) ∧ ((dFltCmd 0x0702).allReports.find? fun x => decide (x.recid = 77)).isSome = true ∧
    after (.fltGroup 3 5 512 6) (st dGroup) (fun d => ans 3 St.OK d && d.members 5 == 6) = true ∧
    after (.standbyArm 3 8 [.unload 2]) (st (dFltCmd 0x0503)) (fun d => ans 3 St.OK d && d.flt.plans.length == 2) = true ∧
    after (.standbyDisarm 3 9) (st (dFltCmd 0x0504)) (fun d => ans 3 St.OK d && d.flt.plans == []) = true ∧
    after (.fltQuery 3 77 0 0) (st (dFltCmd 0x0702)) (fun d => ans 3 St.OK d && d.mbNat 3 20 4 == 77) = true := by
  unfold HostReadyM HostReady; decide

/-! ### The Hive -/

def dLock (v : W64) : Dev := { Dev.reset with regs := [(lockReg 63, v)] }
theorem witness_core_reset : 3 < Config.nCores ∧ after (.hiveWatchdog 3) (st (dLock 0xD)) (fun d => d.epochOf 3 == 1 && fld (d.reg (lockReg 63)) 0 2 == 2) = true := by decide
/-- HOST_STATUS.PHASE and HIVE_FW. -/
def dFw (ph fw : Nat) : Dev := { Dev.reset with regs := [(Reg.HOST_STATUS, BitVec.ofNat 64 ph), (Reg.HIVE_FW, BitVec.ofNat 64 fw)] }
theorem witness_firmware : (dFw 2 0).fwBusy = false ∧ (dFw 2 0).hive.run = false ∧ (dFw 2 0).phase = 2 ∧ (dFw 3 0x20000).fwBusy = true ∧ (dFw 3 0x20000).phase = 3 ∧
    after .hiveFwGo (st (dFw 5 0)) (fun d => d.fwBusy && d.phase == 3) = true ∧ after .fwCheckComplete (st (dFw 3 0x20000)) (fun d => !d.fwBusy && d.phase == 5) = true := by decide
theorem witness_fw_reload : HostReady (st (hd 3 0x0102 0)) 3 0x0102 ∧ (∀ r, r < Config.nRegions → ((hd 3 0x0102 0).region r).serving = false) ∧
    after (.fwReload 3) (st (hd 3 0x0102 0)) (fun d => ans 3 St.OK d && !d.hive.run && d.phase == 2) = true := by
  unfold HostReady; decide
def dNack : Dev := let d := hd 3 0 0; { d with hive := { d.hive with nack := [1, 0] } }
theorem witness_refresh_latch : dNack.hive.run = true ∧ dNack.aon.owner = pairOwner false ∧ dNack.hive.demoted.getD (pairIdx false) false = false ∧ dNack.seamF false = false ∧ dNack.hive.demoted.length = 2 ∧
    dNack.hive.nack.getD (pairIdx false) 0 = 1 ∧ after (.latchRefresh false true) (st dNack) (fun d => d.aon.since == 0 && d.hive.nack == [0, 0]) = true ∧
    after (.latchRefresh false false) (st dNack) (fun d => !d.authority) = true := by decide
def dClaim : Dev := { hd 3 0 0 with aon := AlwaysOn.reset }
theorem witness_claim : dClaim.claims false = true ∧ dClaim.claimOk 9 = true ∧ dClaim.mbState 3 = 2 ∧
    after (.latchClaim false 9) (st dClaim) (fun d => d.aon.owner == .west && d.aon.epoch == 1 && ans 3 St.AUTHORITY_LOST d) = true := by decide
def dMiss : Dev := let d := hd 3 0 0; { d with hive := { d.hive with miss := [0, 2] } }
theorem witness_heartbeats : dMiss.hive.claiming.length = 2 ∧ dMiss.hive.miss.getD (pairIdx true) 0 = 2 ∧ dMiss.seamF true = false ∧
    after (.heartbeatMiss true) (st dMiss) (fun d => d.hive.claiming == [false, true]) = true ∧ after (.heartbeat false) (st dMiss) (fun d => d.hive.miss == [0, 0]) = true := by decide
theorem witness_seam : Dev.reset.seamF true = false ∧ pairOwner true = .east := by decide

theorem witness_locks : fld (0 : W64) 0 2 ≠ 1 ∧ fld (0xD : W64) 0 2 = 1 ∧ fld (0xD : W64) 2 3 = lockIdx (.core 3) ∧ fld (0xD : W64) 2 3 ≠ lockIdx .host ∧ Dev.reset.hive.lockRes.length = 5 ∧
    after (.lockAcquire .host 63) (st (dLock 0)) (fun d => d.hive.lockRes.getD 4 0 == St.ACQUIRED && fld (d.reg (lockReg 63)) 2 3 == 4) = true ∧
    after (.lockAcquire .host 63) (st (dLock 0xD)) (fun d => d.hive.lockRes.getD 4 0 == St.LOCK_HELD) = true ∧
    after (.lockAcquire .host 63) (st (dLock 2)) (fun d => d.hive.lockRes.getD 4 0 == St.ACQUIRED_ABANDONED && bit (d.reg (lockReg 63)) 5) = true ∧
    after (.lockRelease (.core 3) 63) (st (dLock 0xD)) (fun d => d.hive.lockRes.getD 3 1 == St.OK && fld (d.reg (lockReg 63)) 0 2 == 0) = true ∧
    after (.lockRelease .host 63) (st (dLock 0xD)) (fun d => d.hive.lockRes.getD 4 0 == St.LOCK_NOT_OWNER) = true := by decide
/-- DEVICE_QUERY, or an opcode the table does not list, posted in mailbox 31. -/
def dPost (op : Nat) : Dev := let d := (hd 31 op 0xFF).setMbState 31 1; { d with hive := { d.hive with order := [31] } }
theorem witness_mailboxes : Dev.reset.mbState 31 = 0 ∧ (dPost 0x0101).mbState 31 ≠ 0 ∧ (dPost 0x0101).hive.order = [31] ∧ (dPost 0x0101).authority = true ∧
    (∀ k, k < Config.nMailboxes → (dPost 0x0101).mbState k ≠ 2) ∧ (dPost 0x0101).mbCheck 31 = St.OK ∧ (dPost 0x0800).mbCheck 31 = St.UNKNOWN_OPCODE ∧
    after (.mailboxDoorbell 31) (st Dev.reset) (fun d => d.mbState 31 == 1 && d.hive.order == [31]) = true ∧ after (.mailboxDoorbell 31) (st (dPost 0x0101)) (fun d => fld (d.reg Reg.HIVE_CNT) 0 16 == 1) = true ∧
    after .mailboxTake (st (dPost 0x0101)) (fun d => d.mbState 31 == 2) = true ∧ after .mailboxTake (st (dPost 0x0800)) (ans 31 St.UNKNOWN_OPCODE) = true := by decide
theorem witness_mboxfree : after (.hiveMboxfree 0x80000000) (st ((dPost 0).setMbState 31 3)) (fun d => d.mbState 31 == 0) = true := by decide
/-- HELLO of the interface major version the firmware has, and of another. -/
def dHello : Dev := hdP 3 0x0100 0 0 (leBytes 1 9 ++ leBytes 1 2 ++ leBytes 4 77 ++ leBytes 26 0 ++ leBytes 32 5)
theorem witness_hello : HostReadyM (st dHello) 3 0x0100 (fun x => decide (HelloReq.ofBytes x.payload = ⟨9, 2, 77, 5⟩)) ∧ HostReady (st (hd 3 0x0101 0)) 3 0x0101 ∧ dHello.hive.ifmaj ≠ 9 ∧
    after (.deviceQuery 3) (st (hd 3 0x0101 0)) (ans 3 St.OK) = true ∧ (dHello.message 3).reserved = false ∧
    (hdP 3 0x0100 0 0 (List.replicate 31 0 ++ leBytes 33 1) |>.message 3).reserved = true ∧ (hdP 3 0x0400 0 0 (leBytes 7 (2 ^ 49) ++ leBytes 57 0) |>.message 3).reserved = true ∧
    (hdP 3 0x0600 0 0x40000 [] |>.message 3).reserved = true ∧ (hdP 3 0x0704 0 8 [] |>.message 3).reserved = true := by
  unfold HostReadyM HostReady; decide
def logQ : LogReq := ⟨0x10000, 16, 2047, 0x20000⟩
theorem witness_log_rings : LogReq.ok logQ = true ∧ HostReady (st (hd 3 0x0700 0)) 3 0x0700 ∧ HostReadyM (st (hd 3 0x0701 0)) 3 0x0701 (queryFits false) ∧ logQ.addr ≠ 0 ∧
    after (.logConfig 3 logQ) (st (hd 3 0x0700 0)) (fun d => ans 3 St.OK d && d.hive.logRing == some ⟨logQ, 0, 0⟩) = true ∧
    after (.traceConfig 3 false logQ) (st (hd 3 0x0701 0)) (fun d => ans 3 St.OK d && d.hive.traceRing == some ⟨logQ, 0, 0⟩) = true := by
  unfold HostReadyM HostReady; decide
def dRings : Dev := { Dev.reset with hive := { Hive.reset with logRing := some ⟨logQ, 4, 0⟩, traceRing := some ⟨logQ, 4, 0⟩ } }
theorem witness_log_indices : dRings.hive.logRing = some ⟨logQ, 4, 0⟩ ∧ after (.logConsumerIndex 3) (st dRings) (fun d => d.hive.logRing == some ⟨logQ, 4, 3⟩) = true ∧
    after (.traceConsumerIndex 3) (st dRings) (fun d => d.hive.traceRing == some ⟨logQ, 4, 3⟩) = true := by decide
/-- Without a nonce nothing is unlocked. -/
theorem witness_debug : HostReady (st (hd 3 0x0703 0)) 3 0x0703 ∧ HostReadyM (st (hdP 3 0x0704 0 7 [])) 3 0x0704 (unlockFits 7 []) ∧ (hdP 3 0x0704 0 7 []).unlocks 7 [] = false ∧
    after (.debugUnlock 3 7 []) (st (hdP 3 0x0704 0 7 [])) (fun d => ans 3 St.DEBUG_DENIED d && d.hive.scope == 0 && d.hive.fails == 1) = true := by
  unfold HostReadyM HostReady; decide
/-- ECDSA over P-384 on the vector of RFC 6979, A.2.6: SHA-384 of "sample". -/
def ecKey : List Byte := [4] ++ beBytes 48 0xEC3A4E415B4E19A4568618029F427FA5DA9A8BC4AE92E02E06AAE5286B300C64DEF8F0EA9055866064A254515480BC13 ++
  beBytes 48 0x8015D9B72D7D57244EA8EF9AC0C621896708A59367F9DFB9F54CA84B3F1C9DB1288B231C3AE0D4FE7344FD2533264720
def ecSig (s : Nat) : List Byte :=
  beBytes 48 0x94EDBB92A5ECB8AAD4736E56C691916B3F88140666CE9FA73D64C4EA95AD133C81A648152E44ACF96E36DD1E80FABE46 ++ beBytes 48 s
theorem test_ecdsa : ecdsaP384 ecKey (sha384 [0x73, 0x61, 0x6D, 0x70, 0x6C, 0x65])
    (ecSig 0x99EF4AEB15F178CEA1FE40DB2603138F130E740A19624526203B6351D0A3A94FA329C145786E679E7B82C71A38628AC8) = true := by decide

/-! ### The host interface, the resets, SMBus and TAP -/

/-- Booted, PERST_N high; the last word of the scratchpad of the last tile holds a value. -/
def dBar4 : Dev :=
  { Dev.reset.setTile 1103 { Tile.reset with spad := [(3145724, 0x78), (3145727, 0x12)] } with regs := [(Reg.HOST_STATUS, 4)], host := { HostIf.reset with perst := false } }
def barQ : BarReq := ⟨2, 1103 * 0x2000000 + 3145724, true, false, [0xA1B2C3D4], 0, false, none⟩
theorem witness_bar : 1103 < Config.nTiles ∧ 3145724 % 4 = 0 ∧ 3145724 < Config.spadBytes ∧ dBar4.linkUp = true ∧ dBar4.muxing (halfOf 1103) = false ∧ (dBar4.tile 1103).badWord 3145724 4 = none ∧
    after (.barAccess ⟨2, 1103 * 0x2000000 + 3145724, false, false, [], 1, false, some ⟨1103, 3145724, 0⟩⟩) (st dBar4) (fun d =>
      d.out == [.readData 0x12000079] && (d.tile 1103).reg Reg.SPAD_ERR == BitVec.ofNat 64 (2 + 3145724 * 2 ^ 32)) = true ∧
    after (.barAccess barQ) (st dBar4) (fun d => Memory.readN (d.tile 1103).spad 3145724 4 == [0xD4, 0xC3, 0xB2, 0xA1]) = true ∧
    after (.barAccess { barQ with poisoned := true }) (st dBar4) (fun d => Memory.readN (d.tile 1103).spad 3145724 4 == [0x78, 0, 0, 0x12]) = true ∧
    after (.barAccess { barQ with write := false, words := [], n := 1 }) (st dBar4) (fun d => d.out == [.readData 0x12000078]) = true := by decide
def dDma (u : DmaUse) : Dev := let d := hd 3 0x0300 0; { d with host := { d.host with dma := [(8, u)] } }
def dRetry : Dev := let d := dHaul 0 .head []; { d with wt := { d.wt with sessions := [{ ses .head [] with retry := true }] } }
/-- A message whose payload lies in host memory. -/
def dInd : Dev := let d := dDma (.payload 3 64 4); { d with hive := { d.hive with mbox := Memory.writeN d.hive.mbox (4096 * 3 + 13) [1] } }
theorem witness_dma : (dDma (.payload 3 64 4)).dmaUse 8 = some (.payload 3 64 4) ∧ (dDma (.haul 7)).dmaUse 8 = some (.haul 7) ∧ (dDma (.payload 3 64 4)).authority = true ∧ (dDma (.payload 3 64 4)).mbState 3 = 2 ∧
    3 ∉ (dDma (.payload 3 64 4)).hive.noReply ∧ dRetry.headOf 7 = some { ses .head [] with retry := true } ∧
    dInd.mbIndirect 3 = true ∧ after (.dmaReadComplete 8 [1, 2, 3]) (st dInd) (fun d => d.host.dma == [] && d.mbPayload 3 == [1, 2, 3, 0]) = true ∧
    after (.dmaReadComplete 8 [5]) (st (let d := dHaul 3 .head []; { d with host := { d.host with dma := [(8, .haul 7)] } })) (fun d => d.wt.sessions.all fun x => x.frame == some [5]) = true ∧
    after (.dmaError 8 .timeout) (st (dDma (.payload 3 64 4))) (fun d => ans 3 St.COMMAND_INVALID d && d.reg Reg.HOST_DMAERR != 0) = true ∧
    after (.dmaReadRepeat 7) (st dRetry) (fun d => d.dmaOut (.haul 7)) = true := by decide
/-- Programmed pages, the remap table and the latch epoch outlive RESET_N; the epoch does not outlive AUX power. -/
def dKept : Dev := let d := dBar4; { d with aon := { d.aon with epoch := 6, skip := [(0, 5)], owner := .west }, wt := { d.wt with data := [(9, 1)] } }
theorem test_reset_n : after .resetNLow (st dKept) (fun d => d.tiles == [] && d.aon.epoch == 6 && d.aon.owner == .nobody && d.wt.data == [(9, 1)] && bit d.aon.rstcause 1) = true := by decide
theorem test_aux_loss : after .auxLoss (st dKept) (fun d => !d.aon.aux && d.aon.epoch == 0 && d.aon.skip == [(0, 5)]) = true := by decide
theorem test_aux_rise : after (.auxRise 7) (st dKept) (fun d => d.aon.smbAddr == 7 && bit d.aon.rstcause 0 && d.aon.epoch == 0) = true := by decide
theorem witness_reset_rise : Dev.reset.aon.resetN = false ∧ Dev.reset.override = none ∧ Dev.reset.profile (3 : BitVec 2).toNat = some ⟨600, 700, 0, 0, 95, 60, false⟩ ∧
    profOk ⟨600, 700, 0, 0, 95, 60, false⟩ = true ∧ after (.resetNRise ⟨3, true, true⟩) State.reset (fun d => d.phase == 1 && d.limitW == 600 && d.authPref) = true ∧
    after .bootWaitFw (st { Dev.reset with regs := [(Reg.HOST_STATUS, 1)] }) (fun d => d.phase == 2) = true := by decide
theorem test_host_resets : after .perstN (st (dDma (.payload 3 64 4))) (fun d => d.mbState 3 == 0 && d.host.dma == [] && bit d.aon.rstcause 2) = true ∧
    after .flr (st (dDma (.payload 3 64 4))) (fun d => d.mbState 3 == 0 && bit d.aon.rstcause 3) = true ∧ after .perstNHigh State.reset (fun d => !d.host.perst) = true := by decide

def dSmb : Dev := { Dev.reset with aon := { AlwaysOn.reset with alertN := true, trip := true, tj := [70, 88], smbAddr := 5 }, regs := [(Reg.PWR_ERR, 16)] }
theorem witness_smbus : dSmb.aon.aux = true ∧ dSmb.aon.alertN = true ∧ (3 : Byte).toNat ≤ 3 ∧ after .smbStatus (st dSmb) (fun d => !d.aon.alertN) = true ∧
    dSmb.aon.store.length = 5 ∧ (storeItem dSmb.aon.store 4).best = none ∧ after .smbJunctionTemp (st dSmb) (fun d => d.out == [.smb [88]]) = true ∧ after (.smbOverride 3) (st dSmb) (fun d => d.override == some 3) = true ∧
    after (.smbClearTrip 1) (st dSmb) (fun d => !d.aon.trip && d.reg Reg.PWR_ERR == 0) = true ∧ after .alertResponse (st dSmb) (fun d => d.out == [.smb [0x5D]]) = true := by decide
def dTap (sc : BitVec 3) (rn : Bool) : Dev := { Dev.reset.setTile 0 { Tile.reset with spad := [(0, 1)] } with hive := { Hive.reset with scope := sc }, aon := { AlwaysOn.reset with resetN := rn } }
def tapQ : BarReq := ⟨2, 0, false, false, [], 1, false, none⟩
theorem witness_tap : (dTap 7 true).aon.vin = true ∧ (dTap 7 true).siteLoaded 23 47 = false ∧ (dTap 7 true).muxing (halfOf 0) = false ∧ after .extest (st (dTap 0 false)) (fun d => d.tap.ir == .extest) = true ∧
    after .extest (st (dTap 0 true)) (fun d => d.tap.ir == .bypass) = true ∧ after (.dbgAccess tapQ) (st (dTap 0 true)) (fun d => d.tap.ir == .bypass) = true ∧
    after (.dbgAccess tapQ) (st (dTap 2 true)) (fun d => d.tap.ir == .dbgAccess && d.out == [.tap (tapBits 32 1)]) = true ∧
    after (.scanbist 23 47 true) (st (dTap 4 true)) (fun d => d.tap.bist == some (23, 47, true)) = true ∧ after (.scanbist 23 47 true) (st (dTap 3 true)) (fun d => d.tap.ir == .bypass) = true := by decide

/-- Lands (18 R404 to R408): the manual's example, and one land of each group. -/
theorem test_lands : (land 'B' 'F' 3).row = 25 ∧ (land 'B' 'F' 3).fabric = some (2, ⟨false, 4, true⟩) ∧ (land 'C' 'T' 22).group = .vin ∧ (land 'C' 'T' 21).group = .gnd ∧
    (land 'C' 'U' 5).group = .aux ∧ (land 'C' 'L' 80).pcie = some ⟨true, 15, true⟩ ∧ (land 'C' 'W' 18).signal = some .resetN ∧ Signal.open_ .resetN = some false ∧
    (land 'C' 'Y' 17).group = .rsvd ∧ (land 'A' 'A' 2).group = .gnd ∧ fibreLane 16 = (7, true) := by decide

/-! ### The store, and a step from it -/

theorem witness_store_step : State.reset.dev.aon.store.length = 5 ∧ (match step ⟨Dev.reset, [.smbOverride 3]⟩ with | .next s => s.pending == [] && s.dev.override == some 3 | _ => false) = true ∧
    (match step ⟨dWr, [.setProfile 3 ⟨2, true, false, 0, prof1⟩, .vnop 0]⟩ with | .next s => s.pending == [.vnop 0] && s.dev.profile 2 == some prof1 | _ => false) = true := by decide

theorem witness_store_ok : StoreOk dWr := by
  refine ⟨by decide, by decide, by decide, by decide, by decide, fun n => ?_⟩
  show if n % 2 = 0 then fld (if n % 2 = 0 then (0 : BitVec 8) else 47) 0 6 < 24 else 24 ≤ fld (if n % 2 = 0 then (0 : BitVec 8) else 47) 0 6 ∧ fld (if n % 2 = 0 then (0 : BitVec 8) else 47) 0 6 < 48
  by_cases h : n % 2 = 0
  · simp only [h, if_true]; decide
  · simp only [h, if_false]; decide

end Sys2Proof.Tests
end

/-! ## The outcome of a command, reset, and the registers

Proofs of the statements of 00: every command checks the units it names and then acts on the device alone (O3), the state after reset (O4),
writes of registers by access type (O16), and reads with their capture and side effect (O17). -/

/-! ### The outcome of a command -/

namespace Sys2Proof.Machine

open Sys2Proof

/-- A device function under the check that every listed unit exists. -/
def onUnits (us : List (Nat × Nat)) (s : State) (f : Dev → Dev) : Host.Outcome State Fault Refusal :=
  if us.all (fun u => decide (u.1 < u.2)) = true then onDev s f else .fault .noSuchUnit

/-- A meaning checks the units `us` and then does to the device what depends on nothing but the device. -/
def ActsOn (us : List (Nat × Nat)) (m : State → Host.Outcome State Fault Refusal) : Prop :=
  ∃ f : Dev → Dev, ∀ s, m s = onUnits us s f

theorem ActsOn.onDev (f : Dev → Dev) : ActsOn [] fun s => onDev s f := ⟨f, fun _ => rfl⟩

theorem ActsOn.onUnit {n i : Nat} (f : Dev → Dev) : ActsOn [(i, n)] fun s => onUnit n i s f :=
  ⟨f, fun s => by simp [Machine.onUnit, onUnits]⟩

/-- A meaning that checks one more unit first. -/
theorem ActsOn.guard {us : List (Nat × Nat)} {n i : Nat} {m : State → Host.Outcome State Fault Refusal} (h : ActsOn us m) :
    ActsOn (us ++ [(i, n)]) fun s => if i < n then m s else .fault .noSuchUnit := by
  obtain ⟨f, hf⟩ := h
  refine ⟨f, fun s => ?_⟩
  change (if i < n then m s else _) = _
  rw [hf, onUnits, onUnits, List.all_append]
  by_cases hi : i < n
  · rw [if_pos hi, List.all_cons, List.all_nil, decide_eq_true hi, Bool.and_true, Bool.and_true]
  · rw [if_neg hi, if_neg (by simp [hi])]

theorem execCaptureRead_actsOn (who : Requester) (a : RegAddr) : ActsOn a.units (execCaptureRead who a) := by
  cases a with
  | tile => exact .onUnit _
  | dev =>
    unfold execCaptureRead
    exact .onDev _

theorem execRegisterWrite_actsOn (who : Requester) (a : RegAddr) (wide : Bool) (v : W64) : ActsOn a.units (execRegisterWrite who a wide v) := by
  cases a with
  | tile => exact .onUnit _
  | dev =>
    unfold execRegisterWrite
    exact .onDev _

/-- Every command checks the units it names and then acts on the device alone. Its cases go by the form of the meaning: no unit, a register
address, a requester, two units, one unit. -/
theorem exec_actsOn (c : Instr) : ActsOn c.units (exec c) := by
  cases c with
  | wtPageRefresh | journalCommit | journalReplay | verifyComplete | haulHeadSend | haulFrameArrival | shardOk | haulAckArrival | scrubPassStart
  | scrubPassComplete | e2ePacketArrival | ackSend | ackArrival | nakArrival | resendTimeout | flowEntryExpiry | cicadaTick | viewReload | cicSet
  | markSend | frameCopySend | mark | freq | barrier | faultQuiesce | faultHold | faultRelease | faultNotice | joinAt | leaveAt | measureAt | master
  | measurementWindow | bypassOpen | bypassClose | markTimeout | syncInLos | cicJoinClear | cicFsw | frequencySwitch | regionEnergyUpdate
  | energyWindowBoundary | synchronisedCount | pwrWinWrite | pwrBudgetWrite | powerGuard | thermalMonitor | bistComplete | halfBenchEmpty
  | sliceShiftDone | shadowResync | localPartDone | deviceLoss | ringKeepaliveLapse | hiveFwGo | fwCheckComplete | latchRefresh | latchClaim
  | heartbeatMiss | seamFault | lockAcquire | lockRelease | mailboxTake | hiveMboxfree | logConsumerIndex | barAccess | dmaReadComplete | dmaError
  | resetNLow | resetNRise | bootWaitFw | perstN | flr | auxRise | auxLoss | vinDrop | smbStatus | smbJunctionTemp | smbCaseTemp | smbVinPower
  | smbLatchEpoch | smbRstcause | smbIdentity | smbOverride | smbClearTrip | alertResponse | extest | idcode | samplePreload | clamp | highz
  | dbgAccess | bypass | tapTestReset | heartbeat | traceConsumerIndex | perstNHigh | dmaReadRepeat =>
    unfold exec
    exact .onDev _
  | captureRead => exact execCaptureRead_actsOn _ _
  | registerWrite => exact execRegisterWrite_actsOn _ _ _ _
  | agCommit _ _ who => cases who <;> exact .onUnit _
  | adapterLoad | adapterEvict | kvShare | kvFree | kvFreeSlot | kvRestore | regionLoad | regionUnload | regionStart | regionStop | regionResume
  | regionAbort | seqCancel | seqRollback | tileRecovery | scanbist => exact .guard (.onUnit _)
  | _ => exact .onUnit _

theorem exec_of_wf {c : Instr} (s : State) (h : c.wf = true) : ∃ s', exec c s = .next s' := by
  obtain ⟨f, hf⟩ := exec_actsOn c
  exact ⟨{ s with dev := f s.dev }, (hf s).trans (if_pos h)⟩

theorem exec_of_not_wf {c : Instr} (s : State) (h : c.wf = false) : exec c s = .fault .noSuchUnit := by
  obtain ⟨f, hf⟩ := exec_actsOn c
  exact (hf s).trans (if_neg (by simpa [Instr.wf] using h))

/-- Settles O3: the units a command names decide its outcome alone, since a command that cannot take place answers the state it met (log 1, the
model's choice; which columns count as sites is log 82). -/
theorem everyWellFormedCommandCompletes : Obligations.EveryWellFormedCommandCompletes :=
  fun _ s => ⟨exec_of_wf s, exec_of_not_wf s⟩

end Sys2Proof.Machine

/-! ### Reset -/

namespace Sys2Proof.Machine

open Sys2Proof

/-- Settles O4: the state after reset lists no entry in any of its maps, so each reads as its default. -/
theorem resetState : Obligations.ResetState :=
  ⟨fun _ => rfl, fun _ _ => rfl, fun _ _ => rfl, fun _ _ => ite_self _, fun _ => rfl, fun _ => rfl, rfl, rfl, rfl, rfl, rfl, rfl⟩

end Sys2Proof.Machine

/-! ### Registers by access type -/

namespace Sys2Proof.Machine

open Sys2Proof Sys2Proof.Claims

/-- One bit of a write by access type, by its lane `m`, RW bit `w`, W1C bit `c`, value `v` and old value `o`. -/
theorem writeBit_eq : ∀ m w c v o : Bool, ((o && !(w && m) || (v && (w && m))) && !(c && m && v)) =
    if m && c && v then false else if m && w then v else o := by decide

/-- A write by access type gives each bit what Table 0.1 says. -/
theorem RegRow.write_byAccess (r : RegRow) (m old v : W64) : ByAccess r m v old (r.write m old v) := by
  intro i hi
  simp only [RegRow.write, BitVec.getLsbD_and, BitVec.getLsbD_or, BitVec.getLsbD_not, hi, decide_true, Bool.true_and]
  exact writeBit_eq _ _ _ _ _

/-- A read clears the RC bits to what they hold when nothing was counted, and no other bit. -/
theorem RegRow.getLsbD_afterRead (r : RegRow) (old : W64) {i : Nat} (hi : i < 64) :
    (r.afterRead old).getLsbD i = if r.rc.getLsbD i then r.reset.getLsbD i else old.getLsbD i := by
  simp only [RegRow.afterRead, BitVec.getLsbD_and, BitVec.getLsbD_or, BitVec.getLsbD_not, hi, decide_true, Bool.true_and]
  cases r.rc.getLsbD i <;> simp

/-- A read of a register without RC bits leaves it as it was. -/
theorem RegRow.afterRead_of_rc_zero {r : RegRow} (h : r.rc = 0) (old : W64) : r.afterRead old = old := by
  apply BitVec.eq_of_getLsbD_eq
  intro i hi
  simp [RegRow.getLsbD_afterRead r old hi, h]

/-! ### The tables: every register starts at a multiple of 8 -/

theorem RegRow.aligned_of_at {r : RegRow} {a : Nat} (h : r.at a = true) (hf : r.first % 8 = 0) : a % 8 = 0 := by
  simp only [RegRow.at, Bool.and_eq_true, decide_eq_true_eq] at h
  omega

theorem devRows_first_aligned : ∀ r ∈ devRows, r.first % 8 = 0 := by decide
theorem tileRows_first_aligned : ∀ r ∈ tileRows, r.first % 8 = 0 := by decide

theorem devRow_aligned {a : Nat} {r : RegRow} (h : devRow a = some r) : a % 8 = 0 :=
  RegRow.aligned_of_at (List.find?_some (p := fun r : RegRow => r.at a) h) (devRows_first_aligned r (List.mem_of_find?_eq_some h))

theorem tileRow_aligned {a : Nat} {r : RegRow} (h : tileRow a = some r) : a % 8 = 0 :=
  RegRow.aligned_of_at (List.find?_some (p := fun r : RegRow => r.at a) h) (tileRows_first_aligned r (List.mem_of_find?_eq_some h))

/-! ### What a write does -/

theorem Dev.onlyReg_setReg (d : Dev) (a : Nat) (v : W64) : OnlyReg a d (d.setReg a v) := ⟨rfl, fun _ h => d.reg_setReg_ne a v h⟩

theorem Dev.onlyTile_setTile (d : Dev) (t : Nat) (x : Tile) : OnlyTile t d (d.setTile t x) := ⟨rfl, fun _ h => d.tile_setTile_ne t x h⟩

theorem Tile.onlyTileReg_setReg (x : Tile) (a : Nat) (v : W64) : OnlyTileReg a x (x.setReg a v) := ⟨rfl, fun _ h => x.reg_setReg_ne a v h⟩

/-- A register of BAR0 without an effect of its own takes what its access types store. -/
theorem Dev.devWrite_eq {d : Dev} {a : Nat} {r : RegRow} {m v : W64} (hr : devRow a = some r) (h0 : ∀ n, d.devEffect0 a m v n = none)
    (h1 : ∀ n, d.devEffect1 a m v n = none) : d.devWrite a m v = d.setReg a (r.write m (d.reg a) v) := by
  simp [Dev.devWrite, hr, h0, h1]

/-- A 32-bit write at an offset of a register's words reaches the lanes of that word. -/
theorem Dev.devWrite32_eq (d : Dev) {a h : Nat} (v : W32) (ha : a % 8 = 0) (hh : h = 0 ∨ h = 4) :
    d.devWrite32 (a + h) v = d.devWrite a (laneMask h) (BitVec.ofNat 64 (v.toNat * 2 ^ (8 * h))) := by
  have hq : (a + h) / 8 * 8 = a := by omega
  have hm : (a + h) % 8 = h := by omega
  have h4 : (a + h) % 4 = 0 := by omega
  rw [Dev.devWrite32, if_pos h4, hq, hm]

/-- A register of a tile without an effect of its own takes what its access types store. -/
theorem Dev.tileWrite_eq (d : Dev) (t : Nat) {a : Nat} {r : RegRow} (m v : W64) (hr : tileRow a = some r) (ho : a ∉ ownWrites) :
    d.tileWrite t a m v = d.setTile t ((d.tile t).setReg a (r.write m ((d.tile t).reg a) v)) := by
  simp only [ownWrites, List.mem_cons, List.not_mem_nil, or_false, not_or] at ho
  simp [Dev.tileWrite, hr, ho]

theorem ctlValid_of_tileRow {a : Nat} {r : RegRow} (h : tileRow a = some r) : ctlValid a = true := by
  have ha := tileRow_aligned h
  have hq : a / 8 * 8 = a := by omega
  have h4 : a % 4 = 0 := by omega
  simp [ctlValid, hq, h4, h]

/-- Outside the AG blocks a 64-bit write at a listed address reaches the whole register. -/
theorem Dev.tileWrite64_eq (d : Dev) (t : Nat) {a : Nat} {r : RegRow} (v : W64) (hr : tileRow a = some r) (hg : a < 0x400 ∨ 0x800 ≤ a) :
    d.tileWrite64 t a v = d.tileWrite t a fullMask v := by
  rw [Dev.tileWrite64, if_neg (by omega), if_pos (ctlValid_of_tileRow hr)]

/-- Outside the AG blocks a 32-bit write at the address of a register reaches its low word. -/
theorem Dev.tileWrite32_eq (d : Dev) (t : Nat) {a : Nat} {r : RegRow} (v : W32) (hr : tileRow a = some r) (hg : a < 0x400 ∨ 0x800 ≤ a) :
    d.tileWrite32 t a v = d.tileWrite t a 0xFFFFFFFF (v.zeroExtend 64) := by
  have ha := tileRow_aligned hr
  have hq : a / 8 * 8 = a := by omega
  have hv : BitVec.ofNat 64 (v.toNat * 2 ^ (8 * 0)) = v.zeroExtend 64 := by
    apply BitVec.eq_of_toNat_eq
    simp
  rw [Dev.tileWrite32, if_neg (by simp [ctlValid_of_tileRow hr]), if_neg (by omega), hq, ha, hv]
  rfl

/-! ### The commands that write -/

theorem exec_registerWrite_dev_wide (s : State) {a : Nat} (v : W64) (ha : a % 8 = 0) :
    exec (.registerWrite .host (.dev a) true v) s = .next { s with dev := s.dev.devWrite a fullMask v } := by
  change onDev s (fun d => if a % 8 = 0 then d.devWrite a fullMask v else d) = _
  simp [onDev, ha]

theorem exec_registerWrite_dev_word (s : State) (off : Nat) (v : W64) :
    exec (.registerWrite .host (.dev off) false v) s = .next { s with dev := s.dev.devWrite32 off (lo32 v) } := rfl

theorem exec_registerWrite_tile_wide (s : State) {t a : Nat} (v : W64) (ht : t < Config.nTiles) (ha : a % 8 = 0) :
    exec (.registerWrite .host (.tile t a) true v) s = .next { s with dev := s.dev.tileWrite64 t a v } := by
  refine (onUnit_of_lt s (fun d => if a % 8 = 0 then d.tileWrite64 t a v else d) ht).trans ?_
  simp [ha]

theorem pc_lt_of_scbReady {s : State} {t : Nat} (h : ScbReady s t) : (s.dev.tile t).scb.pc.toNat + 4 < 0x10000 := by
  obtain ⟨-, -, hpc⟩ := h
  exact hpc

/-- The instruction of a Scarab that is ready to issue runs. -/
theorem onScb_of_ready {s : State} {t : Nat} (f : Dev → Dev) (h : ScbReady s t) : onScb t s f = .next { s with dev := f s.dev } := by
  obtain ⟨ht, hc, -⟩ := h
  rw [onScb_of_lt s f ht, if_pos hc]

/-- CWR of a listed register outside the AG blocks writes its low word and goes on. -/
theorem exec_cwr_of_tileRow {s : State} {t a : Nat} {rs2 rs1 : R5} {imm : I16} {r : RegRow} (h : ScbReady s t)
    (ha : ((s.dev.tile t).gr rs1 + imm.signExtend 32).toNat = a) (hr : tileRow a = some r) (hg : a < 0x400 ∨ 0x800 ≤ a) :
    exec (.cwr t rs2 rs1 imm) s = .next { s with dev := (s.dev.tileWrite t a 0xFFFFFFFF (((s.dev.tile t).gr rs2).zeroExtend 64)).scbNext t } := by
  have he : ((s.dev.tile t).ea rs1 imm).toNat = a := ha
  refine (onScb_of_ready _ h).trans ?_
  simp only [he, ctlValid_of_tileRow hr, Bool.true_eq_false, if_false]
  rw [if_neg (by omega), Dev.tileWrite32_eq _ _ _ hr hg]

/-- Settles O16: each of the four ways to write ends in one `setReg` of the value that the access types give, in BAR0 or in a tile; after the
CWR the Scarab goes on. -/
theorem registerWritesFollowTheAccessType : Obligations.RegisterWritesFollowTheAccessType := by
  refine ⟨?dev, ?devWord, ?tile, ?cwr⟩
  case dev =>
    intro s a r v hr h0 h1
    refine ⟨_, exec_registerWrite_dev_wide s v (devRow_aligned hr), ?_⟩
    rw [Dev.devWrite_eq hr h0 h1]
    simp only [Dev.reg_setReg_self]
    exact ⟨Dev.onlyReg_setReg _ _ _, r.write_byAccess _ _ _⟩
  case devWord =>
    intro s a h r v hr ha hh h0 h1
    refine ⟨_, exec_registerWrite_dev_word s (a + h) v, ?_⟩
    rw [Dev.devWrite32_eq _ _ ha hh, Dev.devWrite_eq hr (h0 _ _) (h1 _ _)]
    simp only [Dev.reg_setReg_self]
    exact ⟨Dev.onlyReg_setReg _ _ _, r.write_byAccess _ _ _⟩
  case tile =>
    intro s t a r v ht hr ho hg
    refine ⟨_, exec_registerWrite_tile_wide s v ht (tileRow_aligned hr), ?_⟩
    rw [Dev.tileWrite64_eq _ _ _ hr hg, Dev.tileWrite_eq _ _ _ _ hr ho]
    simp only [Dev.tile_setTile_self, Tile.reg_setReg_self]
    exact ⟨Dev.onlyTile_setTile _ _ _, Tile.onlyTileReg_setReg _ _ _, r.write_byAccess _ _ _⟩
  case cwr =>
    intro s t rs2 rs1 imm r h x a hr ho hg
    refine ⟨_, exec_cwr_of_tileRow h rfl hr hg, ?_⟩
    rw [Dev.tileWrite_eq _ _ _ _ hr ho, Dev.scbNext_eq _ _ (by simpa using pc_lt_of_scbReady h)]
    simp only [Dev.tile_setTile_self, Dev.setTile_setTile, Tile.reg_scb, Tile.reg_setReg_self]
    exact ⟨Dev.onlyTile_setTile _ _ _, rfl, fun b hb => Tile.reg_setReg_ne _ _ _ hb, r.write_byAccess _ _ _⟩

/-! ### Reads and captures -/

theorem lo32_eq (v : W64) : lo32 v = v.truncate 32 := BitVec.eq_of_toNat_eq (by simp [lo32])

theorem hi32_eq (v : W64) : hi32 v = (v >>> 32).truncate 32 := BitVec.eq_of_toNat_eq (by simp [hi32, Nat.shiftRight_eq_div_pow])

/-- The host receives a 32-bit word as the low half of an output. -/
theorem Dev.answer_eq (d : Dev) (v : W32) : Dev.answer (d, v) = d.emit (.readData (v.zeroExtend 64)) := by
  have : BitVec.ofNat 64 v.toNat = v.zeroExtend 64 := BitVec.eq_of_toNat_eq (by simp)
  rw [Dev.answer, this]

/-- The read side effect of a register of BAR0 changes that register or nothing. -/
theorem Dev.devAfterRead_cases (d : Dev) (a : Nat) : d.devAfterRead a = d ∨ ∃ v, d.devAfterRead a = d.setReg a v := by
  unfold Dev.devAfterRead
  split
  · split
    · exact .inl rfl
    · exact .inr ⟨_, rfl⟩
  · exact .inl rfl

@[simp] theorem Dev.devAfterRead_out (d : Dev) (a : Nat) : (d.devAfterRead a).out = d.out := by
  obtain h | ⟨v, h⟩ := d.devAfterRead_cases a <;> rw [h]
  rfl

/-- A listed register after a read of it. -/
theorem Dev.reg_devAfterRead_self (d : Dev) {a : Nat} {r : RegRow} (hr : devRow a = some r) :
    (d.devAfterRead a).reg a = r.afterRead (d.reg a) := by
  simp only [Dev.devAfterRead, hr]
  split
  case isTrue h => rw [RegRow.afterRead_of_rc_zero h]
  case isFalse => rw [Dev.reg_setReg_self]

theorem Dev.reg_devAfterRead_ne (d : Dev) {a b : Nat} (h : b ≠ a) : (d.devAfterRead a).reg b = d.reg b := by
  obtain e | ⟨v, e⟩ := d.devAfterRead_cases a
  · rw [e]
  · rw [e, d.reg_setReg_ne _ _ h]

/-- A 32-bit read at the address of a register of BAR0 captures it. -/
theorem Dev.devRead32_low (d : Dev) {a : Nat} {r : RegRow} (hr : devRow a = some r) :
    d.devRead32 a = ({ d.devAfterRead a with hostCap := some (a, d.devVal a) }, (d.devVal a).truncate 32) := by
  have ha := devRow_aligned hr
  have hq : a / 8 * 8 = a := by omega
  have h4 : a % 4 = 0 := by omega
  simp only [Dev.devRead32, hq, hr, ha, h4, lo32_eq]
  simp

/-- A 32-bit read of the high word of the captured register changes nothing and answers the captured half. -/
theorem Dev.devRead32_high {d : Dev} {a : Nat} {r : RegRow} {w : W64} (hr : devRow a = some r) (hc : d.hostCap = some (a, w)) :
    d.devRead32 (a + 4) = (d, (w >>> 32).truncate 32) := by
  have ha := devRow_aligned hr
  have hq : (a + 4) / 8 * 8 = a := by omega
  have h4 : (a + 4) % 4 = 0 := by omega
  have h8 : (a + 4) % 8 ≠ 0 := by omega
  simp only [Dev.devRead32, hq, hr, h4, h8, hc, hi32_eq]
  simp

/-- The read side effect of a register of a tile changes that register or nothing. -/
theorem Tile.afterRead_cases (x : Tile) (a : Nat) : x.afterRead a = x ∨ ∃ v, x.afterRead a = x.setReg a v := by
  unfold Tile.afterRead
  split
  · split
    · exact .inl rfl
    · exact .inr ⟨_, rfl⟩
  · exact .inl rfl

@[simp] theorem Tile.afterRead_scb (x : Tile) (a : Nat) : (x.afterRead a).scb = x.scb := by
  obtain h | ⟨v, h⟩ := x.afterRead_cases a <;> rw [h]
  rfl

/-- A listed register of a tile after a read of it. -/
theorem Tile.reg_afterRead_self (x : Tile) {a : Nat} {r : RegRow} (hr : tileRow a = some r) :
    (x.afterRead a).reg a = r.afterRead (x.reg a) := by
  simp only [Tile.afterRead, hr]
  split
  case isTrue h => rw [RegRow.afterRead_of_rc_zero h]
  case isFalse => rw [Tile.reg_setReg_self]

theorem Tile.reg_afterRead_ne (x : Tile) {a b : Nat} (h : b ≠ a) : (x.afterRead a).reg b = x.reg b := by
  obtain e | ⟨v, e⟩ := x.afterRead_cases a
  · rw [e]
  · rw [e, x.reg_setReg_ne _ _ h]

/-- A tile after its Scarab's 32-bit read of the low word of register `a`: the read side effect, and the capture. -/
def Tile.captured (x : Tile) (t a : Nat) : Tile := { x.afterRead a with cap := some (capKey t a, x.regVal a) }

@[simp] theorem Tile.captured_scb (x : Tile) (t a : Nat) : (x.captured t a).scb = x.scb := x.afterRead_scb a

/-- A Scarab's 32-bit read at the address of a register outside the AG blocks, but for the counters of waiting time, captures it. -/
theorem Dev.tileRead32_scarab_low (d : Dev) (t : Nat) {a : Nat} {r : RegRow} (hr : tileRow a = some r) (hg : a < 0x400 ∨ 0x800 ≤ a)
    (hc : cycleCounter a = false) :
    d.tileRead32 .scarab t a = (d.setTile t ((d.tile t).captured t a), ((d.tile t).regVal a).truncate 32) := by
  have ha := tileRow_aligned hr
  have hq : a / 8 * 8 = a := by omega
  have ht : d.tileTick t a = d := by simp [Dev.tileTick, hc]
  rw [Dev.tileRead32, if_neg (by omega)]
  simp only [hq, hr, ha, ht, lo32_eq, Dev.setCap, Dev.modTile, Dev.tile_setTile_self, Dev.setTile_setTile]
  simp [Tile.captured]

/-! ### The commands that read -/

theorem exec_captureRead_dev (s : State) (off : Nat) :
    exec (.captureRead .host (.dev off)) s = .next { s with dev := Dev.answer (s.dev.devRead32 off) } := rfl

/-- CRD of a listed register outside the AG blocks that counts no waiting time, with no claim outstanding where it reads WVL_CLAIMED. -/
theorem exec_crd_of_tileRow {s : State} {t a : Nat} {rd rs1 : R5} {imm : I16} {r : RegRow} (h : ScbReady s t)
    (ha : ((s.dev.tile t).gr rs1 + imm.signExtend 32).toNat = a) (hr : tileRow a = some r) (hg : a < 0x400 ∨ 0x800 ≤ a)
    (hc : cycleCounter a = false) (hw : a = Reg.WVL_CLAIMED → (s.dev.tile t).wvl.claimOut = 0) :
    exec (.crd t rd rs1 imm) s = .next { s with dev :=
      (s.dev.setTile t ((s.dev.tile t).captured t a)).scbSet t rd (((s.dev.tile t).regVal a).truncate 32) } := by
  have he : ((s.dev.tile t).ea rs1 imm).toNat = a := ha
  refine (onScb_of_ready _ h).trans ?_
  simp only [he, ctlValid_of_tileRow hr, Bool.true_eq_false, if_false]
  rw [if_neg (fun c => c.2 (hw c.1)), Dev.tileRead32_scarab_low _ _ hr hg hc]

/-- Settles O17: a read of the low word is the read side effect and a new capture, a read of the captured high word changes nothing but what is
sent; the CRD then writes its general register and goes on. -/
theorem registerReadsCaptureTheRegister : Obligations.RegisterReadsCaptureTheRegister := by
  refine ⟨fun s a r hr => ⟨?low, fun w hc => ?high⟩, ?crd⟩
  case low =>
    refine ⟨_, exec_captureRead_dev s a, ?_⟩
    rw [Dev.devRead32_low _ hr, Dev.answer_eq]
    refine ⟨congrArg (· ++ _) (s.dev.devAfterRead_out a), rfl, fun i hi => ?_, fun b hb => s.dev.reg_devAfterRead_ne hb⟩
    exact (congrArg (·.getLsbD i) (s.dev.reg_devAfterRead_self hr)).trans (r.getLsbD_afterRead _ hi)
  case high =>
    refine ⟨_, exec_captureRead_dev s (a + 4), ?_⟩
    rw [Dev.devRead32_high hr hc, Dev.answer_eq]
  case crd =>
    intro s t rd rs1 imm r h x a hr hg hcnt hw
    refine ⟨_, exec_crd_of_tileRow h rfl hr hg hcnt hw, ?_⟩
    obtain ⟨g, hgr⟩ := (x.captured t a).setGr_frame rd ((x.regVal a).truncate 32)
    have hreg : ∀ b, ((x.captured t a).setGr rd ((x.regVal a).truncate 32)).reg b = (x.afterRead a).reg b := fun b => by rw [hgr]; rfl
    rw [Dev.scbSet_eq _ _ _ _ (by simpa using pc_lt_of_scbReady h)]
    simp only [Dev.tile_setTile_self, Dev.setTile_setTile, Tile.reg_scb, Tile.captured_scb]
    refine ⟨Dev.onlyTile_setTile _ _ _, rfl, fun hrd => ?_, by rw [hgr]; rfl, fun b hb => ?_, fun i hi => ?_⟩
    · exact (Tile.gr_scb _ _ rd rfl).trans ((Tile.gr_setGr _ _ _ _).trans (if_pos ⟨rfl, hrd⟩))
    · rw [hreg, x.reg_afterRead_ne hb]
    · rw [hreg, x.reg_afterRead_self hr, r.getLsbD_afterRead _ hi]

end Sys2Proof.Machine

/-! ## The store: profiles, override and remap table

Proofs of the statements of 01 about the non-volatile store (R13, 17 R397 to R399): it is legal right after reset (O59), and every step keeps it legal
(O60). Five commands write it (SET_PROFILE, the SMBus override, BIST_COMPLETE, SLICE_SHIFT_DONE, JOURNAL_REPLAY); each is shown to write within the limits.
For every other command the frame of each operation it is made of is stated: the always-on domain is left as it is, or at least its store and its
remap table are. -/

/-! ### The parts of the always-on domain that are never lost -/

namespace Sys2Proof.Machine

open Sys2Proof

/-- The two fields of the always-on domain that survive every reset. -/
def AlwaysOn.nonvol (a : AlwaysOn) : List StoreItem × SMap (BitVec 8) := (a.store, a.skip)

/-- The always-on domain of a choice of two devices. -/
@[simp] theorem Dev.aon_ite (c : Prop) [Decidable c] (a b : Dev) : (if c then a else b).aon = if c then a.aon else b.aon := apply_ite ..

/-- A loop whose every round keeps the always-on domain keeps it. -/
@[simp] theorem foldl_aon {α : Type} {f : Dev → α → Dev} (hf : ∀ d a, (f d a).aon = d.aon) (l : List α) (d : Dev) :
    (l.foldl f d).aon = d.aon := by
  induction l generalizing d with
  | nil => rfl
  | cons x l ih => exact (ih _).trans (hf d x)

/-- A loop whose every round keeps the store and the remap table keeps them. -/
@[simp] theorem foldl_nonvol {α : Type} {f : Dev → α → Dev} (hf : ∀ d a, (f d a).aon.nonvol = d.aon.nonvol) (l : List α) (d : Dev) :
    (l.foldl f d).aon.nonvol = d.aon.nonvol := by
  induction l generalizing d with
  | nil => rfl
  | cons x l ih => exact (ih _).trans (hf d x)

/-- The same of a loop that gathers a value beside the device. -/
@[simp] theorem foldl_fst_aon {α β : Type} {f : Dev × β → α → Dev × β} (hf : ∀ d a, (f d a).1.aon = d.1.aon) (l : List α) (d : Dev × β) :
    (l.foldl f d).1.aon = d.1.aon := by
  induction l generalizing d with
  | nil => rfl
  | cons x l ih => exact (ih _).trans (hf d x)

/-- What a computation that also answers a value keeps, for the device of its answer. -/
theorem aon_of_pair {α : Type} {p : Dev × α} {d e : Dev} {x : α} (hp : p = (e, x)) (h : p.1.aon = d.aon) : e.aon = d.aon := by rw [← h, hp]

/-- A choice of two devices that both kept it. -/
theorem Dev.ite_aon_eq {c : Prop} [Decidable c] {a b d : Dev} (ha : a.aon = d.aon) (hb : b.aon = d.aon) : (if c then a else b).aon = d.aon := by
  split
  · exact ha
  · exact hb

/-- The end of a list of register addresses. -/
theorem mem_none_dev {P : Dev → Prop} : ∀ e ∈ (none : Option Dev), P e := fun e h => absurd h (Option.not_mem_none e)

/-- One arm of a list of register addresses. -/
theorem mem_ite_some {c : Prop} [Decidable c] {P : Dev → Prop} {x : Dev} {o : Option Dev} (hx : P x) (ho : ∀ e ∈ o, P e) :
    ∀ e ∈ (if c then some x else o), P e := by
  split
  · rintro e ⟨⟩
    exact hx
  · exact ho

end Sys2Proof.Machine

/-! ## What each operation leaves unchanged of the always-on domain

One lemma for each operation on the device, in the order of the model's files: `f_aon` where nothing of the always-on domain changes, `f_nonvol`
where only its latch, pins, temperatures or trips do. `simp -implicitDefEqProofs` cites the laws of single updates by name in the proof term: without
that the kernel compares the two devices field by field, which can take it arbitrarily deep into the registers. -/

namespace Sys2Proof.Machine

open Sys2Proof

section

variable (d : Dev)

/-! ### Ops -/

@[simp] theorem Dev.modTiles_aon (d : Dev) (ts : List Nat) (f : Tile → Tile) : (d.modTiles ts f).aon = d.aon :=
  foldl_aon (fun d t => d.modTile_aon t f) ts d

@[simp] theorem Dev.countFree_aon (t a) : (d.countFree t a).aon = d.aon := by simp [Dev.countFree]
@[simp] theorem Dev.setMsixByte_aon (a b) : (d.setMsixByte a b).aon = d.aon := by simp [Dev.setMsixByte]
@[simp] theorem Dev.irq_aon (v) : (d.irq v).aon = d.aon := by simp [Dev.irq]

@[simp] theorem Dev.logMove_aon (n : Nat) (d : Dev) : (Dev.logMove n d).aon = d.aon := by
  induction n generalizing d with
  | zero => rfl
  | succ n ih =>
    unfold Dev.logMove
    split
    · split
      · exact ih _
      · rfl
    · rfl

@[simp] theorem Dev.logFlush_aon : d.logFlush.aon = d.aon := by
  unfold Dev.logFlush
  dsimp only
  split <;> simp

@[simp] theorem Dev.log_aon (kind level body) : (d.log kind level body).aon = d.aon := by simp [Dev.log]
@[simp] theorem Dev.logEvent_aon (kind) : (d.logEvent kind).aon = d.aon := by simp [Dev.logEvent]

@[simp] theorem Dev.trace_aon (id src data) : (d.trace id src data).aon = d.aon := by
  unfold Dev.trace
  dsimp only
  (repeat' split) <;> simp

@[simp] theorem Dev.record_aon (r) : (d.record r).aon = d.aon := by simp [Dev.record]

@[simp] theorem Dev.recordTile_aon (t cls unit status action detail) : (d.recordTile t cls unit status action detail).aon = d.aon := by
  simp [Dev.recordTile]

/-! ### LaneOps -/

@[simp] theorem Dev.clean_aon : d.clean.aon = d.aon := by simp [Dev.clean]
@[simp] theorem Dev.setPortState_aon (p st) : (d.setPortState p st).aon = d.aon := by simp [Dev.setPortState]
@[simp] theorem Dev.portDiscard_aon (p n) : (d.portDiscard p n).aon = d.aon := by simp [Dev.portDiscard]

@[simp] theorem Dev.toPort_aon (src : Nat) (k : Packet) (s : Dev × List Copy) (p : Nat) : (Dev.toPort src k s p).1.aon = s.1.aon := by
  unfold Dev.toPort
  split <;> simp

@[simp] theorem Dev.relayOuts_aon (d : Dev) (src : Nat) (k : Packet) : (d.relayOuts src k).1.aon = d.aon := by
  unfold Dev.relayOuts
  dsimp only
  repeat' split
  all_goals simp

@[simp] theorem Dev.toUnit_aon (k) : (d.toUnit k).aon = d.aon := by simp [Dev.toUnit]
@[simp] theorem Dev.accepted_aon (k) : (d.accepted k).aon = d.aon := by simp [Dev.accepted]
@[simp] theorem Dev.arriveHere_aon (k) : (d.arriveHere k).aon = d.aon := by simp [Dev.arriveHere]
@[simp] theorem Dev.relayIn_aon (src k) : (d.relayIn src k).aon = d.aon := by simp [Dev.relayIn]
@[simp] theorem Dev.unitOut_aon (k) : (d.unitOut k).aon = d.aon := by simp [Dev.unitOut]

@[simp] theorem Dev.relayBody_aon (src v ws) : (d.relayBody src v ws).aon = d.aon := by
  unfold Dev.relayBody
  split <;> simp

@[simp] theorem Dev.relayCut_aon (src v) : (d.relayCut src v).aon = d.aon := by
  unfold Dev.relayCut
  split <;> simp

/-! ### TileOps -/

@[simp] theorem Dev.flip_aon (f) : (d.flip f).aon = d.aon := by
  unfold Dev.flip
  split <;> simp

@[simp] theorem Dev.journal_aon (p) : (d.journal p).aon = d.aon := by simp [Dev.journal]

@[simp] theorem Dev.markBad_aon (t page) : (d.markBad t page).aon = d.aon := by
  unfold Dev.markBad
  split <;> simp

@[simp] theorem Dev.cwMeet_aon (hits) : (d.cwMeet hits).1.aon = d.aon := by simp [Dev.cwMeet]
@[simp] theorem Dev.tierMeet_aon (t rs) : (d.tierMeet t rs).1.aon = d.aon := by simp [Dev.tierMeet]
@[simp] theorem Dev.upset_aon (u) : (d.upset u).aon = d.aon := by simp [Dev.upset]
@[simp] theorem Dev.uncorrNote_aon (t page) : (d.uncorrNote t page).aon = d.aon := by simp [Dev.uncorrNote]
@[simp] theorem Dev.uncorrectable_aon (t page) : (d.uncorrectable t page).aon = d.aon := by simp [Dev.uncorrectable]

/-! ### MeshOps -/

@[simp] theorem Dev.txGo_aon (t n : Nat) (d : Dev) : (Dev.txGo t n d).aon = d.aon := by
  induction n generalizing d with
  | zero => rfl
  | succ n ih =>
    unfold Dev.txGo
    dsimp only
    split
    · rfl
    · split
      · exact ih _
      · split
        · exact ih _
        · exact Dev.countFree_aon ..

@[simp] theorem Dev.txRun_aon (d : Dev) (t : Nat) : (d.txRun t).aon = d.aon := Dev.txGo_aon ..
@[simp] theorem Dev.tileSend_aon (t route a k parts) : (d.tileSend t route a k parts).aon = d.aon := by simp [Dev.tileSend]

@[simp] theorem Dev.sendItem_aon (t q payload) : (d.sendItem t q payload).aon = d.aon := by
  unfold Dev.sendItem
  dsimp only
  split <;> simp

@[simp] theorem Dev.sendShadow_aon (t recs) : (d.sendShadow t recs).aon = d.aon := by
  unfold Dev.sendShadow
  dsimp only
  split <;> simp

@[simp] theorem Dev.unitSend_aon (route kind vc sflow ws) : (d.unitSend route kind vc sflow ws).aon = d.aon := by
  unfold Dev.unitSend
  split <;> simp

@[simp] theorem Dev.unitTake_aon (t k) : (d.unitTake t k).aon = d.aon := by simp [Dev.unitTake]

/-! ### CicOps -/

@[simp] theorem Dev.setCicBit_aon (i b) : (d.setCicBit i b).aon = d.aon := by simp [Dev.setCicBit]
@[simp] theorem Dev.cicErr_aon (i) : (d.cicErr i).aon = d.aon := by simp [Dev.cicErr]
@[simp] theorem Dev.addQuiet_aon (a b) : (d.addQuiet a b).aon = d.aon := by simp [Dev.addQuiet]
@[simp] theorem Dev.transmit_aon (fr) : (d.transmit fr).aon = d.aon := by simp [Dev.transmit]
@[simp] theorem Dev.sendFrame_aon (type payload) : (d.sendFrame type payload).aon = d.aon := by simp [Dev.sendFrame]
@[simp] theorem Dev.planWindow_aon (t) : (d.planWindow t).aon = d.aon := by simp [Dev.planWindow]
@[simp] theorem Dev.askWindow_aon (t) : (d.askWindow t).aon = d.aon := by simp [Dev.askWindow]
@[simp] theorem Dev.ringNotice_aon (subject recid) : (d.ringNotice subject recid).aon = d.aon := by simp [Dev.ringNotice]
@[simp] theorem Dev.ringFault_aon : d.ringFault.aon = d.aon := by simp [Dev.ringFault]
@[simp] theorem Dev.enterHoldover_aon (err) : (d.enterHoldover err).aon = d.aon := by simp [Dev.enterHoldover]

@[simp] theorem Dev.barArrive_aon (id) : (d.barArrive id).aon = d.aon := by
  unfold Dev.barArrive
  (repeat' split) <;> simp -implicitDefEqProofs

@[simp] theorem Dev.barReport_aon (id r) : (d.barReport id r).aon = d.aon := by simp [Dev.barReport]
@[simp] theorem Dev.armFsw_aon (t code by_) : (d.armFsw t code by_).aon = d.aon := by simp [Dev.armFsw]

/-! ### HiveOps -/

@[simp] theorem Dev.setMbState_aon (m st) : (d.setMbState m st).aon = d.aon := by simp [Dev.setMbState]
@[simp] theorem Dev.begin__aon (m) : (d.begin_ m).aon = d.aon := by simp [Dev.begin_]
@[simp] theorem Dev.replyFull_aon (m st detail w57 data) : (d.replyFull m st detail w57 data).aon = d.aon := by simp [Dev.replyFull]
@[simp] theorem Dev.reply_aon (m st) : (d.reply m st).aon = d.aon := by simp [Dev.reply]
@[simp] theorem Dev.replyItems_aon (m w57 items) : (d.replyItems m w57 items).aon = d.aon := by simp [Dev.replyItems]

@[simp] theorem Dev.replyOpt_aon (m st) : (d.replyOpt m st).aon = d.aon := by
  unfold Dev.replyOpt
  split <;> simp

/-! ### WvlOps -/

@[simp] theorem Dev.decFrame_aon (r h f) : (d.decFrame r h f).aon = d.aon := by simp [Dev.decFrame]

@[simp] theorem Dev.translate_aon (r t slot p) : (d.translate r t slot p).1.aon = d.aon := by
  unfold Dev.translate
  dsimp only
  (repeat' split) <;> simp

@[simp] theorem Dev.undoPend_aon (t p) : (d.undoPend t p).aon = d.aon := by
  unfold Dev.undoPend
  (repeat' split) <;> simp

@[simp] theorem Dev.undoPends_aon (d : Dev) (t : Nat) (ps : List PendEnt) : (d.undoPends t ps).aon = d.aon :=
  foldl_aon (fun d p => d.undoPend_aon t p) _ d

@[simp] theorem Dev.wvlAbort_aon (t) : (d.wvlAbort t).aon = d.aon := by simp [Dev.wvlAbort]
@[simp] theorem Dev.wvlCommit_aon (t) : (d.wvlCommit t).aon = d.aon := by simp [Dev.wvlCommit]

/-! ### ServOps -/

@[simp] theorem Dev.ringMessage_aon (p) : (d.ringMessage p).aon = d.aon := by simp [Dev.ringMessage]
@[simp] theorem Dev.ringIrq_aon (p) : (d.ringIrq p).aon = d.aon := by simp [Dev.ringIrq]
@[simp] theorem Dev.d2hPut_aon (p bytes) : (d.d2hPut p bytes).aon = d.aon := by simp [Dev.d2hPut]
@[simp] theorem Dev.h2dTake_aon (p n) : (d.h2dTake p n).aon = d.aon := by simp [Dev.h2dTake]

@[simp] theorem Dev.h2dTakeOf_aon (r kind n) : (d.h2dTakeOf r kind n).aon = d.aon := by
  unfold Dev.h2dTakeOf
  (repeat' split) <;> simp

@[simp] theorem Dev.unfetch_aon (r) : (d.unfetch r).aon = d.aon := by simp [Dev.unfetch]
@[simp] theorem Dev.sendReplies_aon (vs) : (d.sendReplies vs).aon = d.aon := by simp [Dev.sendReplies]

@[simp] theorem Dev.finishStep_aon (r f) : (d.finishStep r f).aon = d.aon := by
  unfold Dev.finishStep
  dsimp only
  (repeat' split) <;> simp

@[simp] theorem Dev.runFinsAux_aon (r n : Nat) (d : Dev) : (Dev.runFinsAux r n d).aon = d.aon := by
  induction n generalizing d with
  | zero => rfl
  | succ n ih =>
    unfold Dev.runFinsAux
    dsimp only
    split
    · rfl
    · split
      · exact (ih _).trans (by simp)
      · rfl

@[simp] theorem Dev.runFins_aon (r) : (d.runFins r).aon = d.aon := by simp [Dev.runFins]

@[simp] theorem Dev.cancelSlot_aon (slot) : (d.cancelSlot slot).1.aon = d.aon := by
  unfold Dev.cancelSlot
  dsimp only
  split <;> simp

@[simp] theorem Dev.cancelNow_aon (m slot) : (d.cancelNow m slot).aon = d.aon := by simp [Dev.cancelNow]
@[simp] theorem Dev.decideCancels_aon (r) : (d.decideCancels r).1.aon = d.aon := by simp [Dev.decideCancels]
@[simp] theorem Dev.stopped_aon (r) : (d.stopped r).1.aon = d.aon := by simp [Dev.stopped]
@[simp] theorem Dev.enterStopped_aon (r) : (d.enterStopped r).aon = d.aon := by simp [Dev.enterStopped]
@[simp] theorem Dev.swapLeave_aon (r) : (d.swapLeave r).aon = d.aon := by simp [Dev.swapLeave]
@[simp] theorem Dev.toFault_aon (r) : (d.toFault r).aon = d.aon := by simp [Dev.toFault]

@[simp] theorem Dev.endStep_aon (r status) : (d.endStep r status).aon = d.aon := by
  unfold Dev.endStep
  dsimp only
  split <;> simp

/-! ### Abort -/

@[simp] theorem Dev.abortTile_aon (k t) : (d.abortTile k t).aon = d.aon := by
  unfold Dev.abortTile
  split <;> simp

@[simp] theorem Dev.abortTiles_aon (k r) : (d.abortTiles k r).aon = d.aon := by simp [Dev.abortTiles]
@[simp] theorem Dev.stepRerun_aon (r) : (d.stepRerun r).aon = d.aon := by simp [Dev.stepRerun]
@[simp] theorem Dev.stepFail_aon (r) : (d.stepFail r).aon = d.aon := by simp [Dev.stepFail]
@[simp] theorem Dev.stepTrouble_aon (r) : (d.stepTrouble r).aon = d.aon := by simp [Dev.stepTrouble]
@[simp] theorem Dev.dropPackets_aon (r) : (d.dropPackets r).aon = d.aon := by simp -implicitDefEqProofs [Dev.dropPackets]
@[simp] theorem Dev.regionAbort_aon (r) : (d.regionAbort r).aon = d.aon := by simp [Dev.regionAbort]
@[simp] theorem Dev.recoveryAbort_aon (r) : (d.recoveryAbort r).aon = d.aon := by simp -implicitDefEqProofs [Dev.recoveryAbort]
@[simp] theorem Dev.siteDefect_aon (t) : (d.siteDefect t).aon = d.aon := by simp [Dev.siteDefect]
@[simp] theorem Dev.rerunError_aon (r t unit detail) : (d.rerunError r t unit detail).aon = d.aon := by simp [Dev.rerunError]
@[simp] theorem Dev.parityOutside_aon (t a) : (d.parityOutside t a).aon = d.aon := by simp [Dev.parityOutside]

@[simp] theorem Dev.parityRead_aon (t a) : (d.parityRead t a).1.aon = d.aon := by
  unfold Dev.parityRead
  split <;> simp

@[simp] theorem Dev.spadCheck_aon (t a n) : (d.spadCheck t a n).1.aon = d.aon := by
  unfold Dev.spadCheck
  split <;> simp

@[simp] theorem Dev.spadChecks_aon (qs : List (Nat × Nat × Nat)) (d : Dev) : (Dev.spadChecks qs d).1.aon = d.aon := by
  induction qs generalizing d with
  | nil => rfl
  | cons q qs ih =>
    unfold Dev.spadChecks
    split <;> rename_i h
    · exact aon_of_pair h (Dev.spadCheck_aon ..)
    · exact (ih _).trans (aon_of_pair h (Dev.spadCheck_aon ..))

@[simp] theorem Dev.mergeCheck_aon (t a n) : (d.mergeCheck t a n).1.aon = d.aon := by
  unfold Dev.mergeCheck
  split <;> simp

/-! ### TileReg -/

@[simp] theorem Dev.tileTick_aon (t a) : (d.tileTick t a).aon = d.aon := by simp [Dev.tileTick]

@[simp] theorem Dev.setCap_aon (w t a v) : (d.setCap w t a v).aon = d.aon := by
  unfold Dev.setCap
  split <;> simp

@[simp] theorem Dev.tileRead32_aon (w t a) : (d.tileRead32 w t a).1.aon = d.aon := by
  unfold Dev.tileRead32
  dsimp only
  (repeat' split) <;> simp

@[simp] theorem Dev.tileRead64_aon (t a) : (d.tileRead64 t a).1.aon = d.aon := by
  unfold Dev.tileRead64
  split <;> simp

@[simp] theorem Dev.claimGot_aon (t i) : (d.claimGot t i).aon = d.aon := by simp [Dev.claimGot]
@[simp] theorem Dev.claimServe_aon (lead) : (d.claimServe lead).1.aon = d.aon := by simp [Dev.claimServe]

@[simp] theorem Dev.wvlClaim_aon (t) : (d.wvlClaim t).aon = d.aon := by
  unfold Dev.wvlClaim
  dsimp only
  split <;> simp

@[simp] theorem Dev.tileWrite_aon (t a m v) : (d.tileWrite t a m v).aon = d.aon := by
  unfold Dev.tileWrite
  split <;> simp

@[simp] theorem Dev.tileWrite32_aon (t a v) : (d.tileWrite32 t a v).aon = d.aon := by simp [Dev.tileWrite32]
@[simp] theorem Dev.tileWrite64_aon (t a v) : (d.tileWrite64 t a v).aon = d.aon := by simp [Dev.tileWrite64]

/-! ### Queue -/

@[simp] theorem Dev.qConfig_aon (t n w0 w1 w2 w3) : (d.qConfig t n w0 w1 w2 w3).2.aon = d.aon := by
  unfold Dev.qConfig
  dsimp only
  (repeat' split) <;> simp

/-! ### WtOps -/

@[simp] theorem Dev.modSession_aon (session f) : (d.modSession session f).aon = d.aon := by simp [Dev.modSession]
@[simp] theorem Dev.modHead_aon (session f) : (d.modHead session f).aon = d.aon := by simp [Dev.modHead]
@[simp] theorem Dev.sendAck_aon (s kind shard status jseq) : (d.sendAck s kind shard status jseq).aon = d.aon := by simp [Dev.sendAck]
@[simp] theorem Dev.sessionErr_aon (s shard status) : (d.sessionErr s shard status).aon = d.aon := by simp [Dev.sessionErr]
@[simp] theorem Dev.nakShard_aon (s shard) : (d.nakShard s shard).aon = d.aon := by simp [Dev.nakShard]
@[simp] theorem Dev.issueDma_aon (use) : (d.issueDma use).aon = d.aon := by simp [Dev.issueDma]
@[simp] theorem Dev.dropDma_aon (use) : (d.dropDma use).aon = d.aon := by simp [Dev.dropDma]
@[simp] theorem Dev.loadResident_aon (r x) : (d.loadResident r x).1.aon = d.aon := by simp [Dev.loadResident]
@[simp] theorem Dev.loadResidents_aon (r xs) : (d.loadResidents r xs).1.aon = d.aon := by simp [Dev.loadResidents]
@[simp] theorem Dev.copyMap_aon (r) : (d.copyMap r).aon = d.aon := by simp [Dev.copyMap]

@[simp] theorem Dev.swapStep_aon (w) : (d.swapStep w).1.aon = d.aon := by
  unfold Dev.swapStep
  dsimp only
  (repeat' split) <;> simp -implicitDefEqProofs

@[simp] theorem Dev.swapRun_aon : d.swapRun.aon = d.aon := by simp [Dev.swapRun]
@[simp] theorem Dev.badSlice_aon (t) : (d.badSlice t).aon = d.aon := by simp [Dev.badSlice]

/-! ### LoadOps -/

@[simp] theorem Dev.loadRegs_aon (t ss recov) : (d.loadRegs t ss recov).aon = d.aon := by simp [Dev.loadRegs]
@[simp] theorem Dev.setRoutes_aon (rs) : (d.setRoutes rs).aon = d.aon := by simp [Dev.setRoutes]
@[simp] theorem Dev.unload_aon (r) : (d.unload r).aon = d.aon := by simp -implicitDefEqProofs [Dev.unload]
@[simp] theorem Dev.loadFailed_aon (r recov) : (d.loadFailed r recov).aon = d.aon := by simp -implicitDefEqProofs [Dev.loadFailed]

@[simp] theorem Dev.loadApply_aon (d : Dev) (q : LoadReq) (p : Prog) (ss : List Sect) (recov : Bool) : (d.loadApply q p ss recov).1.aon = d.aon := by
  unfold Dev.loadApply
  dsimp only
  split <;> rename_i h
  · refine (Dev.loadFailed_aon ..).trans ((aon_of_pair h (Dev.loadResidents_aon ..)).trans ?_)
    simp -implicitDefEqProofs
  · refine (Dev.modRegion_aon ..).trans (Eq.trans ?_ ((aon_of_pair h (Dev.loadResidents_aon ..)).trans ?_))
    · split <;> simp -implicitDefEqProofs
    · simp -implicitDefEqProofs

@[simp] theorem Dev.dmaErr_aon (k pair) : (d.dmaErr k pair).aon = d.aon := by simp [Dev.dmaErr]

@[simp] theorem Dev.modelProgram_aon (d : Dev) (id gen : W32) : (d.modelProgram id gen).1.aon = d.aon := by
  unfold Dev.modelProgram
  split
  · rfl
  · split
    · rfl
    · split
      · rfl
      · split <;> rename_i h
        · exact aon_of_pair h (Dev.tierMeet_aon ..)
        · exact (foldl_aon (fun d p => d.uncorrectable_aon _ p) _ _).trans (aon_of_pair h (Dev.tierMeet_aon ..))

@[simp] theorem Dev.loadChecked_aon (q recov) : (d.loadChecked q recov).1.aon = d.aon := by
  unfold Dev.loadChecked
  split <;> simp

@[simp] theorem Dev.loadImage_aon (q recov) : (d.loadImage q recov).1.aon = d.aon := by
  unfold Dev.loadImage
  dsimp only
  (repeat' split) <;> simp

/-! ### RouteOps -/

@[simp] theorem Dev.misroute_aon (t) : (d.misroute t).aon = d.aon := by simp [Dev.misroute]

@[simp] theorem Dev.boundDrop_aon (t r) : (d.boundDrop t r).aon = d.aon := by
  unfold Dev.boundDrop
  dsimp only
  (repeat' split) <;> simp

@[simp] theorem Dev.deliver_aon (t k) : (d.deliver t k).aon = d.aon := by simp [Dev.deliver]

@[simp] theorem Dev.route1_aon (t inp k) : (d.route1 t inp k).1.aon = d.aon := by
  unfold Dev.route1
  dsimp only
  (repeat' split) <;> simp

@[simp] theorem Dev.sendFlit_aon (t d m) : (Dev.sendFlit t d m).aon = d.aon := by
  unfold Dev.sendFlit
  dsimp only
  split <;> simp

@[simp] theorem Dev.epochs_aon : d.epochs.aon = d.aon := by simp [Dev.epochs]
@[simp] theorem Dev.meshCycle_aon : d.meshCycle.aon = d.aon := by simp [Dev.meshCycle]

/-! ### ArrayOps -/

@[simp] theorem Dev.uncorrRead_aon (t ps) : (d.uncorrRead t ps).1.aon = d.aon := by
  unfold Dev.uncorrRead
  dsimp only
  split <;> simp

@[simp] theorem Dev.agReadAux_aon (t n len : Nat) (array : Bool) (k : Nat) (d : Dev) (par : Option Nat) :
    (Dev.agReadAux t n len array k d par).d.aon = d.aon := by
  induction k generalizing d par with
  | zero => rfl
  | succ k ih =>
    unfold Dev.agReadAux
    dsimp only
    repeat' split
    all_goals simp [ih]

@[simp] theorem Dev.agRead_aon (d : Dev) (t n len : Nat) (array : Bool) : (d.agRead t n len array).d.aon = d.aon := Dev.agReadAux_aon ..

@[simp] theorem Dev.unitRead_aon (d : Dev) (t n len : Nat) (array : Bool) : (d.unitRead t n len array).1.aon = d.aon := by
  unfold Dev.unitRead
  dsimp only
  repeat' split
  all_goals simp

@[simp] theorem Dev.agWrite_aon (d : Dev) (t n : Nat) (bs : List Byte) (array : Bool) : (d.agWrite t n bs array).d.aon = d.aon := by
  unfold Dev.agWrite
  dsimp only
  split
  · rfl
  · exact Dev.modTile_aon ..
  · split <;> exact Dev.modTile_aon ..

@[simp] theorem Dev.unitWrite_aon (d : Dev) (t n : Nat) (bs : List Byte) (array : Bool) : (d.unitWrite t n bs array).1.aon = d.aon := by
  unfold Dev.unitWrite
  dsimp only
  split
  · exact Dev.agWrite_aon ..
  · split <;> rename_i h
    · exact aon_of_pair h (Dev.parityRead_aon ..)
    · exact (Dev.agWrite_aon ..).trans (aon_of_pair h (Dev.parityRead_aon ..))

@[simp] theorem Dev.planeParity_aon (t j) : (d.planeParity t j).1.aon = d.aon := by
  unfold Dev.planeParity
  dsimp only
  split <;> simp

@[simp] theorem Dev.acwLoop_aon (t id total : Nat) {f : Dev → AcwEntry → Dev × Bool} (hf : ∀ d e, (f d e).1.aon = d.aon) (n : Nat) (d : Dev) :
    (d.acwLoop t id total f n).aon = d.aon := by
  induction n generalizing d with
  | zero => rfl
  | succ n ih =>
    unfold Dev.acwLoop
    split
    · rfl
    · dsimp only
      repeat' split
      · exact Dev.modTile_aon ..
      · exact (ih _).trans ((Dev.modTile_aon ..).trans (hf ..))
      · exact hf ..

@[simp] theorem Dev.itemUnit_aon (d : Dev) (t : Nat) (e : AcwEntry) (size : Nat) : (d.itemUnit t e size).1.aon = d.aon := by
  unfold Dev.itemUnit
  dsimp only
  repeat' split
  all_goals simp

@[simp] theorem Dev.operand_aon (d : Dev) (t id k n len : Nat) (array : Bool) : (d.operand t id k n len array).1.aon = d.aon := by
  unfold Dev.operand
  split
  · rfl
  · split <;> rename_i h
    · exact (Dev.modTile_aon ..).trans (aon_of_pair h (Dev.unitRead_aon ..))
    · exact aon_of_pair h (Dev.unitRead_aon ..)

/-- An operand that only some formats have. -/
theorem Dev.operandIf_aon (d : Dev) (c : Bool) (t id k n len : Nat) (array : Bool) :
    (if c then d.operand t id k n len array else (d, some [])).1.aon = d.aon := by
  split
  · exact Dev.operand_aon ..
  · rfl

@[simp] theorem Dev.loadBlock_aon (d : Dev) (t id : Nat) (a : Acw) (b : Bool) (j : Nat) : (d.loadBlock t id a b j).1.aon = d.aon := by
  unfold Dev.loadBlock
  split <;> rename_i h1
  · exact aon_of_pair h1 (Dev.operand_aon ..)
  · have e1 := aon_of_pair h1 (Dev.operand_aon ..)
    split <;> rename_i h2
    · exact (aon_of_pair h2 (Dev.operandIf_aon ..)).trans e1
    · have e2 := (aon_of_pair h2 (Dev.operandIf_aon ..)).trans e1
      split <;> rename_i h3
      · exact (aon_of_pair h3 (Dev.operandIf_aon ..)).trans e2
      · exact (Dev.modTile_aon ..).trans ((aon_of_pair h3 (Dev.operandIf_aon ..)).trans e2)

@[simp] theorem Dev.loadBlocks_aon (t id : Nat) (a : Acw) (l : List (Bool × Nat)) (d : Dev) : (Dev.loadBlocks t id a l d).1.aon = d.aon := by
  induction l generalizing d with
  | nil => rfl
  | cons x xs ih =>
    unfold Dev.loadBlocks
    split <;> rename_i h
    · exact (ih _).trans (aon_of_pair h (Dev.loadBlock_aon ..))
    · exact aon_of_pair h (Dev.loadBlock_aon ..)

@[simp] theorem Dev.outPut_aon (t e bs) : (d.outPut t e bs).1.aon = d.aon := by
  unfold Dev.outPut
  dsimp only
  split <;> simp

@[simp] theorem Dev.outputs_aon (t : Nat) (e : AcwEntry) (os : List (List (Nat × Nat × Nat × Nat))) (d : Dev) :
    (Dev.outputs t e os d).1.aon = d.aon := by
  induction os generalizing d with
  | nil => rfl
  | cons o os ih =>
    unfold Dev.outputs
    dsimp only
    split <;> rename_i h
    · exact (ih _).trans ((Dev.modTile_aon ..).trans (aon_of_pair h (Dev.outPut_aon ..)))
    · exact aon_of_pair h (Dev.outPut_aon ..)

/-! ### Weevil -/

@[simp] theorem Dev.wvlParity_aon (t) : (d.wvlParity t).aon = d.aon := by
  unfold Dev.wvlParity
  dsimp only
  split <;> simp

@[simp] theorem Dev.placeRow_aon (r t slot pg) : (d.placeRow r t slot pg).1.aon = d.aon := by
  unfold Dev.placeRow
  dsimp only
  (repeat' split) <;> simp

@[simp] theorem Dev.appendRow_aon (d : Dev) (t : Nat) (row : AppRow) : (d.appendRow t row).aon = d.aon := by
  unfold Dev.appendRow
  dsimp only
  split
  · exact Dev.setTile_aon ..
  · split <;> rename_i h1
    · exact aon_of_pair h1 (Dev.spadCheck_aon ..)
    · have e1 := aon_of_pair h1 (Dev.spadCheck_aon ..)
      split
      · exact e1
      · split <;> rename_i h2
        · exact (aon_of_pair h2 (Dev.spadChecks_aon ..)).trans e1
        · have e2 := (aon_of_pair h2 (Dev.spadChecks_aon ..)).trans e1
          split <;> rename_i h3
          · exact (Dev.modTile_aon ..).trans ((aon_of_pair h3 (Dev.placeRow_aon ..)).trans e2)
          · have e3 := (aon_of_pair h3 (Dev.placeRow_aon ..)).trans e2
            split <;> rename_i h4
            · exact (aon_of_pair h4 (Dev.mergeCheck_aon ..)).trans e3
            · exact (Dev.modTile_aon ..).trans ((aon_of_pair h4 (Dev.mergeCheck_aon ..)).trans e3)

@[simp] theorem Dev.appendNext_aon (t f) : (d.appendNext t f).aon = d.aon := by
  unfold Dev.appendNext
  split <;> simp

@[simp] theorem Dev.fetchFault_aon (r t slot dest w) : (d.fetchFault r t slot dest w).aon = d.aon := by
  unfold Dev.fetchFault
  dsimp only
  (repeat' split) <;> simp

@[simp] theorem Dev.fetchPos_aon (d : Dev) (t : Nat) (d0 d1 : W64) (i : Nat) : (d.fetchPos t d0 d1 i).1.aon = d.aon := by
  unfold Dev.fetchPos
  dsimp only
  split <;> rename_i h1
  · exact aon_of_pair h1 (Dev.mergeCheck_aon ..)
  · have e1 := aon_of_pair h1 (Dev.mergeCheck_aon ..)
    split
    · exact (Dev.fetchFault_aon ..).trans e1
    · split <;> rename_i h2
      · exact (aon_of_pair h2 (Dev.spadChecks_aon ..)).trans e1
      · have e2 := (aon_of_pair h2 (Dev.spadChecks_aon ..)).trans e1
        split <;> rename_i h3
        · exact (Dev.fetchFault_aon ..).trans ((aon_of_pair h3 (Dev.translate_aon ..)).trans e2)
        · have e3 := (aon_of_pair h3 (Dev.translate_aon ..)).trans e2
          split <;> rename_i h4
          · exact (aon_of_pair h4 (Dev.spadCheck_aon ..)).trans e3
          · exact (Dev.modTile_aon ..).trans ((aon_of_pair h4 (Dev.spadCheck_aon ..)).trans e3)

@[simp] theorem Dev.fetchGo_aon (t : Nat) (d0 d1 : W64) (n i : Nat) (d : Dev) : (Dev.fetchGo t d0 d1 n i d).1.aon = d.aon := by
  induction n generalizing i d with
  | zero => rfl
  | succ n ih =>
    unfold Dev.fetchGo
    split <;> rename_i h
    · exact aon_of_pair h (Dev.fetchPos_aon ..)
    · exact (ih ..).trans (aon_of_pair h (Dev.fetchPos_aon ..))

@[simp] theorem Dev.fetchRun_aon (d : Dev) (t : Nat) (f : Upset) : (d.fetchRun t f).aon = d.aon := by
  unfold Dev.fetchRun
  split
  · rfl
  · split
    · exact Dev.wvlParity_aon ..
    · split <;> rename_i h
      · exact (aon_of_pair h (Dev.fetchGo_aon ..)).trans (Dev.upset_aon ..)
      · exact (Dev.modTile_aon ..).trans ((aon_of_pair h (Dev.fetchGo_aon ..)).trans (Dev.upset_aon ..))

@[simp] theorem Dev.wvlReq_aon (d : Dev) (t : Nat) (q : WvlReq) : (d.wvlReq t q).aon = d.aon := by
  unfold Dev.wvlReq
  dsimp only
  split <;> rename_i h
  · exact aon_of_pair h (Dev.spadChecks_aon ..)
  · refine Eq.trans ?_ (aon_of_pair h (Dev.spadChecks_aon ..))
    split
    · exact Dev.emit_aon ..
    · exact Dev.emit_aon ..
    · exact (Dev.emit_aon ..).trans (Dev.claimServe_aon ..)
    · simp

@[simp] theorem Dev.markUnsync_aon (t slot) : (d.markUnsync t slot).aon = d.aon := by simp [Dev.markUnsync]

@[simp] theorem Dev.wvlCmd_aon (d : Dev) (t op : Nat) {f : Nat → Nat → Dev × W16} (hf : ∀ a b, (f a b).1.aon = d.aon) :
    (d.wvlCmd t op f).aon = d.aon := by
  unfold Dev.wvlCmd
  dsimp only
  split
  · exact (Dev.modTile_aon ..).trans (hf ..)
  · rfl

@[simp] theorem Dev.readpte_aon (d : Dev) (t : Nat) : (d.readpte t).aon = d.aon := by
  refine Dev.wvlCmd_aon _ _ _ fun slot page => ?_
  repeat' split
  all_goals simp

@[simp] theorem Dev.writepte_aon (d : Dev) (t : Nat) : (d.writepte t).aon = d.aon := by
  refine Dev.wvlCmd_aon _ _ _ fun slot page => ?_
  repeat' split
  all_goals simp

@[simp] theorem Dev.ptlbInvCmd_aon (t) : (d.ptlbInvCmd t).aon = d.aon := by
  unfold Dev.ptlbInvCmd
  simp -implicitDefEqProofs

@[simp] theorem Dev.ptlbInvSlotCmd_aon (t) : (d.ptlbInvSlotCmd t).aon = d.aon := by
  unfold Dev.ptlbInvSlotCmd
  simp -implicitDefEqProofs

@[simp] theorem Dev.readft_aon (d : Dev) (t : Nat) : (d.readft t).aon = d.aon := by
  refine Dev.wvlCmd_aon _ _ _ fun slot page => ?_
  repeat' split
  all_goals simp

@[simp] theorem Dev.kvInv_aon (r slot pages) : (d.kvInv r slot pages).aon = d.aon := by simp [Dev.kvInv]

@[simp] theorem Dev.kvChange_aon (d : Dev) (ts : List Nat) {f : Dev → Dev} (hf : ∀ e, (f e).aon = e.aon) : (d.kvChange ts f).aon = d.aon :=
  (foldl_aon (fun e t => e.modTile_aon t _) ts _).trans ((hf _).trans (Dev.modTiles_aon ..))

@[simp] theorem Dev.dirCheck_aon (h slot) : (d.dirCheck h slot).aon = d.aon := by simp [Dev.dirCheck]

@[simp] theorem Dev.kvShare_aon (m r src dst n) : (d.kvShare m r src dst n).aon = d.aon := by
  unfold Dev.kvShare
  (repeat' split) <;> simp -implicitDefEqProofs

@[simp] theorem Dev.freeEntries_aon (d : Dev) (r h slot : Nat) (es : List (Nat × W32)) : (d.freeEntries r h slot es).aon = d.aon := by
  refine foldl_aon (fun d e => ?_) es d
  dsimp only
  repeat' split
  all_goals simp

@[simp] theorem Dev.kvFree_aon (m r slot first n f) : (d.kvFree m r slot first n f).aon = d.aon := by
  unfold Dev.kvFree
  split <;> simp

@[simp] theorem Dev.freeSlot_aon (r h slot) : (d.freeSlot r h slot).aon = d.aon := by simp [Dev.freeSlot]

@[simp] theorem Dev.kvFreeSlot_aon (m r slot) : (d.kvFreeSlot m r slot).aon = d.aon := by
  unfold Dev.kvFreeSlot
  split <;> simp

@[simp] theorem Dev.rebuildFt_aon (d : Dev) (r : Nat) (ts : List Nat) : (d.rebuildFt r ts).aon = d.aon :=
  foldl_aon (fun d t => d.modTile_aon t _) ts d

@[simp] theorem Dev.kvRestore_aon (d : Dev) (rect : Rect) (r : Nat) : (d.kvRestore rect r).2.2.aon = d.aon := by
  unfold Dev.kvRestore
  dsimp only
  repeat' split
  all_goals simp

@[simp] theorem Dev.wvlClaimedRead_aon (t who) : (d.wvlClaimedRead t who).aon = d.aon := by simp [Dev.wvlClaimedRead]
@[simp] theorem Dev.shadowSend_aon (t) : (d.shadowSend t).aon = d.aon := by simp [Dev.shadowSend]

@[simp] theorem Dev.shadowArrival_aon (t src q) : (d.shadowArrival t src q).aon = d.aon := by
  unfold Dev.shadowArrival
  split <;> simp

@[simp] theorem Dev.shadowTimeout_aon (t) : (d.shadowTimeout t).aon = d.aon := by simp [Dev.shadowTimeout]

/-! ### FltOps -/

@[simp] theorem Dev.abortAll_aon (rs) : (d.abortAll rs).aon = d.aon := by simp [Dev.abortAll]
@[simp] theorem Dev.faultSend_aon (v action cs) : (d.faultSend v action cs).aon = d.aon := by simp [Dev.faultSend]
@[simp] theorem Dev.setRecov_aon (v) : (d.setRecov v).aon = d.aon := by simp [Dev.setRecov]
@[simp] theorem Dev.sawSubject_aon (subject recid) : (d.sawSubject subject recid).aon = d.aon := by simp [Dev.sawSubject]
@[simp] theorem Dev.closeRecovery_aon (v) : (d.closeRecovery v).aon = d.aon := by simp [Dev.closeRecovery]

@[simp] theorem Dev.tryRelease_aon : d.tryRelease.aon = d.aon := by
  unfold Dev.tryRelease
  split <;> simp

@[simp] theorem Dev.partDone_aon (recid) : (d.partDone recid).aon = d.aon := by simp [Dev.partDone]

@[simp] theorem Dev.waitParts_aon : d.waitParts.aon = d.aon := by
  unfold Dev.waitParts
  split <;> simp

@[simp] theorem Dev.openRecovery_aon (cls subject loc sites rs own rec) : (d.openRecovery cls subject loc sites rs own rec).aon = d.aon := by
  unfold Dev.openRecovery
  dsimp only
  split <;> simp

@[simp] theorem Dev.noSites_aon : d.noSites.aon = d.aon := by
  unfold Dev.noSites
  split <;> simp

@[simp] theorem Dev.loseSlots_aon (d : Dev) (r : Nat) (slots : List Nat) : (d.loseSlots r slots).aon = d.aon := by
  unfold Dev.loseSlots
  extract_lets e
  have he : e.aon = d.aon := foldl_aon (fun d s => by dsimp only; split <;> simp) slots d
  split
  · exact (Dev.setRecov_aon ..).trans he
  · exact he

@[simp] theorem Dev.planAct_aon (a) : (d.planAct a).2.aon = d.aon := by
  unfold Dev.planAct
  dsimp only
  (repeat' split) <;> simp

@[simp] theorem Dev.planRun_aon (l : List PlanAct) (d : Dev) : (Dev.planRun l d).2.aon = d.aon := by
  induction l generalizing d with
  | nil => rfl
  | cons a as ih =>
    unfold Dev.planRun
    dsimp only
    split
    · exact (ih _).trans (Dev.planAct_aon ..)
    · exact Dev.planAct_aon ..

@[simp] theorem Dev.runPlan_aon (subject) : (d.runPlan subject).aon = d.aon := by
  unfold Dev.runPlan
  dsimp only
  (repeat' split) <;> simp

@[simp] theorem Dev.autoAlt_aon (d : Dev) (p : Nat) : (d.autoAlt p).aon = d.aon := by
  unfold Dev.autoAlt
  split
  · refine foldl_aon (fun d e => ?_) d.routes d
    repeat' split
    all_goals simp
  · rfl

/-! ### Fabric -/

@[simp] theorem Dev.completeAll_aon (p) : (d.completeAll p).aon = d.aon := by simp [Dev.completeAll]
@[simp] theorem Dev.frameDrop_aon (p n) : (d.frameDrop p n).aon = d.aon := by simp [Dev.frameDrop]
@[simp] theorem Dev.takeCredit_aon (p b) : (d.takeCredit p b).aon = d.aon := by simp [Dev.takeCredit]
@[simp] theorem Dev.takeHead_aon (p v b) : (d.takeHead p v b).aon = d.aon := by simp [Dev.takeHead]
@[simp] theorem Dev.takeSlot_aon (p d s) : (Dev.takeSlot p d s).aon = d.aon := by simp [Dev.takeSlot]
@[simp] theorem Dev.linkFrame_aon (p fr) : (d.linkFrame p fr).aon = d.aon := by simp [Dev.linkFrame]

@[simp] theorem Dev.fillSlots_aon (p n : Nat) (d : Dev) : (Dev.fillSlots p n d).1.aon = d.aon := by
  induction n generalizing d with
  | zero => rfl
  | succ n ih =>
    unfold Dev.fillSlots
    refine (ih _).trans ?_
    split <;> simp

@[simp] theorem Dev.frameSend_aon (p link) : (d.frameSend p link).aon = d.aon := by simp [Dev.frameSend]
@[simp] theorem Dev.portCycle_aon : d.portCycle.aon = d.aon := by simp [Dev.portCycle]
@[simp] theorem Dev.cycle_aon : d.cycle.aon = d.aon := by simp [Dev.cycle]
@[simp] theorem Dev.creditSend_aon (p) : (d.creditSend p).aon = d.aon := by simp [Dev.creditSend]

@[simp] theorem Dev.portSlotStart_aon (p) : (d.portSlotStart p).aon = d.aon := by
  unfold Dev.portSlotStart
  dsimp only
  (repeat' split) <;> simp

@[simp] theorem Dev.sendNak_aon (k type n) : (d.sendNak k type n).aon = d.aon := by simp [Dev.sendNak]
@[simp] theorem Dev.nakOnce_aon (k n) : (d.nakOnce k n).aon = d.aon := by simp [Dev.nakOnce]
@[simp] theorem Dev.setRx_aon (f) : (d.setRx f).aon = d.aon := by simp [Dev.setRx]
@[simp] theorem Dev.ackNow_aon (f) : (d.ackNow f).aon = d.aon := by simp [Dev.ackNow]
@[simp] theorem Dev.acceptIn_aon (f k) : (d.acceptIn f k).aon = d.aon := by simp [Dev.acceptIn]

@[simp] theorem Dev.e2eArrival_aon (k) : (d.e2eArrival k).aon = d.aon := by
  unfold Dev.e2eArrival
  dsimp only
  (repeat' split) <;> simp

@[simp] theorem Dev.mapHeld_aon (f g) : (d.mapHeld f g).aon = d.aon := by simp [Dev.mapHeld]
@[simp] theorem Dev.setTx_aon (e) : (d.setTx e).aon = d.aon := by simp [Dev.setTx]
@[simp] theorem Dev.ackArrival_aon (f n src) : (d.ackArrival f n src).aon = d.aon := by simp [Dev.ackArrival]

@[simp] theorem Dev.resend_aon (d : Dev) (f : FlowKey) (n : W32) : (d.resend f n).aon = d.aon := by
  unfold Dev.resend
  dsimp only
  split <;> rename_i h
  · exact aon_of_pair h (Dev.spadChecks_aon ..)
  · refine Eq.trans ?_ (aon_of_pair h (Dev.spadChecks_aon ..))
    simp

@[simp] theorem Dev.flowBreak_aon (f) : (d.flowBreak f).aon = d.aon := by
  unfold Dev.flowBreak
  dsimp only
  split <;> simp

@[simp] theorem Dev.resendTimeout_aon (f) : (d.resendTimeout f).aon = d.aon := by
  unfold Dev.resendTimeout
  split <;> simp

@[simp] theorem Dev.dropCopies_aon (p f) : (d.dropCopies p f).aon = d.aon := by simp [Dev.dropCopies]
@[simp] theorem Dev.portStop_aon (p) : (d.portStop p).aon = d.aon := by simp [Dev.portStop]
@[simp] theorem Dev.portFresh_aon (p) : (d.portFresh p).aon = d.aon := by simp [Dev.portFresh]
@[simp] theorem Dev.portDown_aon (p st) : (d.portDown p st).aon = d.aon := by simp [Dev.portDown]
@[simp] theorem Dev.portEnable_aon (p) : (d.portEnable p).aon = d.aon := by simp [Dev.portEnable]
@[simp] theorem Dev.trained_aon (p narrow margin) : (d.trained p narrow margin).aon = d.aon := by simp [Dev.trained]
@[simp] theorem Dev.trainFail_aon (p) : (d.trainFail p).aon = d.aon := by simp [Dev.trainFail]
@[simp] theorem Dev.portDisable_aon (p) : (d.portDisable p).aon = d.aon := by simp [Dev.portDisable]
@[simp] theorem Dev.portIdleDone_aon (p) : (d.portIdleDone p).aon = d.aon := by simp [Dev.portIdleDone]
@[simp] theorem Dev.errlimCheck_aon (p) : (d.errlimCheck p).aon = d.aon := by simp [Dev.errlimCheck]

/-! ### PwrOps -/

@[simp] theorem Dev.trySlow_aon : d.trySlow.1.aon = d.aon := by
  unfold Dev.trySlow
  (repeat' split) <;> simp

@[simp] theorem Dev.rollWindow_aon (b t) : (d.rollWindow b t).aon = d.aon := by simp [Dev.rollWindow]
@[simp] theorem Dev.windowNow_aon : d.windowNow.aon = d.aon := by simp [Dev.windowNow]

@[simp] theorem Dev.present_aon (d : Dev) (r energy : Nat) : (d.present r energy).1.aon = d.aon := by
  have hc : (if min energy d.windowNow.bDev < energy then d.windowNow.count Reg.PWR_CNT 0 16 1 else d.windowNow).aon = d.aon :=
    Dev.ite_aon_eq d.windowNow_aon d.windowNow_aon
  unfold Dev.present
  dsimp only
  split
  · rfl
  · generalize (if min energy d.windowNow.bDev < energy then d.windowNow.count Reg.PWR_CNT 0 16 1 else d.windowNow) = e at hc ⊢
    split
    · exact hc
    · split
      · split <;> rename_i h
        · exact (aon_of_pair h (Dev.trySlow_aon e)).trans hc
        · exact (aon_of_pair h (Dev.trySlow_aon e)).trans hc
      · exact hc

@[simp] theorem Dev.energyBoundary_aon (r e0 energy) : (d.energyBoundary r e0 energy).aon = d.aon := by simp [Dev.energyBoundary]

/-! ### Cicada -/

@[simp] theorem Dev.viewNear_aon (n acc) : (d.viewNear n acc).aon = d.aon := by simp [Dev.viewNear]
@[simp] theorem Dev.viewLoad_aon (n) : (d.viewLoad n).aon = d.aon := by simp [Dev.viewLoad]
@[simp] theorem Dev.viewsRun_aon : d.viewsRun.aon = d.aon := by simp [Dev.viewsRun]
@[simp] theorem Dev.setCount_aon (u) : (d.setCount u).aon = d.aon := by simp [Dev.setCount]
@[simp] theorem Dev.railsRun_aon : d.railsRun.aon = d.aon := by simp -implicitDefEqProofs [Dev.railsRun]

@[simp] theorem Dev.joinMissed_aon : d.joinMissed.aon = d.aon := by
  unfold Dev.joinMissed
  split <;> simp

@[simp] theorem Dev.tick_nonvol (d : Dev) : d.tick.aon.nonvol = d.aon.nonvol := by
  have hl : ∀ (g : Dev → Nat × Tile → Tile → Tile) (l : List (Nat × Tile)) (e : Dev), (l.foldl (fun d x => d.modTile x.1 (g d x)) e).aon = e.aon :=
    fun g => foldl_aon fun d x => d.modTile_aon x.1 _
  have hr : ∀ (e : Dev) (u : Nat), (e.setCount u).viewsRun.joinMissed.railsRun.aon = e.aon := fun e u => by simp
  unfold Dev.tick
  refine (congrArg AlwaysOn.nonvol (hl _ _ _)).trans ?_
  dsimp only
  rw [hr]
  rfl

@[simp] theorem Dev.cicSet_aon (v) : (d.cicSet v).aon = d.aon := by simp [Dev.cicSet]
@[simp] theorem Dev.setMaster_aon (m) : (d.setMaster m).aon = d.aon := by simp [Dev.setMaster]
@[simp] theorem Dev.handOver_aon (dev) : (d.handOver dev).aon = d.aon := by simp [Dev.handOver]
@[simp] theorem Dev.forward_aon (fr payload) : (d.forward fr payload).aon = d.aon := by simp [Dev.forward]

@[simp] theorem Dev.ringIn_aon (d : Dev) (ty : Byte) (fr : RingFrame) (payload : List Byte) {act : Dev → Dev} (hact : ∀ e, (act e).aon = e.aon) :
    (d.ringIn ty fr payload act).aon = d.aon := by
  unfold Dev.ringIn
  dsimp only
  repeat' split
  all_goals simp -implicitDefEqProofs [hact]

@[simp] theorem Dev.correct_aon (off) : (d.correct off).aon = d.aon := by simp [Dev.correct]
@[simp] theorem Dev.markCounts_aon (good badm) : (d.markCounts good badm).aon = d.aon := by simp [Dev.markCounts]
@[simp] theorem Dev.markUnlocked_aon (off) : (d.markUnlocked off).aon = d.aon := by simp [Dev.markUnlocked]
@[simp] theorem Dev.markLocked_aon (off) : (d.markLocked off).aon = d.aon := by simp [Dev.markLocked]
@[simp] theorem Dev.markTaken_aon : d.markTaken.aon = d.aon := by simp [Dev.markTaken]
@[simp] theorem Dev.markGood_aon (src off) : (d.markGood src off).aon = d.aon := by simp [Dev.markGood]
@[simp] theorem Dev.joinQuiet_aon (t) : (d.joinQuiet t).aon = d.aon := by simp [Dev.joinQuiet]
@[simp] theorem Dev.sendJoin_aon (ty dev) : (d.sendJoin ty dev).aon = d.aon := by simp [Dev.sendJoin]

@[simp] theorem Dev.closeBypass_nonvol (d : Dev) : d.closeBypass.aon.nonvol = d.aon.nonvol := by
  rw [Dev.closeBypass, Dev.setCicBit_aon, Dev.setCicBit_aon]
  rfl

@[simp] theorem Dev.markTimeout_nonvol (d : Dev) (highest : Bool) : (d.markTimeout highest).aon.nonvol = d.aon.nonvol := by
  unfold Dev.markTimeout
  repeat' split
  · rw [Dev.setMaster_aon, Dev.setCicBit_aon]
    rfl
  all_goals simp

@[simp] theorem Dev.joinClear_aon : d.joinClear.aon = d.aon := by simp [Dev.joinClear]
@[simp] theorem Dev.cicFsw_aon (code scope) : (d.cicFsw code scope).aon = d.aon := by simp [Dev.cicFsw]

@[simp] theorem Dev.freqSwitch_aon : d.freqSwitch.aon = d.aon := by
  unfold Dev.freqSwitch
  (repeat' split) <;> simp -implicitDefEqProofs

/-! ### StepOps -/

@[simp] theorem Dev.fetchAhead_aon (r) : (d.fetchAhead r).aon = d.aon := by simp [Dev.fetchAhead]
@[simp] theorem Dev.stepRefuse_aon (r i st) : (d.stepRefuse r i st).aon = d.aon := by simp [Dev.stepRefuse]
@[simp] theorem Dev.nameTenants_aon (r rag) : (d.nameTenants r rag).1.aon = d.aon := by simp -implicitDefEqProofs [Dev.nameTenants]

@[simp] theorem Dev.admitDone_aon (r) : (d.admitDone r).aon = d.aon := by
  unfold Dev.admitDone
  dsimp only
  split <;> simp

@[simp] theorem Dev.admitStep_aon (r i) : (d.admitStep r i).aon = d.aon := by simp [Dev.admitStep]

@[simp] theorem Dev.dispatchAll_aon (d : Dev) (r nent : Nat) : (d.dispatchAll r nent).aon = d.aon := by
  unfold Dev.dispatchAll
  split <;> rename_i e h
  · exact aon_of_pair h (Dev.spadChecks_aon ..)
  · split
    rename_i f bad hfold
    have hf : f.aon = d.aon :=
      (aon_of_pair hfold (foldl_fst_aon (fun s t => by split <;> simp) _ (e, []))).trans (aon_of_pair h (Dev.spadChecks_aon ..))
    split
    · exact hf
    · exact (Dev.stepFail_aon ..).trans ((foldl_aon (fun d t => d.recordTile_aon t 2 4 St.LENGTH_EXCEEDS 2 0) _ _).trans hf)

@[simp] theorem Dev.ingress_aon (r i) : (d.ingress r i).aon = d.aon := by simp -implicitDefEqProofs [Dev.ingress]

@[simp] theorem Dev.runStart_aon (r n) : (d.runStart r n).aon = d.aon := by
  unfold Dev.runStart
  dsimp only
  split <;> simp

@[simp] theorem Dev.stepStart_aon (r) : (d.stepStart r).aon = d.aon := by simp [Dev.stepStart]

@[simp] theorem Dev.rerunStart_aon (d : Dev) (r : Nat) : (d.rerunStart r).aon = d.aon := by
  unfold Dev.rerunStart
  dsimp only
  split
  · split <;> rename_i h
    · exact (Dev.stepFail_aon ..).trans (aon_of_pair h (Dev.loadResidents_aon ..))
    · exact (Dev.runStart_aon ..).trans ((Dev.modRegion_aon ..).trans (aon_of_pair h (Dev.loadResidents_aon ..)))
  · rfl

@[simp] theorem Dev.charge_aon (resv failed) : (d.charge resv failed).aon = d.aon := by simp [Dev.charge]

@[simp] theorem Dev.shadowCheck_aon (t) : (d.shadowCheck t).aon = d.aon := by
  unfold Dev.shadowCheck
  dsimp only
  (repeat' split) <;> simp

@[simp] theorem Dev.commitTiles_aon (r step) : (d.commitTiles r step).aon = d.aon := by simp [Dev.commitTiles]

@[simp] theorem Dev.commit_aon (d : Dev) (r : Nat) (a : Adm) : (d.commit r a).aon = d.aon := by
  unfold Dev.commit
  dsimp only
  split <;> simp -implicitDefEqProofs

@[simp] theorem Dev.stepBoundary_aon (d : Dev) (r : Nat) : (d.stepBoundary r).aon = d.aon := by
  unfold Dev.stepBoundary
  dsimp only
  split
  · rfl
  · split
    · split <;> rename_i h
      · exact aon_of_pair h (Dev.spadChecks_aon ..)
      · exact Eq.trans (by simp) (aon_of_pair h (Dev.spadChecks_aon ..))
    · rfl

@[simp] theorem Dev.fillBufs_aon (r p : Nat) (bs : List BufDesc) (d : Dev) (k : Tok) : (Dev.fillBufs r p bs d k).1.aon = d.aon := by
  induction bs generalizing d k with
  | nil => rfl
  | cons b bs ih =>
    unfold Dev.fillBufs
    dsimp only
    split
    · rfl
    · split
      · exact (ih ..).trans ((Dev.h2dTake_aon ..).trans (Dev.emit_aon ..))
      · exact (ih ..).trans ((Dev.count_aon ..).trans (Dev.h2dTake_aon ..))

@[simp] theorem Dev.tokenWrite_aon (r bufs) : (d.tokenWrite r bufs).aon = d.aon := by
  unfold Dev.tokenWrite
  split <;> simp

@[simp] theorem Dev.rxExpiry_aon (r) : (d.rxExpiry r).aon = d.aon := by
  unfold Dev.rxExpiry
  split <;> simp

@[simp] theorem Dev.stepUnread_aon (r) : (d.stepUnread r).aon = d.aon := by simp [Dev.stepUnread]

@[simp] theorem Dev.stepAdmission_aon (r) : (d.stepAdmission r).aon = d.aon := by
  unfold Dev.stepAdmission
  dsimp only
  split <;> simp

/-! ### Journal -/

@[simp] theorem Dev.loseCopies_aon (lost) : (d.loseCopies lost).aon = d.aon := by simp [Dev.loseCopies]
@[simp] theorem Dev.stage1_aon (p) : (d.stage1 p).aon = d.aon := by simp [Dev.stage1]
@[simp] theorem Dev.inForce_aon (p) : (d.inForce p).aon = d.aon := by simp [Dev.inForce]

@[simp] theorem Dev.stage2_aon (p) : (d.stage2 p).aon = d.aon := by
  unfold Dev.stage2
  split <;> simp

@[simp] theorem Dev.stage3_aon : d.stage3.aon = d.aon := by simp [Dev.stage3]
@[simp] theorem Dev.recordNow_aon (k m param) : (d.recordNow k m param).aon = d.aon := by simp [Dev.recordNow]

@[simp] theorem Dev.afterRecord_aon (p) : (d.afterRecord p).aon = d.aon := by
  unfold Dev.afterRecord
  dsimp only
  (repeat' split) <;> simp

@[simp] theorem Dev.checkpoint_aon : d.checkpoint.aon = d.aon := by simp [Dev.checkpoint]

@[simp] theorem Dev.recordFault_aon (p st) : (d.recordFault p st).aon = d.aon := by
  unfold Dev.recordFault
  dsimp only
  (repeat' split) <;> simp

@[simp] theorem Dev.commitRecord_aon (fail) : (d.commitRecord fail).aon = d.aon := by
  unfold Dev.commitRecord
  split <;> simp

@[simp] theorem Dev.copyBack_aon (t) : (d.copyBack t).aon = d.aon := by
  unfold Dev.copyBack
  (repeat' split) <;> simp

@[simp] theorem Dev.readWhere_aon (f) : (d.readWhere f).aon = d.aon := by simp [Dev.readWhere]
@[simp] theorem Dev.replayRead_aon : d.replayRead.aon = d.aon := by simp [Dev.replayRead]
@[simp] theorem Dev.trialBoot_aon (m) : (d.trialBoot m).aon = d.aon := by simp [Dev.trialBoot]

/-! ### Fault -/

@[simp] theorem Dev.faultIn_aon (fr action act) (hact : ∀ (a : Dev), (act a).aon = a.aon) : (d.faultIn fr action act).aon = d.aon := by
  unfold Dev.faultIn
  simp [hact]

@[simp] theorem Dev.localPart_aon (fr rs) : (d.localPart fr rs).aon = d.aon := by simp [Dev.localPart]

@[simp] theorem Dev.quiesce_aon (fr) : (d.quiesce fr).aon = d.aon := by
  unfold Dev.quiesce
  split <;> simp

@[simp] theorem Dev.faultHold_aon (fr) : (d.faultHold fr).aon = d.aon := by
  unfold Dev.faultHold
  split <;> simp

@[simp] theorem Dev.release_aon (fr) : (d.release fr).aon = d.aon := by
  unfold Dev.release
  split <;> simp

@[simp] theorem Dev.tileRecovery_aon (b col) : (d.tileRecovery b col).aon = d.aon := by
  unfold Dev.tileRecovery
  split <;> simp

@[simp] theorem Dev.recoveryTail_aon (v) : (d.recoveryTail v).aon = d.aon := by
  unfold Dev.recoveryTail
  simp -implicitDefEqProofs

@[simp] theorem Dev.nextSite_aon (v) : (d.nextSite v).aon = d.aon := by simp [Dev.nextSite]
@[simp] theorem Dev.spareExhausted_aon (v b col) : (d.spareExhausted v b col).aon = d.aon := by simp [Dev.spareExhausted]

@[simp] theorem Dev.restoreTile_aon (r t sh) : (d.restoreTile r t sh).aon = d.aon := by
  unfold Dev.restoreTile
  dsimp only
  split <;> simp

@[simp] theorem Dev.halfBenchEmpty_aon (d : Dev) (sh : Option ShadowCopy) : (d.halfBenchEmpty sh).aon = d.aon := by
  unfold Dev.halfBenchEmpty
  split
  · rfl
  · refine Dev.ite_aon_eq rfl ?_
    extract_lets restored moved
    have hrestored : restored.aon = d.aon := by
      unfold restored
      repeat' split
      all_goals simp
    have hmoved : moved.aon = d.aon := (foldl_aon (fun d t => by split <;> simp) _ restored).trans hrestored
    split
    · exact (Dev.setRecov_aon ..).trans hmoved
    · exact hmoved

@[simp] theorem Dev.loseSlice_aon (t) : (d.loseSlice t).aon = d.aon := by simp [Dev.loseSlice]

@[simp] theorem Dev.recoveryLoad_aon (r q) : (d.recoveryLoad r q).aon = d.aon := by
  unfold Dev.recoveryLoad
  split <;> simp

@[simp] theorem Dev.deviceLoss_aon (dev) : (d.deviceLoss dev).aon = d.aon := by
  unfold Dev.deviceLoss
  dsimp only
  (repeat' split) <;> simp

@[simp] theorem Dev.fltGroupCmd_aon (m g plen members) : (d.fltGroupCmd m g plen members).aon = d.aon := by simp [Dev.fltGroupCmd]

@[simp] theorem Dev.fltQuery_aon (m recid first count) : (d.fltQuery m recid first count).aon = d.aon := by
  unfold Dev.fltQuery
  dsimp only
  split <;> simp

/-! ### Power -/

@[simp] theorem Dev.avsLoop_aon (n slack) : (d.avsLoop n slack).aon = d.aon := by simp [Dev.avsLoop]
@[simp] theorem Dev.addMicro_aon (a n) : (d.addMicro a n).aon = d.aon := by simp [Dev.addMicro]
@[simp] theorem Dev.energyUpdate_aon (s) : (d.energyUpdate s).aon = d.aon := by simp [Dev.energyUpdate]

@[simp] theorem Dev.recheck_aon (r) : (d.recheck r).aon = d.aon := by
  unfold Dev.recheck
  dsimp only
  split <;> simp

@[simp] theorem Dev.recheckAll_aon : d.recheckAll.aon = d.aon := by simp [Dev.recheckAll]
@[simp] theorem Dev.windowBoundary_aon : d.windowBoundary.aon = d.aon := by simp [Dev.windowBoundary]
@[simp] theorem Dev.pwrWinWrite_aon (v) : (d.pwrWinWrite v).aon = d.aon := by simp [Dev.pwrWinWrite]
@[simp] theorem Dev.pwrBudgetWrite_aon (a v) : (d.pwrBudgetWrite a v).aon = d.aon := by simp [Dev.pwrBudgetWrite]
@[simp] theorem Dev.liveFields_aon (q) : (d.liveFields q).aon = d.aon := by simp [Dev.liveFields]
@[simp] theorem Dev.applyWin_aon (w t) : (d.applyWin w t).aon = d.aon := by simp [Dev.applyWin]

@[simp] theorem Dev.applyProfile_aon (p) : (d.applyProfile p).aon = d.aon := by
  unfold Dev.applyProfile
  dsimp only
  split <;> simp

@[simp] theorem Dev.applyBurstOff_aon : d.applyBurstOff.aon = d.aon := by simp [Dev.applyBurstOff]
@[simp] theorem Dev.applyBurstOn_aon : d.applyBurstOn.aon = d.aon := by simp [Dev.applyBurstOn]
@[simp] theorem Dev.applyLimit_aon (l) : (d.applyLimit l).aon = d.aon := by simp [Dev.applyLimit]

@[simp] theorem Dev.syncCount_aon : d.syncCount.aon = d.aon := by
  unfold Dev.syncCount
  dsimp only
  (repeat' split) <;> simp

@[simp] theorem Dev.selectProfile_aon (p) : (d.selectProfile p).aon = d.aon := by
  unfold Dev.selectProfile
  dsimp only
  split <;> simp

@[simp] theorem Dev.powerGuard_nonvol (d : Dev) (avg : Nat) : (d.powerGuard avg).aon.nonvol = d.aon.nonvol := by
  unfold Dev.powerGuard
  dsimp only
  rw [Dev.modReg_aon]
  dsimp only
  rw [Dev.ite_aon_eq (d.count_aon ..) rfl]
  rfl

@[simp] theorem Dev.tripRegion_aon (r) : (d.tripRegion r).aon = d.aon := by simp [Dev.tripRegion]

@[simp] theorem Dev.clocks_aon (d : Dev) (stop : Bool) : (d.clocks stop).aon = d.aon :=
  foldl_aon (fun d t => d.modTile_aon t _) _ d

@[simp] theorem Dev.thermRelease_nonvol (d : Dev) : d.thermRelease.aon.nonvol = d.aon.nonvol := by
  unfold Dev.thermRelease
  split
  · rw [Dev.clocks_aon]
    rfl
  · rfl

@[simp] theorem Dev.alert_nonvol (d : Dev) : d.alert.aon.nonvol = d.aon.nonvol := rfl

@[simp] theorem Dev.thermTrip_nonvol (d : Dev) : d.thermTrip.aon.nonvol = d.aon.nonvol := by
  unfold Dev.thermTrip
  split
  · rfl
  · dsimp only
    rw [Dev.alert_nonvol, Dev.clocks_aon, Dev.record_aon, foldl_aon Dev.tripRegion_aon, Dev.modReg_aon]
    rfl

@[simp] theorem Dev.thermWarn_nonvol (n tj) : (d.thermWarn n tj).aon.nonvol = d.aon.nonvol := by
  unfold Dev.thermWarn
  dsimp only
  (repeat' split) <;> simp

@[simp] theorem Dev.burst_aon (tcase) : (d.burst tcase).aon = d.aon := by simp [Dev.burst]

@[simp] theorem Dev.thermal_nonvol (d : Dev) (tj : List Nat) (tcase : Nat) : (d.thermal tj tcase).aon.nonvol = d.aon.nonvol := by
  have hw : ∀ (l : List (Nat × Nat)) (e : Dev), (l.foldl (fun d e => d.thermWarn e.2 e.1) e).aon.nonvol = e.aon.nonvol :=
    foldl_nonvol fun d e => d.thermWarn_nonvol e.2 e.1
  unfold Dev.thermal
  dsimp only
  rw [Dev.burst_aon]
  split
  · rw [Dev.thermTrip_nonvol, hw, Dev.modReg_aon]
    rfl
  · rw [Dev.thermRelease_nonvol, hw, Dev.modReg_aon]
    rfl

/-! ### Weight -/

@[simp] theorem Dev.refreshPage_aon : d.refreshPage.aon = d.aon := by
  unfold Dev.refreshPage
  dsimp only
  (repeat' split) <;> simp

@[simp] theorem Dev.imageAlloc_aon (d : Dev) (m : Nat) (q : AllocReq) : (d.imageAlloc m q).aon = d.aon := by
  unfold Dev.imageAlloc
  dsimp only
  repeat' split
  all_goals simp [-List.foldl_reverse]

@[simp] theorem Dev.onImage_aon (m id gen f) (hf : ∀ (a : Image), (f a).aon = d.aon) : (d.onImage m id gen f).aon = d.aon := by
  unfold Dev.onImage
  (repeat' split) <;> simp_all

@[simp] theorem Dev.recordFor_aon (m k i param) : (d.recordFor m k i param).aon = d.aon := by simp [Dev.recordFor]
@[simp] theorem Dev.imageVerify_aon (m id gen) : (d.imageVerify m id gen).aon = d.aon := by simp [Dev.imageVerify]

@[simp] theorem Dev.verifyDone_aon (id gen) : (d.verifyDone id gen).aon = d.aon := by
  unfold Dev.verifyDone
  dsimp only
  (repeat' split) <;> simp

@[simp] theorem Dev.imageActivate_aon (m id gen limit) : (d.imageActivate m id gen limit).aon = d.aon := by simp [Dev.imageActivate]
@[simp] theorem Dev.imageConfirm_aon (m id gen) : (d.imageConfirm m id gen).aon = d.aon := by simp [Dev.imageConfirm]
@[simp] theorem Dev.imageRevert_aon (m id gen) : (d.imageRevert m id gen).aon = d.aon := by simp [Dev.imageRevert]
@[simp] theorem Dev.imageRetire_aon (m id gen) : (d.imageRetire m id gen).aon = d.aon := by simp [Dev.imageRetire]
@[simp] theorem Dev.imageQuery_aon (m id gen) : (d.imageQuery m id gen).aon = d.aon := by simp [Dev.imageQuery]

@[simp] theorem Dev.startStoring_aon (q) : (d.startStoring q).aon = d.aon := by
  unfold Dev.startStoring
  split <;> simp

@[simp] theorem Dev.haulOpen_aon (m q) : (d.haulOpen m q).aon = d.aon := by simp [Dev.haulOpen]
@[simp] theorem Dev.haulClose_aon (m session) : (d.haulClose m session).aon = d.aon := by simp [Dev.haulClose]

@[simp] theorem Dev.headSend_aon (session fr) : (d.headSend session fr).aon = d.aon := by
  unfold Dev.headSend
  split <;> simp

@[simp] theorem Dev.manifestEnd_aon (s i bs) : (d.manifestEnd s i bs).aon = d.aon := by
  unfold Dev.manifestEnd
  (repeat' split) <;> simp

@[simp] theorem Dev.shardEnd_aon (s shard x bs) : (d.shardEnd s shard x bs).aon = d.aon := by simp [Dev.shardEnd]

@[simp] theorem Dev.storeFrame_aon (s i fr) : (d.storeFrame s i fr).aon = d.aon := by
  unfold Dev.storeFrame
  dsimp only
  (repeat' split) <;> simp

@[simp] theorem Dev.frameArrival_aon (k fr) : (d.frameArrival k fr).aon = d.aon := by
  unfold Dev.frameArrival
  dsimp only
  (repeat' split) <;> simp

@[simp] theorem Dev.shardOkSend_aon (session shard) : (d.shardOkSend session shard).aon = d.aon := by
  unfold Dev.shardOkSend
  dsimp only
  (repeat' split) <;> simp

@[simp] theorem Dev.haulAckArrival_aon (a) : (d.haulAckArrival a).aon = d.aon := by
  unfold Dev.haulAckArrival
  split <;> simp

@[simp] theorem Dev.scrubStart_aon (cells) : (d.scrubStart cells).aon = d.aon := by
  unfold Dev.scrubStart
  dsimp only
  split <;> simp

@[simp] theorem Dev.scrubEnd_aon : d.scrubEnd.aon = d.aon := by simp [Dev.scrubEnd]
@[simp] theorem Dev.layerSwap_aon (m mask rolling tail) : (d.layerSwap m mask rolling tail).aon = d.aon := by simp [Dev.layerSwap]

@[simp] theorem Dev.layerSwapReply_aon (m) : (d.layerSwapReply m).aon = d.aon := by
  unfold Dev.layerSwapReply
  dsimp only
  split <;> simp

@[simp] theorem Dev.reloadDone_aon (r) : (d.reloadDone r).aon = d.aon := by simp [Dev.reloadDone]

@[simp] theorem Dev.adapterLoad_aon (d : Dev) (m r slot : Nat) (id gen ad : W32) : (d.adapterLoad m r slot id gen ad).aon = d.aon := by
  unfold Dev.adapterLoad
  dsimp only
  split
  · exact Dev.reply_aon ..
  · split
    · exact Dev.reply_aon ..
    · split
      · exact Dev.reply_aon ..
      · refine Dev.onImage_aon _ _ _ _ _ fun i => ?_
        repeat' split
        all_goals simp

@[simp] theorem Dev.adapterPart_aon (t at_ i j) : (d.adapterPart t at_ i j).aon = d.aon := by simp [Dev.adapterPart]

@[simp] theorem Dev.adapterCopied_aon (r slot) : (d.adapterCopied r slot).aon = d.aon := by
  unfold Dev.adapterCopied
  dsimp only
  (repeat' split) <;> simp

@[simp] theorem Dev.adapterEvict_aon (m r slot) : (d.adapterEvict m r slot).aon = d.aon := by simp [Dev.adapterEvict]

/-! ### Serving -/

@[simp] theorem Dev.regionLoad_aon (m q) : (d.regionLoad m q).aon = d.aon := by simp [Dev.regionLoad]
@[simp] theorem Dev.regionUnload_aon (m r) : (d.regionUnload m r).aon = d.aon := by simp [Dev.regionUnload]
@[simp] theorem Dev.routeSelect_aon (m sel) : (d.routeSelect m sel).aon = d.aon := by simp [Dev.routeSelect]
@[simp] theorem Dev.ringConfig_aon (m pair g) : (d.ringConfig m pair g).aon = d.aon := by simp [Dev.ringConfig]
@[simp] theorem Dev.ringDoorbell_aon (pair idx) : (d.ringDoorbell pair idx).aon = d.aon := by simp [Dev.ringDoorbell]
@[simp] theorem Dev.d2hConsumer_aon (pair idx) : (d.d2hConsumer pair idx).aon = d.aon := by simp [Dev.d2hConsumer]
@[simp] theorem Dev.ringModerate_aon (pair) : (d.ringModerate pair).aon = d.aon := by simp [Dev.ringModerate]
@[simp] theorem Dev.stepFetch_aon (r i) : (d.stepFetch r i).aon = d.aon := by simp [Dev.stepFetch]
@[simp] theorem Dev.stepAbort_aon (r rerun) : (d.stepAbort r rerun).aon = d.aon := by simp [Dev.stepAbort]
@[simp] theorem Dev.regionStart_aon (m r) : (d.regionStart m r).aon = d.aon := by simp [Dev.regionStart]

@[simp] theorem Dev.regionStop_aon (m r) : (d.regionStop m r).aon = d.aon := by
  unfold Dev.regionStop
  dsimp only
  split <;> simp

@[simp] theorem Dev.regionResume_aon (m r) : (d.regionResume m r).aon = d.aon := by simp [Dev.regionResume]

@[simp] theorem Dev.regionAbortCmd_aon (m r) : (d.regionAbortCmd m r).aon = d.aon := by
  unfold Dev.regionAbortCmd
  dsimp only
  (repeat' split) <;> simp

@[simp] theorem Dev.seqCancel_aon (m r slot) : (d.seqCancel m r slot).aon = d.aon := by simp [Dev.seqCancel]
@[simp] theorem Dev.seqReset_aon (m slot) : (d.seqReset m slot).aon = d.aon := by simp [Dev.seqReset]

@[simp] theorem Dev.seqRollback_aon (m r slot n) : (d.seqRollback m r slot n).aon = d.aon := by
  unfold Dev.seqRollback
  split <;> simp

@[simp] theorem Dev.tenantCredit_aon (m k amount) : (d.tenantCredit m k amount).aon = d.aon := by simp [Dev.tenantCredit]
@[simp] theorem Dev.tenantQuery_aon (m k) : (d.tenantQuery m k).aon = d.aon := by simp [Dev.tenantQuery]

/-! ### Hive -/

@[simp] theorem Dev.epochUp_aon (k) : (d.epochUp k).aon = d.aon := by simp [Dev.epochUp]

@[simp] theorem Dev.abandon_aon (k) : (d.abandon k).aon = d.aon := by
  unfold Dev.abandon
  simp -implicitDefEqProofs

@[simp] theorem Dev.lockResult_aon (k st) : (d.lockResult k st).aon = d.aon := by simp [Dev.lockResult]

@[simp] theorem Dev.lockAcquire_aon (k n) : (d.lockAcquire k n).aon = d.aon := by
  unfold Dev.lockAcquire
  split <;> simp

@[simp] theorem Dev.lockRelease_aon (k n) : (d.lockRelease k n).aon = d.aon := by simp [Dev.lockRelease]
@[simp] theorem Dev.coreReset_aon (k) : (d.coreReset k).aon = d.aon := by simp [Dev.coreReset]
@[simp] theorem Dev.wrLost_aon : d.wrLost.aon = d.aon := by simp [Dev.wrLost]
@[simp] theorem Dev.setPhase_aon (p) : (d.setPhase p).aon = d.aon := by simp [Dev.setPhase]
@[simp] theorem Dev.fwGo_aon : d.fwGo.aon = d.aon := by simp [Dev.fwGo]
@[simp] theorem Dev.fwStart_aon : d.fwStart.aon = d.aon := by simp [Dev.fwStart]
@[simp] theorem Dev.fwChecked_aon : d.fwChecked.aon = d.aon := by simp [Dev.fwChecked]
@[simp] theorem Dev.negClear_aon : d.negClear.aon = d.aon := by simp [Dev.negClear]

@[simp] theorem Dev.fwReload_nonvol (d : Dev) (m : Nat) : (d.fwReload m).aon.nonvol = d.aon.nonvol := by
  have hl : ∀ (l : List Nat) (e : Dev), (l.foldl (fun d k => (d.epochUp k).abandon k) e).aon = e.aon := foldl_aon fun d k => by simp
  unfold Dev.fwReload
  split
  · simp
  · rw [Dev.setPhase_aon, Dev.negClear_aon]
    dsimp only
    rw [hl, Dev.reply_aon]
    rfl

@[simp] theorem Dev.latchRefresh_nonvol (d : Dev) (east ack : Bool) : (d.latchRefresh east ack).aon.nonvol = d.aon.nonvol := by
  unfold Dev.latchRefresh
  dsimp only
  repeat' split
  all_goals rfl

@[simp] theorem Dev.finishRecords_aon : d.finishRecords.aon = d.aon := by
  unfold Dev.finishRecords
  split <;> simp

@[simp] theorem Dev.mboxForget_aon : d.mboxForget.aon = d.aon := by simp [Dev.mboxForget]
@[simp] theorem Dev.authorityLost_aon : d.authorityLost.aon = d.aon := by simp [Dev.authorityLost]
@[simp] theorem Dev.pairReset_aon (east) : (d.pairReset east).aon = d.aon := by simp [Dev.pairReset]
@[simp] theorem Dev.latchTake_nonvol (d : Dev) (east : Bool) : (d.latchTake east).aon.nonvol = d.aon.nonvol := rfl

@[simp] theorem Dev.latchClaim_nonvol (east x) : (d.latchClaim east x).aon.nonvol = d.aon.nonvol := by
  unfold Dev.latchClaim
  split <;> simp

@[simp] theorem Dev.heartbeatMiss_aon (east) : (d.heartbeatMiss east).aon = d.aon := by simp [Dev.heartbeatMiss]
@[simp] theorem Dev.heartbeat_aon (east) : (d.heartbeat east).aon = d.aon := by simp [Dev.heartbeat]

@[simp] theorem Dev.seamFault_nonvol (east) : (d.seamFault east).aon.nonvol = d.aon.nonvol := by
  unfold Dev.seamFault
  dsimp only
  (repeat' split) <;> simp

@[simp] theorem Dev.doorbell_aon (m) : (d.doorbell m).aon = d.aon := by simp [Dev.doorbell]
@[simp] theorem Dev.mboxFree_aon (v) : (d.mboxFree v).aon = d.aon := by simp [Dev.mboxFree]

@[simp] theorem Dev.mailboxTake_aon : d.mailboxTake.aon = d.aon := by
  unfold Dev.mailboxTake
  split <;> simp

@[simp] theorem Dev.hello_aon (m q) : (d.hello m q).aon = d.aon := by simp [Dev.hello]
@[simp] theorem Dev.logConfig_aon (m q) : (d.logConfig m q).aon = d.aon := by simp [Dev.logConfig]
@[simp] theorem Dev.logConsumer_aon (idx) : (d.logConsumer idx).aon = d.aon := by simp [Dev.logConsumer]
@[simp] theorem Dev.traceConfig_aon (m query q) : (d.traceConfig m query q).aon = d.aon := by simp [Dev.traceConfig]
@[simp] theorem Dev.traceConsumer_aon (idx) : (d.traceConsumer idx).aon = d.aon := by simp [Dev.traceConsumer]
@[simp] theorem Dev.debugChallenge_aon (m) : (d.debugChallenge m).aon = d.aon := by simp [Dev.debugChallenge]
@[simp] theorem Dev.debugUnlock_aon (m scope sig) : (d.debugUnlock m scope sig).aon = d.aon := by simp [Dev.debugUnlock]

/-! ### DevReg -/

@[simp] theorem Dev.devAfterRead_aon (a) : (d.devAfterRead a).aon = d.aon := by
  unfold Dev.devAfterRead
  split <;> simp

@[simp] theorem Dev.devRead32_aon (off) : (d.devRead32 off).1.aon = d.aon := by
  unfold Dev.devRead32
  dsimp only
  (repeat' split) <;> simp

@[simp] theorem Dev.devRead64_aon (a) : (d.devRead64 a).1.aon = d.aon := by
  unfold Dev.devRead64
  split <;> simp

@[simp] theorem Dev.cicCtlWrite_aon (n) : (d.cicCtlWrite n).aon = d.aon := by simp [Dev.cicCtlWrite]
@[simp] theorem Dev.cicBarWrite_aon (a n) : (d.cicBarWrite a n).aon = d.aon := by simp [Dev.cicBarWrite]
@[simp] theorem Dev.portCtlWrite_aon (p n) : (d.portCtlWrite p n).aon = d.aon := by simp [Dev.portCtlWrite]
@[simp] theorem Dev.srvCfgWrite_aon (a r n nmaxOk) : (d.srvCfgWrite a r n nmaxOk).aon = d.aon := by simp [Dev.srvCfgWrite]

@[simp] theorem Dev.lockCmd_aon (k v) : (d.lockCmd k v).aon = d.aon := by
  unfold Dev.lockCmd
  split <;> simp

@[simp] theorem Dev.pwrErrWrite_nonvol (d : Dev) (n : W64) : (d.pwrErrWrite n).aon.nonvol = d.aon.nonvol := (Dev.thermRelease_nonvol _).trans rfl

theorem Dev.devEffect0_nonvol (d : Dev) (a : Nat) (m v n : W64) : ∀ e ∈ d.devEffect0 a m v n, e.aon.nonvol = d.aon.nonvol := by
  unfold Dev.devEffect0
  refine mem_ite_some ?fw (mem_ite_some ?mboxfree (mem_ite_some ?lockcmd (mem_ite_some ?cause
    (mem_ite_some ?xmap (mem_ite_some ?rcfg (mem_ite_some ?rcfg2 mem_none_dev))))))
  case cause => rfl
  all_goals simp

theorem Dev.devEffect1_nonvol (d : Dev) (a : Nat) (m v n : W64) : ∀ e ∈ d.devEffect1 a m v n, e.aon.nonvol = d.aon.nonvol := by
  unfold Dev.devEffect1
  refine mem_ite_some ?portCtl (mem_ite_some ?devid (mem_ite_some ?cicCtl (mem_ite_some ?cicSet (mem_ite_some ?fsw (mem_ite_some ?bar
    (mem_ite_some ?win (mem_ite_some ?limit (mem_ite_some ?regcfg (mem_ite_some ?temp (mem_ite_some ?pwrErr (mem_ite_some ?group mem_none_dev)))))))))))
  all_goals simp

@[simp] theorem Dev.devWrite_nonvol (d : Dev) (a : Nat) (m v : W64) : (d.devWrite a m v).aon.nonvol = d.aon.nonvol := by
  unfold Dev.devWrite
  dsimp only
  split
  · rfl
  · split <;> rename_i h
    · exact Dev.devEffect0_nonvol _ _ _ _ _ _ h
    · cases h1 : d.devEffect1 a m v (RegRow.write _ m (d.reg a) v) with
      | none => exact congrArg AlwaysOn.nonvol (Dev.setReg_aon ..)
      | some e => exact Dev.devEffect1_nonvol _ _ _ _ _ _ h1

@[simp] theorem Dev.devWrite32_nonvol (off v) : (d.devWrite32 off v).aon.nonvol = d.aon.nonvol := by
  unfold Dev.devWrite32
  split <;> simp

@[simp] theorem Dev.answer_aon (p : Dev × W32) : (Dev.answer p).aon = p.1.aon := rfl

/-! ### Vector -/

@[simp] theorem Dev.vldGo_aon (t k : Nat) (d : Dev) : (Dev.vldGo t k d).aon = d.aon := by
  induction k generalizing d with
  | zero => rfl
  | succ k ih =>
    unfold Dev.vldGo
    split
    · rfl
    · split
      · exact Dev.modTile_aon ..
      · split <;> rename_i h
        · exact aon_of_pair h (Dev.unitRead_aon ..)
        · exact (ih _).trans ((Dev.modTile_aon ..).trans (aon_of_pair h (Dev.unitRead_aon ..)))

@[simp] theorem Dev.vstGo_aon (t k : Nat) (d : Dev) : (Dev.vstGo t k d).aon = d.aon := by
  induction k generalizing d with
  | zero => rfl
  | succ k ih =>
    unfold Dev.vstGo
    split
    · rfl
    · split
      · exact Dev.modTile_aon ..
      · split <;> rename_i h
        · exact (ih _).trans ((Dev.modTile_aon ..).trans (aon_of_pair h (Dev.unitWrite_aon ..)))
        · exact aon_of_pair h (Dev.unitWrite_aon ..)

/-! ### HostIf -/

@[simp] theorem Dev.bar2Drop_aon : d.bar2Drop.aon = d.aon := by simp [Dev.bar2Drop]

@[simp] theorem Dev.spadRead32_aon (t a) : (d.spadRead32 t a).1.aon = d.aon := by
  unfold Dev.spadRead32
  split <;> simp

@[simp] theorem Dev.winRead32_aon (t o) : (d.winRead32 t o).1.aon = d.aon := by
  unfold Dev.winRead32
  (repeat' split) <;> simp

@[simp] theorem Dev.barRead32_aon (bar off) : (d.barRead32 bar off).1.aon = d.aon := by
  unfold Dev.barRead32
  (repeat' split) <;> simp

@[simp] theorem Dev.spadWrite32_aon (t a v) : (d.spadWrite32 t a v).aon = d.aon := by
  unfold Dev.spadWrite32
  split <;> simp

@[simp] theorem Dev.winWrite32_aon (t o v) : (d.winWrite32 t o v).aon = d.aon := by simp [Dev.winWrite32]
@[simp] theorem Dev.mboxWrite_aon (a bs) : (d.mboxWrite a bs).aon = d.aon := by simp [Dev.mboxWrite]
@[simp] theorem Dev.stagingWrite_aon (a bs) : (d.stagingWrite a bs).aon = d.aon := by simp [Dev.stagingWrite]

theorem Dev.barWhole_aon (bar off bs) : ∀ (d' : Dev), d.barWhole bar off bs = some d' → d'.aon = d.aon := by
  unfold Dev.barWhole
  dsimp only
  (repeat' split) <;> simp

@[simp] theorem Dev.msixWrite32_aon (a v) : (d.msixWrite32 a v).aon = d.aon := by simp [Dev.msixWrite32]

@[simp] theorem Dev.bar4Write32_aon (off v) : (d.bar4Write32 off v).aon = d.aon := by
  unfold Dev.bar4Write32
  (repeat' split) <;> simp

@[simp] theorem Dev.barWrite32_nonvol (d : Dev) (bar off : Nat) (v : W32) : (d.barWrite32 bar off v).aon.nonvol = d.aon.nonvol := by
  unfold Dev.barWrite32
  split <;> rename_i h
  · exact congrArg AlwaysOn.nonvol (Dev.barWhole_aon _ _ _ _ _ h)
  · repeat' split
    all_goals simp

@[simp] theorem Dev.barRead64_aon (bar off) : (d.barRead64 bar off).1.aon = d.aon := by
  unfold Dev.barRead64
  dsimp only
  (repeat' split) <;> simp

@[simp] theorem Dev.barWrite64_nonvol (d : Dev) (bar off : Nat) (v : W64) : (d.barWrite64 bar off v).aon.nonvol = d.aon.nonvol := by
  unfold Dev.barWrite64
  dsimp only
  repeat' split
  case h_1 h => exact congrArg AlwaysOn.nonvol (Dev.barWhole_aon _ _ _ _ _ h)
  all_goals simp

@[simp] theorem Dev.barReads_aon (q) : (d.barReads q).1.aon = d.aon := by
  unfold Dev.barReads
  split <;> simp

@[simp] theorem Dev.barWrites_nonvol (q) : (d.barWrites q).aon.nonvol = d.aon.nonvol := by
  unfold Dev.barWrites
  split <;> simp

@[simp] theorem Dev.barDo_nonvol (q) : (d.barDo q).1.aon.nonvol = d.aon.nonvol := by
  unfold Dev.barDo
  (repeat' split) <;> simp

@[simp] theorem Dev.dmaEnd_aon (e) : (d.dmaEnd e).aon = d.aon := by simp [Dev.dmaEnd]
@[simp] theorem Dev.payloadIn_aon (m data) : (d.payloadIn m data).aon = d.aon := by simp [Dev.payloadIn]

@[simp] theorem Dev.dmaComplete_aon (e data) : (d.dmaComplete e data).aon = d.aon := by
  unfold Dev.dmaComplete
  split <;> simp

@[simp] theorem Dev.stepDmaError_aon (e r) : (d.stepDmaError e r).aon = d.aon := by simp [Dev.stepDmaError]

@[simp] theorem Dev.dmaError_aon (e kind) : (d.dmaError e kind).aon = d.aon := by
  unfold Dev.dmaError
  split <;> simp

@[simp] theorem Dev.dmaRepeat_aon (session) : (d.dmaRepeat session).aon = d.aon := by
  unfold Dev.dmaRepeat
  split <;> simp

@[simp] theorem AlwaysOn.resetLow_nonvol (a : AlwaysOn) : a.resetLow.nonvol = a.nonvol := by
  unfold AlwaysOn.resetLow
  dsimp only
  split <;> rfl

@[simp] theorem Dev.hardReset_nonvol (d : Dev) : d.hardReset.aon.nonvol = d.aon.nonvol := by
  unfold Dev.hardReset
  dsimp only
  split
  · rw [Dev.clocks_aon, Dev.setReg_aon, AlwaysOn.resetLow_nonvol]
  · rw [Dev.setReg_aon, AlwaysOn.resetLow_nonvol]

@[simp] theorem Dev.loadProfile_aon (p) : (d.loadProfile p).aon = d.aon := by
  unfold Dev.loadProfile
  dsimp only
  (repeat' split) <;> simp -implicitDefEqProofs

@[simp] theorem Dev.boot_nonvol (d : Dev) (q : RiseIn) : (d.boot q).aon.nonvol = d.aon.nonvol := by
  unfold Dev.boot
  dsimp only
  repeat' split
  · rfl
  · rw [Dev.setReg_aon, Dev.loadProfile_aon]
    rfl
  · rfl

@[simp] theorem Dev.hostStop_aon (r) : (d.hostStop r).aon = d.aon := by simp [Dev.hostStop]
@[simp] theorem Dev.mboxReset_aon : d.mboxReset.aon = d.aon := by simp [Dev.mboxReset]

@[simp] theorem Dev.hostReset_aon : d.hostReset.aon = d.aon := by
  unfold Dev.hostReset
  simp -implicitDefEqProofs

/-! ### AlwaysOn -/

@[simp] theorem Dev.onAux_aon (f) (hf : ∀ (a : Dev), (f a).aon = a.aon) : (d.onAux f).aon = d.aon := by
  unfold Dev.onAux
  simp [hf]

@[simp] theorem Dev.smbRead_aon (n v) : (d.smbRead n v).aon = d.aon := by
  unfold Dev.smbRead
  simp -implicitDefEqProofs

@[simp] theorem Dev.loadIr_aon (ir) : (d.loadIr ir).aon = d.aon := by simp [Dev.loadIr]
@[simp] theorem Dev.irIf_aon (ok ir) : (d.irIf ok ir).aon = d.aon := by simp [Dev.irIf]
@[simp] theorem Dev.scanBist_aon (b col pass) : (d.scanBist b col pass).aon = d.aon := by simp [Dev.scanBist]

/-! ### Array -/

@[simp] theorem Dev.acwAdvance_aon (t : Nat) {f : Dev → AcwEntry → Dev × Bool} (hf : ∀ d e, (f d e).1.aon = d.aon) (d : Dev) (id : Nat) :
    (Dev.acwAdvance t f d id).aon = d.aon := by
  unfold Dev.acwAdvance
  repeat' split
  · exact Dev.acwLoop_aon t id _ hf _ d
  all_goals rfl

@[simp] theorem Dev.acwRun_aon (d : Dev) (t kind : Nat) {f : Dev → AcwEntry → Dev × Bool} (hf : ∀ d e, (f d e).1.aon = d.aon) :
    (d.acwRun t kind f).aon = d.aon := by
  have hl : ∀ l : List AcwEntry, (l.foldl (fun d e => d.acwAdvance t f e.id) d).aon = d.aon := fun l => foldl_aon (fun d e => Dev.acwAdvance_aon t hf d e.id) l d
  unfold Dev.acwRun
  dsimp only
  split
  · exact hl _
  · exact (Dev.acwAdvance_aon t hf ..).trans ((Dev.modTile_aon ..).trans (hl _))

@[simp] theorem Dev.vector_aon (d : Dev) (t : Nat) (e : AcwEntry) : (d.vector t e).1.aon = d.aon := by
  unfold Dev.vector
  dsimp only
  split
  · split <;> rename_i h <;> exact aon_of_pair h (Dev.itemUnit_aon ..)
  · split <;> rename_i h
    · exact aon_of_pair h (Dev.operand_aon ..)
    · have e1 := aon_of_pair h (Dev.operand_aon ..)
      split
      · exact e1
      · split <;> rename_i h2 <;> exact (aon_of_pair h2 (Dev.operand_aon ..)).trans e1

@[simp] theorem Dev.planeCheck_aon (t e u start) : (d.planeCheck t e u start).1.aon = d.aon := by
  unfold Dev.planeCheck
  (repeat' split) <;> simp

@[simp] theorem Dev.computeUnit_aon (t : Nat) (u : Upset) (start : List (Nat × Nat)) (d : Dev) (e : AcwEntry) :
    (Dev.computeUnit t u start d e).1.aon = d.aon := by
  unfold Dev.computeUnit
  dsimp only
  split
  · exact Dev.outputs_aon ..
  · split <;> rename_i h1
    · exact aon_of_pair h1 (Dev.planeCheck_aon ..)
    · have e1 := aon_of_pair h1 (Dev.planeCheck_aon ..)
      split <;> rename_i h2
      · exact (aon_of_pair h2 (Dev.loadBlocks_aon ..)).trans e1
      · have e2 := (aon_of_pair h2 (Dev.loadBlocks_aon ..)).trans e1
        split
        · exact e2
        · split <;> rename_i h3
          · exact (aon_of_pair h3 (Dev.vector_aon ..)).trans e2
          · exact (Dev.outputs_aon ..).trans ((Dev.modTile_aon ..).trans ((aon_of_pair h3 (Dev.vector_aon ..)).trans e2))

@[simp] theorem Dev.xpsUnit_aon (d : Dev) (t : Nat) (e : AcwEntry) : (d.xpsUnit t e).1.aon = d.aon := by
  unfold Dev.xpsUnit
  split
  · split <;> rename_i h <;> exact aon_of_pair h (Dev.itemUnit_aon ..)
  · split <;> rename_i h <;> exact aon_of_pair h (Dev.operand_aon ..)

/-! ### Operands -/

@[simp] theorem Dev.scbFault_aon (t st tval) : (d.scbFault t st tval).aon = d.aon := by
  unfold Dev.scbFault
  dsimp only
  split <;> simp

@[simp] theorem Dev.scbTrap_aon (t code tval) : (d.scbTrap t code tval).aon = d.aon := by simp [Dev.scbTrap]
@[simp] theorem Dev.illegal_aon (t w) : (d.illegal t w).aon = d.aon := by simp [Dev.illegal]
@[simp] theorem Dev.scbNext_aon (t) : (d.scbNext t).aon = d.aon := by simp [Dev.scbNext]
@[simp] theorem Dev.scbGoto_aon (t target f) : (d.scbGoto t target f).aon = d.aon := by simp [Dev.scbGoto]
@[simp] theorem Dev.scbSet_aon (t rd v) : (d.scbSet t rd v).aon = d.aon := by simp [Dev.scbSet]
@[simp] theorem Dev.scbStall_aon (t k) : (d.scbStall t k).aon = d.aon := by simp [Dev.scbStall]

/-! ### Scarab -/

@[simp] theorem Dev.scbLoad_aon (t n signed rd rs1 imm) : (d.scbLoad t n signed rd rs1 imm).aon = d.aon := by
  unfold Dev.scbLoad
  dsimp only
  (repeat' split) <;> simp

@[simp] theorem Dev.scbStore_aon (t n rs2 rs1 imm) : (d.scbStore t n rs2 rs1 imm).aon = d.aon := by simp [Dev.scbStore]
@[simp] theorem Dev.scbBranch_aon (t c imm) : (d.scbBranch t c imm).aon = d.aon := by simp [Dev.scbBranch]
@[simp] theorem Dev.scbAgs_aon (t n ws) : (d.scbAgs t n ws).aon = d.aon := by simp [Dev.scbAgs]
@[simp] theorem Dev.waiteDone_aon (t rd mask) : (d.waiteDone t rd mask).aon = d.aon := by simp [Dev.waiteDone]
@[simp] theorem Dev.scbEret_aon (t) : (d.scbEret t).aon = d.aon := by simp [Dev.scbEret]
@[simp] theorem Dev.scbHaltNow_aon (t) : (d.scbHaltNow t).aon = d.aon := by simp [Dev.scbHaltNow]

/-! ### Issue -/

@[simp] theorem Dev.blockRead_aon (t n align a k f) (hf : ∀ (a : List Byte), (f a).aon = d.aon) : (d.blockRead t n align a k f).aon = d.aon := by
  unfold Dev.blockRead
  (repeat' split) <;> simp_all

@[simp] theorem Dev.acwIssue_aon (t a rs) : (d.acwIssue t a rs).aon = d.aon := by simp [Dev.acwIssue]
@[simp] theorem Dev.vecIssue_aon (t w rs) : (d.vecIssue t w rs).aon = d.aon := by simp [Dev.vecIssue]

@[simp] theorem Dev.acwBlock_aon (t bs) : (d.acwBlock t bs).aon = d.aon := by
  unfold Dev.acwBlock
  dsimp only
  split <;> simp

@[simp] theorem Dev.vecBlock_aon (t bs) : (d.vecBlock t bs).aon = d.aon := by
  unfold Dev.vecBlock
  dsimp only
  split <;> simp

/-! ### Mesh -/

@[simp] theorem Dev.headerIn_aon (t port k) : (d.headerIn t port k).aon = d.aon := by
  unfold Dev.headerIn
  (repeat' split) <;> simp

end

end Sys2Proof.Machine

/-! ## The commands -/

namespace Sys2Proof.Machine

open Sys2Proof

/-- A command that answers a next state leaves the store and the remap table as they are. -/
def KeepsStore (s : State) (o : Host.Outcome State Fault Refusal) : Prop := ∀ s', o = .next s' → s'.dev.aon.nonvol = s.dev.aon.nonvol

@[simp] theorem AlwaysOn.nv_ite (c : Prop) [Decidable c] (a b : AlwaysOn) : (if c then a else b).nonvol = if c then a.nonvol else b.nonvol := apply_ite ..

section
variable {s : State} {f : Dev → Dev}

theorem onDev_keepsStore (hf : ∀ d, (f d).aon.nonvol = d.aon.nonvol) : KeepsStore s (onDev s f) := by
  rintro _ ⟨⟩
  exact hf s.dev

theorem fault_keepsStore (r : Fault) : KeepsStore s (.fault r) := fun _ h => nomatch h

theorem onUnit_keepsStore {n i : Nat} (hf : ∀ d, (f d).aon.nonvol = d.aon.nonvol) : KeepsStore s (onUnit n i s f) := by
  unfold onUnit
  split
  · exact onDev_keepsStore hf
  · exact fault_keepsStore _

theorem onScb_keepsStore {t : Nat} (hf : ∀ d, (f d).aon.nonvol = d.aon.nonvol) : KeepsStore s (onScb t s f) :=
  onUnit_keepsStore fun d => by split <;> simp [hf]

theorem onVec_keepsStore {t op : Nat} {g : Dev → VecEntry → Dev} (hg : ∀ d e, (g d e).aon.nonvol = d.aon.nonvol) : KeepsStore s (onVec t op s g) :=
  onUnit_keepsStore fun d => by split <;> simp [hg]

theorem onVecT_keepsStore {t op : Nat} (g : Tile → VecEntry → Tile × VFlags) : KeepsStore s (onVecT t op s g) :=
  onVec_keepsStore fun d _ => congrArg AlwaysOn.nonvol (d.modTile_aon t _)

theorem onQcmd_keepsStore {t op : Nat} {g : Nat → Dev → Dev} (hg : ∀ n d, (g n d).aon.nonvol = d.aon.nonvol) : KeepsStore s (onQcmd t op s g) :=
  onUnit_keepsStore fun d => by
    repeat' split
    all_goals simp [hg]

theorem onHostM_keepsStore {m op : Nat} {ok : Message → Bool} (hf : ∀ d, (f d).aon.nonvol = d.aon.nonvol) : KeepsStore s (onHostM m op ok s f) :=
  onUnit_keepsStore fun d => by split <;> simp [hf]

theorem onHost_keepsStore {m op : Nat} (hf : ∀ d, (f d).aon.nonvol = d.aon.nonvol) : KeepsStore s (onHost m op s f) := onHostM_keepsStore hf

theorem onHostR_keepsStore {m op r : Nat} (hf : ∀ d, (f d).aon.nonvol = d.aon.nonvol) : KeepsStore s (onHostR m op r s f) := by
  unfold onHostR
  split
  · exact onHostM_keepsStore hf
  · exact fault_keepsStore _

theorem onHostJ_keepsStore {m op : Nat} (hf : ∀ d, (f d).aon.nonvol = d.aon.nonvol) : KeepsStore s (onHostJ m op s f) :=
  onUnit_keepsStore fun d => by split <;> simp [hf]

theorem onAux_nonvol (d : Dev) (hf : (f d).aon.nonvol = d.aon.nonvol) : (d.onAux f).aon.nonvol = d.aon.nonvol := by
  unfold Dev.onAux
  split
  · exact hf
  · rfl
end

section
variable {s : State}

theorem execCaptureRead_keepsStore {who : Requester} {a : RegAddr} : KeepsStore s (execCaptureRead who a s) := by
  unfold execCaptureRead
  split
  · refine onUnit_keepsStore fun d => ?_
    repeat' split
    all_goals simp
  · refine onDev_keepsStore fun d => ?_
    split <;> simp

theorem execRegisterWrite_keepsStore {who : Requester} {a : RegAddr} {wide : Bool} {v : W64} : KeepsStore s (execRegisterWrite who a wide v s) := by
  unfold execRegisterWrite
  split
  · refine onUnit_keepsStore fun d => ?_
    repeat' split
    all_goals simp
  · refine onDev_keepsStore fun d => ?_
    repeat' split
    all_goals simp

theorem execAgCommit_keepsStore {t : Nat} {n : BitVec 4} {who : Requester} : KeepsStore s (execAgCommit t n who s) := by
  cases who with
  | scarab => exact onScb_keepsStore fun d => by simp
  | host => exact onUnit_keepsStore fun d => by simp

/-- A command of the array unit: its units keep what each of them keeps. -/
theorem onAcw_keepsStore {t kind : Nat} {u : Dev → Dev} {f : Dev → Dev → AcwEntry → Dev × Bool} (hu : ∀ d, (u d).aon = d.aon)
    (hf : ∀ d e x, (f d e x).1.aon = e.aon) : KeepsStore s (onTile t s fun d => (u d).acwRun t kind (f d)) :=
  onUnit_keepsStore fun d => congrArg AlwaysOn.nonvol ((Dev.acwRun_aon _ t kind (hf d)).trans (hu d))

theorem execWload_keepsStore {t : Nat} {u : Upset} : KeepsStore s (execWload t u s) := by
  refine onAcw_keepsStore (fun d => d.upset_aon u) fun d e x => ?_
  have hp : (if Acw.wfmt x.acw = 10 then e.planeCheck t x u (d.acwMarks t) else (e, true)).1.aon = e.aon := by
    split
    · exact Dev.planeCheck_aon ..
    · rfl
  split <;> rename_i h
  · exact aon_of_pair h hp
  · exact (Dev.loadBlock_aon ..).trans (aon_of_pair h hp)

theorem execCbload_keepsStore {t : Nat} {u : Upset} : KeepsStore s (execCbload t u s) := by
  refine onAcw_keepsStore (fun d => d.upset_aon u) fun d e x => ?_
  split <;> rename_i h
  · exact (Dev.modTile_aon ..).trans (aon_of_pair h (Dev.operand_aon ..))
  · exact aon_of_pair h (Dev.operand_aon ..)

theorem execDrain_keepsStore {t : Nat} : KeepsStore s (execDrain t s) := by
  refine onAcw_keepsStore (u := id) (fun _ => rfl) fun d e x => ?_
  dsimp only
  split
  · rfl
  · split <;> rename_i h
    · exact (Dev.ite_aon_eq (Dev.modTile_aon ..) rfl).trans (aon_of_pair h (Dev.outputs_aon ..))
    · exact aon_of_pair h (Dev.outputs_aon ..)

theorem execAcwXadd_keepsStore {t : Nat} {u : Upset} : KeepsStore s (execAcwXadd t u s) := by
  refine onAcw_keepsStore (fun d => d.upset_aon u) fun d e x => ?_
  dsimp only
  split
  · rfl
  · split <;> rename_i h
    · exact aon_of_pair h (Dev.xpsUnit_aon ..)
    · exact (Dev.modTile_aon ..).trans (aon_of_pair h (Dev.xpsUnit_aon ..))

theorem execBypassOpen_keepsStore : KeepsStore s (execBypassOpen s) := by
  refine onDev_keepsStore fun d => ?_
  split
  · split
    · rfl
    · split
      · rw [Dev.setCicBit_aon]
        rfl
      · simp
  · rfl

theorem execResetNLow_keepsStore : KeepsStore s (execResetNLow s) := onDev_keepsStore Dev.hardReset_nonvol
theorem execVinDrop_keepsStore : KeepsStore s (execVinDrop s) := onDev_keepsStore Dev.hardReset_nonvol

@[simp] theorem AlwaysOn.cause_nonvol (a : AlwaysOn) (i : Nat) : (a.cause i).nonvol = a.nonvol := rfl

theorem execAuxLoss_keepsStore : KeepsStore s (execAuxLoss s) := onDev_keepsStore fun _ => rfl
theorem execAuxRise_keepsStore {x : BitVec 3} : KeepsStore s (execAuxRise x s) := onDev_keepsStore fun _ => rfl
theorem execPerstN_keepsStore : KeepsStore s (execPerstN s) := onDev_keepsStore fun d => by simp
theorem execFlr_keepsStore : KeepsStore s (execFlr s) := onDev_keepsStore fun d => by simp

theorem execSmbStatus_keepsStore : KeepsStore s (execSmbStatus s) := by
  refine onDev_keepsStore fun d => onAux_nonvol d ?_
  dsimp only
  rw [Dev.smbRead_aon]
  rfl

theorem execSmbClearTrip_keepsStore {v : Byte} : KeepsStore s (execSmbClearTrip v s) := by
  refine onDev_keepsStore fun d => onAux_nonvol d ?_
  split
  · rw [Dev.thermRelease_nonvol, Dev.modReg_aon]
    rfl
  · rfl

theorem guard_keepsStore {c : Prop} [Decidable c] {o : Host.Outcome State Fault Refusal} {r : Fault} (h : KeepsStore s o) : KeepsStore s (if c then o else .fault r) := by
  split
  · exact h
  · exact fault_keepsStore r
end

/-- The commands that write the store or the remap table. -/
def writesStore : Instr → Bool
  | .setProfile .. | .smbOverride .. | .bistComplete .. | .sliceShiftDone .. | .journalReplay => true
  | _ => false

theorem exec_keepsStore {c : Instr} (hc : writesStore c = false) (s : State) : KeepsStore s (exec c s) := by
  cases c with
  | storeBufferWrite | asyncTrap | watchdog | scbCtlRun | scbCtlHalt | haltedAtBoundary | scbWdogKick | hostImemWrite | nop | compute | acwRetire
  | vecRetire | layerSwapReply | adapterCopyDone | appendRow | wvlFqCommit | fetch | wvlReqArrival | readpte | writepte | ptlbInv | ptlbInvSlot
  | readft | wvlCfgWrite | wvlDirWrite | wvlClaim | wvlClaimed | shadowSend | shadowAckArrival | shadowAckTimeout | ringDoorbell
  | d2hConsumerIndex | stepDescriptorFetch | stepAdmission | stepStart | stepBoundary | tokenRecordWrite | rxWaitExpiry | stepAbort
  | stepRerunStart | packetArrival | gatewayIngress | linkFrameArrival | creditUpdateSend | portSlotStart | portEnable | trainingComplete
  | trainingTimeout | portDisable | portIdleDone | errlimCheck | lossOfSignal | creditStall | cycleStretch | marginSample | avsLoop | recoveryLoad
  | hiveWatchdog | mailboxDoorbell | uncorrectableHiveMemoryError | residentWeightReloadDone | ringInterruptModeration =>
    unfold exec
    exact onUnit_keepsStore fun d => by simp
  | issueResume | waittComplete | waiteComplete | fenceComplete | qitemArrival | slotStart =>
    unfold exec
    refine onUnit_keepsStore fun d => ?_
    dsimp only
    repeat' split
    all_goals simp
  | qcmdTxResetDone | shadowRecordArrival =>
    unfold exec
    exact onUnit_keepsStore fun d => by split <;> simp
  | alu =>
    unfold exec
    exact onScb_keepsStore fun d => by split <;> simp
  | addi | andi | ori | xori | slti | shi | lui | lb | lbu | lh | lhu | lw | sb | sh | sw | beq | bne | blt | bge | bltu | bgeu | jal | jalr | crd
  | cwr | acwp | viss | ags | waitt | waite | fence | time | trap | eret | halt =>
    unfold exec
    exact onScb_keepsStore fun d => by simp
  | vld | vst | vstq =>
    unfold exec
    exact onVec_keepsStore fun d e => by simp
  | vldq =>
    unfold exec
    refine onVec_keepsStore fun d e => ?_
    dsimp only
    repeat' split
    all_goals simp
  | vnop | fadd | fsub | fmul | ffma | fmin | fmax | fcmp | fsgn | fdiv | fsqrt | ftrn | iadd | isub | imul | imin | imax | ilog | ish | icmp
  | sel | setm | mov | red | cvt | rand | xadd | xcvt =>
    unfold exec
    exact onVecT_keepsStore _
  | qcmdRead | qcmdConfig | qcmdFlush | qcmdReset =>
    unfold exec
    exact onQcmd_keepsStore fun n d => by simp
  | ringConfig | fltGroup | hello | traceConfig | debugUnlock =>
    unfold exec
    exact onHostM_keepsStore fun d => by simp
  | imageQuery | routeSelect | seqReset | tenantSet | tenantCredit | tenantQuery | ringAdmit | profileQuery | standbyArm | standbyDisarm
  | fltQuery | deviceQuery | fwReload | logConfig | debugChallenge =>
    unfold exec
    exact onHost_keepsStore fun d => by simp
  | adapterLoad | adapterEvict | kvShare | kvFree | kvFreeSlot | kvRestore | regionUnload | regionStart | regionStop | regionResume | regionAbort
  | seqCancel | seqRollback =>
    unfold exec
    exact onHostR_keepsStore fun d => by simp
  | imageAlloc | haulOpen | haulClose | imageVerify | imageActivate | imageConfirm | imageRevert | imageRetire | layerSwap =>
    unfold exec
    exact onHostJ_keepsStore fun d => by simp
  | wtPageRefresh | journalCommit | verifyComplete | haulHeadSend | shardOk | scrubPassStart | scrubPassComplete | e2ePacketArrival
  | resendTimeout | cicadaTick | viewReload | cicSet | markSend | mark | freq | barrier | faultQuiesce | faultHold | faultRelease | faultNotice
  | joinAt | measureAt | markTimeout | syncInLos | cicJoinClear | cicFsw | frequencySwitch | regionEnergyUpdate | energyWindowBoundary
  | synchronisedCount | pwrWinWrite | pwrBudgetWrite | powerGuard | thermalMonitor | halfBenchEmpty | deviceLoss | ringKeepaliveLapse | hiveFwGo
  | fwCheckComplete | latchRefresh | latchClaim | heartbeatMiss | seamFault | lockAcquire | lockRelease | mailboxTake | hiveMboxfree
  | logConsumerIndex | dmaReadComplete | dmaError | resetNRise | bootWaitFw | smbJunctionTemp | smbCaseTemp | smbVinPower | smbLatchEpoch
  | smbRstcause | alertResponse | extest | idcode | samplePreload | clamp | highz | dbgAccess | bypass | tapTestReset | heartbeat
  | traceConsumerIndex | perstNHigh | dmaReadRepeat =>
    unfold exec
    exact onDev_keepsStore fun d => by simp
  | haulFrameArrival | haulAckArrival | ackSend | ackArrival | nakArrival | flowEntryExpiry | frameCopySend | leaveAt | master | measurementWindow
  | bypassClose | localPartDone =>
    unfold exec
    exact onDev_keepsStore fun d => by split <;> simp
  | shadowResync | barAccess | smbIdentity =>
    unfold exec
    exact onDev_keepsStore fun d => by simp -implicitDefEqProofs
  | agCommit => exact execAgCommit_keepsStore
  | captureRead => exact execCaptureRead_keepsStore
  | registerWrite => exact execRegisterWrite_keepsStore
  | wload => exact execWload_keepsStore
  | cbload => exact execCbload_keepsStore
  | drain => exact execDrain_keepsStore
  | acwXadd => exact execAcwXadd_keepsStore
  | bypassOpen => exact execBypassOpen_keepsStore
  | resetNLow => exact execResetNLow_keepsStore
  | perstN => exact execPerstN_keepsStore
  | flr => exact execFlr_keepsStore
  | auxRise => exact execAuxRise_keepsStore
  | auxLoss => exact execAuxLoss_keepsStore
  | vinDrop => exact execVinDrop_keepsStore
  | smbStatus => exact execSmbStatus_keepsStore
  | smbClearTrip => exact execSmbClearTrip_keepsStore
  | regionLoad => exact guard_keepsStore (onHostJ_keepsStore fun d => by simp)
  | tileRecovery | scanbist => exact guard_keepsStore (onUnit_keepsStore fun d => by simp)
  | setProfile | smbOverride | bistComplete | sliceShiftDone | journalReplay => cases hc

end Sys2Proof.Machine

/-! ## The records of the store -/

namespace Sys2Proof.Machine

open Sys2Proof Sys2Proof.Claims

/-- The copies of an item that may be read. -/
def StoreItem.held (i : StoreItem) : List (List Byte) := [i.a, i.b].filter fun b => profSound b

/-- The record that a write of an item commits. -/
def StoreItem.written (i : StoreItem) (f : List Byte) : List Byte := profCommit (profBody i.next f)

/-- A write leaves no readable copy but the written record and those that were there. -/
theorem StoreItem.mem_held_put {i : StoreItem} {f b : List Byte} (h : b ∈ (i.put f).held) : b = i.written f ∨ b ∈ i.held := by
  unfold StoreItem.put StoreItem.older at h
  simp only [StoreItem.held, List.mem_filter, List.mem_cons, List.not_mem_nil, or_false] at h ⊢
  split at h
  · obtain ⟨rfl | rfl, hs⟩ := h
    · exact .inl rfl
    · exact .inr ⟨.inr rfl, hs⟩
  · obtain ⟨rfl | rfl, hs⟩ := h
    · exact .inr ⟨.inl rfl, hs⟩
    · exact .inl rfl

/-- The written record may be read. -/
theorem StoreItem.written_mem_held_put (i : StoreItem) {f : List Byte} (hf : f.length = 20) : i.written f ∈ (i.put f).held := by
  have hs : profSound (i.written f) = true := profSound_commit _ _ hf
  unfold StoreItem.put StoreItem.older
  split
  · exact List.mem_filter.mpr ⟨List.mem_cons_self, hs⟩
  · exact List.mem_filter.mpr ⟨List.mem_cons_of_mem _ List.mem_cons_self, hs⟩

/-- The SEQ after one is neither 0 nor all ones (17 Table 17.5). -/
theorem nextSeq_ne (s : W32) : nextSeq s ≠ 0 ∧ nextSeq s ≠ 0xFFFFFFFF := by
  unfold nextSeq
  split
  · decide
  · constructor <;> bv_omega

theorem StoreItem.next_ne (i : StoreItem) : i.next ≠ 0 ∧ i.next ≠ 0xFFFFFFFF := by
  unfold StoreItem.next
  split
  · exact nextSeq_ne _
  · decide

theorem storeItem_set_self {l : List StoreItem} {k : Nat} (h : k < l.length) (x : StoreItem) : storeItem (l.set k x) k = x := by
  simp [storeItem, h]

theorem storeItem_set_ne (l : List StoreItem) {j k : Nat} (h : j ≠ k) (x : StoreItem) : storeItem (l.set k x) j = storeItem l j := by
  simp [storeItem, List.getElem?_set_ne h.symm]

/-- What the records of a store keep to (17 R397 to R399, Table 17.5): what `StoreOk` says of the store. -/
structure RecordsOk (l : List StoreItem) : Prop where
  length : l.length = 5
  present : ∀ k, k < 4 → (storeItem l k).held ≠ []
  inLimits : ∀ k, k < 4 → ∀ b ∈ (storeItem l k).held, profOk (ProfRec.ofRec b) = true
  seq : ∀ k, k < 5 → ∀ b ∈ (storeItem l k).held, profSeq b ≠ 0 ∧ profSeq b ≠ 0xFFFFFFFF
  factory : l[3]? = factoryStore[3]?
  override : ∀ b ∈ (storeItem l 4).held, (profSel b).toNat ≤ 3 ∨ profSel b = 0xFF

/-- A write of an item other than profile 3 keeps the records legal when the written record is: inside the limits as a profile, and naming a
profile or none as the override. -/
theorem RecordsOk.put {l : List StoreItem} (h : RecordsOk l) {k : Nat} {f : List Byte} (hk : k < 5) (h3 : k ≠ 3) (hf : f.length = 20)
    (hp : k < 4 → profOk (ProfRec.ofRec ((storeItem l k).written f)) = true)
    (ho : k = 4 → (profSel ((storeItem l k).written f)).toNat ≤ 3 ∨ profSel ((storeItem l k).written f) = 0xFF) :
    RecordsOk (storePut l k f) := by
  have self : storeItem (storePut l k f) k = (storeItem l k).put f := storeItem_set_self (by rw [h.length]; exact hk) _
  have other : ∀ j, j ≠ k → storeItem (storePut l k f) j = storeItem l j := fun j hj => storeItem_set_ne l hj _
  have held : ∀ j, ∀ b ∈ (storeItem (storePut l k f) j).held, b ∈ (storeItem l j).held ∨ j = k ∧ b = (storeItem l k).written f := by
    intro j b hb
    by_cases hj : j = k
    · subst hj
      rw [self] at hb
      exact (StoreItem.mem_held_put hb).symm.imp_right fun e => ⟨rfl, e⟩
    · rw [other j hj] at hb
      exact .inl hb
  constructor
  case length => exact (List.length_set ..).trans h.length
  case present =>
    intro j hj
    by_cases e : j = k
    · subst e
      rw [self]
      exact List.ne_nil_of_mem (StoreItem.written_mem_held_put _ hf)
    · rw [other j e]
      exact h.present j hj
  case inLimits =>
    intro j hj b hb
    obtain hb | ⟨rfl, rfl⟩ := held j b hb
    · exact h.inLimits j hj b hb
    · exact hp hj
  case seq =>
    intro j hj b hb
    obtain hb | ⟨rfl, rfl⟩ := held j b hb
    · exact h.seq j hj b hb
    · rw [StoreItem.written, profSeq_commit _ _ hf]
      exact StoreItem.next_ne _
  case factory => exact (List.getElem?_set_ne h3).trans h.factory
  case override =>
    intro b hb
    obtain hb | ⟨rfl, rfl⟩ := held 4 b hb
    · exact h.override b hb
    · exact ho rfl

/-- A profile inside the limits, written to a place other than profile 3. -/
theorem RecordsOk.putProfile {l : List StoreItem} (h : RecordsOk l) {k : Nat} {q : ProfRec} (hk : k < 3) (hq : profOk q = true) :
    RecordsOk (storePut l k (ProfRec.fields q 0)) := by
  refine h.put (by omega) (by omega) (length_fields q 0) (fun _ => ?_) (fun e => by omega)
  rw [StoreItem.written, ofRec_commit _ _ _ hq]
  exact hq

/-- An override record that names a profile or none. -/
theorem RecordsOk.putOverride {l : List StoreItem} (h : RecordsOk l) {sel : Byte} (hs : sel.toNat ≤ 3 ∨ sel = 0xFF) :
    RecordsOk (storePut l 4 (leBytes 9 0 ++ [sel] ++ leBytes 10 0)) := by
  refine h.put (by omega) (by omega) (by simp) (fun e => by omega) (fun _ => ?_)
  rw [StoreItem.written, profSel_commit]
  exact hs

/-- A blank copy may not be read. -/
theorem profSound_blank : profSound profBlank = false := by
  have h : profBlank.getD 31 0 = 0 := by decide
  rw [profSound, h]
  simp

/-- A written copy beside a blank one is the only readable one. -/
theorem StoreItem.held_one {c : List Byte} (h : profSound c = true) : (StoreItem.mk c profBlank).held = [c] := by
  simp [StoreItem.held, h, profSound_blank]

/-- Each profile as shipped is one readable copy with SEQ 1, inside the limits. -/
theorem held_factory {k : Nat} (h : k < 4) :
    ∃ q, profOk q = true ∧ (storeItem factoryStore k).held = [profCommit (profBody 1 (ProfRec.fields q 0))] := by
  have hk : k < factoryProfiles.length := h
  refine ⟨factoryProfiles[k], (by decide : ∀ q ∈ factoryProfiles, profOk q = true) _ (List.getElem_mem hk), ?_⟩
  have e : storeItem factoryStore k = ⟨profCommit (profBody 1 (ProfRec.fields factoryProfiles[k] 0)), profBlank⟩ := by
    simp [storeItem, factoryStore, List.getElem?_append, hk]
  rw [e]
  exact StoreItem.held_one (profSound_commit _ _ (length_fields _ 0))

/-- No override record is shipped. -/
theorem held_factory_override : (storeItem factoryStore 4).held = [] := by
  change (StoreItem.mk profBlank profBlank).held = []
  simp [StoreItem.held, profSound_blank]

/-- The store as shipped is legal (14 Table 14.2, log 114). -/
theorem recordsOk_factory : RecordsOk factoryStore := by
  constructor
  case length => rfl
  case factory => rfl
  case present =>
    intro k hk
    obtain ⟨q, -, e⟩ := held_factory hk
    rw [e]
    exact List.cons_ne_nil _ _
  case inLimits =>
    intro k hk b hb
    obtain ⟨q, hq, e⟩ := held_factory hk
    rw [e, List.mem_singleton] at hb
    rw [hb, ofRec_commit _ _ _ hq]
    exact hq
  case seq =>
    intro k hk b hb
    obtain rfl | hk := Nat.eq_or_lt_of_le (Nat.le_of_lt_succ hk)
    · exact absurd hb (by simp [held_factory_override])
    · obtain ⟨q, -, e⟩ := held_factory hk
      rw [e, List.mem_singleton] at hb
      rw [hb, profSeq_commit _ _ (length_fields q 0)]
      decide
  case override => simp [held_factory_override]

/-! ### The remap table -/

/-- A remap entry of half-bench `n` that skips a column of its own half (01 R13). -/
def SkipOk (n : Nat) (v : Byte) : Prop := if n % 2 = 0 then fld v 0 6 < 24 else 24 ≤ fld v 0 6 ∧ fld v 0 6 < 48

/-- Every half-bench skips a column of its own half: what `StoreOk` says of the remap table. -/
def RemapOk (m : SMap Byte) : Prop := ∀ n, SkipOk n (SMap.get skipDefault m n)

theorem RemapOk.set {m : SMap Byte} (h : RemapOk m) {n : Nat} {v : Byte} (hv : SkipOk n v) : RemapOk (SMap.set skipDefault m n v) := by
  intro j
  by_cases e : j = n
  · subst e
    rw [SMap.get_set_self]
    exact hv
  · rw [SMap.get_set_ne _ _ _ _ e]
    exact h j

/-- No site is skipped but the West's first and the East's last column. -/
theorem remapOk_nil : RemapOk [] := by
  intro n
  show SkipOk n (if n % 2 = 0 then 0 else 47)
  unfold SkipOk
  split
  · decide
  · decide

/-- The end of a slice shift leaves the skipped column as it is. -/
theorem SkipOk.clrShifting {n : Nat} {v : Byte} (h : SkipOk n v) : SkipOk n (clrBit v 7) := by
  unfold SkipOk at h ⊢
  rwa [fld_clrBit_other v 7 0 6 (.inr (by omega))]

/-- A tile of half-bench `n` stands in a column of its own half, whichever column is skipped. -/
theorem physCol_half {n t : Nat} (s : Nat) (h : t ∈ halfTiles n) :
    if n % 2 = 0 then physCol s (t % Config.lcols) < 24 else 24 ≤ physCol s (t % Config.lcols) ∧ physCol s (t % Config.lcols) < 48 := by
  obtain ⟨i, hi, rfl⟩ := List.mem_map.mp h
  have hi : i < 23 := List.mem_range.mp hi
  have hc : (n / 2 * Config.lcols + n % 2 * 23 + i) % Config.lcols = n % 2 * 23 + i := by
    simp only [Config.lcols]
    omega
  rw [hc]
  unfold physCol
  split
  · rw [if_pos (by omega)]
    split <;> omega
  · rw [if_neg (by omega)]
    split <;> omega

/-- The column of a tile's site, marked used and shifting, is a legal entry of the tile's half-bench. -/
theorem skipOk_of_tileAt {d : Dev} {b col t : Nat} (h : d.tileAt b col = some t) : SkipOk (siteHalf b col) (BitVec.ofNat 8 (col + 64 + 128)) := by
  unfold Dev.tileAt at h
  have hp : physCol (fld (d.skip (siteHalf b col)) 0 6) (t % Config.lcols) = col := by simpa using List.find?_some h
  have hh := physCol_half (fld (d.skip (siteHalf b col)) 0 6) (List.mem_of_find?_eq_some h)
  rw [hp] at hh
  have hcol : col < 48 := by split at hh <;> omega
  have hf : fld (BitVec.ofNat 8 (col + 64 + 128)) 0 6 = col := by
    simp only [fld, BitVec.toNat_ofNat]
    omega
  unfold SkipOk
  rw [hf]
  exact hh

/-! ### The legal store -/

/-- The store is legal when its records and its remap table are. -/
theorem storeOk_iff (d : Dev) : StoreOk d ↔ RecordsOk d.aon.store ∧ RemapOk d.aon.skip := by
  constructor
  · rintro ⟨hl, hp, hs, hf, ho, hr⟩
    exact ⟨⟨hl, fun k hk => (hp k hk).1, fun k hk => (hp k hk).2, hs, hf, ho⟩, hr⟩
  · rintro ⟨⟨hl, hp, hi, hs, hf, ho⟩, hr⟩
    exact ⟨hl, fun k hk => ⟨hp k hk, hi k hk⟩, hs, hf, ho, hr⟩

/-- What keeps the store and the remap table keeps the store legal. -/
theorem storeOk_of_nonvol_eq {d e : Dev} (h : StoreOk d) (he : e.aon.nonvol = d.aon.nonvol) : StoreOk e := by
  obtain ⟨hs, hk⟩ := Prod.mk.inj he
  rw [storeOk_iff, hs, hk]
  exact (storeOk_iff d).mp h

theorem storeOk_of_aon_eq {d e : Dev} (h : StoreOk d) (he : e.aon = d.aon) : StoreOk e := storeOk_of_nonvol_eq h (congrArg AlwaysOn.nonvol he)

/-- A change of the remap table that keeps it legal. -/
theorem storeOk_setSkip {d e : Dev} (h : StoreOk d) (he : e.aon = d.aon) {n : Nat} {v : Byte} (hv : SkipOk n v) :
    StoreOk { e with aon := { e.aon with skip := SMap.set skipDefault e.aon.skip n v } } := by
  obtain ⟨hr, hm⟩ := (storeOk_iff e).mp (storeOk_of_aon_eq h he)
  exact (storeOk_iff _).mpr ⟨hr, hm.set hv⟩

/-- The skipped column of a half-bench. -/
theorem skipOk_of_storeOk {d : Dev} (h : StoreOk d) (n : Nat) : SkipOk n (d.skip n) := ((storeOk_iff d).mp h).2 n

theorem Dev.setOverride_storeOk {d : Dev} (h : StoreOk d) {sel : Byte} (hs : sel.toNat ≤ 3 ∨ sel = 0xFF) : StoreOk (d.setOverride sel) := by
  obtain ⟨hr, hm⟩ := (storeOk_iff d).mp h
  exact (storeOk_iff _).mpr ⟨hr.putOverride hs, hm⟩

theorem Dev.setProfile_storeOk {d : Dev} (h : StoreOk d) (m : Nat) (q : ProfileReq) : StoreOk (d.setProfile m q) := by
  unfold Dev.setProfile
  dsimp only
  split <;> rename_i hq
  · exact storeOk_of_aon_eq h (Dev.reply_aon ..)
  · obtain ⟨hp, hw, hs⟩ := not_or.mp hq |>.imp_right not_or.mp
    refine storeOk_of_aon_eq ?_ (Dev.reply_aon ..)
    have written : StoreOk (if q.write then { d with aon := { d.aon with store := storePut d.aon.store q.profile.toNat (ProfRec.fields q.prof 0) } } else d) := by
      split <;> rename_i hwr
      · obtain ⟨hr, hm⟩ := (storeOk_iff d).mp h
        obtain ⟨hok, h3⟩ := not_or.mp (not_and.mp hw hwr)
        exact (storeOk_iff _).mpr ⟨hr.putProfile (by omega) (by simpa using hok), hm⟩
      · exact h
    split <;> rename_i hsel
    · refine storeOk_of_aon_eq (Dev.setOverride_storeOk written ?_) (Dev.selectProfile_aon ..)
      have := not_and.mp hs hsel
      by_cases h4 : q.sel.toNat ≤ 3
      · exact .inl h4
      · exact .inr (not_not.mp (not_and.mp this (by omega)))
    · exact written

/-- A remap to the column of the failed tile's site. -/
theorem Dev.remap_storeOk {d : Dev} (h : StoreOk d) (v : Recovery) {n col t : Nat} (hv : SkipOk n (BitVec.ofNat 8 (col + 64 + 128))) :
    StoreOk (d.remap v n col t) :=
  storeOk_of_aon_eq (storeOk_setSkip h (Dev.faultSend_aon ..) hv) ((Dev.abortAll_aon ..).trans (Dev.setRecov_aon ..))

theorem Dev.bistComplete_storeOk {d : Dev} (h : StoreOk d) (pass : Bool) : StoreOk (d.bistComplete pass) := by
  unfold Dev.bistComplete
  split
  · exact h
  · split
    · exact h
    · split
      · exact h
      · dsimp only
        split <;> rename_i ht
        · exact storeOk_of_aon_eq h (Dev.setRecov_aon ..)
        · split
          · refine storeOk_of_aon_eq h ((Dev.nextSite_aon ..).trans ?_)
            split
            · exact Dev.rebuildFt_aon ..
            · rfl
          · have hr : ∀ r : ErrRec, (d.record r).drawn.aon = d.aon := fun r => (Dev.drawn_aon _).trans (Dev.record_aon ..)
            split
            · exact storeOk_of_aon_eq h ((Dev.spareExhausted_aon ..).trans (hr _))
            · split
              · exact storeOk_of_aon_eq h ((Dev.nextSite_aon ..).trans (hr _))
              · exact Dev.remap_storeOk (storeOk_of_aon_eq h (hr _)) _ (skipOk_of_tileAt ht)

theorem Dev.sliceShiftDone_storeOk {d : Dev} (h : StoreOk d) (clean : Bool) : StoreOk (d.sliceShiftDone clean) := by
  unfold Dev.sliceShiftDone
  split
  · exact h
  · split
    · exact h
    · rename_i b col _ _
      split
      · exact h
      · dsimp only
        refine storeOk_of_aon_eq (storeOk_setSkip h rfl (skipOk_of_storeOk h (siteHalf b col)).clrShifting) ?_
        refine (Dev.nextSite_aon ..).trans ((foldl_aon Dev.copyBack_aon _ _).trans ((Dev.modWt_aon ..).trans ?_))
        split
        · refine Dev.ite_aon_eq rfl ?_
          simp
        · rfl

theorem Dev.shiftCut_storeOk {d : Dev} (h : StoreOk d) (n : Nat) : StoreOk (d.shiftCut n) := by
  unfold Dev.shiftCut
  dsimp only
  split
  · exact storeOk_setSkip h (foldl_aon Dev.badSlice_aon _ _) (skipOk_of_storeOk h n).clrShifting
  · exact h

theorem Dev.replayEnd_storeOk {d : Dev} (h : StoreOk d) : StoreOk d.replayEnd := by
  have shifts : ∀ (l : List Nat) (e : Dev), StoreOk e → StoreOk (l.foldl Dev.shiftCut e) := by
    intro l
    induction l with
    | nil => exact fun e he => he
    | cons n l ih => exact fun e he => ih _ (Dev.shiftCut_storeOk he n)
  refine shifts _ _ (storeOk_of_aon_eq h ?_)
  exact (Dev.checkpoint_aon _).trans ((Dev.modReg_aon ..).trans (foldl_aon Dev.trialBoot_aon _ _))

end Sys2Proof.Machine

/-! ## Every step keeps the store legal (O59, O60) -/

namespace Sys2Proof.Machine

open Sys2Proof Sys2Proof.Claims

/-- A command that keeps every legal store legal. -/
theorem onDev_storeOk {s s' : State} {f : Dev → Dev} (hf : ∀ d, StoreOk d → StoreOk (f d)) (h : StoreOk s.dev) (e : onDev s f = .next s') :
    StoreOk s'.dev := by
  obtain rfl := Host.Outcome.next.inj e
  exact hf s.dev h

theorem onHostM_storeOk {m op : Nat} {ok : Message → Bool} {s s' : State} {f : Dev → Dev} (hf : ∀ d, StoreOk d → StoreOk (f d)) (h : StoreOk s.dev)
    (e : onHostM m op ok s f = .next s') : StoreOk s'.dev := by
  obtain ⟨-, rfl⟩ := onUnit_next e
  dsimp only
  split
  · exact hf _ (storeOk_of_aon_eq h (Dev.begin__aon _ m))
  · exact h

/-- The commands that write the store or the remap table write within its limits; every other command leaves both as they are. -/
theorem exec_storeOk {c : Instr} {s s' : State} (h : StoreOk s.dev) (e : exec c s = .next s') : StoreOk s'.dev := by
  cases hc : writesStore c with
  | false => exact storeOk_of_nonvol_eq h (exec_keepsStore hc s s' e)
  | true =>
    unfold exec at e
    cases c with
    | setProfile m q => exact onHostM_storeOk (fun d hd => Dev.setProfile_storeOk hd m q) h e
    | bistComplete pass => exact onDev_storeOk (fun d hd => Dev.bistComplete_storeOk hd pass) h e
    | sliceShiftDone clean => exact onDev_storeOk (fun d hd => Dev.sliceShiftDone_storeOk hd clean) h e
    | smbOverride sel =>
      refine onDev_storeOk (fun d hd => ?_) h e
      unfold Dev.onAux
      split
      · split <;> rename_i hs
        · exact Dev.setOverride_storeOk hd hs
        · exact hd
      · exact hd
    | journalReplay =>
      refine onDev_storeOk (fun d hd => ?_) h e
      split
      · split
        · exact Dev.replayEnd_storeOk hd
        · exact storeOk_of_aon_eq hd (Dev.replayRead_aon _)
      · exact hd
    | _ => cases hc

/-- A step runs the next command, or a cycle of the routers and ports, which touches neither. -/
theorem step_storeOk {s s' : State} (h : StoreOk s.dev) (e : step s = .next s') : StoreOk s'.dev := by
  unfold step at e
  split at e
  · obtain rfl := Host.Outcome.next.inj e
    exact storeOk_of_aon_eq h (Dev.cycle_aon _)
  · rename_i c rest _
    exact exec_storeOk (s := { s with pending := rest }) h e

/-- Settles O59: right after reset the store is as shipped and no site is skipped but the first and the last column. -/
theorem storeLegalAtReset : Obligations.StoreLegalAtReset := (storeOk_iff _).mpr ⟨recordsOk_factory, remapOk_nil⟩

/-- Settles O60: a step leaves the store and the remap table as they are, or it is one of the five commands that write them, each within its limits. -/
theorem everyStepKeepsTheStoreLegal : Obligations.EveryStepKeepsTheStoreLegal := fun _ _ => step_storeOk

end Sys2Proof.Machine

/-! ## WLOAD and CBLOAD

Proofs of the statements of 02: the loads of the arrays' planes and codebooks (O20). An ACW is followed unit by unit (`AcwUnits`): its entry stands in
the queue, each unit reads through AGs that serve it, and after its last unit it is complete. -/

/-! ### An entry of the ACW queue -/

namespace Sys2Proof.Machine

open Sys2Proof Sys2Proof.Claims

/-- The entry as the next unit finds it. -/
def AcwEntry.next (e : AcwEntry) : AcwEntry := { e with prog := e.prog + 1, got := [], added := false, sent := 0 }

/-- The entry once it is complete. -/
def AcwEntry.complete (e : AcwEntry) : AcwEntry := { e with done := true, item := [] }

/-- The started entry after `k` units and `l` plane blocks. -/
def AcwEntry.after (e : AcwEntry) (k l : Nat) : AcwEntry := { e with started := true, prog := k, loaded := l }

@[simp] theorem AcwEntry.after_id (e : AcwEntry) (k l : Nat) : (e.after k l).id = e.id := rfl
@[simp] theorem AcwEntry.after_acw (e : AcwEntry) (k l : Nat) : (e.after k l).acw = e.acw := rfl

/-- No unit of the entry is in progress. -/
def AcwEntry.Idle (e : AcwEntry) : Prop := e.got = [] ∧ e.added = false ∧ e.sent = 0

theorem AcwEntry.after_next {e : AcwEntry} (h : e.Idle) {b : AcwEntry} {k l : Nat} (hb : { b with got := [] } = e.after k l) :
    b.next = e.after (k + 1) l := by
  obtain ⟨hg, ha, hs⟩ := h
  cases b
  simp_all [AcwEntry.next, AcwEntry.after]

/-- The queue of `y` is that of `x` with `e` in place of the entry of its ID. -/
def AcwStands (x : Tile) (e : AcwEntry) (y : Tile) : Prop := y.acwQ = x.acwQ.map fun b => if b.id = e.id then e else b

@[simp] theorem Tile.modAcw_spad (x : Tile) (id : Nat) (f : AcwEntry → AcwEntry) : (x.modAcw id f).spad = x.spad := rfl
@[simp] theorem Tile.modAcw_parInv (x : Tile) (id : Nat) (f : AcwEntry → AcwEntry) : (x.modAcw id f).parInv = x.parInv := rfl
@[simp] theorem Tile.modAcw_ag (x : Tile) (id : Nat) (f : AcwEntry → AcwEntry) (n : Nat) : (x.modAcw id f).ag n = x.ag n := rfl
@[simp] theorem Tile.modAcw_arr (x : Tile) (id : Nat) (f : AcwEntry → AcwEntry) (j : Nat) : (x.modAcw id f).arr j = x.arr j := rfl

/-- Two changes of one entry are one. -/
theorem Tile.modAcw_modAcw (x : Tile) (id : Nat) {f g : AcwEntry → AcwEntry} (hf : ∀ e, (f e).id = e.id) :
    (x.modAcw id f).modAcw id g = x.modAcw id fun e => g (f e) := by
  simp only [Tile.modAcw, List.map_map]
  congr 1
  refine List.map_congr_left fun e _ => ?_
  by_cases h : e.id = id <;> simp [h, hf]

/-- Changes that keep the IDs, seen by who looks for an ID. -/
theorem acwFind_map {f : AcwEntry → AcwEntry} (hf : ∀ b, (f b).id = b.id) (q : List AcwEntry) (id : Nat) :
    (q.map f).find? (fun b => decide (b.id = id)) = (q.find? fun b => decide (b.id = id)).map f := by
  have hp : (fun b : AcwEntry => decide (b.id = id)) ∘ f = fun b => decide (b.id = id) := funext fun b => by simp [hf]
  rw [List.find?_map, hp]

theorem Tile.acwOf_modAcw {x : Tile} {id : Nat} {e : AcwEntry} {f : AcwEntry → AcwEntry} (hf : ∀ e, (f e).id = e.id) (h : x.acwOf id = some e) :
    (x.modAcw id f).acwOf id = some (f e) := by
  have hid : e.id = id := by simpa using List.find?_some h
  unfold Tile.acwOf at h
  rw [Tile.acwOf, Tile.modAcw, acwFind_map (fun b => by split <;> simp [hf]), h, Option.map_some, if_pos hid]

theorem AcwStands.acwOf {x y : Tile} {e : AcwEntry} (h : AcwStands x e y) (hm : ∃ b ∈ x.acwQ, b.id = e.id) : y.acwOf e.id = some e := by
  obtain ⟨b, hb⟩ : ∃ b, x.acwQ.find? (fun b => decide (b.id = e.id)) = some b :=
    Option.isSome_iff_exists.mp (List.find?_isSome.mpr (hm.imp fun _ h => ⟨h.1, decide_eq_true h.2⟩))
  have hid : b.id = e.id := by simpa using List.find?_some hb
  rw [Tile.acwOf, h, acwFind_map (fun b => by split <;> simp [*]), hb, Option.map_some, if_pos hid]

theorem AcwStands.mem {x y : Tile} {e : AcwEntry} (h : AcwStands x e y) (hm : ∃ b ∈ x.acwQ, b.id = e.id) : e ∈ y.acwQ :=
  List.mem_of_find?_eq_some (h.acwOf hm)

/-- A change of the entry that stands. -/
theorem AcwStands.modAcw {x y : Tile} {e : AcwEntry} (h : AcwStands x e y) {f : AcwEntry → AcwEntry} (hf : (f e).id = e.id) :
    AcwStands x (f e) (y.modAcw e.id f) := by
  unfold AcwStands at h ⊢
  rw [Tile.modAcw, h, List.map_map, hf]
  refine List.map_congr_left fun b _ => ?_
  by_cases hb : b.id = e.id <;> simp [hb]

theorem acwStart_stands {x : Tile} {e : AcwEntry} (hu : ∀ b ∈ x.acwQ, b.id = e.id → b = e) (hp : e.prog = 0) (hl : e.loaded = 0) :
    AcwStands x (e.after 0 0) (x.acwStart e.id) := by
  have ha : e.after 0 0 = { e with started := true } := by cases e; simp_all [AcwEntry.after]
  refine List.map_congr_left fun b hb => ?_
  by_cases hid : b.id = e.id
  · simp [ha, hu b hb hid]
  · simp [hid]

/-! ### Completion -/

theorem Tile.agRelease_frame (id : Nat) (x : Tile) (n : Nat) : ∃ ags, x.agRelease id n = { x with ags := ags } := by
  unfold Tile.agRelease
  dsimp only
  split
  · split <;> exact ⟨_, rfl⟩
  · exact ⟨_, rfl⟩

theorem Tile.foldl_agRelease_frame (id : Nat) (ns : List Nat) (x : Tile) : ∃ ags, ns.foldl (Tile.agRelease id) x = { x with ags := ags } := by
  induction ns generalizing x with
  | nil => exact ⟨x.ags, rfl⟩
  | cons n ns ih =>
    obtain ⟨g, hg⟩ := Tile.agRelease_frame id x n
    obtain ⟨g', hg'⟩ := ih { x with ags := g }
    exact ⟨g', by rw [List.foldl_cons, hg, hg']⟩

/-- Completion changes the queue, and the AGs whose tickets it releases. -/
theorem Tile.acwDone_frame (x : Tile) (id : Nat) : ∃ q ags, x.acwDone id = { x with acwQ := q, ags := ags } := by
  unfold Tile.acwDone
  split
  · rename_i e _
    obtain ⟨g, hg⟩ := Tile.foldl_agRelease_frame id e.ags (x.modAcw id fun e => { e with done := true, item := [] })
    exact ⟨_, g, hg⟩
  · exact ⟨x.acwQ, x.ags, rfl⟩

@[simp] theorem Tile.acwDone_spad (x : Tile) (id : Nat) : (x.acwDone id).spad = x.spad := by
  obtain ⟨q, g, h⟩ := x.acwDone_frame id
  rw [h]

@[simp] theorem Tile.acwDone_arr (x : Tile) (id j : Nat) : (x.acwDone id).arr j = x.arr j := by
  obtain ⟨q, g, h⟩ := x.acwDone_frame id
  rw [h]
  rfl

theorem AcwStands.acwDone {x y : Tile} {e : AcwEntry} (h : AcwStands x e y) (hm : ∃ b ∈ x.acwQ, b.id = e.id) :
    AcwStands x e.complete (y.acwDone e.id) := by
  obtain ⟨g, hg⟩ := Tile.foldl_agRelease_frame e.id e.ags (y.modAcw e.id AcwEntry.complete)
  have hd : y.acwDone e.id = { y.modAcw e.id AcwEntry.complete with ags := g } := by
    unfold Tile.acwDone
    rw [h.acwOf hm]
    exact hg
  rw [hd]
  exact h.modAcw (f := AcwEntry.complete) rfl

end Sys2Proof.Machine

/-! ### An ACW unit by unit -/

namespace Sys2Proof.Machine

open Sys2Proof Sys2Proof.Claims

/-- How an ACW `e` of a tile that holds `x` goes on under `f`, each unit with the operands it needs: `P k` holds of the tile after `k` units,
which have loaded `l k` plane blocks. -/
structure AcwUnits (t : Nat) (x : Tile) (e : AcwEntry) (l : Nat → Nat) (f : Dev → AcwEntry → Dev × Bool) (P : Nat → Tile → Prop) : Prop where
  stands : ∀ k y, P k y → AcwStands x (e.after k (l k)) y
  start : P 0 (x.acwStart e.id)
  unit : ∀ k d, k < Acw.total e.acw → P k (d.tile t) →
    ∃ z, f d (e.after k (l k)) = (d.setTile t z, true) ∧ P (k + 1) (z.modAcw e.id AcwEntry.next)

section

variable {t : Nat} {x y : Tile} {e : AcwEntry} {l : Nat → Nat} {f : Dev → AcwEntry → Dev × Bool} {P : Nat → Tile → Prop}

theorem AcwUnits.acwOf (h : AcwUnits t x e l f P) (hm : ∃ b ∈ x.acwQ, b.id = e.id) {k : Nat} (hk : P k y) :
    y.acwOf e.id = some (e.after k (l k)) := (h.stands k y hk).acwOf hm

/-- The queue once the ACW is complete after `k` units. -/
theorem AcwUnits.acwDone (h : AcwUnits t x e l f P) (hm : ∃ b ∈ x.acwQ, b.id = e.id) {k : Nat} (hk : P k y) :
    AcwStands x (e.after k (l k)).complete (y.acwDone e.id) := (h.stands k y hk).acwDone hm

/-- The `n` units that are left take place, and then the ACW is complete. -/
theorem AcwUnits.acwLoop (h : AcwUnits t x e l f P) (hm : ∃ b ∈ x.acwQ, b.id = e.id) {n k : Nat} (hn : k + n = Acw.total e.acw) {d : Dev}
    (hk : P k (d.tile t)) : ∃ y, P (Acw.total e.acw) y ∧ d.acwLoop t e.id (Acw.total e.acw) f (n + 1) = d.setTile t (y.acwDone e.id) := by
  have ho : (d.tile t).acwOf e.id = some (e.after k (l k)) := h.acwOf hm hk
  induction n generalizing k d with
  | zero =>
    refine ⟨d.tile t, hn ▸ hk, ?_⟩
    rw [Dev.acwLoop, ho]
    exact if_pos (Nat.le_of_eq hn.symm)
  | succ n ih =>
    have hlt : k < Acw.total e.acw := by omega
    obtain ⟨z, hf, hz⟩ := h.unit k d hlt hk
    have hz' : P (k + 1) (((d.setTile t z).modTile t fun x => x.modAcw e.id AcwEntry.next).tile t) := by simpa using hz
    obtain ⟨y, hy, hl⟩ := ih (by omega) hz' (h.acwOf hm hz')
    refine ⟨y, hy, ?_⟩
    have hs : d.acwLoop t e.id (Acw.total e.acw) f (n + 1 + 1) =
        ((d.setTile t z).modTile t fun x => x.modAcw e.id AcwEntry.next).acwLoop t e.id (Acw.total e.acw) f (n + 1) := by
      conv_lhs => rw [Dev.acwLoop, ho]
      simp only [hf, if_true]
      exact if_neg (Nat.not_le.mpr hlt)
    rw [hs, hl]
    simp [Dev.modTile]

/-- The same for a tile on which the ACW, just started, may act. -/
theorem AcwUnits.acwAdvance (h : AcwUnits t x e l f P) (hm : ∃ b ∈ x.acwQ, b.id = e.id) (hu : x.acwUsable e = true) {d : Dev}
    (hd : d.tile t = x.acwStart e.id) : ∃ y, P (Acw.total e.acw) y ∧ d.acwAdvance t f e.id = d.setTile t (y.acwDone e.id) := by
  have h0 : P 0 (d.tile t) := hd ▸ h.start
  have hu' : (d.tile t).acwUsable (e.after 0 (l 0)) = true := hd ▸ hu
  obtain ⟨y, hy, hl⟩ := h.acwLoop hm (Nat.zero_add _) h0
  refine ⟨y, hy, ?_⟩
  rw [Dev.acwAdvance, h.acwOf hm h0]
  exact (if_pos hu').trans hl

end

/-- The first unstarted entry stands in the queue. -/
theorem mem_of_firstUnstarted {pre q l : List AcwEntry} {e : AcwEntry} (h : firstUnstarted pre q = some (l, e)) : e ∈ q := by
  induction q generalizing pre with
  | nil => cases h
  | cons b q ih =>
    unfold firstUnstarted at h
    split at h
    · exact List.mem_cons_of_mem _ (ih h)
    · cases h
      exact List.mem_cons_self

/-- What the next ACW of a kind has met. -/
theorem Tile.acwNext_spec {x : Tile} {kind : Nat} {e : AcwEntry} (h : x.acwNext kind = some e) :
    e ∈ x.acwQ ∧ Acw.kind e.acw = kind ∧ x.acwUsable e = true := by
  unfold Tile.acwNext at h
  split at h
  · rename_i hf
    split at h
    · rename_i hc
      obtain ⟨hk, -, -, hu⟩ := hc
      cases h
      exact ⟨mem_of_firstUnstarted hf, hk, hu⟩
    · cases h
  · cases h

/-- Behind an ACW that has started and stands alone, no other may start. -/
theorem Tile.acwNext_of_alone {x : Tile} {kind : Nat} {e : AcwEntry} (h : x.acwQ = [e]) (hs : e.started = true) : x.acwNext kind = none := by
  simp [Tile.acwNext, h, firstUnstarted, hs]

/-- A start changes nothing where the ACW has started and stands alone. -/
theorem Tile.acwStart_of_alone {x : Tile} {e : AcwEntry} (h : x.acwQ = [e]) (hs : e.started = true) : x.acwStart e.id = x := by
  have he : ({ e with started := true } : AcwEntry) = e := by rw [← hs]
  have hq : (x.acwStart e.id).acwQ = x.acwQ := by simp [Tile.acwStart, Tile.modAcw, h, he]
  exact congrArg (fun q => { x with acwQ := q }) hq

/-- What an ACW in progress has met. -/
theorem Tile.acwRunning_spec {x : Tile} {kind : Nat} {e : AcwEntry} (h : x.acwRunning kind = [e]) :
    e ∈ x.acwQ ∧ Acw.kind e.acw = kind ∧ e.started = true := by
  have hm : e ∈ x.acwRunning kind := by rw [h]; exact List.mem_singleton_self e
  simp only [Tile.acwRunning, List.mem_filter, Bool.and_eq_true, beq_iff_eq] at hm
  obtain ⟨hq, ⟨hs, -⟩, hk⟩ := hm
  exact ⟨hq, hk, hs⟩

/-- What the ACW that a command finds has met, whether it starts or is in progress. -/
theorem acwAt_spec {s : State} {t kind : Nat} {e : AcwEntry} (h : AcwAt s t kind e) :
    e ∈ (s.dev.tile t).acwQ ∧ Acw.kind e.acw = kind ∧ (s.dev.tile t).acwUsable e = true := by
  obtain ⟨-, ⟨-, hn⟩ | ⟨-, hr, hu⟩, -⟩ := h
  · exact Tile.acwNext_spec hn
  · obtain ⟨hq, hk, -⟩ := Tile.acwRunning_spec hr
    exact ⟨hq, hk, hu⟩

theorem acwAt_mem {s : State} {t kind : Nat} {e : AcwEntry} (h : AcwAt s t kind e) : ∃ b ∈ (s.dev.tile t).acwQ, b.id = e.id :=
  ⟨e, (acwAt_spec h).1, rfl⟩

theorem acwAt_idle {s : State} {t kind : Nat} {e : AcwEntry} (h : AcwAt s t kind e) : e.Idle := by
  obtain ⟨-, -, -, -, -, hg, ha, hs, -⟩ := h
  exact ⟨hg, ha, hs⟩

theorem acwAt_start {s : State} {t kind : Nat} {e : AcwEntry} (h : AcwAt s t kind e) :
    AcwStands (s.dev.tile t) (e.after 0 0) ((s.dev.tile t).acwStart e.id) := by
  obtain ⟨-, -, hu, hp, hl, -⟩ := h
  exact acwStart_stands hu hp hl

/-- Every unit of the ACW that the command finds takes place, and then it is complete. -/
theorem acwRun_of_units {s : State} {t kind : Nat} {e : AcwEntry} {l : Nat → Nat} {f : Dev → AcwEntry → Dev × Bool} {P : Nat → Tile → Prop}
    (h : AcwAt s t kind e) (hu : AcwUnits t (s.dev.tile t) e l f P) :
    ∃ y, P (Acw.total e.acw) y ∧ s.dev.acwRun t kind f = s.dev.setTile t (y.acwDone e.id) := by
  obtain ⟨-, -, husable⟩ := acwAt_spec h
  have hm := acwAt_mem h
  obtain ⟨-, ⟨hr, hn⟩ | ⟨hq, hr, -⟩, -⟩ := h
  · obtain ⟨y, hy, ha⟩ := hu.acwAdvance hm husable (d := s.dev.modTile t fun x => x.acwStart e.id) (by simp)
    refine ⟨y, hy, ?_⟩
    simp only [Dev.acwRun, hr, List.foldl_nil, hn]
    rw [ha]
    simp [Dev.modTile]
  · obtain ⟨-, -, hst⟩ := Tile.acwRunning_spec hr
    have hx : (s.dev.tile t).acwStart e.id = s.dev.tile t := Tile.acwStart_of_alone hq hst
    obtain ⟨y, hy, ha⟩ := hu.acwAdvance hm husable (d := s.dev) hx.symm
    refine ⟨y, hy, ?_⟩
    have hqd : (y.acwDone e.id).acwQ = [(e.after (Acw.total e.acw) (l (Acw.total e.acw))).complete] := by
      have hd := hu.acwDone hm hy
      rw [AcwStands, hq, List.map_singleton] at hd
      exact hd.trans (congrArg (fun b => [b]) (if_pos rfl))
    simp only [Dev.acwRun, hr, List.foldl_cons, List.foldl_nil, ha, Dev.tile_setTile_self, Tile.acwNext_of_alone hqd rfl]

/-- A command whose ACW has the operands of all its units completes the ACW; the tile holds what its units left. -/
theorem completes_of_units {c : Instr} {s : State} {t kind : Nat} {e : AcwEntry} {l : Nat → Nat} {f : Dev → AcwEntry → Dev × Bool}
    {P : Nat → Tile → Prop} (hc : exec c s = .next ⟨s.dev.acwRun t kind f, s.pending⟩) (h : AcwAt s t kind e)
    (hu : AcwUnits t (s.dev.tile t) e l f P) :
    ∃ y, P (Acw.total e.acw) y ∧ Completes c s fun d' =>
      OnlyTile t s.dev d' ∧ AcwComplete t e d' ∧ (d'.tile t).spad = y.spad ∧ ∀ j, (d'.tile t).arr j = y.arr j := by
  obtain ⟨y, hy, hr⟩ := acwRun_of_units h hu
  have hm := acwAt_mem h
  refine ⟨y, hy, _, by rw [hc, hr], Dev.onlyTile_setTile .., ?_⟩
  rw [AcwComplete, Dev.tile_setTile_self]
  exact ⟨⟨_, (hu.acwDone hm hy).mem hm, rfl, rfl, rfl, rfl⟩, by simp, by simp⟩

end Sys2Proof.Machine

/-! ### Reads through an AG that serves -/

namespace Sys2Proof.Machine

open Sys2Proof Sys2Proof.Claims

/-- An AG that emits an address moves on, and may set its event. -/
theorem Tile.agEmit_eq (x : Tile) (n : Nat) :
    x.agEmit n = x.setAg n (x.ag n).emitted ∨ x.agEmit n = (x.setAg n (x.ag n).emitted).event 2 := by
  unfold Tile.agEmit
  dsimp only
  split
  · exact .inr rfl
  · exact .inl rfl

/-- What an emission leaves as it was. -/
theorem Tile.agEmit_keeps {α : Type} (F : Tile → α) (hA : ∀ x n g, F (Tile.setAg x n g) = F x) (hR : ∀ x a f, F (Tile.modReg x a f) = F x)
    (x : Tile) (n : Nat) : F (x.agEmit n) = F x := by
  obtain h | h := x.agEmit_eq n <;> rw [h]
  · exact hA ..
  · exact (hR ..).trans (hA ..)

@[simp] theorem Tile.agEmit_spad (x : Tile) (n : Nat) : (x.agEmit n).spad = x.spad :=
  x.agEmit_keeps Tile.spad (fun _ _ _ => rfl) (fun _ _ _ => rfl) n
@[simp] theorem Tile.agEmit_parInv (x : Tile) (n : Nat) : (x.agEmit n).parInv = x.parInv :=
  x.agEmit_keeps Tile.parInv (fun _ _ _ => rfl) (fun _ _ _ => rfl) n
@[simp] theorem Tile.agEmit_acwQ (x : Tile) (n : Nat) : (x.agEmit n).acwQ = x.acwQ :=
  x.agEmit_keeps Tile.acwQ (fun _ _ _ => rfl) (fun _ _ _ => rfl) n
@[simp] theorem Tile.agEmit_arr (x : Tile) (n j : Nat) : (x.agEmit n).arr j = x.arr j :=
  x.agEmit_keeps (Tile.arr · j) (fun _ _ _ => rfl) (fun _ _ _ => rfl) n
@[simp] theorem Tile.agEmit_acwOf (x : Tile) (n id : Nat) : (x.agEmit n).acwOf id = x.acwOf id :=
  x.agEmit_keeps (Tile.acwOf · id) (fun _ _ _ => rfl) (fun _ _ _ => rfl) n

@[simp] theorem Tile.ag_agEmit_self (x : Tile) (n : Nat) : (x.agEmit n).ag n = (x.ag n).emitted := by
  obtain h | h := x.agEmit_eq n <;> rw [h]
  · exact x.ag_setAg_self ..
  · exact x.ag_setAg_self ..

@[simp] theorem Tile.ag_agEmit_ne (x : Tile) {n m : Nat} (h : m ≠ n) : (x.agEmit n).ag m = x.ag m := by
  obtain e | e := x.agEmit_eq n <;> rw [e]
  · exact x.ag_setAg_ne _ _ h
  · exact x.ag_setAg_ne _ _ h

theorem Tile.agEmit_modAcw (x : Tile) (id n : Nat) (f : AcwEntry → AcwEntry) : (x.modAcw id f).agEmit n = (x.agEmit n).modAcw id f := by
  unfold Tile.agEmit
  dsimp only
  by_cases h : (x.ag n).cur.doneEv = true ∧ ((x.ag n).pos + 1) % (x.ag n).cur.total = 0
  · rw [if_pos h]
    exact if_pos h
  · rw [if_neg h]
    exact if_neg h

theorem Tile.badWord_congr {x y : Tile} (hs : y.spad = x.spad) (hp : y.parInv = x.parInv) (a n : Nat) : y.badWord a n = x.badWord a n := by
  simp only [Tile.badWord, Tile.parBit, hs, hp]

section

variable {x y : Tile} {g n : Nat} {len a : Nat → Nat}

/-- What an AG serves is its own state and the scratchpad's. -/
theorem AgServes.congr (h : AgServes x g n len a) (hg : y.ag g = x.ag g) (hs : y.spad = x.spad) (hp : y.parInv = x.parInv) :
    AgServes y g n len a := by
  simpa only [AgServes, hg, Tile.badWord_congr hs hp] using h

theorem AgServes.first (h : AgServes x g (n + 1) len a) : AgServes x g 1 (fun _ => len 0) fun _ => a 0 := by
  obtain ⟨hst, hex, hsp, hmo, -, hk⟩ := h
  refine ⟨hst, hex, hsp, hmo, .inr (.inl (Nat.le_refl 1)), fun k hlt => ?_⟩
  obtain rfl : k = 0 := by omega
  exact hk 0 (Nat.succ_pos n)

/-- An AG that serves two units or more serves the rest after the first. -/
theorem AgServes.rest (h : AgServes x g (n + 2) len a) (hg : y.ag g = (x.ag g).emitted) (hs : y.spad = x.spad) (hp : y.parInv = x.parInv) :
    AgServes y g (n + 1) (fun k => len (k + 1)) (fun k => a (k + 1)) := by
  obtain ⟨hst, hex, hsp, hmo, hc, hk⟩ := h
  have hc : (x.ag g).cur.cyc = true ∨ (x.ag g).pos + (n + 2) ≤ (x.ag g).cur.total := hc.imp_right fun hc => by omega
  simp only [AgServes, hg, Ag.emitted, Tile.badWord_congr hs hp]
  refine ⟨hst, ?_, hsp, hmo, ?_, fun k hlt => ?_⟩
  · obtain hc | hc := hc
    · simp [hc]
    · have : ¬ (x.ag g).pos + 1 ≥ (x.ag g).cur.total := by omega
      simp [this]
  · exact hc.imp_right fun hc => .inr (by omega)
  · have := hk (k + 1) (by omega)
    rwa [← Nat.add_assoc, Nat.add_right_comm] at this

theorem ArrServes.first (h : ArrServes x g (n + 1) len a) : ArrServes x g 1 (fun _ => len 0) fun _ => a 0 :=
  ⟨AgServes.first h.1, fun _ _ => h.2 0 (Nat.succ_pos n)⟩

theorem ArrServes.rest (h : ArrServes x g (n + 2) len a) (hg : y.ag g = (x.ag g).emitted) (hs : y.spad = x.spad) (hp : y.parInv = x.parInv) :
    ArrServes y g (n + 1) (fun k => len (k + 1)) (fun k => a (k + 1)) :=
  ⟨AgServes.rest h.1 hg hs hp, fun k hk => h.2 (k + 1) (by omega)⟩

end

/-- A read of no part of a slice meets nothing. -/
theorem Dev.tierMeet_nil (d : Dev) (t : Nat) : d.tierMeet t [] = (d, []) := rfl

section

variable {d : Dev} {t g n i : Nat} {array : Bool}

theorem Dev.agFetch_of_serves (h : AgServes (d.tile t) g 1 (fun _ => n) fun _ => i) (ha : array = true → i % 16 = 0) :
    d.agFetch t ((d.tile t).ag g).cur i n array = some ((d.tile t).spad.readN i n, none, []) := by
  obtain ⟨-, -, hsp, hmo, -, hk⟩ := h
  obtain ⟨-, hle, hbad⟩ := hk 0 Nat.one_pos
  have hal : alignOk array false (i : Int) = true := by
    cases array
    · rfl
    · have := ha rfl
      simp only [alignOk, Bool.not_true, Bool.false_or, Bool.false_eq_true, if_false, decide_eq_true_eq]
      omega
  have hno : ¬ (i : Int) < 0 := by omega
  have hsl : ((d.tile t).ag g).cur.slice t = none := by simp only [AgProg.slice, hsp]
  simp [Dev.agFetch, hno, hsl, hal, hmo, hle, hbad]

/-- A read through an AG that serves emits its address and gives the bytes there. -/
theorem Dev.unitRead_of_serves (h : AgServes (d.tile t) g 1 (fun _ => n) fun _ => i) (ha : array = true → i % 16 = 0) :
    d.unitRead t g n array = (d.modTile t fun x => x.agEmit g, some ((d.tile t).spad.readN i n)) := by
  have hf := Dev.agFetch_of_serves h ha
  obtain ⟨hst, hex, -, hmo, -, hk⟩ := h
  have hn : ((d.tile t).ag g).next = .addr i := by
    have := (hk 0 Nat.one_pos).1
    simp_all [Ag.next]
  have hr : d.agRead t g n array = ⟨d.modTile t fun x => x.agEmit g, some ((d.tile t).spad.readN i n), none, []⟩ := by
    simp [Dev.agRead, Dev.agReadAux, hmo, hn, hf, Dev.tierMeet_nil]
  simp [Dev.unitRead, hr]

/-- The entry once more operands of its unit have arrived. -/
def AcwEntry.arrived (e : AcwEntry) (os : List (List Byte)) : AcwEntry := { e with got := e.got ++ os }

/-- The tile once an operand has arrived through AG `g`. -/
def Tile.arrive (x : Tile) (id g : Nat) (bs : List Byte) : Tile := (x.agEmit g).modAcw id fun e => e.arrived [bs]

theorem Tile.acwOf_arrive {x : Tile} {id : Nat} {e : AcwEntry} (h : x.acwOf id = some e) (g : Nat) (bs : List Byte) :
    (x.arrive id g bs).acwOf id = some (e.arrived [bs]) :=
  Tile.acwOf_modAcw (fun _ => rfl) ((x.agEmit_acwOf g id).trans h)

theorem AcwStands.arrive {x y : Tile} {e : AcwEntry} (h : AcwStands x e y) (g : Nat) (bs : List Byte) :
    AcwStands x (e.arrived [bs]) (y.arrive e.id g bs) := by
  have hg : AcwStands x e (y.agEmit g) := (y.agEmit_acwQ g).trans h
  exact hg.modAcw (f := fun e => e.arrived [bs]) rfl

/-- The next operand of a unit arrives through an AG that serves. -/
theorem Dev.operand_of_serves {id k : Nat} {e : AcwEntry} (he : (d.tile t).acwOf id = some e) (hk : e.got.length = k)
    (h : AgServes (d.tile t) g 1 (fun _ => n) fun _ => i) (ha : array = true → i % 16 = 0) :
    d.operand t id k g n array =
      (d.setTile t ((d.tile t).arrive id g ((d.tile t).spad.readN i n)), some ((d.tile t).spad.readN i n)) := by
  have hg : e.got[k]? = none := List.getElem?_eq_none (Nat.le_of_eq hk)
  simp [Dev.operand, he, hg, Dev.unitRead_of_serves h ha, Dev.modTile, Tile.arrive, AcwEntry.arrived]

end

/-- The tile once an operand that only some formats have has arrived, where the format has it. -/
def Tile.arriveIf (x : Tile) (b : Bool) (id g : Nat) (bs : List Byte) : Tile := if b then x.arrive id g bs else x

section

variable {x : Tile} {b : Bool} {id g : Nat} {bs : List Byte}

@[simp] theorem Tile.arrive_spad : (x.arrive id g bs).spad = x.spad := x.agEmit_spad g
@[simp] theorem Tile.arrive_parInv : (x.arrive id g bs).parInv = x.parInv := x.agEmit_parInv g
@[simp] theorem Tile.arrive_arr (j : Nat) : (x.arrive id g bs).arr j = x.arr j := x.agEmit_arr g j
theorem Tile.arrive_ag_ne {n : Nat} (h : n ≠ g) : (x.arrive id g bs).ag n = x.ag n := x.ag_agEmit_ne h

@[simp] theorem Tile.arriveIf_spad : (x.arriveIf b id g bs).spad = x.spad := by cases b <;> simp [Tile.arriveIf]
@[simp] theorem Tile.arriveIf_parInv : (x.arriveIf b id g bs).parInv = x.parInv := by cases b <;> simp [Tile.arriveIf]
@[simp] theorem Tile.arriveIf_arr (j : Nat) : (x.arriveIf b id g bs).arr j = x.arr j := by cases b <;> simp [Tile.arriveIf]

theorem Tile.arriveIf_ag_ne {n : Nat} (h : b = true → n ≠ g) : (x.arriveIf b id g bs).ag n = x.ag n := by
  cases b
  · rfl
  · exact Tile.arrive_ag_ne (h rfl)

theorem Tile.acwOf_arriveIf {e : AcwEntry} (h : x.acwOf id = some e) :
    (x.arriveIf b id g bs).acwOf id = some (e.arrived (if b then [bs] else [])) := by
  cases b
  · simpa [Tile.arriveIf, AcwEntry.arrived] using h
  · exact Tile.acwOf_arrive h g bs

/-- An operand that only some formats have. -/
theorem Dev.operandIf_of_serves {d : Dev} {t k : Nat} {n i : Nat} {e : AcwEntry} (he : x.acwOf id = some e) (hk : e.got.length = k)
    (h : b = true → AgServes x g 1 (fun _ => n) fun _ => i) :
    (if b = true then (d.setTile t x).operand t id k g n false else (d.setTile t x, some [])) =
      (d.setTile t (x.arriveIf b id g (x.spad.readN i n)), some (if b = true then x.spad.readN i n else [])) := by
  cases b
  · rfl
  · have hx : (d.setTile t x).tile t = x := d.tile_setTile_self t x
    have ho := Dev.operand_of_serves (d := d.setTile t x) (t := t) (array := false) (hx.symm ▸ he) hk (hx.symm ▸ h rfl) nofun
    rw [hx, Dev.setTile_setTile] at ho
    exact ho

end

end Sys2Proof.Machine

/-! ### One block into a plane -/

namespace Sys2Proof.Machine

open Sys2Proof Sys2Proof.Claims

/-- The AGs that a block comes through: values, scales, metadata. -/
def Acw.loadAgs (a : Acw) : List Nat := [a.agw] ++ (if wfmtScaled a.wfmt then [a.agsw] else []) ++ if a.sparse then [a.agm] else []

theorem Acw.ags_of_wload {a : Acw} (hk : a.kind = kWLOAD) (hl : a.loads = true) : a.ags = a.loadAgs := by
  have hd : a.drains = false := by simp [Acw.drains, hk]
  simp [Acw.ags, Acw.loadAgs, hk, hl, hd]

/-- The AGs of a block are not the same. -/
theorem Acw.loadAgs_ne {a : Acw} (h : a.loadAgs.Nodup) : (wfmtScaled a.wfmt = true → a.agsw ≠ a.agw) ∧ (a.sparse = true → a.agm ≠ a.agw) ∧
    (a.sparse = true → wfmtScaled a.wfmt = true → a.agm ≠ a.agsw) := by
  rw [← List.nodup_reverse] at h
  cases hc : wfmtScaled a.wfmt <;> cases hm : a.sparse <;> simp_all [Acw.loadAgs]

/-- The entry once a block is in its plane. -/
def AcwEntry.blockIn (e : AcwEntry) : AcwEntry := { e with got := [], loaded := e.loaded + 1 }

/-- What no step changes, no list of steps changes. -/
theorem Tile.foldl_keeps {α β : Type} {F : Tile → α} {f : Tile → β → Tile} (hF : ∀ x b, F (f x b) = F x) (l : List β) (x : Tile) :
    F (l.foldl f x) = F x := by
  induction l generalizing x with
  | nil => rfl
  | cons b l ih => exact (ih _).trans (hF x b)

theorem Tile.ag_foldl_agEmit_of_not_mem {gs : List Nat} {n : Nat} (h : n ∉ gs) (x : Tile) : (gs.foldl Tile.agEmit x).ag n = x.ag n := by
  induction gs generalizing x with
  | nil => rfl
  | cons g gs ih =>
    obtain ⟨hg, hgs⟩ := not_or.mp (List.mem_cons.not.mp h)
    exact (ih hgs _).trans (x.ag_agEmit_ne hg)

theorem Tile.ag_foldl_agEmit_of_mem {gs : List Nat} {n : Nat} (hn : gs.Nodup) (h : n ∈ gs) (x : Tile) :
    (gs.foldl Tile.agEmit x).ag n = (x.ag n).emitted := by
  induction gs generalizing x with
  | nil => cases h
  | cons g gs ih =>
    obtain ⟨hg, hgs⟩ := List.nodup_cons.mp hn
    rw [List.foldl_cons]
    obtain rfl | h := List.mem_cons.mp h
    · rw [Tile.ag_foldl_agEmit_of_not_mem hg, Tile.ag_agEmit_self]
    · have hne : n ≠ g := fun e => hg (e ▸ h)
      rw [ih hgs h, x.ag_agEmit_ne hne]

/-- A tile once a block whose values, scales and metadata lie at `v`, `c` and `m` is in plane `b` of array `j`. -/
def Tile.blockIn (x : Tile) (id : Nat) (a : Acw) (b : Bool) (j v c m : Nat) : Tile :=
  ((a.loadAgs.foldl Tile.agEmit x).setArr j ((x.arr j).setPl b (blockPlane a x.spad (x.arr j) v c m))).modAcw id AcwEntry.blockIn

section

variable (x : Tile) (id : Nat) (a : Acw) (b : Bool) (j v c m : Nat)

@[simp] theorem Tile.blockIn_spad : (x.blockIn id a b j v c m).spad = x.spad := Tile.foldl_keeps Tile.agEmit_spad ..
@[simp] theorem Tile.blockIn_parInv : (x.blockIn id a b j v c m).parInv = x.parInv := Tile.foldl_keeps Tile.agEmit_parInv ..

@[simp] theorem Tile.blockIn_acwQ : (x.blockIn id a b j v c m).acwQ = (x.modAcw id AcwEntry.blockIn).acwQ :=
  congrArg (List.map _) (Tile.foldl_keeps Tile.agEmit_acwQ ..)

@[simp] theorem Tile.blockIn_arr_self : (x.blockIn id a b j v c m).arr j = (x.arr j).setPl b (blockPlane a x.spad (x.arr j) v c m) :=
  Tile.arr_setArr_self ..

theorem Tile.blockIn_arr_ne {x : Tile} {id : Nat} {a : Acw} {b : Bool} {j v c m i : Nat} (h : i ≠ j) : (x.blockIn id a b j v c m).arr i = x.arr i :=
  (Tile.arr_setArr_ne _ _ _ h).trans (Tile.foldl_keeps (F := (Tile.arr · i)) (fun y n => y.agEmit_arr n i) _ _)

theorem Tile.blockIn_ag {n : Nat} (hn : a.loadAgs.Nodup) (h : n ∈ a.loadAgs) : (x.blockIn id a b j v c m).ag n = (x.ag n).emitted :=
  Tile.ag_foldl_agEmit_of_mem hn h x

end

section

variable {x y : Tile} {a : Acw} {n : Nat} {v c m : Nat → Nat}

theorem BlocksServe.first (h : BlocksServe x a (n + 1) v c m) : BlocksServe x a 1 (fun _ => v 0) (fun _ => c 0) fun _ => m 0 := by
  obtain ⟨hv, hc, hm⟩ := h
  exact ⟨ArrServes.first hv, fun hs => AgServes.first (hc hs), fun hs => AgServes.first (hm hs)⟩

/-- AGs that serve two blocks or more serve the rest after the first. -/
theorem BlocksServe.rest (h : BlocksServe x a (n + 2) v c m) (hg : ∀ g ∈ a.loadAgs, y.ag g = (x.ag g).emitted) (hs : y.spad = x.spad)
    (hp : y.parInv = x.parInv) : BlocksServe y a (n + 1) (fun k => v (k + 1)) (fun k => c (k + 1)) (fun k => m (k + 1)) := by
  obtain ⟨hv, hc, hm⟩ := h
  refine ⟨ArrServes.rest hv (hg _ ?_) hs hp, fun hf => AgServes.rest (hc hf) (hg _ ?_) hs hp, fun hf => AgServes.rest (hm hf) (hg _ ?_) hs hp⟩
  · simp [Acw.loadAgs]
  · simp [Acw.loadAgs, hf]
  · simp [Acw.loadAgs, hf]

end

/-- The AGs go on to the next block once a block is in its plane. -/
theorem BlocksServe.blockIn {y : Tile} {a : Acw} {n : Nat} {v c m : Nat → Nat} (h : BlocksServe y a (n + 2) v c m) (hn : a.loadAgs.Nodup)
    (id : Nat) (b : Bool) (j v' c' m' : Nat) (f : AcwEntry → AcwEntry) :
    BlocksServe ((y.blockIn id a b j v' c' m').modAcw id f) a (n + 1) (fun k => v (k + 1)) (fun k => c (k + 1)) fun k => m (k + 1) :=
  BlocksServe.rest h (fun _ hg => y.blockIn_ag id a b j v' c' m' hn hg) (by simp) (by simp)

/-- The tile without the operands that have arrived for an ACW. -/
def Tile.noGot (x : Tile) (id : Nat) : Tile := x.modAcw id fun e => { e with got := [] }

theorem Tile.noGot_arrive (x : Tile) (id g : Nat) (bs : List Byte) : (x.arrive id g bs).noGot id = (x.noGot id).agEmit g := by
  have h : (x.arrive id g bs).noGot id = (x.agEmit g).noGot id := Tile.modAcw_modAcw _ id fun _ => rfl
  exact h.trans (x.agEmit_modAcw id g _).symm

theorem Tile.noGot_arriveIf (x : Tile) (b : Bool) (id g : Nat) (bs : List Byte) :
    (x.arriveIf b id g bs).noGot id = (if b then [g] else []).foldl Tile.agEmit (x.noGot id) := by
  cases b
  · rfl
  · exact x.noGot_arrive id g bs

theorem Tile.noGot_foldl_agEmit (gs : List Nat) (x : Tile) (id : Nat) : gs.foldl Tile.agEmit (x.noGot id) = (gs.foldl Tile.agEmit x).noGot id := by
  induction gs generalizing x with
  | nil => rfl
  | cons g gs ih => rw [List.foldl_cons, Tile.noGot, Tile.agEmit_modAcw, ← Tile.noGot, ih, List.foldl_cons]

/-- A block in its plane leaves no operand waiting. -/
theorem Tile.blockIn_noGot (x : Tile) (id j : Nat) (z : Arr) :
    ((x.noGot id).setArr j z).modAcw id AcwEntry.blockIn = (x.setArr j z).modAcw id AcwEntry.blockIn :=
  Tile.modAcw_modAcw (x.setArr j z) id fun _ => rfl

/-- The tile once the operands of a block have arrived: `vs`, then `cs` and `ms` where the format has them. -/
def Tile.blockArrived (x : Tile) (id : Nat) (a : Acw) (vs cs ms : List Byte) : Tile :=
  ((x.arrive id a.agw vs).arriveIf (wfmtScaled a.wfmt) id a.agsw cs).arriveIf a.sparse id a.agm ms

theorem Tile.noGot_blockArrived (x : Tile) (id : Nat) (a : Acw) (vs cs ms : List Byte) :
    (x.blockArrived id a vs cs ms).noGot id = (a.loadAgs.foldl Tile.agEmit x).noGot id := by
  rw [Tile.blockArrived, Tile.noGot_arriveIf, Tile.noGot_arriveIf, Tile.noGot_arrive, ← Tile.noGot_foldl_agEmit, Acw.loadAgs, List.foldl_append,
    List.foldl_append, List.foldl_cons, List.foldl_nil]

theorem Tile.blockIn_blockArrived (x : Tile) (id : Nat) (a : Acw) (vs cs ms : List Byte) (j : Nat) (z : Arr) :
    ((x.blockArrived id a vs cs ms).setArr j z).modAcw id AcwEntry.blockIn =
      ((a.loadAgs.foldl Tile.agEmit x).setArr j z).modAcw id AcwEntry.blockIn := by
  rw [← Tile.blockIn_noGot, Tile.noGot_blockArrived, Tile.blockIn_noGot]

/-- A block is read through the AGs that serve it, and goes into its plane. -/
theorem Dev.loadBlock_of_serves {d : Dev} {t id v c m : Nat} {e : AcwEntry} {a : Acw} (b : Bool) (j : Nat) (he : (d.tile t).acwOf id = some e)
    (hg : e.got = []) (hn : a.loadAgs.Nodup) (h : BlocksServe (d.tile t) a 1 (fun _ => v) (fun _ => c) fun _ => m) :
    d.loadBlock t id a b j = (d.setTile t ((d.tile t).blockIn id a b j v c m), true) := by
  obtain ⟨⟨hv, hal⟩, hc, hm⟩ := h
  obtain ⟨hcv, hmv, hmc⟩ := Acw.loadAgs_ne hn
  have hvals := Dev.operand_of_serves (k := 0) he (congrArg List.length hg) hv (array := true) fun _ => hal 0 Nat.one_pos
  generalize d.tile t = x at *
  have he1 := Tile.acwOf_arrive he a.agw (Memory.readN x.spad v (blockBytes a.wfmt))
  have hsc := Dev.operandIf_of_serves (d := d) (t := t) (k := 1) he1 (by simp [AcwEntry.arrived, hg])
    fun hf => AgServes.congr (hc hf) (Tile.arrive_ag_ne (hcv hf)) Tile.arrive_spad Tile.arrive_parInv
  rw [Tile.arrive_spad] at hsc
  have he2 := Tile.acwOf_arriveIf (b := wfmtScaled a.wfmt) (g := a.agsw) (bs := Memory.readN x.spad c a.kb) he1
  have hmt := Dev.operandIf_of_serves (d := d) (t := t) (k := if wfmtScaled a.wfmt = true then 2 else 1) he2
    (by cases wfmtScaled a.wfmt <;> simp [AcwEntry.arrived, hg])
    fun hf => AgServes.congr (hm hf) ((Tile.arriveIf_ag_ne (hmc hf)).trans (Tile.arrive_ag_ne (hmv hf))) (by simp) (by simp)
  simp only [Tile.arriveIf_spad, Tile.arrive_spad] at hmt
  unfold Dev.loadBlock
  simp only [hvals, hsc, hmt]
  rw [Dev.modTile, Dev.tile_setTile_self, Dev.setTile_setTile]
  simp only [Tile.arriveIf_arr, Tile.arrive_arr]
  exact congrArg (fun y => (d.setTile t y, true)) (x.blockIn_blockArrived id a _ _ _ j _)

end Sys2Proof.Machine

/-! ### The two loads -/

namespace Sys2Proof.Machine

open Sys2Proof Sys2Proof.Claims

theorem Dev.upset_none (d : Dev) : d.upset Upset.none = d := rfl

theorem exec_wload_none {s : State} {t : Nat} (ht : t < Config.nTiles) : exec (.wload t Upset.none) s =
    .next ⟨s.dev.acwRun t kWLOAD fun d e => d.loadBlock t e.id e.acw (Acw.psel e.acw) ((Acw.arrays e.acw).getD e.prog 0), s.pending⟩ := by
  have h : exec (.wload t Upset.none) s = _ := onUnit_of_lt s _ ht
  rw [h, Dev.upset_none]
  simp [Dev.planeCheck, Upset.none]

/-- One unit of a CBLOAD. -/
def cbloadUnit (t : Nat) (d : Dev) (e : AcwEntry) : Dev × Bool :=
  match d.operand t e.id 0 (Acw.agw e.acw) (if Acw.cbcol e.acw then 72 else 64) true with
  | (d, some bs) => (d.modTile t fun x => (Acw.arrays e.acw).foldl (fun x j => x.setArr j ((x.arr j).cbLoad e.acw bs)) x, true)
  | (d, none) => (d, false)

theorem cbloadUnit_of_operand {t : Nat} {d d' : Dev} {e : AcwEntry} {bs : List Byte}
    (h : d.operand t e.id 0 (Acw.agw e.acw) (if Acw.cbcol e.acw then 72 else 64) true = (d', some bs)) :
    cbloadUnit t d e = (d'.modTile t fun x => (Acw.arrays e.acw).foldl (fun x j => x.setArr j ((x.arr j).cbLoad e.acw bs)) x, true) := by
  rw [cbloadUnit, h]

theorem exec_cbload_none {s : State} {t : Nat} (ht : t < Config.nTiles) :
    exec (.cbload t Upset.none) s = .next ⟨s.dev.acwRun t kCBLOAD (cbloadUnit t), s.pending⟩ :=
  onUnit_of_lt s _ ht

theorem Acw.arrays_nodup (a : Acw) : a.arrays.Nodup := List.nodup_range.filter _

theorem Acw.total_of_wload {a : Acw} (h : a.kind = kWLOAD) : a.total = a.na := by simp [Acw.total, h]
theorem Acw.total_of_cbload {a : Acw} (h : a.kind = kCBLOAD) : a.total = 1 := by simp [Acw.total, h]

/-- The array of block `k` of a WLOAD. -/
def Acw.arrayAt (a : Acw) (k : Nat) : Nat := a.arrays.getD k 0

theorem Acw.arrayAt_mem {a : Acw} {k : Nat} (h : k < a.na) : a.arrayAt k ∈ a.arrays := by
  rw [Acw.arrayAt, List.getD_eq_getElem _ _ h]
  exact List.getElem_mem h

theorem Acw.arrayAt_ne {a : Acw} {i k : Nat} (hi : i < k) (hk : k < a.na) : a.arrayAt i ≠ a.arrayAt k := by
  rw [Acw.arrayAt, Acw.arrayAt, List.getD_eq_getElem _ _ hk, List.getD_eq_getElem _ _ (hi.trans hk)]
  exact fun h => Nat.ne_of_lt hi (a.arrays_nodup.getElem_inj_iff.mp h)

/-- The tile `y` after `k` blocks of the WLOAD `e`, which met `x`: the first `k` arrays are loaded, and the AGs serve the blocks that are left. -/
structure WloadAfter (x : Tile) (e : AcwEntry) (v c m : Nat → Nat) (k : Nat) (y : Tile) : Prop where
  stands : AcwStands x (e.after k k) y
  spad : y.spad = x.spad
  parInv : y.parInv = x.parInv
  serve : ∀ n, k + (n + 1) = Acw.na e.acw → BlocksServe y e.acw (n + 1) (fun i => v (k + i)) (fun i => c (k + i)) fun i => m (k + i)
  loaded : ∀ i, i < k → y.arr (Acw.arrayAt e.acw i) =
    (x.arr (Acw.arrayAt e.acw i)).setPl (Acw.psel e.acw) (blockPlane e.acw x.spad (x.arr (Acw.arrayAt e.acw i)) (v i) (c i) (m i))
  rest : ∀ j, (∀ i, i < k → j ≠ Acw.arrayAt e.acw i) → y.arr j = x.arr j

section

variable {k : Nat} {x y : Tile} {e : AcwEntry}

theorem WloadAfter.zero {v c m : Nat → Nat} (hs : AcwStands x (e.after 0 0) (x.acwStart e.id)) (h : BlocksServe x e.acw (Acw.na e.acw) v c m) :
    WloadAfter x e v c m 0 (x.acwStart e.id) where
  stands := hs
  spad := rfl
  parInv := rfl
  serve n hn := by
    simp only [Nat.zero_add] at hn ⊢
    exact hn ▸ h
  loaded i hi := absurd hi (Nat.not_lt_zero i)
  rest j _ := rfl

/-- One block more. -/
theorem WloadAfter.next {v c m : Nat → Nat} (h : WloadAfter x e v c m k y) (hi : e.Idle) (hn : (Acw.loadAgs e.acw).Nodup) (hk : k < Acw.na e.acw) :
    WloadAfter x e v c m (k + 1)
      ((y.blockIn e.id e.acw (Acw.psel e.acw) (Acw.arrayAt e.acw k) (v k) (c k) (m k)).modAcw e.id AcwEntry.next) where
  stands := by
    have hb : AcwStands x (e.after k k).blockIn (y.blockIn e.id e.acw (Acw.psel e.acw) (Acw.arrayAt e.acw k) (v k) (c k) (m k)) :=
      (Tile.blockIn_acwQ ..).trans (h.stands.modAcw (f := AcwEntry.blockIn) rfl)
    have hnext : (e.after k k).blockIn.next = e.after (k + 1) (k + 1) :=
      AcwEntry.after_next hi (by simp [AcwEntry.blockIn, AcwEntry.after, hi.1])
    exact hnext ▸ hb.modAcw (f := AcwEntry.next) rfl
  spad := by simp [h.spad]
  parInv := by simp [h.parInv]
  serve n hkn := by
    have hs := BlocksServe.blockIn (h.serve (n + 1) (by omega)) hn e.id (Acw.psel e.acw) (Acw.arrayAt e.acw k) (v k) (c k) (m k) AcwEntry.next
    simpa only [← Nat.add_assoc, Nat.add_right_comm k _ 1] using hs
  loaded i hi := by
    obtain hi | rfl := Nat.lt_succ_iff_lt_or_eq.mp hi
    · rw [Tile.modAcw_arr, Tile.blockIn_arr_ne (Acw.arrayAt_ne hi hk), h.loaded i hi]
    · have hy : y.arr (Acw.arrayAt e.acw i) = x.arr (Acw.arrayAt e.acw i) := h.rest _ fun l hl => (Acw.arrayAt_ne hl hk).symm
      rw [Tile.modAcw_arr, Tile.blockIn_arr_self, hy, h.spad]
  rest j hj := by
    rw [Tile.modAcw_arr, Tile.blockIn_arr_ne (hj k (Nat.lt_succ_self k))]
    exact h.rest j fun i hi => hj i (Nat.lt_succ_of_lt hi)

end

/-! ### The codebooks -/

theorem Memory.readN_add (m : Memory) (i a b : Nat) : m.readN i (a + b) = m.readN i a ++ m.readN (i + a) b := by
  induction a generalizing i with
  | zero => simp [Memory.readN]
  | succ a ih =>
    rw [Nat.add_right_comm, Memory.readN, ih, Memory.readN, List.cons_append, Nat.add_assoc, Nat.add_comm 1 a]

@[simp] theorem Memory.length_readN (m : Memory) (i n : Nat) : (m.readN i n).length = n := by
  induction n generalizing i with
  | zero => rfl
  | succ n ih => rw [Memory.readN, List.length_cons, ih]

/-- Bytes of bytes that were read. -/
theorem slice_readN (m : Memory) (i : Nat) {off n len : Nat} (h : off + n ≤ len) : slice (m.readN i len) off n = m.readN (i + off) n := by
  obtain ⟨r, rfl⟩ := Nat.exists_eq_add_of_le h
  rw [Memory.readN_add, Memory.readN_add]
  exact slice_middle _ _ _ _ _ (by simp) (by simp)

/-- What CBLOAD leaves in an array that held `z`: the codebook at `i` of memory `mem`. -/
def codebookAt (a : Acw) (mem : Memory) (i : Nat) (z : Arr) : Arr :=
  { z with
    cb := mem.readN i 64, cbType := BitVec.ofNat 4 a.cbtype,
    cbcol := if a.cbcol then BitVec.ofNat 64 (rdNat (mem.readN (i + 64) 8) 0 8) else z.cbcol }

theorem Arr.cbLoad_readN (z : Arr) (a : Acw) (mem : Memory) (i : Nat) :
    z.cbLoad a (mem.readN i (if a.cbcol = true then 72 else 64)) = codebookAt a mem i z := by
  have h8 : rdNat (mem.readN i 72) 64 8 = rdNat (mem.readN (i + 64) 8) 0 8 := by
    rw [rdNat, rdNat, slice_readN _ _ (by decide), slice_readN _ _ (by decide)]
  cases hc : a.cbcol
  · simp [Arr.cbLoad, codebookAt, hc, slice_readN]
  · simp [Arr.cbLoad, codebookAt, hc, slice_readN, h8]

theorem Tile.arr_foldl_setArr (F : Arr → Arr) {js : List Nat} (hn : js.Nodup) (x : Tile) (j : Nat) :
    (js.foldl (fun x j => x.setArr j (F (x.arr j))) x).arr j = if j ∈ js then F (x.arr j) else x.arr j := by
  induction js generalizing x with
  | nil => rfl
  | cons i js ih =>
    obtain ⟨hi, hjs⟩ := List.nodup_cons.mp hn
    rw [List.foldl_cons, ih hjs]
    by_cases hj : j = i
    · subst hj
      simp [hi]
    · simp [hj]

/-- The tile `y` after `k` units of the CBLOAD `e`, which met `x` and reads at `i`. -/
structure CbloadAfter (x : Tile) (e : AcwEntry) (i k : Nat) (y : Tile) : Prop where
  stands : AcwStands x (e.after k 0) y
  spad : y.spad = x.spad
  serve : k = 0 → ArrServes y (Acw.agw e.acw) 1 (fun _ => if Acw.cbcol e.acw then 72 else 64) fun _ => i
  arr : ∀ j, y.arr j = if 0 < k ∧ j ∈ Acw.arrays e.acw then codebookAt e.acw x.spad i (x.arr j) else x.arr j

section

variable {i : Nat} {x y : Tile} {e : AcwEntry}

/-- The tile once the bytes of a CBLOAD have arrived and are in the arrays. -/
def Tile.codebooksIn (y : Tile) (e : AcwEntry) (i : Nat) : Tile :=
  (Acw.arrays e.acw).foldl (fun z j => z.setArr j (codebookAt e.acw y.spad i (z.arr j)))
    (y.arrive e.id (Acw.agw e.acw) (y.spad.readN i (if Acw.cbcol e.acw = true then 72 else 64)))

theorem Tile.codebooksIn_spad : (y.codebooksIn e i).spad = y.spad :=
  (Tile.foldl_keeps (f := fun z j => z.setArr j _) (fun _ _ => rfl) _ _).trans Tile.arrive_spad

theorem Tile.codebooksIn_arr (j : Nat) :
    (y.codebooksIn e i).arr j = if j ∈ Acw.arrays e.acw then codebookAt e.acw y.spad i (y.arr j) else y.arr j := by
  rw [Tile.codebooksIn, Tile.arr_foldl_setArr _ (Acw.arrays_nodup _), Tile.arrive_arr]

theorem CbloadAfter.next (h : CbloadAfter x e i 0 y) (hi : e.Idle) : CbloadAfter x e i 1 ((y.codebooksIn e i).modAcw e.id AcwEntry.next) where
  stands := by
    have ha : AcwStands x ((e.after 0 0).arrived [_]) (y.codebooksIn e i) :=
      (Tile.foldl_keeps (F := Tile.acwQ) (f := fun z j => z.setArr j _) (fun _ _ => rfl) _ _).trans (h.stands.arrive _ _)
    have hnext : ((e.after 0 0).arrived [y.spad.readN i (if Acw.cbcol e.acw = true then 72 else 64)]).next = e.after 1 0 :=
      AcwEntry.after_next hi (by simp [AcwEntry.arrived, AcwEntry.after, hi.1])
    exact hnext ▸ ha.modAcw (f := AcwEntry.next) rfl
  spad := Tile.codebooksIn_spad.trans h.spad
  serve := nofun
  arr j := by
    have hy : y.arr j = x.arr j := by simp [h.arr]
    rw [Tile.modAcw_arr, Tile.codebooksIn_arr, hy, h.spad]
    simp

end

/-! ### The statement -/

/-- The units of a WLOAD are the blocks of its arrays. -/
theorem wload_units {s : State} {t : Nat} {v c m : Nat → Nat} {e : AcwEntry} (h : AcwAt s t kWLOAD e) (hl : Acw.loads e.acw = true)
    (hn : (Acw.ags e.acw).Nodup) (hb : BlocksServe (s.dev.tile t) e.acw (Acw.na e.acw) v c m) :
    AcwUnits t (s.dev.tile t) e id (fun d e => d.loadBlock t e.id e.acw (Acw.psel e.acw) ((Acw.arrays e.acw).getD e.prog 0))
      (WloadAfter (s.dev.tile t) e v c m) where
  stands _ _ hy := hy.stands
  start := .zero (acwAt_start h) hb
  unit k d hlt hd := by
    obtain ⟨-, hk, -⟩ := acwAt_spec h
    rw [Acw.ags_of_wload hk hl] at hn
    rw [Acw.total_of_wload hk] at hlt
    have hi := acwAt_idle h
    have hm := acwAt_mem h
    obtain ⟨n, hkn⟩ : ∃ n, k + (n + 1) = Acw.na e.acw := ⟨Acw.na e.acw - k - 1, by omega⟩
    exact ⟨_, Dev.loadBlock_of_serves _ _ (hd.stands.acwOf hm) hi.1 hn (BlocksServe.first (hd.serve n hkn)), hd.next hi hn hlt⟩

/-- The one unit of a CBLOAD fills the codebooks of its arrays. -/
theorem cbload_units {s : State} {t i : Nat} {e : AcwEntry} (h : AcwAt s t kCBLOAD e)
    (ha : ArrServes (s.dev.tile t) (Acw.agw e.acw) 1 (fun _ => if Acw.cbcol e.acw then 72 else 64) fun _ => i) :
    AcwUnits t (s.dev.tile t) e (fun _ => 0) (cbloadUnit t) (CbloadAfter (s.dev.tile t) e i) where
  stands _ _ hy := hy.stands
  start := ⟨acwAt_start h, rfl, fun _ => ha, fun j => by simp [Tile.acwStart]⟩
  unit k d hlt hd := by
    obtain ⟨-, hk, -⟩ := acwAt_spec h
    rw [Acw.total_of_cbload hk] at hlt
    obtain rfl : k = 0 := by omega
    have hi := acwAt_idle h
    have hm := acwAt_mem h
    refine ⟨(d.tile t).codebooksIn e i, ?_, hd.next hi⟩
    obtain ⟨hag, hal⟩ := hd.serve rfl
    have ho := Dev.operand_of_serves (k := 0) (hd.stands.acwOf hm) (congrArg List.length hi.1) hag (array := true)
      fun _ => hal 0 Nat.one_pos
    rw [cbloadUnit_of_operand ho]
    simp only [AcwEntry.after_id, AcwEntry.after_acw, Arr.cbLoad_readN, Dev.modTile, Dev.tile_setTile_self, Dev.setTile_setTile, Tile.codebooksIn]

/-- Settles O20: the blocks of a WLOAD go one by one into the arrays in ascending order (`WloadAfter`), the one unit of a CBLOAD into all of them
(`CbloadAfter`); each reads where the SPACE of its AGs says, the scratchpad here, whatever WSRC is (log 89, the model's choice). -/
theorem arrayLoadsFillPlaneAndCodebook : Obligations.ArrayLoadsFillPlaneAndCodebook := by
  refine ⟨fun s t v c m e h hl hn hb => ?_, fun s t i e h ha => ?_⟩
  · obtain ⟨y, hy, d', hex, hot, hac, hsp, harr⟩ := completes_of_units (exec_wload_none h.1) h (wload_units h hl hn hb)
    obtain ⟨-, hk, -⟩ := acwAt_spec h
    rw [Acw.total_of_wload hk] at hy
    refine ⟨d', hex, hot, hac, hsp.trans hy.spad, fun k hk => (harr _).trans (hy.loaded k hk),
      fun j hj => (harr j).trans (hy.rest j fun i hi => ?_)⟩
    exact fun hji => hj (hji ▸ Acw.arrayAt_mem hi)
  · obtain ⟨y, hy, d', hex, hot, hac, hsp, harr⟩ := completes_of_units (exec_cbload_none h.1) h (cbload_units h ha)
    obtain ⟨-, hk, -⟩ := acwAt_spec h
    rw [Acw.total_of_cbload hk] at hy
    refine ⟨d', hex, hot, hac, hsp.trans hy.spad, fun j hj => (harr j).trans ?_, fun j hj => (harr j).trans ?_⟩
    · rw [hy.arr, if_pos ⟨Nat.one_pos, hj⟩]
      rfl
    · rw [hy.arr, if_neg fun h => hj h.2]

end Sys2Proof.Machine

/-! ## NOP, retirement, COMPUTE, DRAIN and XADD

Proofs of the statements of 03: NOP and ACW_RETIRE (O18), DRAIN and XADD (O21), and the refutation for COMPUTE (O19). The units of a DRAIN may change
more than their tile, so an ACW is followed by device (`AcwPlan`) where `AcwUnits` does not reach; each output that is sent is one `OutSent`. -/

/-! ### What the steps of an ACW leave as it was -/

namespace Sys2Proof.Machine

open Sys2Proof Sys2Proof.Claims

theorem OnlyTile.refl (t : Nat) (d : Dev) : OnlyTile t d d := ⟨rfl, fun _ _ => rfl⟩

theorem OnlyTile.trans {t : Nat} {d₀ d d' : Dev} (h : OnlyTile t d₀ d) (h' : OnlyTile t d d') : OnlyTile t d₀ d' := by
  obtain ⟨hd, hu⟩ := h
  obtain ⟨hd', hu'⟩ := h'
  refine ⟨?_, fun u ne => (hu' u ne).trans (hu u ne)⟩
  rw [← hd, ← hd']

theorem OnlyTile.setTile {t : Nat} {d₀ d : Dev} (h : OnlyTile t d₀ d) (x : Tile) : OnlyTile t d₀ (d.setTile t x) :=
  OnlyTile.trans h (Dev.onlyTile_setTile d t x)

@[simp] theorem Tile.modAcw_arrs (x : Tile) (id : Nat) (f : AcwEntry → AcwEntry) : (x.modAcw id f).arrs = x.arrs := rfl
@[simp] theorem Tile.modAcw_qctx (x : Tile) (id : Nat) (f : AcwEntry → AcwEntry) : (x.modAcw id f).qctx = x.qctx := rfl
@[simp] theorem Tile.modAcw_wvl (x : Tile) (id : Nat) (f : AcwEntry → AcwEntry) : (x.modAcw id f).wvl = x.wvl := rfl
@[simp] theorem Tile.modAcw_qc (x : Tile) (id : Nat) (f : AcwEntry → AcwEntry) (n : Nat) : (x.modAcw id f).qc n = x.qc n := rfl
@[simp] theorem Tile.modAcw_reg (x : Tile) (id : Nat) (f : AcwEntry → AcwEntry) (b : Nat) : (x.modAcw id f).reg b = x.reg b := rfl

/-- What completion leaves as it was. -/
theorem Tile.acwDone_keeps {α : Type} (F : Tile → α) (hF : ∀ x q g, F { x with acwQ := q, ags := g } = F x) (x : Tile) (id : Nat) :
    F (x.acwDone id) = F x := by
  obtain ⟨q, g, h⟩ := x.acwDone_frame id
  rw [h, hF]

section

variable (x : Tile) (id n : Nat)

@[simp] theorem Tile.acwDone_arrs : (x.acwDone id).arrs = x.arrs := Tile.acwDone_keeps Tile.arrs (fun _ _ _ => rfl) ..
@[simp] theorem Tile.acwDone_regs : (x.acwDone id).regs = x.regs := Tile.acwDone_keeps Tile.regs (fun _ _ _ => rfl) ..
@[simp] theorem Tile.acwDone_qctx : (x.acwDone id).qctx = x.qctx := Tile.acwDone_keeps Tile.qctx (fun _ _ _ => rfl) ..
@[simp] theorem Tile.acwDone_wvl : (x.acwDone id).wvl = x.wvl := Tile.acwDone_keeps Tile.wvl (fun _ _ _ => rfl) ..
@[simp] theorem Tile.acwDone_reg : (x.acwDone id).reg n = x.reg n := Tile.acwDone_keeps (Tile.reg · n) (fun _ _ _ => rfl) ..
@[simp] theorem Tile.acwDone_qc : (x.acwDone id).qc n = x.qc n := Tile.acwDone_keeps (Tile.qc · n) (fun _ _ _ => rfl) ..

end

/-- An emission changes no register but SCB_EVENT. -/
theorem Tile.reg_agEmit (x : Tile) (n : Nat) {b : Nat} (h : b ≠ Reg.SCB_EVENT) : (x.agEmit n).reg b = x.reg b := by
  obtain e | e := x.agEmit_eq n <;> rw [e]
  · rfl
  · exact Tile.reg_modReg_ne _ _ _ h

@[simp] theorem Tile.agEmit_arrs (x : Tile) (n : Nat) : (x.agEmit n).arrs = x.arrs :=
  x.agEmit_keeps Tile.arrs (fun _ _ _ => rfl) (fun _ _ _ => rfl) n
@[simp] theorem Tile.agEmit_qctx (x : Tile) (n : Nat) : (x.agEmit n).qctx = x.qctx :=
  x.agEmit_keeps Tile.qctx (fun _ _ _ => rfl) (fun _ _ _ => rfl) n
@[simp] theorem Tile.agEmit_wvl (x : Tile) (n : Nat) : (x.agEmit n).wvl = x.wvl :=
  x.agEmit_keeps Tile.wvl (fun _ _ _ => rfl) (fun _ _ _ => rfl) n

@[simp] theorem AcwEntry.after_prog (e : AcwEntry) (k l : Nat) : (e.after k l).prog = k := rfl

/-- The entry that stands once an ACW is done says that the ACW is complete. -/
theorem AcwStands.acwComplete {t : Nat} {d' : Dev} {x : Tile} {e b : AcwEntry} (h : AcwStands x b.complete (d'.tile t)) (hm : ∃ y ∈ x.acwQ, y.id = e.id)
    (hi : b.id = e.id) (ha : b.acw = e.acw) (hs : b.started = true) : AcwComplete t e d' :=
  ⟨b.complete, h.mem (hm.imp fun _ hy => ⟨hy.1, hy.2.trans hi.symm⟩), hi, ha, hs, rfl⟩

/-- No change of the entry that stands touches the ACWs before it. -/
theorem AcwStands.acwBefore {x y : Tile} {e : AcwEntry} (h : AcwStands x e y) : y.acwBefore e.id = x.acwBefore e.id := by
  unfold AcwStands at h
  rw [Tile.acwBefore, Tile.acwBefore, h]
  induction x.acwQ with
  | nil => rfl
  | cons b q ih => by_cases hb : b.id = e.id <;> simp_all

/-- The adds of an ACW that stands wait for the same drains. -/
theorem AcwStands.addHeld {x y : Tile} {e : AcwEntry} (h : AcwStands x e y) (j row : Nat) : y.addHeld e.id j row = x.addHeld e.id j row := by
  rw [Tile.addHeld, h.acwBefore]
  rfl

/-- Its drains wait for the same adds. -/
theorem AcwStands.drainHeld {x y : Tile} {e : AcwEntry} (h : AcwStands x e y) (j row : Nat) : y.drainHeld e.id j row = x.drainHeld e.id j row := by
  rw [Tile.drainHeld, h.acwBefore]
  rfl

end Sys2Proof.Machine

/-! ### NOP and retirement -/

namespace Sys2Proof.Machine

open Sys2Proof Sys2Proof.Claims

theorem exec_nop {s : State} {t : Nat} (ht : t < Config.nTiles) :
    exec (.nop t) s = .next ⟨s.dev.acwRun t kNOP fun d _ => (d, true), s.pending⟩ :=
  onUnit_of_lt s _ ht

theorem Acw.total_of_nop {a : Acw} (h : a.kind = kNOP) : a.total = 0 := by simp [Acw.total, h]

/-- A NOP has no units. -/
theorem nop_units {s : State} {t : Nat} {e : AcwEntry} (h : AcwAt s t kNOP e) :
    AcwUnits t (s.dev.tile t) e id (fun d _ => (d, true)) fun k y => k = 0 ∧ y = (s.dev.tile t).acwStart e.id where
  stands := by
    rintro _ _ ⟨rfl, rfl⟩
    exact acwAt_start h
  start := ⟨rfl, rfl⟩
  unit k _ hk _ := by
    obtain ⟨-, hkind, -⟩ := acwAt_spec h
    rw [Acw.total_of_nop hkind] at hk
    exact absurd hk (Nat.not_lt_zero k)

theorem nop_completes {s : State} {t : Nat} {e : AcwEntry} (h : AcwAt s t kNOP e) : Completes (.nop t) s fun d' =>
    OnlyTile t s.dev d' ∧ AcwComplete t e d' ∧ (d'.tile t).arrs = (s.dev.tile t).arrs ∧ (d'.tile t).spad = (s.dev.tile t).spad ∧
      (d'.tile t).regs = (s.dev.tile t).regs := by
  obtain ⟨y, ⟨-, rfl⟩, hr⟩ := acwRun_of_units h (nop_units h)
  have hm := acwAt_mem h
  have hd := (acwAt_start h).acwDone hm
  refine ⟨_, by rw [exec_nop h.1, hr], Dev.onlyTile_setTile .., ?_, ?_, ?_, ?_⟩
  · exact AcwStands.acwComplete (b := e.after 0 0) (by simpa using hd) hm rfl rfl rfl
  all_goals
    rw [Dev.tile_setTile_self]
    simp [Tile.acwStart, Tile.modAcw]

/-- The tile once the complete ACW `e` has left the queue. -/
def Tile.acwRetired (x : Tile) (e : AcwEntry) : Tile :=
  let y := ({ x with acwQ := x.acwQ.filter fun b => decide (b.id ≠ e.id) } : Tile).count Reg.ARR_ACWDONE 1
  if Acw.doneEv e.acw then y.event 0 else y

theorem exec_acwRetire {s : State} {t : Nat} {e : AcwEntry} (ht : t < Config.nTiles)
    (h : (s.dev.tile t).acwQ.find? (s.dev.tile t).acwRetirable = some e) :
    exec (.acwRetire t) s = .next ⟨s.dev.setTile t ((s.dev.tile t).acwRetired e), s.pending⟩ := by
  refine (onUnit_of_lt s _ ht).trans ?_
  simp only [Dev.modTile, h, Tile.acwRetired]

theorem Tile.acwRetired_acwQ (x : Tile) (e : AcwEntry) : (x.acwRetired e).acwQ = x.acwQ.filter fun b => decide (b.id ≠ e.id) := by
  unfold Tile.acwRetired
  dsimp only
  split <;> rfl

theorem Tile.acwRetired_arrs (x : Tile) (e : AcwEntry) : (x.acwRetired e).arrs = x.arrs := by
  unfold Tile.acwRetired
  dsimp only
  split <;> rfl

/-- The event is another register than the counter. -/
theorem Tile.acwRetired_acwDone (x : Tile) (e : AcwEntry) :
    (x.acwRetired e).reg Reg.ARR_ACWDONE = addCnt (x.reg Reg.ARR_ACWDONE) 0 64 1 := by
  unfold Tile.acwRetired Tile.count
  dsimp only
  split
  · rw [Tile.event, Tile.reg_modReg_ne _ _ _ (by decide), Tile.reg_modReg_self]
    rfl
  · rw [Tile.reg_modReg_self]
    rfl

theorem Tile.acwRetired_event {x : Tile} {e : AcwEntry} (h : Acw.doneEv e.acw = true) : bit ((x.acwRetired e).reg Reg.SCB_EVENT) 0 = true := by
  simp only [Tile.acwRetired, h, if_true, Tile.event, Tile.reg_modReg_self]
  exact bit_setBit_self _ _ (by decide)

/-- Settles O18: a NOP has no units, so it starts and is complete; retirement is one change of the tile. -/
theorem arrayNopAndRetire : Obligations.ArrayNopAndRetire := by
  refine ⟨fun s t e h => nop_completes h, fun s t e ht h => ⟨_, exec_acwRetire ht h, Dev.onlyTile_setTile .., ?_⟩⟩
  rw [Dev.tile_setTile_self]
  exact ⟨Tile.acwRetired_acwQ .., Tile.acwRetired_acwDone .., Tile.acwRetired_event, Tile.acwRetired_arrs ..⟩

end Sys2Proof.Machine

/-! ### A COMPUTE that an earlier packet disturbs

O19 asks that the route of the items crosses no port, so that no item enters the replay window of its tile (12 R300). A packet of an earlier send that
waits for the window is not excluded: the first item lets it go as well, and its copy is written into the window, which here lies over the second
vector of the COMPUTE. -/

namespace Sys2Proof.Machine

open Sys2Proof Sys2Proof.Claims

/-- COMPUTE of two vectors on array 0 with KT = NT = 1, INT8: AG 1 reads them, each row drains as INT8 to queue 3. -/
def spillAcw : Acw :=
  BitVec.ofNat 256 (1 + 2 ^ 4 + 2 * 2 ^ 27 + 2 * 2 ^ 29 + 2 * 2 ^ 32 + 5 * 2 ^ 114 + 2 ^ 128 + 2 ^ 140 + 3 * 2 ^ 152 + 2 ^ 162)

def spillEntry : AcwEntry where
  id := 0
  acw := spillAcw
  ranges := []
  rmask := 0xFFFFFFFF
  cmask := 0xFFFFFFFF
  ags := [1]
  started := false
  done := false
  prog := 0
  item := []
  itemTrunc := false
  loaded := 0
  got := []
  added := false
  sent := 0

/-- The vectors lie at bytes 0 and 64, and the first weight is one. The replay window is line 1, bytes 64 to 127; a packet that crosses a port waits
for it, and the first byte of its header is one. -/
def spillTile : Tile :=
  { Tile.reset with
    acwQ := [spillEntry]
    ags := [(1, { Ag.reset with tickets := [0], cur := { AgProg.reset with cnts := [2, 1, 1, 1], strs := [64, 0, 0, 0] } })]
    arrs := [(0, { Arr.reset with p0 := { Plane.reset with kb := 32, elems := [some (.fin false 1 0)] } })]
    regs := [(Reg.MESH_REPLAY, 0x10001)]
    txWait := [(0, { packet0 with route := 1, len := 1, hops := 1 })] }

/-- Route 0 stays on the device. -/
def spillState : State := ⟨{ Dev.reset.setTile 0 spillTile with routes := [(0, ⟨1, 0, 0, [⟨0, 0, 0, 0, false⟩]⟩)] }, []⟩

/-- What O19 says the COMPUTE leaves: the tile and the outputs after both units. -/
def spillClaimed : (Tile × Nat) × List (List Byte) :=
  (List.range (spillAcw.passes * spillAcw.rep)).foldl
    (computeNext spillEntry (spillState.dev.tile 0).spad (64 * ·) (fun _ => 0) (fun _ => 0) (fun _ => 0) fun _ => 0) ((spillState.dev.tile 0, 0), [])

/-- The sum of the second vector: column 0 of row 1 of array 0. -/
def secondSum (x : Tile) : Int := ((x.arr 0).ent 1 0).i

theorem secondSum_congr {x y : Tile} (h : x.arrs = y.arrs) : secondSum x = secondSum y := by
  simp only [secondSum, Tile.arr, h]

theorem spill_acwAt : AcwAt spillState 0 kCOMPUTE spillEntry := by unfold AcwAt; decide

theorem spill_vectorsServe : VectorsServe (spillState.dev.tile 0) spillAcw (spillAcw.passes * spillAcw.rep) (64 * ·) fun _ => 0 := by
  unfold VectorsServe ArrServes AgServes; decide

theorem spill_addHeld : ∀ u, u < spillAcw.passes * spillAcw.rep → ∀ j ∈ spillAcw.jobs (u / spillAcw.rep) (u % spillAcw.rep),
    (spillState.dev.tile 0).addHeld 0 j.arr j.row = false := by decide

theorem spill_canDeliver (outs : List (List Byte)) : CanDeliver spillState.dev 0 spillAcw outs fun _ => 0 :=
  fun _ => ⟨fun h => absurd h (by decide), fun _ => by decide⟩

theorem spill_hops : ∀ alt, spillState.dev.routeAlt (fld ((spillState.dev.tile 0).qc spillAcw.qid).w1 48 16) = some alt → alt.hops = 0 := by
  have h : spillState.dev.routeAlt (fld ((spillState.dev.tile 0).qc spillAcw.qid).w1 48 16) = some ⟨0, 0, 0, 0, false⟩ := by decide
  rintro alt ha
  rw [h] at ha
  cases ha
  rfl

theorem secondSum_claimed : secondSum spillClaimed.1.1 = 0 := by decide +kernel

/-- The second vector is the first byte of the held copy. -/
theorem secondSum_of_exec {d : Dev} (h : exec (.compute 0 Upset.none) spillState = .next ⟨d, spillState.pending⟩) : secondSum (d.tile 0) = 1 := by
  have hr : (match exec (.compute 0 Upset.none) spillState with | .next s => some (secondSum (s.dev.tile 0)) | _ => none) = some 1 := by decide +kernel
  simpa only [h, Option.some.injEq] using hr

/-- Refutes O19 at `spillState`: every premise holds, the first item lets the waiting packet into the replay window, and the second vector is then a
header byte, so its row holds 1 where the statement says 0. -/
theorem not_arrayComputeAddsEveryJob : ¬ Obligations.ArrayComputeAddsEveryJob := by
  intro h
  have hodst : spillAcw.odst ≠ 1 := by decide
  have hloads : spillAcw.loads ≠ true := by decide
  obtain ⟨d, hexec, -, -, harrs, -⟩ := h.1 spillState 0 (64 * ·) (fun _ => 0) (fun _ => 0) (fun _ => 0) (fun _ => 0) (fun _ => 0) spillEntry spill_acwAt
    (.inl (by decide)) (by decide) spill_vectorsServe (absurd · hloads) spill_addHeld (spill_canDeliver _) (fun _ _ => spill_hops)
    (absurd · hodst) (absurd · hodst) (absurd · hodst) (absurd · hodst) (absurd · hodst)
  have hsum : secondSum (d.tile 0) = secondSum spillClaimed.1.1 := secondSum_congr harrs
  rw [secondSum_of_exec hexec, secondSum_claimed] at hsum
  exact absurd hsum (by decide)

end Sys2Proof.Machine

/-! ### An ACW whose units may change more than its tile -/

namespace Sys2Proof.Machine

open Sys2Proof Sys2Proof.Claims

/-- How an ACW `e` of tile `t` goes on under `f` from device `d₀`: `P k` holds of the device after `k` units, where its entry is `b k`. -/
structure AcwPlan (t : Nat) (d₀ : Dev) (e : AcwEntry) (b : Nat → AcwEntry) (f : Dev → AcwEntry → Dev × Bool) (P : Nat → Dev → Prop) : Prop where
  id : ∀ k, (b k).id = e.id
  acw : ∀ k, (b k).acw = e.acw
  ags : (b 0).ags = e.ags
  started : ∀ k, (b k).started = true
  prog : ∀ k, (b k).prog = k
  stands : ∀ k d, P k d → AcwStands (d₀.tile t) (b k) (d.tile t)
  start : ∀ d, OnlyTile t d₀ d → d.tile t = (d₀.tile t).acwStart e.id → P 0 d
  unit : ∀ k d, k < Acw.total e.acw → P k d →
    ∃ d', f d (b k) = (d', true) ∧ P (k + 1) (d'.modTile t fun x => x.modAcw e.id AcwEntry.next)

section

variable {t : Nat} {d₀ d : Dev} {e : AcwEntry} {b : Nat → AcwEntry} {f : Dev → AcwEntry → Dev × Bool} {P : Nat → Dev → Prop}

theorem AcwPlan.acwOf (h : AcwPlan t d₀ e b f P) (hm : ∃ y ∈ (d₀.tile t).acwQ, y.id = e.id) {k : Nat} (hk : P k d) :
    (d.tile t).acwOf e.id = some (b k) := by
  rw [← h.id k] at hm ⊢
  exact (h.stands k d hk).acwOf hm

/-- The `n` units that are left take place, and then the ACW is complete. -/
theorem AcwPlan.acwLoop (h : AcwPlan t d₀ e b f P) (hm : ∃ y ∈ (d₀.tile t).acwQ, y.id = e.id) {n k : Nat} (hn : k + n = Acw.total e.acw) (hk : P k d) :
    ∃ d', P (Acw.total e.acw) d' ∧ d.acwLoop t e.id (Acw.total e.acw) f (n + 1) = d'.modTile t fun x => x.acwDone e.id := by
  induction n generalizing k d with
  | zero =>
    have ho := h.acwOf hm hk
    have hp := h.prog k
    refine ⟨d, hn ▸ hk, ?_⟩
    rw [Dev.acwLoop, ho]
    exact if_pos (by omega)
  | succ n ih =>
    have ho := h.acwOf hm hk
    have hp := h.prog k
    obtain ⟨d', hf, hd'⟩ := h.unit k d (by omega) hk
    obtain ⟨z, hz, hl⟩ := ih (by omega) hd'
    refine ⟨z, hz, ?_⟩
    rw [← hl]
    conv_lhs => rw [Dev.acwLoop, ho]
    simp only [hf, if_true]
    exact if_neg (by omega)

/-- The same for a tile on which the ACW, just started, may act. -/
theorem AcwPlan.acwAdvance (h : AcwPlan t d₀ e b f P) (hm : ∃ y ∈ (d₀.tile t).acwQ, y.id = e.id) (hu : (d₀.tile t).acwUsable e = true)
    (hd : OnlyTile t d₀ d) (hx : d.tile t = (d₀.tile t).acwStart e.id) :
    ∃ d', P (Acw.total e.acw) d' ∧ d.acwAdvance t f e.id = d'.modTile t fun x => x.acwDone e.id := by
  have h0 := h.start d hd hx
  have hu' : (d.tile t).acwUsable (b 0) = true := by
    rw [hx, Tile.acwUsable, h.ags]
    exact hu
  obtain ⟨z, hz, hl⟩ := h.acwLoop hm (Nat.zero_add _) h0
  refine ⟨z, hz, ?_⟩
  rw [Dev.acwAdvance, h.acwOf hm h0]
  simp only [h.acw, h.prog, Nat.sub_zero]
  exact (if_pos hu').trans hl

/-- Every unit of the ACW that the command finds takes place, and then it is complete. -/
theorem completes_of_plan {c : Instr} {s : State} {kind : Nat} (hc : exec c s = .next ⟨s.dev.acwRun t kind f, s.pending⟩) (h : AcwAt s t kind e)
    (hp : AcwPlan t s.dev e b f P) :
    ∃ d, P (Acw.total e.acw) d ∧ Completes c s fun d' => d' = d.setTile t ((d.tile t).acwDone e.id) ∧ AcwComplete t e d' := by
  obtain ⟨-, -, husable⟩ := acwAt_spec h
  have hm := acwAt_mem h
  have hdone : ∀ {d}, P (Acw.total e.acw) d →
      AcwStands (s.dev.tile t) (b (Acw.total e.acw)).complete ((d.tile t).acwDone e.id) := fun {d} hd => by
    rw [← hp.id (Acw.total e.acw)] at hm ⊢
    exact (hp.stands _ d hd).acwDone hm
  obtain ⟨d, hd, hr⟩ : ∃ d, P (Acw.total e.acw) d ∧ s.dev.acwRun t kind f = d.setTile t ((d.tile t).acwDone e.id) := by
    obtain ⟨-, ⟨hr, hn⟩ | ⟨hq, hr, -⟩, -⟩ := h
    · obtain ⟨d, hd, ha⟩ := hp.acwAdvance hm husable (d := s.dev.modTile t fun x => x.acwStart e.id) (Dev.onlyTile_setTile ..) (by simp)
      refine ⟨d, hd, ?_⟩
      simp only [Dev.acwRun, hr, List.foldl_nil, hn]
      exact ha
    · obtain ⟨-, -, hst⟩ := Tile.acwRunning_spec hr
      obtain ⟨d, hd, ha⟩ := hp.acwAdvance hm husable (OnlyTile.refl t s.dev) (Tile.acwStart_of_alone hq hst).symm
      refine ⟨d, hd, ?_⟩
      have hqd : ((d.tile t).acwDone e.id).acwQ = [(b (Acw.total e.acw)).complete] := by
        have hq' := hdone hd
        rw [AcwStands, hq, List.map_singleton] at hq'
        exact hq'.trans (congrArg (fun y => [y]) (if_pos (hp.id _).symm))
      simp only [Dev.acwRun, hr, List.foldl_cons, List.foldl_nil, ha, Dev.modTile, Dev.tile_setTile_self, Tile.acwNext_of_alone hqd (hp.started _)]
  have hstands := hdone hd
  rw [← d.tile_setTile_self t ((d.tile t).acwDone e.id)] at hstands
  exact ⟨d, hd, _, by rw [hc, hr], rfl, hstands.acwComplete hm (hp.id _) (hp.acw _) (hp.started _)⟩

end

end Sys2Proof.Machine

/-! ### Writes and items -/

namespace Sys2Proof.Machine

open Sys2Proof Sys2Proof.Claims

/-- A word that fails parity is one that `parInv` lists. -/
theorem Tile.badWord_eq_none_iff {x : Tile} {a n : Nat} : x.badWord a n = none ↔ ∀ w ∈ x.parInv, wordIn w a n = false := by
  simp only [Tile.badWord, List.find?_eq_none, Bool.and_eq_true, bne_iff_ne, ne_eq, not_and]
  refine forall₂_congr fun w hw => ?_
  have hbad := (x.parBit_ne_iff w).mpr hw
  cases wordIn w a n <;> simp [hbad]

/-- A write whose span holds no word that fails parity merges none. -/
theorem Tile.mergeBad_of_badWord {x : Tile} {a n : Nat} (h : x.badWord a n = none) : x.mergeBad a n = none := by
  rw [Tile.badWord_eq_none_iff] at h
  simp only [Tile.mergeBad, List.find?_eq_none]
  intro w hw
  simp [h w hw]

section

variable {x y : Tile} {g n : Nat} {len a : Nat → Nat}

/-- An AG goes on serving where fewer words fail parity. -/
theorem AgServes.of_parInv_subset (h : AgServes x g n len a) (hg : y.ag g = x.ag g) (hp : ∀ w ∈ y.parInv, w ∈ x.parInv) : AgServes y g n len a := by
  obtain ⟨hst, hex, hsp, hmo, hc, hk⟩ := h
  simp only [AgServes, hg]
  refine ⟨hst, hex, hsp, hmo, hc, fun k hlt => ?_⟩
  obtain ⟨ha, hle, hbad⟩ := hk k hlt
  rw [Tile.badWord_eq_none_iff] at hbad ⊢
  exact ⟨ha, hle, fun w hw => hbad w (hp w hw)⟩

theorem ArrServes.congr (h : ArrServes x g n len a) (hg : y.ag g = x.ag g) (hp : y.parInv = x.parInv) :
    ArrServes y g n len a :=
  ⟨AgServes.of_parInv_subset h.1 hg fun _ hw => hp ▸ hw, h.2⟩

/-- An AG that serves two writes or more serves the rest after the first. -/
theorem ArrServes.written (h : ArrServes x g (n + 2) len a) (i : Nat) (bs : List Byte) :
    ArrServes ((x.agEmit g).spadWrite i bs) g (n + 1) (fun k => len (k + 1)) fun k => a (k + 1) := by
  obtain ⟨hs, ha⟩ := ArrServes.rest h (y := x.agEmit g) (x.ag_agEmit_self g) (x.agEmit_spad g) (x.agEmit_parInv g)
  exact ⟨AgServes.of_parInv_subset hs rfl fun w hw => List.mem_of_mem_filter hw, ha⟩

end

/-- A write through an AG that serves. -/
theorem Dev.unitWrite_of_serves {d : Dev} {t g i : Nat} {bs : List Byte} (h : ArrServes (d.tile t) g 1 (fun _ => bs.length) fun _ => i) :
    d.unitWrite t g bs true = (d.modTile t fun x => (x.agEmit g).spadWrite i bs, some bs) := by
  obtain ⟨⟨hst, hex, hsp, hmo, -, hk⟩, hal⟩ := h
  obtain ⟨haddr, hle, hbad⟩ := hk 0 Nat.one_pos
  have hnext : ((d.tile t).ag g).next = .addr i := by simp_all [Ag.next]
  have halign : alignOk true false (i : Int) = true := by
    have : i % 16 = 0 := hal 0 Nat.one_pos
    simp only [alignOk, Bool.not_true, Bool.false_or, Bool.false_eq_true, if_false, decide_eq_true_eq]
    omega
  have hw : d.agWrite t g bs true = ⟨d.modTile t fun x => (x.agEmit g).spadWrite i bs, some bs, none, []⟩ := by
    simp [Dev.agWrite, hnext, hsp, hmo, hle, halign, Tile.mergeBad_of_badWord hbad]
  simp [Dev.unitWrite, hw]

/-! #### Items -/

/-- What packets that leave a tile do not touch. -/
def Tile.offRouter (x : Tile) : SMap Ag × List AcwEntry × SMap Arr × SMap QCtx × Weevil := (x.ags, x.acwQ, x.arrs, x.qctx, x.wvl)

theorem Tile.hold_offRouter (x : Tile) (route : Nat) (p : Packet) (now : Nat) : (x.hold route p now).offRouter = x.offRouter :=
  Tile.foldl_keeps (F := Tile.offRouter) (fun _ _ => by split <;> rfl) _ x

theorem Dev.countFree_offRouter (d : Dev) (t a : Nat) : ((d.countFree t a).tile t).offRouter = (d.tile t).offRouter := by
  have h : (d.countFree t a).tile t = (d.tile t).modReg a fun v => addCnt v 0 64 d.free :=
    d.tile_modTile_self t fun x => x.modReg a fun v => addCnt v 0 64 d.free
  rw [h]
  rfl

theorem Dev.txGo_keeps (t n : Nat) (d : Dev) :
    (Dev.txGo t n d).routes = d.routes ∧ ((Dev.txGo t n d).tile t).offRouter = (d.tile t).offRouter := by
  induction n generalizing d with
  | zero => exact ⟨rfl, rfl⟩
  | succ n ih =>
    have left : ∀ (x : Tile) (l : List Flight), x.offRouter = (d.tile t).offRouter →
        (Dev.txGo t n { d.setTile t x with flying := l }).routes = d.routes ∧
          ((Dev.txGo t n { d.setTile t x with flying := l }).tile t).offRouter = (d.tile t).offRouter := fun x l hx => by
      obtain ⟨hr, ht⟩ := ih { d.setTile t x with flying := l }
      exact ⟨hr, ht.trans ((congrArg Tile.offRouter (d.tile_setTile_self t x)).trans hx)⟩
    unfold Dev.txGo
    dsimp only
    split
    · exact ⟨rfl, rfl⟩
    · split
      · exact left _ _ rfl
      · split
        · exact left _ _ (Tile.hold_offRouter ..)
        · exact ⟨rfl, d.countFree_offRouter t _⟩

/-- A context once it has sent one more item (06 R145). -/
def QCtx.sentOne (c : QCtx) : QCtx :=
  { c with w2 := setFld c.w2 0 16 (fld c.w2 0 16 + 1), w3 := setFld c.w3 0 32 (min (fld c.w3 0 32 + 1) (2 ^ 32 - 1)) }

/-- An item leaves through a loaded route. -/
theorem Dev.sendItem_keeps {d : Dev} {t q : Nat} (bs : List Byte) (h : (d.routeAlt (fld ((d.tile t).qc q).w1 48 16)).isSome = true) :
    (d.sendItem t q bs).routes = d.routes ∧
      ((d.sendItem t q bs).tile t).offRouter = ((d.tile t).setQc q ((d.tile t).qc q).sentOne).offRouter := by
  obtain ⟨a, ha⟩ := Option.isSome_iff_exists.mp h
  unfold Dev.sendItem
  simp only [ha]
  refine (Dev.txGo_keeps ..).imp (·.trans rfl) (·.trans ?_)
  rw [Dev.tile_setTile_self, Dev.tile_setTile_self]
  rfl

theorem Dev.routeAlt_congr {d d' : Dev} (h : d'.routes = d.routes) (k : Nat) : d'.routeAlt k = d.routeAlt k := by
  unfold Dev.routeAlt Dev.route
  rw [h]

end Sys2Proof.Machine

/-! ### Outputs (03 R71) -/

namespace Sys2Proof.Machine

open Sys2Proof Sys2Proof.Claims

/-- What sending one output `bs` of ACW `e` does, at `i` where it is written (R71). -/
structure OutSent (t : Nat) (e : AcwEntry) (bs : List Byte) (i : Nat) (d d' : Dev) : Prop where
  written : Acw.odst e.acw = 1 → d'.tile t = ((d.tile t).agEmit (Acw.ago e.acw)).spadWrite i bs
  queued : Acw.odst e.acw = 2 → (d'.tile t).qctx = ((d.tile t).setQc (Acw.qid e.acw) ((d.tile t).qc (Acw.qid e.acw)).sentOne).qctx
  qctx : Acw.odst e.acw ≠ 2 → (d'.tile t).qctx = (d.tile t).qctx
  appended : (d'.tile t).wvl.appendQ = (d.tile t).wvl.appendQ ++ if Acw.odst e.acw = 3 then [⟨Acw.kvs e.acw, bs, e.id⟩] else []
  spad : Acw.odst e.acw = 0 ∨ Acw.odst e.acw = 3 → (d'.tile t).spad = (d.tile t).spad
  acwQ : (d'.tile t).acwQ = (d.tile t).acwQ
  arrs : (d'.tile t).arrs = (d.tile t).arrs
  reg : Acw.odst e.acw ≠ 2 → ∀ b, b ≠ Reg.SCB_EVENT → (d'.tile t).reg b = (d.tile t).reg b
  only : Acw.odst e.acw ≠ 2 → OnlyTile t d d'
  routes : d'.routes = d.routes

/-- An item leaves the route of its context as it is. -/
theorem OutSent.route {t i : Nat} {e : AcwEntry} {bs : List Byte} {d d' : Dev} (h : OutSent t e bs i d d') :
    ((d'.tile t).qc (Acw.qid e.acw)).w1 = ((d.tile t).qc (Acw.qid e.acw)).w1 := by
  by_cases h2 : Acw.odst e.acw = 2
  · have hqc : (d'.tile t).qc (Acw.qid e.acw) = ((d.tile t).qc (Acw.qid e.acw)).sentOne := by
      rw [Tile.qc, h.queued h2]
      exact Tile.qc_setQc_self ..
    rw [hqc, QCtx.sentOne]
  · rw [Tile.qc, h.qctx h2]
    rfl

/-- The four destinations. -/
theorem Acw.odst_cases (a : Acw) : a.odst = 0 ∨ a.odst = 1 ∨ a.odst = 2 ∨ a.odst = 3 := by
  have : a.odst < 4 := fld_lt a 27 2
  omega

section

variable {d : Dev} {t i : Nat} {e : AcwEntry} {bs : List Byte}

theorem OutSent.none (h : Acw.odst e.acw = 0) : OutSent t e bs i d d where
  written _ := by omega
  queued _ := by omega
  qctx _ := rfl
  appended := by simp [h]
  spad _ := rfl
  acwQ := rfl
  arrs := rfl
  reg _ _ _ := rfl
  only _ := OnlyTile.refl t d
  routes := rfl

theorem OutSent.scratchpad (h : Acw.odst e.acw = 1) :
    OutSent t e bs i d (d.setTile t (((d.tile t).agEmit (Acw.ago e.acw)).spadWrite i bs)) where
  written _ := d.tile_setTile_self t _
  queued _ := by omega
  qctx _ := by simp [Tile.spadWrite]
  appended := by simp [h, Tile.spadWrite]
  spad _ := by omega
  acwQ := by simp [Tile.spadWrite]
  arrs := by simp [Tile.spadWrite]
  reg _ b hb := by
    rw [Dev.tile_setTile_self]
    exact Tile.reg_agEmit _ _ hb
  only _ := Dev.onlyTile_setTile ..
  routes := rfl

theorem OutSent.queue (h : Acw.odst e.acw = 2) (hr : (d.routeAlt (fld ((d.tile t).qc (Acw.qid e.acw)).w1 48 16)).isSome = true) :
    OutSent t e bs i d (d.sendItem t (Acw.qid e.acw) bs) := by
  obtain ⟨hroutes, hkeeps⟩ := Dev.sendItem_keeps bs hr
  simp only [Tile.offRouter, Prod.mk.injEq] at hkeeps
  obtain ⟨-, hacwQ, harrs, hqctx, hwvl⟩ := hkeeps
  exact {
    written := fun _ => by omega
    queued := fun _ => hqctx
    qctx := fun _ => by omega
    appended := by simp [h, hwvl]
    spad := fun _ => by omega
    acwQ := hacwQ
    arrs := harrs
    reg := fun _ => by omega
    only := fun _ => by omega
    routes := hroutes }

/-- A tile whose append port has one more row. -/
def Tile.append (x : Tile) (r : AppRow) : Tile := { x with wvl := { x.wvl with appendQ := x.wvl.appendQ ++ [r] } }

theorem OutSent.appendPort (h : Acw.odst e.acw = 3) : OutSent t e bs i d (d.setTile t ((d.tile t).append ⟨Acw.kvs e.acw, bs, e.id⟩)) where
  written _ := by omega
  queued _ := by omega
  qctx _ := by simp [Tile.append]
  appended := by simp [h, Tile.append]
  spad _ := by simp [Tile.append]
  acwQ := by simp [Tile.append]
  arrs := by simp [Tile.append]
  reg _ b _ := by
    rw [Dev.tile_setTile_self]
    rfl
  only _ := Dev.onlyTile_setTile ..
  routes := rfl

/-- An output that its destination takes is sent. -/
theorem Dev.outPut_sent
    (hs : Acw.odst e.acw = 1 → ArrServes (d.tile t) (Acw.ago e.acw) 1 (fun _ => bs.length) fun _ => i)
    (hr : Acw.odst e.acw = 2 → (d.routeAlt (fld ((d.tile t).qc (Acw.qid e.acw)).w1 48 16)).isSome = true) :
    ∃ d', d.outPut t e bs = (d', true) ∧ OutSent t e bs i d d' := by
  obtain h | h | h | h := Acw.odst_cases e.acw
  · exact ⟨_, by simp only [Dev.outPut, h], .none h⟩
  · exact ⟨_, by simp only [Dev.outPut, h, Dev.unitWrite_of_serves (hs h)]; rfl, .scratchpad h⟩
  · exact ⟨_, by simp only [Dev.outPut, h], .queue h (hr h)⟩
  · exact ⟨_, by simp only [Dev.outPut, h]; rfl, .appendPort h⟩

end

/-! #### The outputs that have reached their destination -/

section

variable {t : Nat} {e : AcwEntry} {outs : List (List Byte)} {ao : Nat → Nat} {d₀ d d' : Dev}

/-- Nothing has been sent. -/
theorem Delivered.nil (ho : OnlyTile t d₀ d) (hs : (d.tile t).spad = (d₀.tile t).spad) (hq : (d.tile t).qctx = (d₀.tile t).qctx)
    (hw : (d.tile t).wvl = (d₀.tile t).wvl) : Delivered t e [] ao d₀ d := by
  have hqc : (d.tile t).qc (Acw.qid e.acw) = (d₀.tile t).qc (Acw.qid e.acw) := by rw [Tile.qc, hq]; rfl
  refine ⟨fun _ => ⟨fun k i hk => absurd hk (Nat.not_lt_zero k), fun b _ => by rw [hs]⟩, fun _ => ?_, by simp [hw], fun _ => hs, fun _ => ho⟩
  have h2 := fld_lt ((d₀.tile t).qc (Acw.qid e.acw)).w2 0 16
  have h3 := fld_lt ((d₀.tile t).qc (Acw.qid e.acw)).w3 0 32
  rw [hqc, List.length_nil]
  constructor <;> omega

/-- What is delivered does not depend on the parts of the tile that no destination is in. -/
theorem Delivered.congr (h : Delivered t e outs ao d₀ d) (ho : OnlyTile t d d') (hs : (d'.tile t).spad = (d.tile t).spad)
    (hq : (d'.tile t).qctx = (d.tile t).qctx) (hw : (d'.tile t).wvl = (d.tile t).wvl) : Delivered t e outs ao d₀ d' := by
  have hqc : (d'.tile t).qc (Acw.qid e.acw) = (d.tile t).qc (Acw.qid e.acw) := by rw [Tile.qc, hq]; rfl
  unfold Delivered at h ⊢
  obtain ⟨hsp, hqu, hap, hno, hon⟩ := h
  simp only [hs, hqc, hw]
  exact ⟨hsp, hqu, hap, hno, fun hc => OnlyTile.trans (hon hc) ho⟩

/-- Memory `m` is `m₀` with the outputs written over it in order, output `k` at `ao k`. -/
def WrittenOver (outs : List (List Byte)) (ao : Nat → Nat) (m₀ m : Memory) : Prop :=
  (∀ k i, k < outs.length → i < (outs.getD k []).length →
    (∀ l, k < l → l < outs.length → ao k + i < ao l ∨ ao l + (outs.getD l []).length ≤ ao k + i) →
    Memory.read m (ao k + i) = (outs.getD k []).getD i 0) ∧
  ∀ b, (∀ k, k < outs.length → b < ao k ∨ ao k + (outs.getD k []).length ≤ b) → Memory.read m b = Memory.read m₀ b

theorem getD_snoc_of_lt {k : Nat} (bs : List Byte) (h : k < outs.length) : (outs ++ [bs]).getD k [] = outs.getD k [] := List.getD_append _ _ _ _ h

theorem getD_snoc_self (bs : List Byte) : (outs ++ [bs]).getD outs.length [] = bs := by simp

/-- A later output is written over the ones before it. -/
theorem WrittenOver.snoc {m₀ m : Memory} (h : WrittenOver outs ao m₀ m) (bs : List Byte) :
    WrittenOver (outs ++ [bs]) ao m₀ (m.writeN (ao outs.length) bs) := by
  obtain ⟨hin, hout⟩ := h
  have hlast : outs.length < (outs ++ [bs]).length := by simp
  refine ⟨fun k i hk hi hl => ?_, fun b hb => ?_⟩
  · obtain hk | rfl : k < outs.length ∨ k = outs.length := by
      simp only [List.length_append, List.length_singleton] at hk
      omega
    · have hafter := hl outs.length hk hlast
      rw [getD_snoc_self] at hafter
      rw [getD_snoc_of_lt bs hk] at hi ⊢
      rw [Memory.read_writeN_outside _ _ _ _ hafter]
      refine hin k i hk hi fun l hkl hll => ?_
      have := hl l hkl (hll.trans hlast)
      rwa [getD_snoc_of_lt bs hll] at this
    · rw [getD_snoc_self] at hi ⊢
      rw [Memory.read_writeN, if_pos (by omega), Nat.add_sub_cancel_left]
  · have hafter := hb outs.length hlast
    rw [getD_snoc_self] at hafter
    rw [Memory.read_writeN_outside _ _ _ _ hafter]
    refine hout b fun k hk => ?_
    have := hb k (hk.trans hlast)
    rwa [getD_snoc_of_lt bs hk] at this

/-- The counts of a context that has sent one more item. -/
theorem QCtx.sentOne_counts {c c₀ : QCtx} {n : Nat} (h2 : fld c.w2 0 16 = (fld c₀.w2 0 16 + n) % 2 ^ 16)
    (h3 : fld c.w3 0 32 = min (fld c₀.w3 0 32 + n) (2 ^ 32 - 1)) :
    fld c.sentOne.w2 0 16 = (fld c₀.w2 0 16 + (n + 1)) % 2 ^ 16 ∧ fld c.sentOne.w3 0 32 = min (fld c₀.w3 0 32 + (n + 1)) (2 ^ 32 - 1) := by
  simp only [QCtx.sentOne]
  rw [fld_setFld_self _ _ _ _ (by decide), fld_setFld_self _ _ _ _ (by decide), h2, h3]
  constructor <;> omega

/-- One more output is delivered. -/
theorem Delivered.snoc {bs : List Byte} (h : Delivered t e outs ao d₀ d) (hs : OutSent t e bs (ao outs.length) d d') :
    Delivered t e (outs ++ [bs]) ao d₀ d' := by
  have hlen : (outs ++ [bs]).length = outs.length + 1 := by simp
  unfold Delivered at h ⊢
  obtain ⟨hsp, hqu, hap, hno, hon⟩ := h
  refine ⟨fun h1 => ?_, fun h2 => ?_, ?_, fun h03 => (hs.spad h03).trans (hno h03), fun hc => ?_⟩
  · have hw : WrittenOver outs ao (d₀.tile t).spad (d.tile t).spad := hsp h1
    have hspad : (d'.tile t).spad = (d.tile t).spad.writeN (ao outs.length) bs := by
      rw [hs.written h1, Tile.spadWrite, Tile.agEmit_spad]
    exact hspad ▸ hw.snoc bs
  · obtain ⟨hw2, hw3⟩ := hqu h2
    have hqc : (d'.tile t).qc (Acw.qid e.acw) = ((d.tile t).qc (Acw.qid e.acw)).sentOne := by
      rw [Tile.qc, hs.queued h2]
      exact Tile.qc_setQc_self ..
    rw [hqc, hlen]
    exact QCtx.sentOne_counts hw2 hw3
  · rw [hs.appended, hap]
    split <;> simp
  · have h2 : Acw.odst e.acw ≠ 2 := hc.resolve_right (by simp)
    exact OnlyTile.trans (hon (.inl h2)) (hs.only h2)

end

end Sys2Proof.Machine

/-! ### DRAIN -/

namespace Sys2Proof.Machine

open Sys2Proof Sys2Proof.Claims

/-- Two tiles whose registers are the same but for SCB_EVENT, where AGs report. -/
def SameRegs (y z : Tile) : Prop := ∀ b, b ≠ Reg.SCB_EVENT → y.reg b = z.reg b

theorem SameRegs.trans {x y z : Tile} (h : SameRegs x y) (h' : SameRegs y z) : SameRegs x z := fun b hb => (h b hb).trans (h' b hb)

theorem Tile.raise_frame (x : Tile) (c : AsyncCause) (v : W32) : ∃ sc, x.raise c v = { x with scb := sc } := by
  unfold Tile.raise
  split <;> exact ⟨_, rfl⟩

/-- ARR_FLAGS once flags are ORed in. -/
def arrFlagsAfter (v : W64) (j : Nat) (f : BitVec 5) : W64 := v ||| BitVec.ofNat 64 (f.toNat * 2 ^ (8 * j))

/-- Flags go into ARR_FLAGS, and may raise a cause. -/
theorem Tile.arrNote_frame (x : Tile) (j : Nat) (f : BitVec 5) :
    ∃ sc, x.arrNote j f = { x.setReg Reg.ARR_FLAGS (arrFlagsAfter (x.reg Reg.ARR_FLAGS) j f) with scb := sc } := by
  unfold Tile.arrNote
  dsimp only
  split
  · exact Tile.raise_frame ..
  · exact ⟨_, rfl⟩

theorem SameRegs.setReg {y z : Tile} (h : SameRegs y z) (a : Nat) (v : W64) : SameRegs (y.setReg a v) (z.setReg a v) := fun b hb => by
  by_cases hba : b = a
  · subst hba
    rw [Tile.reg_setReg_self, Tile.reg_setReg_self]
  · rw [Tile.reg_setReg_ne _ _ _ hba, Tile.reg_setReg_ne _ _ _ hba]
    exact h b hb

theorem SameRegs.arrNote {y z : Tile} (h : SameRegs y z) (j : Nat) (f : BitVec 5) : SameRegs (y.arrNote j f) (z.arrNote j f) := by
  obtain ⟨sy, hy⟩ := y.arrNote_frame j f
  obtain ⟨sz, hz⟩ := z.arrNote_frame j f
  rw [hy, hz, h Reg.ARR_FLAGS (by decide)]
  exact h.setReg _ _

section

variable {x y z : Tile} {a : Acw} {j row c0 n : Nat}

/-- What a part drains lies in the arrays. -/
theorem Tile.drainPart_bytes (h : y.arrs = z.arrs) : (y.drainPart a j row c0 n).2 = (z.drainPart a j row c0 n).2 := by
  have hj : y.arr j = z.arr j := by rw [Tile.arr, h]; rfl
  unfold Tile.drainPart
  rw [hj]
  split <;> rfl

theorem SameRegs.drainPart (hr : SameRegs y z) (h : y.arrs = z.arrs) : SameRegs (y.drainPart a j row c0 n).1 (z.drainPart a j row c0 n).1 := by
  have hj : y.arr j = z.arr j := by rw [Tile.arr, h]; rfl
  unfold Tile.drainPart
  rw [hj]
  split
  all_goals
    dsimp only
    split
    · exact hr.arrNote _ _
    · exact hr

/-- A row of an array, cleared after its drain under ACCOP 1 or 3. -/
def Tile.clearAfter (x : Tile) (a : Acw) (j row : Nat) : Tile := if a.accop % 2 = 1 then x.setArr j ((x.arr j).clearDrained row) else x

/-- What a clear leaves as it was. -/
theorem Tile.clearAfter_keeps {α : Type} (F : Tile → α) (hF : ∀ x as, F { x with arrs := as } = F x) (x : Tile) (a : Acw) (j row : Nat) :
    F (x.clearAfter a j row) = F x := by
  unfold Tile.clearAfter
  split
  · exact hF x _
  · rfl

theorem Tile.clearAfter_arrs (h : y.arrs = z.arrs) : (y.clearAfter a j row).arrs = (z.clearAfter a j row).arrs := by
  have hj : y.arr j = z.arr j := by rw [Tile.arr, h]; rfl
  unfold Tile.clearAfter
  split
  · rw [Tile.setArr, Tile.setArr, h, hj]
  · exact h

end

/-! #### The plan of a DRAIN -/

/-- Array and row of unit `k` of a DRAIN or an XADD (R71, R72). -/
def Acw.unitArr (a : Acw) (k : Nat) : Nat := a.arrays.getD (k % a.na) 0
def Acw.unitRow (a : Acw) (k : Nat) : Nat := a.rowbase + k / a.na

/-- The share of unit `k`: all 32 columns of its row. -/
def Tile.drainUnit (x : Tile) (a : Acw) (k : Nat) : Tile × List Byte := x.drainPart a (a.unitArr k) (a.unitRow k) 0 32

/-- A drain flags its array, and leaves as it was what neither registers nor the Scarab hold. -/
theorem Tile.drainUnit_keeps {α : Type} (F : Tile → α) (hF : ∀ x rg sc, F { x with regs := rg, scb := sc } = F x) (x : Tile) (a : Acw) (k : Nat) :
    F (x.drainUnit a k).1 = F x := by
  have note : ∀ j f, F (x.arrNote j f) = F x := fun j f => by
    obtain ⟨sc, h⟩ := x.arrNote_frame j f
    rw [h]
    exact hF x _ sc
  unfold Tile.drainUnit Tile.drainPart
  split
  all_goals
    dsimp only
    split
    · exact note _ _
    · rfl

section

variable (x : Tile) (a : Acw) (j row k : Nat)

@[simp] theorem Tile.drainUnit_acwQ : (x.drainUnit a k).1.acwQ = x.acwQ := Tile.drainUnit_keeps Tile.acwQ (fun _ _ _ => rfl) ..
@[simp] theorem Tile.drainUnit_arrs : (x.drainUnit a k).1.arrs = x.arrs := Tile.drainUnit_keeps Tile.arrs (fun _ _ _ => rfl) ..
@[simp] theorem Tile.drainUnit_spad : (x.drainUnit a k).1.spad = x.spad := Tile.drainUnit_keeps Tile.spad (fun _ _ _ => rfl) ..
@[simp] theorem Tile.drainUnit_parInv : (x.drainUnit a k).1.parInv = x.parInv := Tile.drainUnit_keeps Tile.parInv (fun _ _ _ => rfl) ..
@[simp] theorem Tile.drainUnit_qctx : (x.drainUnit a k).1.qctx = x.qctx := Tile.drainUnit_keeps Tile.qctx (fun _ _ _ => rfl) ..
@[simp] theorem Tile.drainUnit_wvl : (x.drainUnit a k).1.wvl = x.wvl := Tile.drainUnit_keeps Tile.wvl (fun _ _ _ => rfl) ..
@[simp] theorem Tile.drainUnit_ag (n : Nat) : (x.drainUnit a k).1.ag n = x.ag n := Tile.drainUnit_keeps (Tile.ag · n) (fun _ _ _ => rfl) ..
@[simp] theorem Tile.drainUnit_qc (n : Nat) : (x.drainUnit a k).1.qc n = x.qc n := Tile.drainUnit_keeps (Tile.qc · n) (fun _ _ _ => rfl) ..

@[simp] theorem Tile.clearAfter_acwQ : (x.clearAfter a j row).acwQ = x.acwQ := Tile.clearAfter_keeps Tile.acwQ (fun _ _ => rfl) ..
@[simp] theorem Tile.clearAfter_regs : (x.clearAfter a j row).regs = x.regs := Tile.clearAfter_keeps Tile.regs (fun _ _ => rfl) ..
@[simp] theorem Tile.clearAfter_spad : (x.clearAfter a j row).spad = x.spad := Tile.clearAfter_keeps Tile.spad (fun _ _ => rfl) ..
@[simp] theorem Tile.clearAfter_parInv : (x.clearAfter a j row).parInv = x.parInv := Tile.clearAfter_keeps Tile.parInv (fun _ _ => rfl) ..
@[simp] theorem Tile.clearAfter_qctx : (x.clearAfter a j row).qctx = x.qctx := Tile.clearAfter_keeps Tile.qctx (fun _ _ => rfl) ..
@[simp] theorem Tile.clearAfter_wvl : (x.clearAfter a j row).wvl = x.wvl := Tile.clearAfter_keeps Tile.wvl (fun _ _ => rfl) ..
@[simp] theorem Tile.clearAfter_ag (n : Nat) : (x.clearAfter a j row).ag n = x.ag n := Tile.clearAfter_keeps (Tile.ag · n) (fun _ _ => rfl) ..
@[simp] theorem Tile.clearAfter_qc (n : Nat) : (x.clearAfter a j row).qc n = x.qc n := Tile.clearAfter_keeps (Tile.qc · n) (fun _ _ => rfl) ..
@[simp] theorem Tile.clearAfter_reg (n : Nat) : (x.clearAfter a j row).reg n = x.reg n := Tile.clearAfter_keeps (Tile.reg · n) (fun _ _ => rfl) ..

end

/-- The tile and the outputs after `k` units of a DRAIN. -/
def drained (a : Acw) (x : Tile) (k : Nat) : Tile × List (List Byte) := (List.range k).foldl (drainNext a) (x, [])

section

variable {a : Acw} {x : Tile} {k n : Nat}

theorem SameRegs.drainUnit {y z : Tile} (hr : SameRegs y z) (h : y.arrs = z.arrs) : SameRegs (y.drainUnit a k).1 (z.drainUnit a k).1 :=
  hr.drainPart h

theorem drained_succ : drained a x (k + 1) =
    (((drained a x k).1.drainUnit a k).1.clearAfter a (a.unitArr k) (a.unitRow k), (drained a x k).2 ++ [((drained a x k).1.drainUnit a k).2]) := by
  rw [drained, List.range_succ, List.foldl_append]
  rfl

theorem length_drained : (drained a x k).2.length = k := by
  induction k with
  | zero => rfl
  | succ k ih => rw [drained_succ, List.length_append, ih, List.length_singleton]

/-- Output `k` is what unit `k` drains. -/
theorem getD_drained (h : k < n) : (drained a x n).2.getD k [] = ((drained a x k).1.drainUnit a k).2 := by
  induction n with
  | zero => exact absurd h (Nat.not_lt_zero k)
  | succ n ih =>
    rw [drained_succ]
    obtain h | rfl := Nat.lt_succ_iff_lt_or_eq.mp h
    · rw [getD_snoc_of_lt _ (by rwa [length_drained]), ih h]
    · have := getD_snoc_self (outs := (drained a x k).2) ((drained a x k).1.drainUnit a k).2
      rwa [length_drained] at this

end

/-! #### The units of a DRAIN -/

/-- The entry once one more output of its unit is sent. -/
def AcwEntry.sentOne (e : AcwEntry) : AcwEntry := { e with sent := e.sent + 1 }

/-- One unit of a DRAIN. -/
def drainUnit (t : Nat) (d : Dev) (e : AcwEntry) : Dev × Bool :=
  let a : Acw := e.acw
  if (d.tile t).drainHeld e.id (a.unitArr e.prog) (a.unitRow e.prog) then (d, false)
  else match Dev.outputs t e [[(a.unitArr e.prog, a.unitRow e.prog, 0, 32)]] d with
  | (d, true) =>
    (if a.accop % 2 = 1 then
      d.modTile t fun x =>
        x.setArr (a.unitArr e.prog) ((x.arr (a.unitArr e.prog)).clearDrained (a.unitRow e.prog))
     else d, true)
  | (d, false) => (d, false)

theorem exec_drain {s : State} {t : Nat} (ht : t < Config.nTiles) : exec (.drain t) s = .next ⟨s.dev.acwRun t kDRAIN (drainUnit t), s.pending⟩ :=
  onUnit_of_lt s _ ht

/-- A unit whose output is sent clears its row where it has to. -/
theorem drainUnit_of_sent {t : Nat} {d d' : Dev} {e : AcwEntry}
    (hh : (d.tile t).drainHeld e.id (Acw.unitArr e.acw e.prog) (Acw.unitRow e.acw e.prog) = false)
    (hs : (d.setTile t ((d.tile t).drainUnit e.acw e.prog).1).outPut t e ((d.tile t).drainUnit e.acw e.prog).2 = (d', true)) :
    drainUnit t d e =
      (d'.setTile t (((d'.tile t).modAcw e.id AcwEntry.sentOne).clearAfter e.acw (Acw.unitArr e.acw e.prog) (Acw.unitRow e.acw e.prog)), true) := by
  have ho : Dev.outputs t e [[(Acw.unitArr e.acw e.prog, Acw.unitRow e.acw e.prog, 0, 32)]] d =
      (d'.modTile t fun y => y.modAcw e.id AcwEntry.sentOne, true) := by
    simp only [Tile.drainUnit] at hs
    simp only [Dev.outputs, Tile.drainOut, List.append_nil, hs]
    rfl
  unfold drainUnit
  simp only [hh, ho, Tile.clearAfter, Bool.false_eq_true, if_false]
  by_cases hc : Acw.accop e.acw % 2 = 1 <;> simp [hc, Dev.modTile]

theorem Acw.total_of_drain {a : Acw} (h : a.kind = kDRAIN) : a.total = a.rep * a.na := by simp [Acw.total, h]

/-- The row of a unit of a DRAIN or an XADD is one of REP rows of an enabled array. -/
theorem Acw.unit_mem {a : Acw} {k : Nat} (h : k < a.rep * a.na) : a.unitArr k ∈ a.arrays ∧ k / a.na < a.rep := by
  have hna : 0 < a.na := Nat.pos_of_mul_pos_left (Nat.zero_lt_of_lt h)
  exact ⟨Acw.arrayAt_mem (Nat.mod_lt k hna), Nat.div_lt_of_lt_mul (Nat.mul_comm _ _ ▸ h)⟩

/-- The device `d` after `k` units of the DRAIN `e`, which met `d₀` and delivers at `ao`. -/
structure DrainAfter (t : Nat) (e : AcwEntry) (ao : Nat → Nat) (d₀ : Dev) (k : Nat) (d : Dev) : Prop where
  stands : AcwStands (d₀.tile t) (e.after k 0) (d.tile t)
  arrs : (d.tile t).arrs = (drained e.acw (d₀.tile t) k).1.arrs
  regs : Acw.odst e.acw ≠ 2 ∨ k = 0 → SameRegs (d.tile t) (drained e.acw (d₀.tile t) k).1
  delivered : Delivered t e (drained e.acw (d₀.tile t) k).2 ao d₀ d
  routes : d.routes = d₀.routes
  route : ((d.tile t).qc (Acw.qid e.acw)).w1 = ((d₀.tile t).qc (Acw.qid e.acw)).w1
  serve : Acw.odst e.acw = 1 → ∀ n, k + (n + 1) = Acw.total e.acw →
    ArrServes (d.tile t) (Acw.ago e.acw) (n + 1) (fun i => ((drained e.acw (d₀.tile t) (Acw.total e.acw)).2.getD (k + i) []).length) fun i => ao (k + i)

section

variable {t k : Nat} {e : AcwEntry} {ao : Nat → Nat} {d₀ d d' : Dev}

theorem DrainAfter.zero (hst : AcwStands (d₀.tile t) (e.after 0 0) (d.tile t)) (ho : OnlyTile t d₀ d) (hx : d.tile t = (d₀.tile t).acwStart e.id)
    (hc : CanDeliver d₀ t e.acw (drained e.acw (d₀.tile t) (Acw.total e.acw)).2 ao) : DrainAfter t e ao d₀ 0 d where
  stands := hst
  arrs := by rw [hx]; rfl
  regs _ := by rw [hx]; exact fun _ _ => rfl
  delivered := Delivered.nil ho (by rw [hx]; rfl) (by rw [hx]; rfl) (by rw [hx]; rfl)
  routes := by rw [← ho.1]
  route := by rw [hx]; rfl
  serve h1 n hn := by
    have hne : (drained e.acw (d₀.tile t) (Acw.total e.acw)).2 ≠ [] := List.ne_nil_of_length_pos (by rw [length_drained]; omega)
    obtain ⟨hs, -⟩ := hc hne
    have hs := hs h1
    rw [length_drained, ← hn, Nat.zero_add] at hs
    simp only [Nat.zero_add, hx]
    rw [Nat.zero_add] at hn
    exact hn ▸ hs

/-- What unit `k` drains is output `k` of the plan. -/
theorem DrainAfter.bytes (h : DrainAfter t e ao d₀ k d) : ((d.tile t).drainUnit e.acw k).2 = ((drained e.acw (d₀.tile t) k).1.drainUnit e.acw k).2 :=
  Tile.drainPart_bytes h.arrs

/-- The device once the share of unit `k` has been drained. -/
theorem DrainAfter.takes (h : DrainAfter t e ao d₀ k d) (hk : k < Acw.total e.acw)
    (hc : CanDeliver d₀ t e.acw (drained e.acw (d₀.tile t) (Acw.total e.acw)).2 ao) :
    ∃ d', (d.setTile t ((d.tile t).drainUnit e.acw k).1).outPut t e ((d.tile t).drainUnit e.acw k).2 = (d', true) ∧
      OutSent t e ((d.tile t).drainUnit e.acw k).2 (ao k) (d.setTile t ((d.tile t).drainUnit e.acw k).1) d' := by
  have hne : (drained e.acw (d₀.tile t) (Acw.total e.acw)).2 ≠ [] := List.ne_nil_of_length_pos (by rw [length_drained]; omega)
  obtain ⟨-, hroute⟩ := hc hne
  refine Dev.outPut_sent (fun h1 => ?_) fun h2 => ?_
  · obtain ⟨n, hn⟩ : ∃ n, k + (n + 1) = Acw.total e.acw := ⟨Acw.total e.acw - k - 1, by omega⟩
    have hs := ArrServes.first (h.serve h1 n hn)
    rw [Nat.add_zero, getD_drained hk, ← h.bytes] at hs
    rw [Dev.tile_setTile_self]
    exact ArrServes.congr hs (by simp) (by simp)
  · rw [Dev.tile_setTile_self, Tile.drainUnit_qc, h.route, Dev.routeAlt_congr ((Dev.setTile_routes ..).trans h.routes)]
    exact hroute h2

/-- One unit more, once its output is sent. -/
theorem DrainAfter.next (h : DrainAfter t e ao d₀ k d) (hi : e.Idle)
    (hs : OutSent t e ((d.tile t).drainUnit e.acw k).2 (ao k) (d.setTile t ((d.tile t).drainUnit e.acw k).1) d') :
    DrainAfter t e ao d₀ (k + 1)
      (d'.setTile t ((((d'.tile t).modAcw e.id AcwEntry.sentOne).clearAfter e.acw (Acw.unitArr e.acw k) (Acw.unitRow e.acw k)).modAcw e.id AcwEntry.next)) := by
  have hfirst : AcwStands (d₀.tile t) (e.after k 0) (d'.tile t) := by
    rw [AcwStands, hs.acwQ, Dev.tile_setTile_self, Tile.drainUnit_acwQ]
    exact h.stands
  have harrs : (d'.tile t).arrs = (d.tile t).arrs := by
    rw [hs.arrs, Dev.tile_setTile_self, Tile.drainUnit_arrs]
  have hdel : Delivered t e ((drained e.acw (d₀.tile t) k).2 ++ [((d.tile t).drainUnit e.acw k).2]) ao d₀ d' := by
    have hd := Delivered.congr h.delivered (Dev.onlyTile_setTile d t ((d.tile t).drainUnit e.acw k).1) (by simp) (by simp) (by simp)
    exact Delivered.snoc hd (by rwa [length_drained])
  constructor
  case stands =>
    have hsent : AcwStands (d₀.tile t) (e.after k 0).sentOne
        (((d'.tile t).modAcw e.id AcwEntry.sentOne).clearAfter e.acw (Acw.unitArr e.acw k) (Acw.unitRow e.acw k)) :=
      (Tile.clearAfter_acwQ ..).trans (hfirst.modAcw (f := AcwEntry.sentOne) rfl)
    have hnext : (e.after k 0).sentOne.next = e.after (k + 1) 0 := AcwEntry.after_next hi (b := e.after k 0) (by simp [AcwEntry.after, hi.1])
    rw [Dev.tile_setTile_self, ← hnext]
    exact hsent.modAcw (f := AcwEntry.next) rfl
  case arrs =>
    rw [Dev.tile_setTile_self, drained_succ]
    exact Tile.clearAfter_arrs ((harrs.trans h.arrs).trans (Tile.drainUnit_arrs ..).symm)
  case regs =>
    intro hc b hb
    have h2 : Acw.odst e.acw ≠ 2 := hc.resolve_right (Nat.succ_ne_zero k)
    rw [Dev.tile_setTile_self, drained_succ]
    have hplan := SameRegs.drainUnit (a := e.acw) (k := k) (h.regs (.inl h2)) h.arrs b hb
    have hsent := hs.reg h2 b hb
    rw [Dev.tile_setTile_self] at hsent
    simpa using hsent.trans hplan
  case delivered =>
    rw [drained_succ, ← h.bytes]
    exact Delivered.congr hdel (Dev.onlyTile_setTile ..) (by simp) (by simp) (by simp)
  case routes => exact hs.routes.trans h.routes
  case route =>
    have hroute := hs.route
    rw [Dev.tile_setTile_self, Tile.drainUnit_qc] at hroute
    simpa using hroute.trans h.route
  case serve =>
    intro h1 n hn
    have hs0 := ArrServes.congr (h.serve h1 (n + 1) (by omega)) (y := ((d.tile t).drainUnit e.acw k).1) (by simp) (by simp)
    have hs1 := ArrServes.written hs0 (ao k) ((d.tile t).drainUnit e.acw k).2
    have hw := hs.written h1
    rw [Dev.tile_setTile_self] at hw
    rw [← hw] at hs1
    simp only [← Nat.add_assoc, Nat.add_right_comm k _ 1] at hs1
    exact ArrServes.congr hs1 (by simp) (by simp)

end

/-- The units of a DRAIN. -/
theorem drain_plan {s : State} {t : Nat} {ao : Nat → Nat} {e : AcwEntry} (h : AcwAt s t kDRAIN e)
    (hheld : ∀ j ∈ Acw.arrays e.acw, ∀ i, i < Acw.rep e.acw → (s.dev.tile t).drainHeld e.id j (Acw.rowbase e.acw + i) = false)
    (hc : CanDeliver s.dev t e.acw (drained e.acw (s.dev.tile t) (Acw.total e.acw)).2 ao) :
    AcwPlan t s.dev e (fun k => e.after k 0) (drainUnit t) (DrainAfter t e ao s.dev) where
  id _ := rfl
  acw _ := rfl
  ags := rfl
  started _ := rfl
  prog _ := rfl
  stands _ _ hd := hd.stands
  start d ho hx := by
    refine .zero ?_ ho hx hc
    rw [hx]
    exact acwAt_start h
  unit k d hk hd := by
    obtain ⟨-, hkind, -⟩ := acwAt_spec h
    obtain ⟨d', ho, hs⟩ := hd.takes hk hc
    rw [Acw.total_of_drain hkind] at hk
    obtain ⟨hj, hrow⟩ := Acw.unit_mem hk
    have hfree : (d.tile t).drainHeld e.id (Acw.unitArr e.acw k) (Acw.unitRow e.acw k) = false :=
      (hd.stands.drainHeld _ _).trans (hheld _ hj _ hrow)
    exact ⟨_, drainUnit_of_sent (e := e.after k 0) hfree ho, by simpa [Dev.modTile] using hd.next (acwAt_idle h) hs⟩

theorem drain_completes {s : State} {t : Nat} {ao : Nat → Nat} {e : AcwEntry} (h : AcwAt s t kDRAIN e)
    (hheld : ∀ j ∈ Acw.arrays e.acw, ∀ i, i < Acw.rep e.acw → (s.dev.tile t).drainHeld e.id j (Acw.rowbase e.acw + i) = false)
    (hc : CanDeliver s.dev t e.acw (drained e.acw (s.dev.tile t) (Acw.total e.acw)).2 ao) :
    Completes (.drain t) s fun d' => AcwComplete t e d' ∧ Delivered t e (drained e.acw (s.dev.tile t) (Acw.total e.acw)).2 ao s.dev d' ∧
      (d'.tile t).arrs = (drained e.acw (s.dev.tile t) (Acw.total e.acw)).1.arrs ∧
      (Acw.odst e.acw ≠ 2 ∨ (drained e.acw (s.dev.tile t) (Acw.total e.acw)).2 = [] →
        SameRegs (d'.tile t) (drained e.acw (s.dev.tile t) (Acw.total e.acw)).1) := by
  obtain ⟨d, hd, d', hex, rfl, hac⟩ := completes_of_plan (exec_drain h.1) h (drain_plan h hheld hc)
  refine ⟨_, hex, hac, Delivered.congr hd.delivered (Dev.onlyTile_setTile ..) (by simp) (by simp) (by simp), ?_, fun hr b hb => ?_⟩
  · rw [Dev.tile_setTile_self, Tile.acwDone_arrs]
    exact hd.arrs
  · rw [Dev.tile_setTile_self, Tile.acwDone_reg]
    refine hd.regs (hr.imp_right fun hnil => ?_) b hb
    have hlen := length_drained (a := e.acw) (x := s.dev.tile t) (k := Acw.total e.acw)
    rwa [hnil, List.length_nil, eq_comm] at hlen

end Sys2Proof.Machine

/-! ### XADD -/

namespace Sys2Proof.Machine

open Sys2Proof Sys2Proof.Claims

/-- Row `row` of an array that held `z`, once the block `bs` is added: cleared first under ACCOP 1 or 3 (R72). -/
def Arr.xadd (z : Arr) (a : Acw) (ok : Bool) (row : Nat) (bs : List Byte) : ArrF :=
  ArrF.addBlock (if a.accop % 2 = 1 then z.clearRow row 0xFFFFFFFF a.wb false else z, 0) row (Xps.parse bs) ok a.wb

/-- Flags of adds go into ARR_FLAGS; they may raise a cause and mark the run. -/
theorem Tile.arrFlag_frame (x : Tile) (j : Nat) (f : BitVec 5) :
    ∃ sc w, x.arrFlag j f = { x.setReg Reg.ARR_FLAGS (arrFlagsAfter (x.reg Reg.ARR_FLAGS) j f) with scb := sc, exWindow := w } := by
  obtain ⟨sc, h⟩ := x.arrNote_frame j f
  exact ⟨sc, _, by rw [Tile.arrFlag, h]⟩

theorem SameRegs.arrFlag {y z : Tile} (h : SameRegs y z) (j : Nat) (f : BitVec 5) : SameRegs (y.arrFlag j f) (z.arrFlag j f) :=
  h.arrNote j f

section

variable {a : Acw} {ok : Bool} {block : Nat → List Byte} {x y z : Tile} {k : Nat}

theorem xaddNext_eq : xaddNext a ok block x k =
    (x.setArr (a.unitArr k) ((x.arr (a.unitArr k)).xadd a ok (a.unitRow k) (block k)).1).arrFlag (a.unitArr k)
      ((x.arr (a.unitArr k)).xadd a ok (a.unitRow k) (block k)).2 := rfl

/-- What a unit of an XADD leaves as it was. -/
theorem xaddNext_keeps {α : Type} (F : Tile → α) (hF : ∀ x as rg sc w, F { x with arrs := as, regs := rg, scb := sc, exWindow := w } = F x) :
    F (xaddNext a ok block x k) = F x := by
  rw [xaddNext_eq]
  generalize (x.arr (a.unitArr k)).xadd a ok (a.unitRow k) (block k) = r
  obtain ⟨sc, w, h⟩ := (x.setArr (a.unitArr k) r.1).arrFlag_frame (a.unitArr k) r.2
  rw [h]
  exact hF x _ _ sc w

@[simp] theorem xaddNext_acwQ : (xaddNext a ok block x k).acwQ = x.acwQ := xaddNext_keeps Tile.acwQ fun _ _ _ _ _ => rfl
@[simp] theorem xaddNext_spad : (xaddNext a ok block x k).spad = x.spad := xaddNext_keeps Tile.spad fun _ _ _ _ _ => rfl
@[simp] theorem xaddNext_parInv : (xaddNext a ok block x k).parInv = x.parInv := xaddNext_keeps Tile.parInv fun _ _ _ _ _ => rfl
@[simp] theorem xaddNext_ag (n : Nat) : (xaddNext a ok block x k).ag n = x.ag n := xaddNext_keeps (Tile.ag · n) fun _ _ _ _ _ => rfl
@[simp] theorem xaddNext_qc (n : Nat) : (xaddNext a ok block x k).qc n = x.qc n := xaddNext_keeps (Tile.qc · n) fun _ _ _ _ _ => rfl

theorem xaddNext_arrs (h : y.arrs = z.arrs) : (xaddNext a ok block y k).arrs = (xaddNext a ok block z k).arrs := by
  have hj : y.arr (a.unitArr k) = z.arr (a.unitArr k) := by rw [Tile.arr, h]; rfl
  rw [xaddNext_eq, xaddNext_eq, hj]
  generalize (z.arr (a.unitArr k)).xadd a ok (a.unitRow k) (block k) = r
  obtain ⟨sy, wy, hy⟩ := (y.setArr (a.unitArr k) r.1).arrFlag_frame (a.unitArr k) r.2
  obtain ⟨sz, wz, hz⟩ := (z.setArr (a.unitArr k) r.1).arrFlag_frame (a.unitArr k) r.2
  rw [hy, hz]
  exact congrArg (fun as => SMap.set (fun _ => Arr.reset) as (a.unitArr k) r.1) h

theorem SameRegs.xaddNext (hr : SameRegs y z) (h : y.arrs = z.arrs) : SameRegs (xaddNext a ok block y k) (xaddNext a ok block z k) := by
  have hj : y.arr (a.unitArr k) = z.arr (a.unitArr k) := by rw [Tile.arr, h]; rfl
  rw [xaddNext_eq, xaddNext_eq, hj]
  exact SameRegs.arrFlag (y := y.setArr _ _) (z := z.setArr _ _) hr _ _

/-- The tile after `k` units of an XADD. -/
def xadded (a : Acw) (block : Nat → List Byte) (x : Tile) (k : Nat) : Tile := (List.range k).foldl (xaddNext a true block) x

theorem xadded_succ : xadded a block x (k + 1) = xaddNext a true block (xadded a block x k) k := by
  rw [xadded, List.range_succ, List.foldl_append]
  rfl

end

/-- One unit of an XADD. -/
def xaddUnit (t : Nat) (d : Dev) (e : AcwEntry) : Dev × Bool :=
  if (d.tile t).addHeld e.id (Acw.unitArr e.acw e.prog) (Acw.unitRow e.acw e.prog) then (d, false)
  else match d.xpsUnit t e with
  | (d, none) => (d, false)
  | (d, some (bs, ok)) => (d.modTile t fun x => xaddNext e.acw ok (fun _ => bs) x e.prog, true)

theorem exec_xadd_none {s : State} {t : Nat} (ht : t < Config.nTiles) :
    exec (.acwXadd t Upset.none) s = .next ⟨s.dev.acwRun t kXADD (xaddUnit t), s.pending⟩ :=
  onUnit_of_lt s _ ht

theorem xaddUnit_of_block {t : Nat} {d d' : Dev} {e : AcwEntry} {bs : List Byte} {ok : Bool}
    (hh : (d.tile t).addHeld e.id (Acw.unitArr e.acw e.prog) (Acw.unitRow e.acw e.prog) = false) (hb : d.xpsUnit t e = (d', some (bs, ok))) :
    xaddUnit t d e = (d'.modTile t fun x => xaddNext e.acw ok (fun _ => bs) x e.prog, true) := by
  simp [xaddUnit, hh, hb]

theorem Acw.total_of_xadd {a : Acw} (h : a.kind = kXADD) : a.total = a.rep * a.na := by simp [Acw.total, h]

/-! #### Blocks from the scratchpad -/

/-- Block `u` of an XADD whose blocks lie at `v` of memory `mem`. -/
def blockAt (mem : Memory) (v : Nat → Nat) (u : Nat) : List Byte := mem.readN (v u) 528

/-- The tile `y` after `k` units of the XADD `e`, which met `x` and reads at `v`. -/
structure XaddAfter (x : Tile) (e : AcwEntry) (v : Nat → Nat) (k : Nat) (y : Tile) : Prop where
  stands : AcwStands x (e.after k 0) y
  spad : y.spad = x.spad
  arrs : y.arrs = (xadded e.acw (blockAt x.spad v) x k).arrs
  regs : SameRegs y (xadded e.acw (blockAt x.spad v) x k)
  serve : ∀ n, k + (n + 1) = Acw.total e.acw → ArrServes y (Acw.aga e.acw) (n + 1) (fun _ => 528) fun i => v (k + i)

section

variable {x y : Tile} {e : AcwEntry} {v : Nat → Nat} {k : Nat}

theorem Tile.arrive_arrs (x : Tile) (id g : Nat) (bs : List Byte) : (x.arrive id g bs).arrs = x.arrs := x.agEmit_arrs g

theorem Tile.arrive_sameRegs (x : Tile) (id g : Nat) (bs : List Byte) : SameRegs (x.arrive id g bs) x := fun _ hb => x.reg_agEmit g hb

/-- The tile once unit `k` has added its block. -/
def Tile.blockAdded (y : Tile) (e : AcwEntry) (i k : Nat) : Tile :=
  xaddNext e.acw true (fun _ => y.spad.readN i 528) (y.arrive e.id (Acw.aga e.acw) (y.spad.readN i 528)) k

theorem XaddAfter.next (h : XaddAfter x e v k y) (hi : e.Idle) :
    XaddAfter x e v (k + 1) ((y.blockAdded e (v k) k).modAcw e.id AcwEntry.next) where
  stands := by
    have ha : AcwStands x ((e.after k 0).arrived [y.spad.readN (v k) 528]) (y.blockAdded e (v k) k) :=
      xaddNext_acwQ.trans (h.stands.arrive _ _)
    have hnext : ((e.after k 0).arrived [y.spad.readN (v k) 528]).next = e.after (k + 1) 0 :=
      AcwEntry.after_next hi (by simp [AcwEntry.arrived, AcwEntry.after, hi.1])
    exact hnext ▸ ha.modAcw (f := AcwEntry.next) rfl
  spad := by simp [Tile.blockAdded, h.spad]
  arrs := by
    rw [Tile.modAcw_arrs, xadded_succ, Tile.blockAdded, h.spad]
    exact xaddNext_arrs ((Tile.arrive_arrs ..).trans h.arrs)
  regs := by
    rw [xadded_succ]
    have hr := SameRegs.trans (Tile.arrive_sameRegs y e.id (Acw.aga e.acw) (y.spad.readN (v k) 528)) h.regs
    have hn := hr.xaddNext (a := e.acw) (ok := true) (block := blockAt x.spad v) (k := k) ((Tile.arrive_arrs ..).trans h.arrs)
    rw [Tile.blockAdded, h.spad] at *
    exact hn
  serve n hn := by
    have hs := ArrServes.rest (h.serve (n + 1) (by omega)) (y := (y.blockAdded e (v k) k).modAcw e.id AcwEntry.next)
      (by simp [Tile.blockAdded, Tile.arrive]) (by simp [Tile.blockAdded]) (by simp [Tile.blockAdded])
    simpa only [← Nat.add_assoc, Nat.add_right_comm k _ 1] using hs

end

theorem Dev.xpsUnit_of_serves {d : Dev} {t i : Nat} {e : AcwEntry} (he : (d.tile t).acwOf e.id = some e) (hg : e.got = []) (ha : Acw.asrc e.acw ≠ 1)
    (hs : ArrServes (d.tile t) (Acw.aga e.acw) 1 (fun _ => 528) fun _ => i) :
    d.xpsUnit t e = (d.setTile t ((d.tile t).arrive e.id (Acw.aga e.acw) ((d.tile t).spad.readN i 528)), some ((d.tile t).spad.readN i 528, true)) := by
  obtain ⟨hag, hal⟩ := hs
  have ho := Dev.operand_of_serves (k := 0) he (congrArg List.length hg) hag (array := true) fun _ => hal 0 Nat.one_pos
  simp [Dev.xpsUnit, ha, ho]

/-- The units of an XADD whose blocks lie in the scratchpad. -/
theorem xadd_units {s : State} {t : Nat} {v : Nat → Nat} {e : AcwEntry} (h : AcwAt s t kXADD e) (ha : Acw.asrc e.acw ≠ 1)
    (hs : ArrServes (s.dev.tile t) (Acw.aga e.acw) (Acw.rep e.acw * Acw.na e.acw) (fun _ => 528) v)
    (hheld : ∀ j ∈ Acw.arrays e.acw, ∀ i, i < Acw.rep e.acw → (s.dev.tile t).addHeld e.id j (Acw.rowbase e.acw + i) = false) :
    AcwUnits t (s.dev.tile t) e (fun _ => 0) (xaddUnit t) (XaddAfter (s.dev.tile t) e v) where
  stands _ _ hy := hy.stands
  start := by
    obtain ⟨-, hkind, -⟩ := acwAt_spec h
    refine ⟨acwAt_start h, rfl, rfl, fun _ _ => rfl, fun n hn => ?_⟩
    rw [Acw.total_of_xadd hkind, Nat.zero_add] at hn
    simp only [Nat.zero_add, hn]
    exact hs
  unit k d hk hd := by
    obtain ⟨-, hkind, -⟩ := acwAt_spec h
    obtain ⟨n, hn⟩ : ∃ n, k + (n + 1) = Acw.total e.acw := ⟨Acw.total e.acw - k - 1, by omega⟩
    rw [Acw.total_of_xadd hkind] at hk
    obtain ⟨hj, hrow⟩ := Acw.unit_mem hk
    have hm := acwAt_mem h
    have hi := acwAt_idle h
    have hfree : (d.tile t).addHeld e.id (Acw.unitArr e.acw k) (Acw.unitRow e.acw k) = false :=
      (hd.stands.addHeld _ _).trans (hheld _ hj _ hrow)
    have hb := Dev.xpsUnit_of_serves (e := e.after k 0) (hd.stands.acwOf hm) hi.1 ha (ArrServes.first (hd.serve n hn))
    refine ⟨_, (xaddUnit_of_block (e := e.after k 0) hfree hb).trans ?_, hd.next hi⟩
    simp [Dev.modTile, Tile.blockAdded]

theorem xadd_completes {s : State} {t : Nat} {v : Nat → Nat} {e : AcwEntry} (h : AcwAt s t kXADD e) (ha : Acw.asrc e.acw ≠ 1)
    (hs : ArrServes (s.dev.tile t) (Acw.aga e.acw) (Acw.rep e.acw * Acw.na e.acw) (fun _ => 528) v)
    (hheld : ∀ j ∈ Acw.arrays e.acw, ∀ i, i < Acw.rep e.acw → (s.dev.tile t).addHeld e.id j (Acw.rowbase e.acw + i) = false) :
    Completes (.acwXadd t Upset.none) s fun d' => OnlyTile t s.dev d' ∧ AcwComplete t e d' ∧
      (d'.tile t).arrs = (xadded e.acw (blockAt (s.dev.tile t).spad v) (s.dev.tile t) (Acw.rep e.acw * Acw.na e.acw)).arrs ∧
      (d'.tile t).spad = (s.dev.tile t).spad ∧
      SameRegs (d'.tile t) (xadded e.acw (blockAt (s.dev.tile t).spad v) (s.dev.tile t) (Acw.rep e.acw * Acw.na e.acw)) := by
  have hu := xadd_units h ha hs hheld
  obtain ⟨-, hkind, -⟩ := acwAt_spec h
  obtain ⟨y, hy, hr⟩ := acwRun_of_units h hu
  have hdone := hu.acwDone (acwAt_mem h) hy
  rw [Acw.total_of_xadd hkind] at hy
  refine ⟨_, by rw [exec_xadd_none h.1, hr], Dev.onlyTile_setTile .., ?_, ?_, ?_, fun b hb => ?_⟩
  · exact AcwStands.acwComplete (b := e.after _ 0) (by simpa using hdone) (acwAt_mem h) rfl rfl rfl
  · rw [Dev.tile_setTile_self, Tile.acwDone_arrs]
    exact hy.arrs
  · rw [Dev.tile_setTile_self, Tile.acwDone_spad]
    exact hy.spad
  · rw [Dev.tile_setTile_self, Tile.acwDone_reg]
    exact hy.regs b hb

/-! #### A block from a queue item -/

theorem Tile.putQc_modAcw (x : Tile) (id : Nat) (f : AcwEntry → AcwEntry) (n : Nat) (q : QCtx) :
    (x.modAcw id f).putQc n q = (x.putQc n q).modAcw id f := by
  unfold Tile.putQc
  dsimp only
  rw [Tile.modAcw_qc]
  split <;> rfl

/-- A tile that may have counted a change of source (06 R149). -/
def Tile.tdcIf (x : Tile) (b : Bool) : Tile := if b = true then x.count Reg.SPAD_TDC 1 else x

theorem Tile.tdcIf_stepNo (x : Tile) (b : Bool) : (x.tdcIf b).stepNo = x.stepNo := by
  cases b
  · rfl
  · have h : (x.count Reg.SPAD_TDC 1).reg Reg.SCB_STEP = x.reg Reg.SCB_STEP := Tile.reg_modReg_ne _ _ _ (by decide)
    exact congrArg BitVec.toNat h

theorem Tile.tdcIf_modAcw (x : Tile) (b : Bool) (id : Nat) (f : AcwEntry → AcwEntry) : (x.modAcw id f).tdcIf b = (x.tdcIf b).modAcw id f := by
  cases b <;> rfl

/-- The context of a taken item `i` at step `k` (06 R149). -/
def QCtx.afterTake (q : QCtx) (i : RxItem) (k : Nat) : QCtx :=
  let q := { q with w1 := setFld q.w1 0 18 (q.wrap (fld q.w1 0 18) i.words), last := some (i.srcdev, i.srctile, k) }
  if q.retain then { q with taken := q.taken + 1 } else { q with items := q.items.drop 1 }

/-- The source of the head item is not that of the item before it, in the same step and under ANYORDER (06 R149). -/
def QCtx.tdc (q : QCtx) (i : RxItem) (k : Nat) : Bool :=
  q.anyOrder && match q.last with
    | some (sd, st, n) => decide (n = k) && decide ((sd, st) ≠ (i.srcdev, i.srctile))
    | none => false

theorem Tile.qTake_eq (x : Tile) (n : Nat) : x.qTake n =
    match (x.qc n).head? with
    | none => none
    | some i =>
      if (x.qc n).rx ∧ i.arrived = i.words then
        some (i, (x.tdcIf ((x.qc n).tdc i x.stepNo)).putQc n ((x.qc n).afterTake i x.stepNo))
      else none := by
  have h : x.qTake n =
      match (x.qc n).head? with
      | none => none
      | some i =>
        if (x.qc n).rx ∧ i.arrived = i.words then
          some (i, (x.tdcIf ((x.qc n).tdc i x.stepNo)).putQc n ((x.qc n).afterTake i (x.tdcIf ((x.qc n).tdc i x.stepNo)).stepNo))
        else none := rfl
  simp only [h, Tile.tdcIf_stepNo]

/-- What an item that is taken leaves in its tile. -/
theorem Tile.qTake_some {x y : Tile} {n : Nat} {it : RxItem} : x.qTake n = some (it, y) ↔
    (x.qc n).head? = some it ∧ ((x.qc n).rx ∧ it.arrived = it.words) ∧
      y = (x.tdcIf ((x.qc n).tdc it x.stepNo)).putQc n ((x.qc n).afterTake it x.stepNo) := by
  rw [Tile.qTake_eq]
  cases (x.qc n).head? with
  | none => simp
  | some i =>
    by_cases hc : (x.qc n).rx ∧ i.arrived = i.words
    · dsimp only
      rw [if_pos hc, Option.some.injEq, Prod.mk.injEq, Option.some.injEq]
      constructor
      · rintro ⟨rfl, rfl⟩
        exact ⟨rfl, hc, rfl⟩
      · rintro ⟨rfl, -, rfl⟩
        exact ⟨rfl, rfl⟩
    · dsimp only
      rw [if_neg hc, Option.some.injEq]
      constructor
      · exact nofun
      · rintro ⟨rfl, hc', -⟩
        exact absurd hc' hc

/-- What a taken item leaves as it was. -/
theorem Tile.qTake_keeps {α : Type} (F : Tile → α) (hR : ∀ x a f, F (Tile.modReg x a f) = F x) (hQ : ∀ x n q, F (Tile.setQc x n q) = F x)
    {x y : Tile} {n : Nat} {it : RxItem} (h : x.qTake n = some (it, y)) : F y = F x := by
  obtain ⟨-, -, rfl⟩ := Tile.qTake_some.mp h
  have hput : ∀ (z : Tile) (q : QCtx), F (z.putQc n q) = F z := fun z q => by
    unfold Tile.putQc
    dsimp only
    split
    · exact (hR ..).trans (hQ ..)
    · exact hQ ..
  rw [hput]
  cases (x.qc n).tdc it x.stepNo
  · rfl
  · exact hR x Reg.SPAD_TDC fun v => addCnt v 0 64 1

/-- No change of an ACW concerns the queues. -/
theorem Tile.qTake_modAcw {x y : Tile} {n : Nat} {it : RxItem} (h : x.qTake n = some (it, y)) (id : Nat) (f : AcwEntry → AcwEntry) :
    (x.modAcw id f).qTake n = some (it, y.modAcw id f) := by
  obtain ⟨hh, hc, rfl⟩ := Tile.qTake_some.mp h
  refine Tile.qTake_some.mpr ⟨hh, hc, ?_⟩
  rw [← Tile.putQc_modAcw, ← Tile.tdcIf_modAcw]
  rfl

/-- Reads of a tile whose words hold their parity bits find no error. -/
theorem Dev.spadChecks_itemReads {d : Dev} {t : Nat} (h : (d.tile t).parInv = []) (q : QCtx) (it : RxItem) :
    Dev.spadChecks (itemReads t q it) d = (d, false) := by
  have hl : ∀ l : List Nat, Dev.spadChecks (l.map fun k => (t, q.addr (it.start + k), 16)) d = (d, false) := fun l => by
    induction l with
    | nil => rfl
    | cons k l ih => simp [Dev.spadChecks, Dev.spadCheck_of_good h, ih]
  exact hl _

/-- The entry once `size` bytes of the payload `bs` of an item have been used. -/
def AcwEntry.leftover (e : AcwEntry) (rest : List Byte) (trunc : Bool) : AcwEntry := { e with item := rest, itemTrunc := trunc }

/-- A unit of an item that is taken. -/
theorem Dev.itemUnit_of_take {d : Dev} {t : Nat} {e : AcwEntry} {it : RxItem} {y : Tile} {bs : List Byte} (size : Nat) (he : e.item = [])
    (hq : (d.tile t).qTake (Acw.qid e.acw) = some (it, y)) (hp : y.parInv = [])
    (hb : (d.tile t).payload ((d.tile t).qc (Acw.qid e.acw)) it = bs) :
    d.itemUnit t e size = (d.setTile t (y.modAcw e.id fun b => b.leftover (bs.drop size) it.trunc),
      some (slice bs 0 size, it.trunc || decide (bs.length < size))) := by
  have hc : Dev.spadChecks (itemReads t ((d.tile t).qc (Acw.qid e.acw)) it) (d.setTile t y) = (d.setTile t y, false) :=
    Dev.spadChecks_itemReads (by rw [Dev.tile_setTile_self, hp]) _ _
  simp [Dev.itemUnit, he, hq, hc, hb, Dev.modTile, AcwEntry.leftover]

/-- The tile once the block of the item `it`, which left `y`, is added. -/
def Tile.itemAdded (y : Tile) (e : AcwEntry) (it : RxItem) (bs : List Byte) : Tile :=
  xaddNext e.acw (!(it.trunc || decide (bs.length < 528))) (fun _ => slice bs 0 528)
    ((y.acwStart e.id).modAcw e.id fun b => b.leftover (bs.drop 528) it.trunc) 0

/-- The entry of an XADD of one block from an item, after `k` units. -/
def AcwEntry.itemAfter (e : AcwEntry) (it : RxItem) (bs : List Byte) : Nat → AcwEntry
  | 0 => e.after 0 0
  | k + 1 => (e.after (k + 1) 0).leftover (bs.drop 528) it.trunc

/-- The device after `k` units of that XADD, which met `d₀`. -/
def ItemAfter (t : Nat) (e : AcwEntry) (it : RxItem) (y : Tile) (bs : List Byte) (d₀ : Dev) (k : Nat) (d : Dev) : Prop :=
  OnlyTile t d₀ d ∧ match k with
    | 0 => d.tile t = (d₀.tile t).acwStart e.id
    | 1 => d.tile t = (y.itemAdded e it bs).modAcw e.id AcwEntry.next
    | _ + 2 => False

/-- The XADD `e` that tile `t` finds adds one block, from the head item `it` of payload `bs`; `y` is the tile that
has taken the item. -/
structure XaddOfItem (s : State) (t : Nat) (e : AcwEntry) (it : RxItem) (y : Tile) (bs : List Byte) : Prop where
  acwAt : AcwAt s t kXADD e
  asrc : Acw.asrc e.acw = 1
  total : Acw.total e.acw = 1
  item : e.item = []
  take : (s.dev.tile t).qTake (Acw.qid e.acw) = some (it, y)
  bytes : (s.dev.tile t).payload ((s.dev.tile t).qc (Acw.qid e.acw)) it = bs
  parInv : (s.dev.tile t).parInv = []
  free : (s.dev.tile t).addHeld e.id (Acw.unitArr e.acw 0) (Acw.unitRow e.acw 0) = false

/-- The one unit of an XADD of one block from an item. -/
theorem xadd_item_plan {s : State} {t : Nat} {e : AcwEntry} {it : RxItem} {y : Tile} {bs : List Byte} (h : XaddOfItem s t e it y bs) :
    AcwPlan t s.dev e (e.itemAfter it bs) (xaddUnit t) (ItemAfter t e it y bs s.dev) where
  id k := by cases k <;> rfl
  acw k := by cases k <;> rfl
  ags := rfl
  started k := by cases k <;> rfl
  prog k := by cases k <;> rfl
  stands k d hd := by
    obtain ⟨-, hx⟩ := hd
    match k with
    | 0 =>
      rw [hx]
      exact acwAt_start h.acwAt
    | 1 =>
      have hy : AcwStands (s.dev.tile t) (e.after 0 0) (y.acwStart e.id) := by
        rw [AcwStands, Tile.acwStart, Tile.modAcw, Tile.qTake_keeps Tile.acwQ (fun _ _ _ => rfl) (fun _ _ _ => rfl) h.take]
        exact acwAt_start h.acwAt
      have hl := hy.modAcw (f := fun b => b.leftover (bs.drop 528) it.trunc) rfl
      have hz : AcwStands (s.dev.tile t) ((e.after 0 0).leftover (bs.drop 528) it.trunc) (y.itemAdded e it bs) := xaddNext_acwQ.trans hl
      have hnext : ((e.after 0 0).leftover (bs.drop 528) it.trunc).next = e.itemAfter it bs 1 := by
        obtain ⟨hg, had, hse⟩ := acwAt_idle h.acwAt
        simp [AcwEntry.next, AcwEntry.leftover, AcwEntry.after, AcwEntry.itemAfter, hg, had, hse]
      rw [hx, ← hnext]
      exact hz.modAcw (f := AcwEntry.next) rfl
  start d ho hx := ⟨ho, hx⟩
  unit k d hk hd := by
    rw [h.total] at hk
    obtain rfl : k = 0 := by omega
    obtain ⟨ho, hx⟩ := hd
    have hfree : (d.tile t).addHeld e.id (Acw.unitArr e.acw 0) (Acw.unitRow e.acw 0) = false := by
      rw [hx]
      exact ((acwAt_start h.acwAt).addHeld _ _).trans h.free
    have hpar : (y.acwStart e.id).parInv = [] := (Tile.qTake_keeps Tile.parInv (fun _ _ _ => rfl) (fun _ _ _ => rfl) h.take).trans h.parInv
    have htake : (d.tile t).qTake (Acw.qid (e.after 0 0).acw) = some (it, y.acwStart e.id) := by
      rw [hx]
      exact Tile.qTake_modAcw h.take _ _
    have hunit := Dev.itemUnit_of_take (e := e.after 0 0) 528 h.item htake hpar (bs := bs)
      (by rw [hx]; exact h.bytes)
    have hblock : d.xpsUnit t (e.after 0 0) = (d.setTile t ((y.acwStart e.id).modAcw e.id fun b => b.leftover (bs.drop 528) it.trunc),
        some (slice bs 0 528, !(it.trunc || decide (bs.length < 528)))) := by
      rw [Dev.xpsUnit, if_pos (by exact h.asrc), hunit]
      rfl
    refine ⟨_, xaddUnit_of_block (e := e.after 0 0) hfree hblock, ?_, ?_⟩
    · exact OnlyTile.setTile (OnlyTile.setTile (OnlyTile.setTile ho _) _) _
    · simp [Tile.itemAdded]

theorem xadd_item_completes {s : State} {t : Nat} {e : AcwEntry} {it : RxItem} {y : Tile} {bs : List Byte} (h : XaddOfItem s t e it y bs) :
    Completes (.acwXadd t Upset.none) s fun d' => OnlyTile t s.dev d' ∧ AcwComplete t e d' ∧ (d'.tile t).qc (Acw.qid e.acw) = y.qc (Acw.qid e.acw) ∧
      (d'.tile t).arrs = (xaddNext e.acw (!(it.trunc || decide (bs.length < 528))) (fun _ => slice bs 0 528) y 0).arrs := by
  obtain ⟨ht, -⟩ := h.acwAt
  obtain ⟨d, hd, d', hex, rfl, hac⟩ := completes_of_plan (exec_xadd_none ht) h.acwAt (xadd_item_plan h)
  rw [h.total] at hd
  obtain ⟨ho, hx⟩ := hd
  refine ⟨_, hex, OnlyTile.setTile ho _, hac, ?_, ?_⟩
  · rw [Dev.tile_setTile_self, Tile.acwDone_qc, hx, Tile.modAcw_qc, Tile.itemAdded, xaddNext_qc]
    rfl
  · rw [Dev.tile_setTile_self, Tile.acwDone_arrs, hx, Tile.modAcw_arrs, Tile.itemAdded]
    exact xaddNext_arrs rfl

/-- Settles O21: DRAIN and XADD go unit by unit (`DrainAfter`, `XaddAfter`), each output through `OutSent`; an item serves one unit. The path and
base of a cleared row (log 24), the block of an XPS drain (logs 83, 84), blocks for rows on the FP32 path (log 85), an XADD that never drains (log 88)
and the store that the AG's SPACE names (log 89) are the model's choices. -/
theorem arrayDrainAndXadd : Obligations.ArrayDrainAndXadd := by
  refine ⟨fun s t ao e h => ?drain, fun s t v e h => ?xadd, fun s t e it y h => ?item⟩
  case drain =>
    obtain ⟨-, hkind, -⟩ := acwAt_spec h
    intro a x r hheld hc
    have hr : r = drained a x (Acw.total e.acw) := by rw [Acw.total_of_drain hkind]; rfl
    rw [hr] at hc ⊢
    exact drain_completes h hheld hc
  case xadd =>
    intro a x n y ha hs hheld
    have ha1 : a.asrc ≠ 1 := by omega
    exact xadd_completes h ha1 hs hheld
  case item =>
    intro a x bs ha hn hi hq hp hheld
    obtain ⟨-, hkind, -⟩ := acwAt_spec h
    refine xadd_item_completes ⟨h, ha, (Acw.total_of_xadd hkind).trans hn, hi, hq, rfl, hp, ?_⟩
    rw [Acw.unitArr, Acw.unitRow, Nat.zero_mod, Nat.zero_div]
    exact hheld

end Sys2Proof.Machine

/-! ## The Scarab

Proofs of the statements of 04 (O5 to O15). The layer first: what a Scarab that may issue is like, and one rule for each way an instruction ends
(`Wrote`, `Went`, `Trapped`, `Waits`). Every instruction then cites the rule of its branch. -/

/-! ### The ways an instruction ends -/

namespace Sys2Proof.Machine

open Sys2Proof Sys2Proof.Claims

theorem Tile.mayRun_iff (x : Tile) :
    x.mayRun = true ↔ x.scb.mode = .run ∧ x.scb.haltReq = false ∧ x.scb.takeable = false ∧ x.stopped = false := by
  simp [Tile.mayRun, and_assoc]

theorem Tile.canIssue_iff (x : Tile) : x.canIssue = true ↔ x.mayRun = true ∧ x.scb.stall = .none := by simp [Tile.canIssue]

theorem stall_of_scbReady {s : State} {t : Nat} (h : ScbReady s t) : (s.dev.tile t).scb.stall = .none := by
  obtain ⟨-, hc, -⟩ := h
  exact ((Tile.canIssue_iff _).mp hc).2

theorem haltReq_of_scbReady {s : State} {t : Nat} (h : ScbReady s t) : (s.dev.tile t).scb.haltReq = false := by
  obtain ⟨-, hc, -⟩ := h
  obtain ⟨-, hh, -⟩ := (Tile.mayRun_iff _).mp ((Tile.canIssue_iff _).mp hc).1
  exact hh

@[simp] theorem Tile.setGr_scb_stall (x : Tile) (rd : R5) (v : W32) : (x.setGr rd v).scb.stall = x.scb.stall := by
  obtain ⟨g, h⟩ := x.setGr_frame rd v
  rw [h]

/-- An instruction of a Scarab that is ready completes with what its meaning does to the device. -/
theorem completes_of_ready {c : Instr} {s : State} {t : Nat} {f : Dev → Dev} {d' : Dev} {P : Dev → Prop} (h : ScbReady s t)
    (hx : exec c s = onScb t s f) (hf : f s.dev = d') (hP : P d') : Completes c s P := ⟨d', hx.trans (hf ▸ onScb_of_ready f h), hP⟩

/-- A command of a tile completes with what its meaning does to the device. -/
theorem completes_of_tile {c : Instr} {s : State} {t : Nat} {f : Dev → Dev} {d' : Dev} {P : Dev → Prop} (ht : t < Config.nTiles)
    (hx : exec c s = onTile t s f) (hf : f s.dev = d') (hP : P d') : Completes c s P := ⟨d', hx.trans (hf ▸ onUnit_of_lt s f ht), hP⟩

/-- A change of one tile, as a device before and after it. -/
theorem onlyTile_setTile_and_tile (d : Dev) (t : Nat) (x : Tile) : OnlyTile t d (d.setTile t x) ∧ (d.setTile t x).tile t = x :=
  ⟨Dev.onlyTile_setTile .., Dev.tile_setTile_self ..⟩

/-- A Scarab that waits for nothing has no wait to give up. -/
theorem Scarab.with_pc_of_stall {b : Scarab} (h : b.stall = .none) (pc : W32) :
    ({ b with pc := pc, stall := .none } : Scarab) = { b with pc := pc } := by
  obtain ⟨g, pc₀, mode, inTrap, haltReq, fresh, pend, sbuf, stall, wdogNs⟩ := b
  cases h
  rfl

section

variable {s : State} {t : Nat} (h : ScbReady s t)

include h

/-- An instruction that goes on in sequence changes the PC alone. -/
theorem scbNext_of_ready : s.dev.scbNext t = s.dev.setTile t { s.dev.tile t with scb := { (s.dev.tile t).scb with pc := (s.dev.tile t).scb.pc + 4 } } := by
  rw [Dev.scbNext_eq _ _ (pc_lt_of_scbReady h), Scarab.with_pc_of_stall (stall_of_scbReady h)]

/-- The same after another change of the tile that leaves the PC and the wait as they were. -/
theorem scbNext_setTile_of_ready {x : Tile} (hpc : x.scb.pc = (s.dev.tile t).scb.pc) (hst : x.scb.stall = (s.dev.tile t).scb.stall) :
    (s.dev.setTile t x).scbNext t = s.dev.setTile t { x with scb := { x.scb with pc := (s.dev.tile t).scb.pc + 4 } } := by
  have hlt := pc_lt_of_scbReady h
  rw [Dev.scbNext_eq _ _ (by rwa [Dev.tile_setTile_self, hpc]), Dev.tile_setTile_self, Dev.setTile_setTile,
    Scarab.with_pc_of_stall (hst.trans (stall_of_scbReady h)), hpc]

theorem went_scbNext : Went t ((s.dev.tile t).scb.pc + 4) s.dev (s.dev.scbNext t) := by
  rw [scbNext_of_ready h]
  exact onlyTile_setTile_and_tile ..

theorem scbSet_of_ready (rd : R5) (v : W32) : s.dev.scbSet t rd v = s.dev.setTile t { (s.dev.tile t).setGr rd v with
    scb := { ((s.dev.tile t).setGr rd v).scb with pc := (s.dev.tile t).scb.pc + 4 } } :=
  scbNext_setTile_of_ready h (Tile.setGr_scb_pc ..) (Tile.setGr_scb_stall ..)

theorem wrote_scbSet (rd : R5) (v : W32) : Wrote t rd v s.dev (s.dev.scbSet t rd v) := by
  obtain ⟨g, hg⟩ := (s.dev.tile t).setGr_frame rd v
  have hgr := fun n => (s.dev.tile t).gr_setGr rd n v
  rw [scbSet_of_ready h]
  simp only [Wrote, OnlyScb, Dev.tile_setTile_self]
  refine ⟨Dev.onlyTile_setTile .., ?_, hgr, trivial, ?_⟩ <;> rw [hg]

theorem completes_wrote {c : Instr} {rd : R5} {v : W32} {f : Dev → Dev} (hx : exec c s = onScb t s f) (hf : f s.dev = s.dev.scbSet t rd v) :
    Completes c s (Wrote t rd v s.dev) := completes_of_ready h hx hf (wrote_scbSet h rd v)

theorem completes_went {c : Instr} {f : Dev → Dev} (hx : exec c s = onScb t s f) (hf : f s.dev = s.dev.scbNext t) :
    Completes c s (Went t ((s.dev.tile t).scb.pc + 4) s.dev) := completes_of_ready h hx hf (went_scbNext h)

end

/-- A trap outside a trap handler. -/
theorem trapped_scbTrap {d : Dev} {t : Nat} (code : Nat) (tval : W32) (hi : (d.tile t).scb.inTrap = false) :
    Trapped t code tval d (d.scbTrap t code tval) := by
  obtain ⟨regs, pc, hf⟩ := (d.tile t).trapTo_frame code tval
  obtain ⟨hin, hepc, hcause, hpc, hreg, hgr⟩ := (d.tile t).trapTo_spec code tval
  have hlt := fld_lt ((d.tile t).reg Reg.SCB_TVEC) 0 16
  rw [Dev.scbTrap_eq _ _ _ _ hi]
  simp only [Trapped, Dev.tile_setTile_self]
  refine ⟨Dev.onlyTile_setTile .., hepc, hcause, hin, ?_, hgr, fun a => ?_, ?_, fun a => ?_, hreg⟩
  · rw [hpc, BitVec.toNat_ofNat]
    omega
  all_goals rw [hf]

theorem completes_trapped {c : Instr} {s : State} {t code : Nat} {tval : W32} {f : Dev → Dev} (h : ScbReady s t)
    (hi : (s.dev.tile t).scb.inTrap = false) (hx : exec c s = onScb t s f) (hf : f s.dev = s.dev.scbTrap t code tval) :
    Completes c s (Trapped t code tval s.dev) := completes_of_ready h hx hf (trapped_scbTrap code tval hi)

theorem waits_scbStall (d : Dev) (t : Nat) (k : Stall) : Waits t k d (d.scbStall t k) :=
  onlyTile_setTile_and_tile ..

theorem completes_waits {c : Instr} {s : State} {t : Nat} {k : Stall} {f : Dev → Dev} (h : ScbReady s t) (hx : exec c s = onScb t s f)
    (hf : f s.dev = s.dev.scbStall t k) : Completes c s (Waits t k s.dev) := completes_of_ready h hx hf (waits_scbStall _ t k)

/-! ### Arithmetic (04 R79 to R82) -/

theorem fld_zero_eq {w : Nat} (v : BitVec w) (len : Nat) : fld v 0 len = v.toNat % 2 ^ len := by simp [fld]

theorem aluFn_of_unlisted {n : Nat} (a b : W32) (h : 0x0D < n) (hn : n ∉ [0x10, 0x11, 0x12, 0x14, 0x15, 0x16, 0x17]) : aluFn n a b = none := by
  unfold aluFn
  split <;> simp_all

/-- The quotient of the least integer by -1 is the one that does not fit; it wraps to the dividend (R82). -/
theorem divS_eq (a b : W32) : divS a b =
    if b = 0 then 0xFFFFFFFF else if a = 0x80000000 ∧ b = 0xFFFFFFFF then 0x80000000 else BitVec.ofInt 32 (a.toInt.tdiv b.toInt) := by
  unfold divS
  split
  · rfl
  · split
    case isTrue h =>
      obtain ⟨rfl, rfl⟩ := h
      decide
    case isFalse => rfl

theorem remS_eq (a b : W32) : remS a b =
    if b = 0 then a else if a = 0x80000000 ∧ b = 0xFFFFFFFF then 0 else BitVec.ofInt 32 (a.toInt.tmod b.toInt) := by
  unfold remS
  split
  · rfl
  · split
    case isTrue h =>
      obtain ⟨rfl, rfl⟩ := h
      decide
    case isFalse => rfl

theorem ofInt_toInt_mul (a b : W32) : BitVec.ofInt 32 (a.toInt * b.toInt) = a * b := by
  rw [BitVec.ofInt_mul, BitVec.ofInt_toInt, BitVec.ofInt_toInt]

theorem boolW_decide (p : Prop) [Decidable p] : boolW (decide p) = if p then 1 else 0 := by
  by_cases h : p <;> simp [boolW, h]

section

variable {s : State} {t : Nat} {rd rs1 rs2 fn : R5} {imm : I16}

/-- ALU with clear reserved bits writes the value of its function. -/
theorem alu_completes {v : W32} (h : ScbReady s t) (hv : aluFn fn.toNat ((s.dev.tile t).gr rs1) ((s.dev.tile t).gr rs2) = some v) :
    Completes (.alu t rd rs1 rs2 0 fn) s (Wrote t rd v s.dev) := by
  refine completes_wrote h rfl ?_
  simp only [hv, if_true]

theorem alu_traps {rsv : BitVec 6} (h : ScbReady s t) (hi : (s.dev.tile t).scb.inTrap = false)
    (hv : rsv ≠ 0 ∨ aluFn fn.toNat ((s.dev.tile t).gr rs1) ((s.dev.tile t).gr rs2) = none) :
    Completes (.alu t rd rs1 rs2 rsv fn) s (Trapped t 1 (wordR rd rs1 rs2 rsv fn) s.dev) := by
  refine completes_trapped h hi rfl ?_
  cases hf : aluFn fn.toNat ((s.dev.tile t).gr rs1) ((s.dev.tile t).gr rs2) with
  | none => rfl
  | some v =>
    have : rsv ≠ 0 := by simpa [hf] using hv
    simp only [this, if_false]
    rfl

end

/-- Settles O5: one row of Table 4.3 after the other is read off `aluFn`; an unlisted FN has no value there. -/
theorem scarabArithmeticWritesOnlyRd : Obligations.ScarabArithmeticWritesOnlyRd := by
  intro s t rd rs1 rs2 imm h a b alu
  have row (fn : R5) (v : W32) (hv : aluFn fn.toNat a b = some v) : alu fn v := alu_completes h hv
  refine ⟨row _ _ rfl, row _ _ rfl, row _ _ rfl, row _ _ rfl, row _ _ rfl, row _ _ ?sll, row _ _ ?srl, row _ _ ?sra, row _ _ ?slt, row _ _ ?sltu,
    row _ _ rfl, row _ _ rfl, row _ _ rfl, row _ _ rfl, row _ _ ?mul, row _ _ rfl, row _ _ rfl, row _ _ rfl, row _ _ rfl, row _ _ ?div, row _ _ ?rem,
    fun fn hlo hl hi => alu_traps h hi (.inr (aluFn_of_unlisted a b hlo hl)), completes_wrote h rfl rfl, completes_wrote h rfl rfl,
    completes_wrote h rfl rfl, completes_wrote h rfl rfl, completes_wrote h rfl rfl, completes_wrote h rfl rfl⟩
  case sll | srl | sra => simp [aluFn, fld_zero_eq]
  case slt | sltu => simp [aluFn, boolW_decide]
  case mul => rw [ofInt_toInt_mul]; rfl
  case div => rw [← divS_eq]; rfl
  case rem => rw [← remS_eq]; rfl

/-- Settles O6: IMM[15:5] as a number selects the shift, and above 2 nothing; ALU and LUI check their reserved bits. -/
theorem scarabShiftsAndReservedBits : Obligations.ScarabShiftsAndReservedBits := by
  intro s t rd rs1 rs2 fn rsv imm h
  have hop : fld imm 5 11 = imm.toNat / 32 := Nat.mod_eq_of_lt (by omega)
  have hsh : fld imm 0 5 = imm.toNat % 32 := fld_zero_eq imm 5
  refine ⟨fun hk => ?sll, fun hk => ?srl, fun hk => ?sra, fun hi => ⟨fun hk => ?shi, fun hr => alu_traps h hi (.inl hr), fun hr => ?lui⟩⟩
  case sll | srl | sra =>
    refine completes_wrote h rfl ?_
    simp [hop, hsh, hk]
  case shi =>
    refine completes_trapped h hi rfl ?_
    have h0 : ¬ imm.toNat / 32 = 0 := by omega
    have h1 : ¬ imm.toNat / 32 = 1 := by omega
    have h2 : ¬ imm.toNat / 32 = 2 := by omega
    simp only [hop, h0, h1, h2, if_false]
    rfl
  case lui =>
    refine completes_trapped h hi rfl ?_
    simp only [hr, if_false]
    rfl

end Sys2Proof.Machine

/-! ### Loads and stores (04 R84 to R86) -/

namespace Sys2Proof.Machine

open Sys2Proof Sys2Proof.Claims

/-- A store that covers an access of at least one byte meets it. -/
theorem StoreEntry.meets_of_covers {e : StoreEntry} {a n : Nat} (hn : 0 < n) (h : e.covers a n = true) : e.meets a n = true := by
  simp only [StoreEntry.covers, StoreEntry.meets, Bool.and_eq_true, decide_eq_true_eq] at h ⊢
  omega

section

variable {x : Tile} {a n : Nat}

/-- A load that no buffered store meets reads DMEM. -/
theorem Tile.dmemLoad_of_clear (h : ∀ e ∈ x.scb.sbuf, e.meets a n = false) : x.dmemLoad a n = some (x.dmem.readN a n) := by
  have : x.scb.sbuf.filter (fun e => e.meets a n) = [] := by simpa using h
  rw [Tile.dmemLoad, this]
  rfl

/-- The youngest store that meets a load decides what it reads. -/
theorem Tile.dmemLoad_of_youngest {l l' : List StoreEntry} {e : StoreEntry} (hs : x.scb.sbuf = l ++ e :: l') (hl : ∀ y ∈ l', y.meets a n = false)
    (he : e.meets a n = true) : x.dmemLoad a n = if e.covers a n then some (slice e.bytes (a - e.addr) n) else none := by
  have hf : l'.filter (fun e => e.meets a n) = [] := by simpa using hl
  have hlast : (x.scb.sbuf.filter fun e => e.meets a n).getLast? = some e := by
    rw [hs, List.filter_append, List.filter_cons_of_pos (p := fun y : StoreEntry => y.meets a n) he, hf, List.getLast?_concat]
  rw [Tile.dmemLoad, hlast]

end

/-- A slice that lies in a list holds the bytes at its place. -/
theorem slice_eq_of_getD {l bs : List Byte} {off : Nat} (hl : off + bs.length ≤ l.length)
    (h : ∀ i, i < bs.length → l.getD (off + i) 0 = bs.getD i 0) : slice l off bs.length = bs := by
  refine List.ext_getElem (length_slice ..) fun i hi hb => ?_
  have hd := h i hb
  rw [List.getD_eq_getElem _ _ (by omega), List.getD_eq_getElem _ _ hb] at hd
  rw [← hd]
  have ht : i < ((l.drop off).take bs.length).length := by
    rw [List.length_take, List.length_drop]
    omega
  simp only [slice, List.getElem_append_left ht, List.getElem_take, List.getElem_drop]

theorem dmemLoad_of_loadGets {x : Tile} {a : Nat} {bs : List Byte} (hb : 0 < bs.length) (h : LoadGets x a bs) :
    x.dmemLoad a bs.length = some bs := by
  obtain ⟨hc, hr⟩ | ⟨l, e, l', hs, hl, hc, hr⟩ := h
  · rw [Tile.dmemLoad_of_clear hc, ← hr]
  · rw [Tile.dmemLoad_of_youngest hs hl (StoreEntry.meets_of_covers hb hc), if_pos hc]
    simp only [StoreEntry.covers, Bool.and_eq_true, decide_eq_true_eq] at hc
    rw [slice_eq_of_getD (by omega) hr]

theorem dmemLoad_of_loadStalls {x : Tile} {a n : Nat} (h : LoadStalls x a n) : x.dmemLoad a n = none := by
  obtain ⟨l, e, l', hs, hl, he, hc⟩ := h
  rw [Tile.dmemLoad_of_youngest hs hl he, if_neg (by simp [hc])]

/-! #### The value of a load -/

/-- The value of two words one behind the other. -/
theorem toNat_append_eq {n m : Nat} (hi : BitVec n) (lo : BitVec m) : (hi ++ lo).toNat = lo.toNat + 2 ^ m * hi.toNat := by
  rw [BitVec.toNat_append, Nat.shiftLeft_eq, Nat.mul_comm, ← Nat.two_pow_add_eq_or_of_lt lo.isLt, Nat.add_comm]

theorem loadExt_unsigned {w : Nat} {v : BitVec w} {bs : List Byte} (h : leNat bs = v.toNat) : loadExt false bs = v.zeroExtend 32 := by
  apply BitVec.eq_of_toNat_eq
  simp [loadExt, h]

theorem loadExt_signed {w : Nat} {v : BitVec w} {bs : List Byte} (hw : 8 * bs.length = w) (hb : 0 < bs.length) (h : leNat bs = v.toNat) :
    loadExt true bs = v.signExtend 32 := by
  have hp : 2 ^ w = 2 * 2 ^ (w - 1) := by rw [← Nat.pow_succ']; congr 1; omega
  simp only [loadExt, h, hw, true_and, BitVec.signExtend]
  rw [BitVec.toInt_eq_toNat_cond]
  by_cases hc : 2 ^ (w - 1) ≤ v.toNat
  · rw [if_pos hc, if_neg (by omega)]
    congr 1
  · rw [if_neg hc, if_pos (by omega), BitVec.ofInt_natCast]

theorem leNat_one (b0 : Byte) : leNat [b0] = b0.toNat := by simp [leNat]

theorem leNat_two (b0 b1 : Byte) : leNat [b0, b1] = (b1 ++ b0 : BitVec 16).toNat := by
  simp only [leNat, toNat_append_eq]
  omega

theorem leNat_four (b0 b1 b2 b3 : Byte) : leNat [b0, b1, b2, b3] = (b3 ++ b2 ++ b1 ++ b0 : BitVec 32).toNat := by
  simp only [leNat, toNat_append_eq]
  omega

/-! #### The branches of a load and of a store -/

section

variable {d : Dev} {t n : Nat} {sg : Bool} {rd rs2 rs1 : R5} {imm : I16}

theorem Dev.scbLoad_of_range (h : 0x10000 ≤ ((d.tile t).ea rs1 imm).toNat) :
    d.scbLoad t n sg rd rs1 imm = d.scbTrap t tcDMEM_RANGE ((d.tile t).ea rs1 imm) := if_pos h

theorem Dev.scbLoad_of_misaligned (h : ((d.tile t).ea rs1 imm).toNat < 0x10000) (hm : ((d.tile t).ea rs1 imm).toNat % n ≠ 0) :
    d.scbLoad t n sg rd rs1 imm = d.scbTrap t tcMISALIGN ((d.tile t).ea rs1 imm) := (if_neg (by omega)).trans (if_pos hm)

theorem Dev.scbLoad_of_some {bs : List Byte} (h : ((d.tile t).ea rs1 imm).toNat < 0x10000) (hm : ((d.tile t).ea rs1 imm).toNat % n = 0)
    (hl : (d.tile t).dmemLoad ((d.tile t).ea rs1 imm).toNat n = some bs) :
    d.scbLoad t n sg rd rs1 imm = d.scbSet t rd (loadExt sg bs) := by
  rw [Dev.scbLoad, if_neg (by omega), if_neg (by omega), hl]

theorem Dev.scbLoad_of_none (h : ((d.tile t).ea rs1 imm).toNat < 0x10000) (hm : ((d.tile t).ea rs1 imm).toNat % n = 0)
    (hl : (d.tile t).dmemLoad ((d.tile t).ea rs1 imm).toNat n = none) :
    d.scbLoad t n sg rd rs1 imm = d.scbStall t (.load ((d.tile t).ea rs1 imm).toNat n sg rd) := by
  rw [Dev.scbLoad, if_neg (by omega), if_neg (by omega), hl]

theorem Dev.scbStore_of_range (h : 0x10000 ≤ ((d.tile t).ea rs1 imm).toNat) :
    d.scbStore t n rs2 rs1 imm = d.scbTrap t tcDMEM_RANGE ((d.tile t).ea rs1 imm) := if_pos h

theorem Dev.scbStore_of_misaligned (h : ((d.tile t).ea rs1 imm).toNat < 0x10000) (hm : ((d.tile t).ea rs1 imm).toNat % n ≠ 0) :
    d.scbStore t n rs2 rs1 imm = d.scbTrap t tcMISALIGN ((d.tile t).ea rs1 imm) := (if_neg (by omega)).trans (if_pos hm)

/-- The entry that a store makes. -/
def Tile.storeEntry (x : Tile) (n : Nat) (rs2 rs1 : R5) (imm : I16) : StoreEntry := ⟨(x.ea rs1 imm).toNat, leBytes n (x.gr rs2).toNat⟩

/-- A tile whose store buffer has taken one more store. -/
def Tile.pushStore (x : Tile) (e : StoreEntry) : Tile := { x with scb := { x.scb with sbuf := x.scb.sbuf ++ [e] } }

theorem Dev.scbStore_of_full (h : ((d.tile t).ea rs1 imm).toNat < 0x10000) (hm : ((d.tile t).ea rs1 imm).toNat % n = 0)
    (hf : 8 ≤ (d.tile t).scb.sbuf.length) : d.scbStore t n rs2 rs1 imm = d.scbStall t (.store ((d.tile t).storeEntry n rs2 rs1 imm)) := by
  rw [Dev.scbStore, if_neg (by omega), if_neg (by omega), if_pos hf]
  rfl

theorem Dev.scbStore_of_room (h : ((d.tile t).ea rs1 imm).toNat < 0x10000) (hm : ((d.tile t).ea rs1 imm).toNat % n = 0)
    (hf : (d.tile t).scb.sbuf.length < 8) :
    d.scbStore t n rs2 rs1 imm = (d.setTile t ((d.tile t).pushStore ((d.tile t).storeEntry n rs2 rs1 imm))).scbNext t := by
  rw [Dev.scbStore, if_neg (by omega), if_neg (by omega), if_neg (by omega)]
  rfl

end

/-! #### Loads and stores that complete -/

section

variable {c : Instr} {s : State} {t n : Nat} {sg : Bool} {rd rs2 rs1 : R5} {imm : I16}

/-- A load of the bytes that `LoadGets` gives writes their extension. -/
theorem load_completes (bs : List Byte) {v : W32} (h : ScbReady s t) (hx : exec c s = onScb t s fun d => d.scbLoad t bs.length sg rd rs1 imm)
    (ha : ((s.dev.tile t).ea rs1 imm).toNat < 0x10000) (hm : ((s.dev.tile t).ea rs1 imm).toNat % bs.length = 0) (hb : 0 < bs.length)
    (hg : LoadGets (s.dev.tile t) ((s.dev.tile t).ea rs1 imm).toNat bs) (hv : loadExt sg bs = v) : Completes c s (Wrote t rd v s.dev) :=
  completes_wrote h hx (hv ▸ Dev.scbLoad_of_some ha hm (dmemLoad_of_loadGets hb hg))

theorem load_waits (h : ScbReady s t) (hx : exec c s = onScb t s fun d => d.scbLoad t n sg rd rs1 imm)
    (ha : ((s.dev.tile t).ea rs1 imm).toNat < 0x10000) (hm : ((s.dev.tile t).ea rs1 imm).toNat % n = 0)
    (hs : LoadStalls (s.dev.tile t) ((s.dev.tile t).ea rs1 imm).toNat n) :
    Completes c s (Waits t (.load ((s.dev.tile t).ea rs1 imm).toNat n sg rd) s.dev) :=
  completes_waits h hx (Dev.scbLoad_of_none ha hm (dmemLoad_of_loadStalls hs))

/-- A store that finds room enters behind those that wait. -/
theorem store_completes (h : ScbReady s t) (hx : exec c s = onScb t s fun d => d.scbStore t n rs2 rs1 imm)
    (ha : ((s.dev.tile t).ea rs1 imm).toNat < 0x10000) (hm : ((s.dev.tile t).ea rs1 imm).toNat % n = 0) (hf : (s.dev.tile t).scb.sbuf.length < 8) :
    Completes c s fun d' => OnlyTile t s.dev d' ∧ d'.tile t = { s.dev.tile t with scb := { (s.dev.tile t).scb with
      pc := (s.dev.tile t).scb.pc + 4, sbuf := (s.dev.tile t).scb.sbuf ++ [(s.dev.tile t).storeEntry n rs2 rs1 imm] } } := by
  refine completes_of_ready h hx (Dev.scbStore_of_room ha hm hf) ?_
  rw [scbNext_setTile_of_ready (x := (s.dev.tile t).pushStore _) h rfl rfl]
  exact onlyTile_setTile_and_tile ..

theorem store_waits (h : ScbReady s t) (hx : exec c s = onScb t s fun d => d.scbStore t n rs2 rs1 imm)
    (ha : ((s.dev.tile t).ea rs1 imm).toNat < 0x10000) (hm : ((s.dev.tile t).ea rs1 imm).toNat % n = 0) (hf : 8 ≤ (s.dev.tile t).scb.sbuf.length) :
    Completes c s (Waits t (.store ((s.dev.tile t).storeEntry n rs2 rs1 imm)) s.dev) :=
  completes_waits h hx (Dev.scbStore_of_full ha hm hf)

end

/-- Settles O7: `LoadGets` is what `dmemLoad` finds, and the bytes in little-endian order are the word that is extended. -/
theorem scarabLoadsReadDataMemory : Obligations.ScarabLoadsReadDataMemory := by
  intro s t rd rs1 imm h x a ha
  refine ⟨fun b0 hg => ⟨?lb, ?lbu⟩, fun b0 b1 hm hg => ⟨?lh, ?lhu⟩, fun b0 b1 b2 b3 hm hg => ?lw,
    fun hm hs => ⟨load_waits h rfl ha hm hs, load_waits h rfl ha hm hs⟩, fun hm hs => load_waits h rfl ha hm hs⟩
  case lb => exact load_completes [b0] h rfl ha (Nat.mod_one _) Nat.one_pos hg (loadExt_signed rfl Nat.one_pos (leNat_one b0))
  case lbu => exact load_completes [b0] h rfl ha (Nat.mod_one _) Nat.one_pos hg (loadExt_unsigned (leNat_one b0))
  case lh => exact load_completes [b0, b1] h rfl ha hm Nat.two_pos hg (loadExt_signed rfl Nat.two_pos (leNat_two b0 b1))
  case lhu => exact load_completes [b0, b1] h rfl ha hm Nat.two_pos hg (loadExt_unsigned (leNat_two b0 b1))
  case lw => exact load_completes [b0, b1, b2, b3] h rfl ha hm (Nat.succ_pos _) hg ((loadExt_unsigned (leNat_four b0 b1 b2 b3)).trans (BitVec.setWidth_eq _))

/-- Settles O8: a store pushes its entry, and the oldest entry is written to DMEM by `writeN`. -/
theorem scarabStoresGoThroughTheBuffer : Obligations.ScarabStoresGoThroughTheBuffer := by
  refine ⟨?enter, fun s t e rest ht hs => completes_of_tile ht rfl rfl ?drain⟩
  case enter =>
    intro s t rs2 rs1 imm h x a e entered ha
    exact ⟨fun hf => ⟨store_completes h rfl ha (Nat.mod_one _) hf, fun hm => store_completes h rfl ha hm hf, fun hm => store_completes h rfl ha hm hf⟩,
      fun hf => ⟨store_waits h rfl ha (Nat.mod_one _) hf, fun hm => store_waits h rfl ha hm hf, fun hm => store_waits h rfl ha hm hf⟩⟩
  case drain =>
    simp only [Dev.modTile, Dev.tile_setTile_self, Tile.storeDrain, hs]
    refine ⟨Dev.onlyTile_setTile .., trivial, fun i hi => ?_, fun a ha => Memory.read_writeN_outside _ _ _ _ ha, trivial⟩
    rw [Memory.read_writeN, if_pos (by omega), Nat.add_sub_cancel_left]

/-- Settles O9: the address is checked before the store buffer and DMEM are looked at. -/
theorem scarabAccessTraps : Obligations.ScarabAccessTraps := by
  intro s t r rs1 imm h hi a
  have load {c : Instr} {code n : Nat} {sg : Bool} (hx : exec c s = onScb t s fun d => d.scbLoad t n sg r rs1 imm)
      (hd : s.dev.scbLoad t n sg r rs1 imm = s.dev.scbTrap t code a) : Completes c s (Trapped t code a s.dev) := completes_trapped h hi hx hd
  have store {c : Instr} {code n : Nat} (hx : exec c s = onScb t s fun d => d.scbStore t n r rs1 imm)
      (hd : s.dev.scbStore t n r rs1 imm = s.dev.scbTrap t code a) : Completes c s (Trapped t code a s.dev) := completes_trapped h hi hx hd
  simp only [List.forall_mem_cons, List.not_mem_nil, false_implies, implies_true, and_true]
  refine ⟨fun ha => ?range, fun ha hm => ?odd, fun ha hm => ?half⟩
  case range =>
    have hl {n : Nat} {sg : Bool} := Dev.scbLoad_of_range (n := n) (sg := sg) (rd := r) ha
    have hs {n : Nat} := Dev.scbStore_of_range (n := n) (rs2 := r) ha
    exact ⟨load rfl hl, load rfl hl, load rfl hl, load rfl hl, load rfl hl, store rfl hs, store rfl hs, store rfl hs⟩
  case odd =>
    have h2 : a.toNat % 2 ≠ 0 := by omega
    have h4 : a.toNat % 4 ≠ 0 := by omega
    have hl {n : Nat} {sg : Bool} := Dev.scbLoad_of_misaligned (n := n) (sg := sg) (rd := r) ha
    have hs {n : Nat} := Dev.scbStore_of_misaligned (n := n) (rs2 := r) ha
    exact ⟨load rfl (hl h2), load rfl (hl h2), load rfl (hl h4), store rfl (hs h2), store rfl (hs h4)⟩
  case half =>
    have h4 : a.toNat % 4 ≠ 0 := by omega
    exact ⟨load rfl (Dev.scbLoad_of_misaligned ha h4), store rfl (Dev.scbStore_of_misaligned ha h4)⟩

end Sys2Proof.Machine

/-! ### Branches, jumps and control space (04 R79, R88, R104) -/

namespace Sys2Proof.Machine

open Sys2Proof Sys2Proof.Claims

theorem shiftLeft_two_eq (v : W32) : v <<< 2 = 4 * v := by
  apply BitVec.eq_of_toNat_eq
  rw [BitVec.toNat_shiftLeft, BitVec.toNat_mul, Nat.shiftLeft_eq, Nat.mul_comm]
  rfl

section

variable {c : Instr} {s : State} {t : Nat} {rd : R5} {target : W32} {f : Dev → Dev}

/-- A target outside IMEM traps, and the instruction has no other effect. -/
theorem goto_traps {g : Tile → Tile} (h : ScbReady s t) (hx : exec c s = onScb t s f) (hf : f s.dev = s.dev.scbGoto t target g)
    (ht : 0x10000 ≤ target.toNat) (hi : (s.dev.tile t).scb.inTrap = false) : Completes c s (Trapped t 4 target s.dev) :=
  completes_trapped h hi hx (hf.trans (if_pos ht))

/-- What a branch does: its PC moves on, goes to the target, or traps. -/
theorem branch_completes {taken : Bool} {imm : I16} (h : ScbReady s t) (hx : exec c s = onScb t s f) (hf : f s.dev = s.dev.scbBranch t taken imm) :
    (taken = false → Completes c s (Went t ((s.dev.tile t).scb.pc + 4) s.dev)) ∧
    (taken = true → ((s.dev.tile t).scb.pc + 4 * imm.signExtend 32).toNat < 0x10000 →
      Completes c s (Went t ((s.dev.tile t).scb.pc + 4 * imm.signExtend 32) s.dev)) ∧
    (taken = true → 0x10000 ≤ ((s.dev.tile t).scb.pc + 4 * imm.signExtend 32).toNat → (s.dev.tile t).scb.inTrap = false →
      Completes c s (Trapped t 4 ((s.dev.tile t).scb.pc + 4 * imm.signExtend 32) s.dev)) := by
  have goto (hk : taken = true) : f s.dev = s.dev.scbGoto t ((s.dev.tile t).scb.pc + 4 * imm.signExtend 32) fun x => x := by
    rw [hf, Dev.scbBranch, if_pos hk, sext16, shiftLeft_two_eq]
  refine ⟨fun hk => completes_went h hx ?next, fun hk ht => completes_of_ready h hx (goto hk) ?jump, fun hk ht hi => goto_traps h hx (goto hk) ht hi⟩
  case next => rw [hf, Dev.scbBranch, if_neg (by simp [hk])]
  case jump =>
    rw [Dev.scbGoto_eq _ _ _ _ ht]
    exact onlyTile_setTile_and_tile ..

/-- A jump to a target in IMEM writes the link register. -/
theorem jump_completes {v : W32} (h : ScbReady s t) (hx : exec c s = onScb t s f) (hf : f s.dev = s.dev.scbGoto t target fun x => x.setGr rd v)
    (ht : target.toNat < 0x10000) : Completes c s fun d' => OnlyTile t s.dev d' ∧ (d'.tile t).scb.pc = target ∧
      (∀ n : R5, (d'.tile t).gr n = if n = rd ∧ n ≠ 0 then v else (s.dev.tile t).gr n) ∧ { d'.tile t with scb := (s.dev.tile t).scb } = s.dev.tile t ∧
      { (d'.tile t).scb with g := (s.dev.tile t).scb.g, pc := (s.dev.tile t).scb.pc } = (s.dev.tile t).scb := by
  obtain ⟨g, hg⟩ := (s.dev.tile t).setGr_frame rd v
  have hgr := fun n => (s.dev.tile t).gr_setGr rd n v
  refine completes_of_ready h hx (hf.trans (Dev.scbGoto_eq _ _ _ _ ht)) ?_
  simp only [Dev.tile_setTile_self]
  refine ⟨Dev.onlyTile_setTile .., trivial, hgr, ?_, ?_⟩ <;> rw [hg]

end

/-- A tile whose Scarab has gone on past the last word of IMEM. -/
def Tile.pastEnd (x : Tile) : Tile := { x with scb := { x.scb with pc := 0x10000, stall := .none } }

/-- The instruction at the end of IMEM completes, then its successor's address traps. -/
theorem Dev.scbNext_of_end (d : Dev) (t : Nat) (h : (d.tile t).scb.pc = 0xFFFC) :
    d.scbNext t = (d.setTile t (d.tile t).pastEnd).scbTrap t tcIMEM_RANGE 0x10000 := by
  have hpc : (d.tile t).scb.pc + 4 = 0x10000 := by rw [h]; rfl
  simp only [Dev.scbNext, Dev.modTile, Dev.tile_setTile_self, hpc]
  exact if_pos (by decide)

theorem Dev.scbSet_of_end (d : Dev) (t : Nat) (rd : R5) (v : W32) (h : (d.tile t).scb.pc = 0xFFFC) :
    d.scbSet t rd v = (d.setTile t ((d.tile t).setGr rd v).pastEnd).scbTrap t tcIMEM_RANGE 0x10000 := by
  rw [Dev.scbSet, Dev.modTile, Dev.scbNext_of_end _ _ (by simpa using h), Dev.tile_setTile_self, Dev.setTile_setTile]

/-- ADDI at the end of IMEM. -/
theorem addi_at_end {s : State} {t : Nat} {rd rs1 : R5} {imm : I16} (ht : t < Config.nTiles) (hc : (s.dev.tile t).canIssue = true)
    (hp : (s.dev.tile t).scb.pc = 0xFFFC) (hi : (s.dev.tile t).scb.inTrap = false) :
    Completes (.addi t rd rs1 imm) s fun d' => OnlyTile t s.dev d' ∧ (d'.tile t).scb.inTrap = true ∧
      (rd ≠ 0 → (d'.tile t).gr rd = (s.dev.tile t).gr rs1 + imm.signExtend 32) ∧
      (d'.tile t).reg Reg.SCB_EPC = 0x10000 ∧ (d'.tile t).reg Reg.SCB_CAUSE = BitVec.ofNat 64 (4 + 0x10000 * 2 ^ 32) := by
  obtain ⟨g, hg⟩ := (s.dev.tile t).setGr_frame rd ((s.dev.tile t).gr rs1 + sext16 imm)
  have hgr := (s.dev.tile t).gr_setGr rd rd ((s.dev.tile t).gr rs1 + sext16 imm)
  refine ⟨_, (onScb_of_lt s _ ht).trans (by rw [if_pos hc, Dev.scbSet_of_end _ _ _ _ hp]), ?_⟩
  generalize hy : ((s.dev.tile t).setGr rd ((s.dev.tile t).gr rs1 + sext16 imm)).pastEnd = y
  have hyi : ((s.dev.setTile t y).tile t).scb.inTrap = false := by
    rw [Dev.tile_setTile_self, ← hy, hg]
    exact hi
  obtain ⟨ho, hepc, hcause, hin, -, hr, -⟩ := trapped_scbTrap tcIMEM_RANGE 0x10000 hyi
  refine ⟨OnlyTile.trans (Dev.onlyTile_setTile ..) ho, hin, fun h0 => ?_, ?_, hcause⟩
  · rw [hr, Dev.tile_setTile_self, ← hy]
    exact hgr.trans (if_pos ⟨rfl, h0⟩)
  · rw [hepc, Dev.tile_setTile_self, ← hy]
    rfl

/-- Settles O10: `branch_completes` for each condition, `jump_completes` for JAL and JALR, and the end of IMEM. -/
theorem scarabBranchesAndJumps : Obligations.ScarabBranchesAndJumps := by
  refine ⟨?branches, ?jumps, fun s t rd rs1 imm ht hc hp hi => addi_at_end ht hc hp hi⟩
  case branches =>
    intro s t rs1 rs2 imm h x target branch
    refine ⟨branch_completes h rfl rfl, branch_completes h rfl ?_, branch_completes h rfl rfl, branch_completes h rfl rfl,
      branch_completes h rfl rfl, branch_completes h rfl rfl⟩
    exact congrArg (s.dev.scbBranch t · imm) (decide_not (p := x.gr rs1 = x.gr rs2))
  case jumps =>
    intro s t rd rs1 imm imm21 h x jumped jump
    have jal : x.scb.pc + (imm21.signExtend 32 <<< 2) = x.scb.pc + 4 * imm21.signExtend 32 := by rw [shiftLeft_two_eq]
    exact ⟨⟨fun ht => jump_completes h rfl (by rw [← jal]) ht, fun ht hi => goto_traps h rfl (by rw [← jal]) ht hi⟩,
      ⟨fun ht => jump_completes h rfl rfl ht, fun ht hi => goto_traps h rfl rfl ht hi⟩⟩

/-- Settles O11: CRD and CWR check `ctlValid` before anything else; that the reserved offsets of the AG, ARR, SPAD, WVL and MESH ranges are valid
is the model's choice (log 96). -/
theorem scarabControlSpaceTraps : Obligations.ScarabControlSpaceTraps := by
  intro s t r rs1 imm h hi a hv
  exact ⟨completes_trapped h hi rfl (if_pos hv), completes_trapped h hi rfl (if_pos hv)⟩

end Sys2Proof.Machine

/-! ### Time, events and fences (04 R101 to R103) -/

namespace Sys2Proof.Machine

open Sys2Proof Sys2Proof.Claims

/-- A counter field advances, and stops at all ones. -/
theorem fld_addCnt_self (v : W64) {lo len : Nat} (n : Nat) (h : lo + len ≤ 64) :
    fld (addCnt v lo len n) lo len = min (fld v lo len + n) (2 ^ len - 1) := by
  have := Nat.two_pow_pos len
  rw [addCnt, fld_setFld_self _ _ _ _ h]
  exact Nat.mod_eq_of_lt (by omega)

theorem fld_addCnt_other (v : W64) {lo len lo' len' : Nat} (n : Nat) (h : lo + len ≤ 64) (hd : lo + len ≤ lo' ∨ lo' + len' ≤ lo) :
    fld (addCnt v lo len n) lo' len' = fld v lo' len' := fld_setFld_other _ _ _ _ _ _ h hd

/-- The conditions of a FENCE, each where its bit is set (Table 4.5). -/
theorem Tile.fenceOk_iff (x : Tile) (m : I16) : x.fenceOk m = true ↔
    (m.getLsbD 0 = true → x.scb.sbuf = []) ∧ (m.getLsbD 1 = true → x.acwQ = []) ∧ (m.getLsbD 2 = true → x.vecQ = []) ∧
      (m.getLsbD 3 = true → ∀ n, n < 16 → (x.ag n).tickets = [] ∧ (x.ag n).pending = none) := by
  have imp (b c : Bool) : ((!b || c) = true) ↔ (b = true → c = true) := by cases b <;> simp
  simp only [Tile.fenceOk, bit, Bool.and_eq_true, imp, List.isEmpty_iff, List.all_eq_true, List.mem_range, Option.isNone_iff_eq_none, and_assoc]

/-- A target that a WAITT counts as missed: the count and the lateness, each in its field. -/
def waittLate (late : Nat) (r : W64) : W64 := addCnt (addCnt r 0 24 1) 24 40 late

theorem fld_waittLate_count (late : Nat) (r : W64) : fld (waittLate late r) 0 24 = min (fld r 0 24 + 1) (2 ^ 24 - 1) := by
  rw [waittLate, fld_addCnt_other _ _ (by decide) (by decide), fld_addCnt_self _ _ (by decide)]

theorem fld_waittLate_sum (late : Nat) (r : W64) : fld (waittLate late r) 24 40 = min (fld r 24 40 + late) (2 ^ 40 - 1) := by
  rw [waittLate, fld_addCnt_self _ _ (by decide), fld_addCnt_other _ _ (by decide) (by decide)]

/-- What a WAITT does with a target (R101). -/
def Dev.waittTo (d : Dev) (t tgt : Nat) : Dev :=
  if tgt > d.view t + 2 ^ 32 then d.scbTrap t tcWAITT_RANGE (BitVec.ofNat 32 tgt)
  else if tgt < d.view t then (d.modTile t fun x => x.modReg Reg.SCB_WAITT_LATE (waittLate (d.view t - tgt))).scbNext t
  else if tgt = d.view t then d.scbNext t
  else d.scbStall t (.waitt tgt)

theorem Dev.waittTo_of_far {d : Dev} {t tgt : Nat} (h : d.view t + 2 ^ 32 < tgt) :
    d.waittTo t tgt = d.scbTrap t tcWAITT_RANGE (BitVec.ofNat 32 tgt) := if_pos h

theorem Dev.waittTo_of_late {d : Dev} {t tgt : Nat} (h : tgt < d.view t) :
    d.waittTo t tgt = (d.setTile t ((d.tile t).modReg Reg.SCB_WAITT_LATE (waittLate (d.view t - tgt)))).scbNext t := by
  rw [Dev.waittTo, if_neg (by omega), if_pos h, Dev.modTile]

theorem Dev.waittTo_of_eq {d : Dev} {t tgt : Nat} (h : tgt = d.view t) : d.waittTo t tgt = d.scbNext t := by
  rw [Dev.waittTo, if_neg (by omega), if_neg (by omega), if_pos h]

theorem Dev.waittTo_of_soon {d : Dev} {t tgt : Nat} (h : d.view t < tgt) (h' : tgt ≤ d.view t + 2 ^ 32) :
    d.waittTo t tgt = d.scbStall t (.waitt tgt) := by
  rw [Dev.waittTo, if_neg (by omega), if_neg (by omega), if_neg (by omega)]

/-- A wait that has ended: the Scarab goes on. -/
def Tile.waitEnded (x : Tile) : Tile := { x with scb := { x.scb with pc := x.scb.pc + 4, stall := .none } }

section

variable {s : State} {t : Nat} {rd rs1 : R5} {imm : I16}

/-- WAITT with clear reserved bits and an even RS1 waits for the time in the register pair. -/
theorem exec_waitt (s : State) (t : Nat) (hr : rs1.toNat % 2 = 0) : exec (.waitt t 0 rs1 0) s =
    onScb t s fun d => d.waittTo t (((d.tile t).gr rs1).toNat + 2 ^ 32 * ((d.tile t).gr (rs1 + 1)).toNat) := by
  have : ¬ (rs1.toNat % 2 = 1 ∨ (0 : R5) ≠ 0 ∨ (0 : I16) ≠ 0) := by simp; omega
  change onScb t s _ = _
  congr 1
  funext d
  rw [if_neg this, Nat.mul_comm (2 ^ 32)]
  rfl

theorem waitt_late_completes {tgt : Nat} {c : Instr} {f : Dev → Dev} (h : ScbReady s t) (hx : exec c s = onScb t s f)
    (hf : f s.dev = s.dev.waittTo t tgt) (ht : tgt < s.dev.view t) :
    Completes c s fun d' => (d'.tile t).scb.pc = (s.dev.tile t).scb.pc + 4 ∧
      OnlyTileReg Reg.SCB_WAITT_LATE { s.dev.tile t with scb := { (s.dev.tile t).scb with pc := (s.dev.tile t).scb.pc + 4 } } (d'.tile t) ∧
      fld ((d'.tile t).reg Reg.SCB_WAITT_LATE) 0 24 = min (fld ((s.dev.tile t).reg Reg.SCB_WAITT_LATE) 0 24 + 1) (2 ^ 24 - 1) ∧
      fld ((d'.tile t).reg Reg.SCB_WAITT_LATE) 24 40 =
        min (fld ((s.dev.tile t).reg Reg.SCB_WAITT_LATE) 24 40 + (s.dev.view t - tgt)) (2 ^ 40 - 1) := by
  refine completes_of_ready h hx (hf.trans (Dev.waittTo_of_late ht)) ?_
  rw [scbNext_setTile_of_ready (x := (s.dev.tile t).modReg _ _) h rfl rfl, Dev.tile_setTile_self]
  simp only [Tile.reg_scb, Tile.reg_modReg_self]
  exact ⟨trivial, ⟨rfl, fun b hb => Tile.reg_modReg_ne _ _ _ hb⟩, fld_waittLate_count _ _, fld_waittLate_sum _ _⟩

/-- A WAITE whose event has come: RD gets the matched bits, which are cleared. -/
theorem Dev.waiteDone_spec {d : Dev} (hp : (d.tile t).scb.pc.toNat + 4 < 0x10000) (m : I16) :
    OnlyTile t d (d.waiteDone t rd m) ∧
      ((d.waiteDone t rd m).tile t).reg Reg.SCB_EVENT = (d.tile t).reg Reg.SCB_EVENT &&& ~~~ ((d.tile t).matched m) ∧
      ((d.waiteDone t rd m).tile t).scb.stall = .none ∧
      (rd ≠ 0 → ((d.waiteDone t rd m).tile t).gr rd = BitVec.ofNat 32 ((d.tile t).matched m).toNat) ∧
      ((d.waiteDone t rd m).tile t).scb.pc = (d.tile t).scb.pc + 4 := by
  generalize hy : (d.tile t).modReg Reg.SCB_EVENT (fun v => v &&& ~~~ ((d.tile t).matched m)) = y
  have hyp : y.scb.pc = (d.tile t).scb.pc := by rw [← hy]; rfl
  obtain ⟨g, hg⟩ := y.setGr_frame rd (lo32 ((d.tile t).matched m))
  have hgr := y.gr_setGr rd rd (lo32 ((d.tile t).matched m))
  have hd : d.waiteDone t rd m = (d.setTile t (y.setGr rd (lo32 ((d.tile t).matched m)))).scbNext t := by rw [← hy]; rfl
  rw [hd, Dev.scbNext_eq _ _ (by rw [Dev.tile_setTile_self, Tile.setGr_scb_pc, hyp]; exact hp)]
  simp only [Dev.tile_setTile_self, Dev.setTile_setTile, Tile.setGr_scb_pc, hyp]
  refine ⟨Dev.onlyTile_setTile .., ?_, trivial, fun h0 => hgr.trans (if_pos ⟨rfl, h0⟩), trivial⟩
  rw [Tile.reg_scb, hg, Tile.reg_scb, ← hy, Tile.reg_modReg_self]

/-- The end of a wait, at the command that completes it. -/
theorem scbNext_ended {d : Dev} (hp : (d.tile t).scb.pc.toNat + 4 < 0x10000) :
    OnlyTile t d (d.scbNext t) ∧ (d.scbNext t).tile t = (d.tile t).waitEnded := by
  rw [Dev.scbNext_eq _ _ hp]
  exact onlyTile_setTile_and_tile ..

end

/-- Settles O12: WAITT by the order of its target and the view, WAITE by the matched bits, FENCE by `fenceOk`, where
bit 4 always holds because a CWR takes effect at once. -/
theorem scarabWaitsCompleteWhenTheirConditionHolds : Obligations.ScarabWaitsCompleteWhenTheirConditionHolds := by
  refine ⟨?issue, ?resume⟩
  case issue =>
    intro s t rd rs1 imm h x tgt v ev fence
    have hfence : x.fenceOk imm = true ↔ fence x := x.fenceOk_iff imm
    have hlegal (hm : imm ≠ 0) : ¬ (imm = 0 ∨ (0 : R5) ≠ 0) := fun c => c.elim hm fun n => n rfl
    refine ⟨fun hr => ?waitt, fun hm => ⟨fun he => ?waits, fun he => ?served⟩, fun hm => ?fence, fun hi => ⟨fun hb => ?waittIll, fun hb => ?waiteIll,
      fun hb => ?fenceIll⟩⟩
    case waitt =>
      have hx := exec_waitt s t hr
      exact ⟨fun ht => waitt_late_completes h hx rfl ht, fun ht => completes_went h hx (Dev.waittTo_of_eq ht),
        fun hv ht => completes_waits h hx (Dev.waittTo_of_soon hv ht), fun ht hi => completes_trapped h hi hx (Dev.waittTo_of_far ht)⟩
    case waits => exact completes_waits h rfl ((if_neg (hlegal hm)).trans (if_neg fun hn => hn he))
    case served =>
      refine completes_of_ready h rfl ((if_neg (hlegal hm)).trans (if_pos he)) ?_
      obtain ⟨ho, hev, -, hgr, hpc⟩ := Dev.waiteDone_spec (rd := rd) (pc_lt_of_scbReady h) imm
      exact ⟨ho, hev, hgr, hpc⟩
    case fence =>
      have hb : ¬ ((0 : R5) ≠ 0 ∨ (0 : R5) ≠ 0 ∨ fld imm 5 11 ≠ 0) := by
        have : fld imm 5 11 = 0 := by simp only [fld]; omega
        simp [this]
      exact ⟨fun hf => completes_went h rfl ((if_neg hb).trans (if_pos (hfence.mpr hf))),
        fun hf => completes_waits h rfl ((if_neg hb).trans (if_neg fun c => hf (hfence.mp c)))⟩
    case waittIll => exact completes_trapped h hi rfl (if_pos hb)
    case waiteIll => exact completes_trapped h hi rfl (if_pos hb)
    case fenceIll =>
      refine completes_trapped h hi rfl (if_pos (hb.imp_right (Or.imp_right fun hb => ?_)))
      simp only [fld]
      omega
  case resume =>
    intro s t ht hr hp x ended
    refine ⟨fun tgt hs hv => completes_of_tile ht rfl ?waitt (scbNext_ended hp), fun m hs hf => completes_of_tile ht rfl ?fence (scbNext_ended hp),
      fun rd m hs hm => completes_of_tile ht rfl ?waite (Dev.waiteDone_spec hp m)⟩
    case waitt =>
      simp only [show (s.dev.tile t).scb.stall = .waitt tgt from hs]
      exact if_pos ⟨hr, hv⟩
    case fence =>
      simp only [show (s.dev.tile t).scb.stall = .fence m from hs]
      exact if_pos ⟨hr, hf⟩
    case waite =>
      simp only [show (s.dev.tile t).scb.stall = .waite rd m from hs]
      exact if_pos ⟨hr, hm⟩

end Sys2Proof.Machine

/-! ### FAULT stays (04 R106)

A Scarab in FAULT stays there whatever ends the step of its region: the records and the completion touch no tile, and the abort of a tile
keeps the mode. First the operations that touch no tile, in the order of the model's files. -/

namespace Sys2Proof.Machine

open Sys2Proof Sys2Proof.Claims

/-- The tiles of a choice of two devices. -/
@[simp] theorem Dev.tiles_ite (c : Prop) [Decidable c] (a b : Dev) : (if c then a else b).tiles = if c then a.tiles else b.tiles := apply_ite ..

/-- A loop whose every round touches no tile touches none. -/
@[simp] theorem foldl_tiles {α : Type} {f : Dev → α → Dev} (hf : ∀ d a, (f d a).tiles = d.tiles) (l : List α) (d : Dev) :
    (l.foldl f d).tiles = d.tiles := by
  induction l generalizing d with
  | nil => rfl
  | cons x l ih => exact (ih _).trans (hf d x)

section

variable (d : Dev)

@[simp] theorem Dev.setMsixByte_tiles (a b) : (d.setMsixByte a b).tiles = d.tiles := rfl
@[simp] theorem Dev.irq_tiles (v) : (d.irq v).tiles = d.tiles := by simp [Dev.irq]

@[simp] theorem Dev.logMove_tiles (n : Nat) (d : Dev) : (Dev.logMove n d).tiles = d.tiles := by
  induction n generalizing d with
  | zero => rfl
  | succ n ih =>
    unfold Dev.logMove
    split
    · split
      · exact ih _
      · rfl
    · rfl

@[simp] theorem Dev.logFlush_tiles : d.logFlush.tiles = d.tiles := by
  unfold Dev.logFlush
  dsimp only
  split <;> simp

@[simp] theorem Dev.log_tiles (kind level body) : (d.log kind level body).tiles = d.tiles := by simp [Dev.log]
@[simp] theorem Dev.record_tiles (r) : (d.record r).tiles = d.tiles := by simp [Dev.record]
@[simp] theorem Dev.recordTile_tiles (t cls unit status action detail) : (d.recordTile t cls unit status action detail).tiles = d.tiles := by
  simp [Dev.recordTile]

@[simp] theorem Dev.sendFrame_tiles (type payload) : (d.sendFrame type payload).tiles = d.tiles := by simp [Dev.sendFrame, Dev.transmit]

@[simp] theorem Dev.barArrive_tiles (id) : (d.barArrive id).tiles = d.tiles := by
  unfold Dev.barArrive
  (repeat' split) <;> simp -implicitDefEqProofs [Dev.cicErr]

@[simp] theorem Dev.barReport_tiles (id r) : (d.barReport id r).tiles = d.tiles := by simp [Dev.barReport]

@[simp] theorem Dev.reply_tiles (m st) : (d.reply m st).tiles = d.tiles := by simp [Dev.reply, Dev.replyFull, Dev.setMbState]

@[simp] theorem Dev.ringIrq_tiles (p) : (d.ringIrq p).tiles = d.tiles := by simp [Dev.ringIrq, Dev.ringMessage]
@[simp] theorem Dev.d2hPut_tiles (p bytes) : (d.d2hPut p bytes).tiles = d.tiles := by simp [Dev.d2hPut]

@[simp] theorem Dev.h2dTakeOf_tiles (r kind n) : (d.h2dTakeOf r kind n).tiles = d.tiles := by
  unfold Dev.h2dTakeOf
  (repeat' split) <;> rfl

@[simp] theorem Dev.unfetch_tiles (r) : (d.unfetch r).tiles = d.tiles := rfl
@[simp] theorem Dev.sendReplies_tiles (vs) : (d.sendReplies vs).tiles = d.tiles := by simp [Dev.sendReplies]

@[simp] theorem Dev.finishStep_tiles (r f) : (d.finishStep r f).tiles = d.tiles := by
  unfold Dev.finishStep
  dsimp only
  (repeat' split) <;> simp

@[simp] theorem Dev.runFinsAux_tiles (r n : Nat) (d : Dev) : (Dev.runFinsAux r n d).tiles = d.tiles := by
  induction n generalizing d with
  | zero => rfl
  | succ n ih =>
    unfold Dev.runFinsAux
    dsimp only
    split
    · rfl
    · split
      · exact (ih _).trans (by simp)
      · rfl

/-- A loop that gathers a value beside the device. -/
@[simp] theorem foldl_fst_tiles {α β : Type} {f : Dev × β → α → Dev × β} (hf : ∀ d a, (f d a).1.tiles = d.1.tiles) (l : List α) (d : Dev × β) :
    (l.foldl f d).1.tiles = d.1.tiles := by
  induction l generalizing d with
  | nil => rfl
  | cons x l ih => exact (ih _).trans (hf d x)

@[simp] theorem Dev.cancelSlot_tiles (slot) : (d.cancelSlot slot).1.tiles = d.tiles := by
  unfold Dev.cancelSlot
  dsimp only
  split <;> rfl

@[simp] theorem Dev.decideCancels_tiles (r) : (d.decideCancels r).1.tiles = d.tiles := by simp [Dev.decideCancels]

@[simp] theorem Dev.toFault_tiles (r) : (d.toFault r).tiles = d.tiles := rfl

@[simp] theorem Dev.endStep_tiles (r status) : (d.endStep r status).tiles = d.tiles := by
  unfold Dev.endStep
  dsimp only
  split <;> simp [Dev.runFins]

end

/-! #### The abort of a tile -/

/-- Every Scarab in FAULT has stayed there. -/
def FaultKept (d d' : Dev) : Prop := ∀ u, (d.tile u).scb.mode = .fault → (d'.tile u).scb.mode = .fault

theorem FaultKept.trans {d₀ d d' : Dev} (h : FaultKept d₀ d) (h' : FaultKept d d') : FaultKept d₀ d' := fun u hu => h' u (h u hu)

theorem FaultKept.of_tiles {d d' : Dev} (h : d'.tiles = d.tiles) : FaultKept d d' := fun u hu => by rwa [Dev.tile, h]

theorem FaultKept.modTile (d : Dev) (t : Nat) {f : Tile → Tile} (hf : ∀ x, x.scb.mode = .fault → (f x).scb.mode = .fault) :
    FaultKept d (d.modTile t f) := fun u hu => by
  by_cases h : u = t
  · subst h
    rw [Dev.modTile, Dev.tile_setTile_self]
    exact hf _ hu
  · rwa [Dev.modTile, Dev.tile_setTile_ne _ _ _ h]

theorem FaultKept.foldl {α : Type} {f : Dev → α → Dev} (hf : ∀ d a, FaultKept d (f d a)) (l : List α) (d : Dev) : FaultKept d (l.foldl f d) := by
  induction l generalizing d with
  | nil => exact fun _ h => h
  | cons x l ih => exact FaultKept.trans (hf d x) (ih _)

theorem Tile.coreAbort_scb (x : Tile) (c : Nat) (region : Bool) : (x.coreAbort c region).scb = ({ x.scb with sbuf := [] } : Scarab).abort region := rfl

theorem Tile.spadWrite_scb (x : Tile) (a : Nat) (bs : List Byte) : (x.spadWrite a bs).scb = x.scb := rfl

theorem Tile.setPte_scb (x : Tile) (slot n : Nat) (e : W32) : (x.setPte slot n e).scb = x.scb := rfl

theorem Tile.setFt_scb (x : Tile) (f : Nat) (v : W32) : (x.setFt f v).scb = x.scb := rfl

theorem FaultKept.undoPend (d : Dev) (t : Nat) (p : PendEnt) : FaultKept d (d.undoPend t p) := by
  have pte : FaultKept d (d.modTile t fun x => x.setPte p.slot p.page p.old) := .modTile d t fun x hx => by rwa [Tile.setPte_scb]
  have ft (e : Dev) (u f : Nat) (v : Tile → W32) : FaultKept e (e.modTile u fun x => x.setFt f (v x)) :=
    .modTile e u fun x hx => by rwa [Tile.setFt_scb]
  unfold Dev.undoPend
  dsimp only
  cases p.alloc <;> cases p.cow
  case none.none => exact pte
  case none.some => exact pte.trans (ft _ _ _ _)
  case some.none => exact pte.trans (ft _ _ _ fun _ => 0)
  case some.some => exact (pte.trans (ft _ _ _ fun _ => 0)).trans (ft _ _ _ _)

theorem FaultKept.wvlAbort (d : Dev) (t : Nat) : FaultKept d (d.wvlAbort t) := by
  have clear (l : List Nat) (x : Tile) : (l.foldl (fun x s => x.clearPending s) x).scb = x.scb := by
    induction l generalizing x with
    | nil => rfl
    | cons s l ih => exact (ih _).trans (Tile.spadWrite_scb ..)
  refine FaultKept.trans (.foldl (fun d p => .undoPend d t p) _ d) (.modTile _ t fun x hx => ?_)
  dsimp only
  rwa [clear]

/-- An abort other than REGION_ABORT leaves a Scarab in FAULT there. -/
theorem FaultKept.abortTile (d : Dev) (t : Nat) : FaultKept d (d.abortTile .plain t) := by
  have core : FaultKept d (d.modTile t fun x => x.coreAbort d.ctr false) := .modTile d t fun x hx => by
    rw [Tile.coreAbort_scb]
    exact if_pos ⟨hx, rfl⟩
  exact (core.trans (.of_tiles (Dev.drawn_tiles _))).trans (.wvlAbort _ t)

theorem FaultKept.stepFail (d : Dev) (r : Nat) : FaultKept d (d.stepFail r) := by
  have abort : FaultKept d (d.abortTiles .plain r) := .foldl (fun d t => .abortTile d t) _ d
  have fin (e : Dev) : FaultKept e ((e.toFault r).endStep r St.STEP_FAILED) := .of_tiles (by simp)
  unfold Dev.stepFail
  dsimp only
  split
  · exact fun _ h => h
  · split
    · exact abort.trans (fin _)
    · exact fin d

/-- A fault of the Scarab leaves it in FAULT. -/
theorem Dev.scbFault_mode (d : Dev) (t : Nat) (st : W16) (tval : W32) : ((d.scbFault t st tval).tile t).scb.mode = .fault := by
  unfold Dev.scbFault
  generalize hd : d.modTile t (fun x => { x with scb := { x.scb with mode := .fault, stall := .none } }) = e
  have he : (e.tile t).scb.mode = .fault := by rw [← hd, Dev.modTile, Dev.tile_setTile_self]
  have hr : ((e.recordTile t 2 0 st 2 tval.toNat).tile t).scb.mode = .fault := FaultKept.of_tiles (Dev.recordTile_tiles ..) t he
  dsimp only
  split
  · exact FaultKept.stepFail _ _ t hr
  · exact hr

/-- A synchronous cause in a trap handler takes the Scarab to FAULT. -/
theorem Dev.scbTrap_mode {d : Dev} {t : Nat} (code : Nat) (tval : W32) (h : (d.tile t).scb.inTrap = true) :
    ((d.scbTrap t code tval).tile t).scb.mode = .fault := by
  rw [Dev.scbTrap, if_pos h]
  exact Dev.scbFault_mode ..

end Sys2Proof.Machine

/-! ### TIME, traps, ERET and HALT (04 R104 to R107) -/

namespace Sys2Proof.Machine

open Sys2Proof Sys2Proof.Claims

/-- The Scarab after ERET: back at EPC, outside the handler. -/
def Tile.returned (x : Tile) (epc : W32) : Tile := { x with scb := { x.scb with pc := epc, inTrap := false } }

theorem Tile.asyncTake_of_none {x : Tile} (h : x.scb.pend = []) : x.asyncTake = x := by rw [Tile.asyncTake, h]

/-- What an asynchronous cause does when it is taken (R105, Table 4.9): the trap of its code, and the cause leaves the list. -/
theorem Tile.asyncTake_spec {x : Tile} {c : AsyncCause} {v : W32} {rest : List (AsyncCause × W32)} (h : x.scb.pend = (c, v) :: rest) :
    x.asyncTake.scb.pend = rest ∧ x.asyncTake.scb.inTrap = true ∧ x.asyncTake.scb.stall = .none ∧
    x.asyncTake.reg Reg.SCB_EPC = BitVec.ofNat 64 x.scb.pc.toNat ∧ x.asyncTake.scb.pc.toNat = fld (x.reg Reg.SCB_TVEC) 0 16 ∧
    x.asyncTake.reg Reg.SCB_CAUSE =
      BitVec.ofNat 64 (c.code + (if c = .arrFlag then lo32 (x.reg Reg.ARR_FLAGS) else v).toNat * 2 ^ 32) := by
  generalize hy : ({ x with scb := { x.scb with pend := rest } } : Tile) = y
  have ha : x.asyncTake = y.trapTo c.code (if c = .arrFlag then lo32 (x.reg Reg.ARR_FLAGS) else v) := by
    rw [Tile.asyncTake, h, ← hy]
    rfl
  have hlt := fld_lt (x.reg Reg.SCB_TVEC) 0 16
  obtain ⟨regs, pc, hf⟩ := y.trapTo_frame c.code (if c = .arrFlag then lo32 (x.reg Reg.ARR_FLAGS) else v)
  obtain ⟨hin, hepc, hcause, hpc, -, -⟩ := y.trapTo_spec c.code (if c = .arrFlag then lo32 (x.reg Reg.ARR_FLAGS) else v)
  rw [ha]
  refine ⟨?_, hin, ?_, ?_, ?_, hcause⟩
  · rw [hf, ← hy]
  · rw [hf]
  · rw [hepc, ← hy]
  · rw [hpc, ← hy, Tile.reg_scb, BitVec.toNat_ofNat]
    omega

section

variable {s : State} {t : Nat}

/-- ERET to an address in IMEM. -/
theorem Dev.scbEret_of_lt {d : Dev} (h : (lo32 ((d.tile t).reg Reg.SCB_EPC)).toNat < 0x10000) :
    d.scbEret t = d.setTile t ((d.tile t).returned (lo32 ((d.tile t).reg Reg.SCB_EPC))).asyncTake := if_neg (by omega)

theorem Dev.scbEret_of_ge {d : Dev} (h : 0x10000 ≤ (lo32 ((d.tile t).reg Reg.SCB_EPC)).toNat) :
    d.scbEret t = d.scbTrap t tcIMEM_RANGE (lo32 ((d.tile t).reg Reg.SCB_EPC)) := if_pos h

/-- HALT's effect; a ready Scarab has no request to halt. -/
theorem scbHaltNow_of_ready (h : ScbReady s t) : s.dev.scbHaltNow t = s.dev.setTile t { s.dev.tile t with
    scb := { (s.dev.tile t).scb with pc := (s.dev.tile t).scb.pc + 4, mode := .halted } } := by
  rw [Dev.scbHaltNow, Dev.modTile, ← haltReq_of_scbReady h]

/-- TIME writes the halves of the view into an even register and the next one. -/
theorem time_completes {rd : R5} (h : ScbReady s t) (h0 : rd ≠ 0) (h2 : rd.toNat % 2 = 0) : Completes (.time t rd 0 0) s fun d' =>
    OnlyTile t s.dev d' ∧ (d'.tile t).scb.pc = (s.dev.tile t).scb.pc + 4 ∧ (d'.tile t).gr rd = BitVec.ofNat 32 (s.dev.view t) ∧
      (d'.tile t).gr (rd + 1) = BitVec.ofNat 32 (s.dev.view t / 2 ^ 32) ∧ ∀ n, n ≠ rd → n ≠ rd + 1 → (d'.tile t).gr n = (s.dev.tile t).gr n := by
  have hne : rd ≠ rd + 1 := by bv_omega
  have hne0 : rd + 1 ≠ 0 := by bv_omega
  have hlegal : ¬ (rd = 0 ∨ rd.toNat % 2 = 1 ∨ (0 : R5) ≠ 0 ∨ (0 : I16) ≠ 0) := by
    rintro (c | c | c | c)
    · exact h0 c
    · omega
    · exact c rfl
    · exact c rfl
  refine completes_of_ready h rfl (if_neg hlegal) ?_
  generalize hy : ((s.dev.tile t).setGr rd (BitVec.ofNat 32 (s.dev.view t))).setGr (rd + 1) (BitVec.ofNat 32 (s.dev.view t / 2 ^ 32)) = y
  have hpc : y.scb.pc = (s.dev.tile t).scb.pc := by rw [← hy, Tile.setGr_scb_pc, Tile.setGr_scb_pc]
  have hst : y.scb.stall = (s.dev.tile t).scb.stall := by rw [← hy, Tile.setGr_scb_stall, Tile.setGr_scb_stall]
  have hgr (n : R5) : y.gr n = if n = rd + 1 ∧ n ≠ 0 then BitVec.ofNat 32 (s.dev.view t / 2 ^ 32)
      else if n = rd ∧ n ≠ 0 then BitVec.ofNat 32 (s.dev.view t) else (s.dev.tile t).gr n := by rw [← hy, Tile.gr_setGr, Tile.gr_setGr]
  have hd : (s.dev.modTile t fun x => (x.setGr rd (BitVec.ofNat 32 (s.dev.view t))).setGr (rd + 1) (BitVec.ofNat 32 (s.dev.view t / 2 ^ 32))).scbNext t =
      (s.dev.setTile t y).scbNext t := by rw [← hy]; rfl
  dsimp only
  rw [hd, scbNext_setTile_of_ready h hpc hst]
  simp only [Dev.tile_setTile_self]
  refine ⟨Dev.onlyTile_setTile .., trivial, (hgr rd).trans ?_, (hgr (rd + 1)).trans ?_, fun n hn hn' => (hgr n).trans ?_⟩
  · rw [if_neg fun c => hne c.1, if_pos ⟨rfl, h0⟩]
  · rw [if_pos ⟨rfl, hne0⟩]
  · rw [if_neg fun c => hn' c.1, if_neg fun c => hn c.1]

end

/-! #### The fields of SYS -/

theorem wordI_eq_append (op : BitVec 6) (rd rs1 : R5) (imm : I16) : wordI op.toNat rd rs1 imm = op ++ rd ++ rs1 ++ imm := by
  apply BitVec.eq_of_toNat_eq
  simp only [wordI, BitVec.toNat_ofNat, toNat_append_eq]
  omega

/-- A SYS code with a subcode below it. -/
theorem sysCode_eq_append (code : BitVec 12) (k : BitVec 4) : code.setWidth 16 <<< 4 ||| k.setWidth 16 = code ++ k := by
  apply BitVec.eq_of_getLsbD_eq
  intro i hi
  rw [BitVec.getLsbD_append]
  by_cases h : i < 4
  · simp [h, hi]
  · have : k.getLsbD i = false := BitVec.getLsbD_of_ge _ _ (by omega)
    have : i - 4 < 16 := by omega
    simp [*]

theorem fld_sysCode_sub (code : BitVec 12) (k : BitVec 4) : fld (code ++ k : BitVec 16) 0 4 = k.toNat := by
  rw [fld, toNat_append_eq]
  omega

theorem fld_sysCode_code (code : BitVec 12) (k : BitVec 4) : fld (code ++ k : BitVec 16) 4 12 = code.toNat := by
  rw [fld, toNat_append_eq]
  omega

/-- What SYS does with its code: SYSCALL, ERET, HALT, or ILLEGAL. -/
def Dev.scbSys (d : Dev) (t : Nat) (rd rs1 : R5) (imm : I16) : Dev :=
  if fld imm 0 4 = 0 then d.scbTrap t tcSYSCALL (BitVec.ofNat 32 (fld imm 4 12))
  else if imm = 1 then d.scbEret t
  else if imm = 2 then d.scbHaltNow t
  else d.illegal t (wordI 0x21 rd rs1 imm)

theorem Dev.scbSys_of_syscall (d : Dev) (t : Nat) (rd rs1 : R5) (code : BitVec 12) :
    d.scbSys t rd rs1 (code ++ 0#4) = d.scbTrap t 0x0D (code.zeroExtend 32) := by
  refine (if_pos (fld_sysCode_sub code 0#4)).trans ?_
  rw [fld_sysCode_code]
  congr 1
  exact BitVec.eq_of_toNat_eq (by simp)

theorem Dev.scbSys_of_unlisted (d : Dev) (t : Nat) (rd rs1 : R5) {imm : I16} (h : 3 ≤ imm.toNat % 16) :
    d.scbSys t rd rs1 imm = d.illegal t (wordI 0x21 rd rs1 imm) := by
  have h1 : imm ≠ 1 := by rintro rfl; exact absurd h (by decide)
  have h2 : imm ≠ 2 := by rintro rfl; exact absurd h (by decide)
  rw [Dev.scbSys, if_neg (by rw [fld_zero_eq]; omega), if_neg h1, if_neg h2]

section

variable {rd rs1 : R5} {imm : I16}

theorem exec_trap_sys (s : State) (t : Nat) : exec (.trap t rd rs1 ⟨0x21, imm⟩) s = onScb t s fun d => d.scbSys t rd rs1 imm := rfl

theorem exec_trap_unlisted (s : State) (t : Nat) {op : BitVec 6} (h : 0x21 < op.toNat) :
    exec (.trap t rd rs1 ⟨op, imm⟩) s = onScb t s fun d => d.illegal t (op ++ rd ++ rs1 ++ imm) := by
  rw [← wordI_eq_append]
  change onScb t s _ = _
  congr 1
  funext d
  exact if_pos h

theorem exec_eret_of_code (s : State) (t : Nat) {code : BitVec 12} (h : code ≠ 0) :
    exec (.eret t rd rs1 code) s = onScb t s fun d => d.illegal t (wordI 0x21 rd rs1 (code ++ 1#4)) := by
  rw [← sysCode_eq_append]
  change onScb t s _ = _
  congr 1
  funext d
  exact if_neg h

theorem exec_halt_of_code (s : State) (t : Nat) {code : BitVec 12} (h : code ≠ 0) :
    exec (.halt t rd rs1 code) s = onScb t s fun d => d.illegal t (wordI 0x21 rd rs1 (code ++ 2#4)) := by
  rw [← sysCode_eq_append]
  change onScb t s _ = _
  congr 1
  funext d
  exact if_neg h

end

/-- Settles O13: TIME, the branches of SYS, and ERET by the list of pending causes; a cause in a handler is `Dev.scbTrap_mode`. -/
theorem scarabTimeTrapsAndHalt : Obligations.ScarabTimeTrapsAndHalt := by
  intro s t rd rs1 imm code h x epc
  refine ⟨fun h0 h2 => time_completes h h0 h2, fun hi => ⟨?syscall, fun hb => ?timeIll, fun op ho => ?opIll, fun hm => ?sysIll, fun hc => ⟨?eretIll, ?haltIll⟩⟩,
    fun hi => ?nested, fun he => ⟨fun hp => ?eret, fun c v rest hp => ?eretTakes⟩, fun he hi => ?eretFaults, ?halt⟩
  case syscall => exact completes_trapped h hi (exec_trap_sys s t) (Dev.scbSys_of_syscall ..)
  case timeIll => exact completes_trapped h hi rfl (if_pos hb)
  case opIll => exact completes_trapped h hi (exec_trap_unlisted s t ho) rfl
  case sysIll => exact completes_trapped h hi (exec_trap_sys s t) (Dev.scbSys_of_unlisted _ _ _ _ hm)
  case eretIll => exact completes_trapped h hi (exec_eret_of_code s t hc) rfl
  case haltIll => exact completes_trapped h hi (exec_halt_of_code s t hc) rfl
  case nested => exact completes_of_ready h (exec_trap_sys s t) (Dev.scbSys_of_syscall ..) (Dev.scbTrap_mode _ _ hi)
  case eret =>
    refine completes_of_ready h rfl (Dev.scbEret_of_lt he) ?_
    rw [Tile.asyncTake_of_none (x := (s.dev.tile t).returned _) hp]
    exact onlyTile_setTile_and_tile ..
  case eretTakes =>
    obtain ⟨hpend, hin, -, hepc, hpc, hcause⟩ := Tile.asyncTake_spec (x := x.returned epc) hp
    refine completes_of_ready h rfl (Dev.scbEret_of_lt he) ⟨Dev.onlyTile_setTile .., ?_⟩
    rw [Dev.tile_setTile_self]
    exact ⟨hpend, hin, hepc, hcause, hpc⟩
  case eretFaults => exact completes_of_ready h rfl (Dev.scbEret_of_ge he) (Dev.scbTrap_mode _ _ hi)
  case halt =>
    refine completes_of_ready h rfl (scbHaltNow_of_ready h) ?_
    exact onlyTile_setTile_and_tile ..

end Sys2Proof.Machine

/-! ### Run control, the watchdog and IMEM (04 R75, R77, R105 to R107) -/

namespace Sys2Proof.Machine

open Sys2Proof Sys2Proof.Claims

/-- A command that changes one tile completes with the tile changed. -/
theorem completes_modTile {c : Instr} {s : State} {t : Nat} {f : Dev → Dev} {g : Tile → Tile} {y : Tile} (ht : t < Config.nTiles)
    (hx : exec c s = onTile t s f) (hf : f s.dev = s.dev.modTile t g) (hy : g (s.dev.tile t) = y) :
    Completes c s fun d' => OnlyTile t s.dev d' ∧ d'.tile t = y := by
  refine completes_of_tile ht hx hf ?_
  rw [Dev.modTile, hy]
  exact onlyTile_setTile_and_tile ..

theorem Scarab.takeable_iff (b : Scarab) : b.takeable = true ↔ b.inTrap = false ∧ b.pend ≠ [] := by
  simp [Scarab.takeable]

/-- A raised cause is pending, whether it was before or not. -/
theorem Tile.raise_mem (x : Tile) (c : AsyncCause) (v : W32) : ∃ w, (c, w) ∈ (x.raise c v).scb.pend := by
  by_cases h : (x.scb.pend.any fun p => decide (p.1 = c)) = true
  · rw [Tile.raise, if_pos h]
    obtain ⟨⟨c', w⟩, hm, hc⟩ := List.any_eq_true.mp h
    obtain rfl : c' = c := of_decide_eq_true hc
    exact ⟨w, hm⟩
  · rw [Tile.raise, if_neg h]
    exact ⟨v, List.mem_append_right _ (List.mem_singleton.mpr rfl)⟩

theorem Tile.raise_wdogNs (x : Tile) (c : AsyncCause) (v : W32) : (x.raise c v).scb.wdogNs = x.scb.wdogNs := by
  unfold Tile.raise
  split <;> rfl

/-- The watchdog count of a running Scarab has reached its limit. -/
def Tile.WdogDue (x : Tile) : Prop :=
  x.scb.mode = .run ∧ x.waitsStart = false ∧ fld (x.reg Reg.SCB_WDOG) 0 24 ≠ 0 ∧ fld (x.reg Reg.SCB_WDOG) 0 24 * 1000 ≤ x.scb.wdogNs

section

variable {s : State} {t : Nat}

theorem watchdog_raises (ht : t < Config.nTiles) (h : (s.dev.tile t).WdogDue) (hi : (s.dev.tile t).scb.inTrap = false) :
    Completes (.watchdog t) s fun d' => OnlyTile t s.dev d' ∧ (d'.tile t).scb.wdogNs = 0 ∧
      ∃ v, (AsyncCause.watchdog, v) ∈ (d'.tile t).scb.pend := by
  obtain ⟨hm, hw, hl, hn⟩ := h
  refine completes_of_tile ht rfl ((if_pos ⟨by simp [hm], hw, hl, hn⟩).trans ((if_neg (by simp [hm])).trans (if_neg (by simp [hi])))) ?_
  rw [Dev.modTile, Dev.tile_setTile_self, Dev.setTile_setTile, Dev.tile_setTile_self]
  exact ⟨Dev.onlyTile_setTile .., Tile.raise_wdogNs .., Tile.raise_mem ..⟩

theorem watchdog_faults (ht : t < Config.nTiles) (h : (s.dev.tile t).WdogDue) (hi : (s.dev.tile t).scb.inTrap = true) :
    Completes (.watchdog t) s fun d' => (d'.tile t).scb.mode = .fault := by
  obtain ⟨hm, hw, hl, hn⟩ := h
  exact completes_of_tile ht rfl ((if_pos ⟨by simp [hm], hw, hl, hn⟩).trans ((if_neg (by simp [hm])).trans (if_pos hi))) (Dev.scbFault_mode ..)

end

/-- A word of IMEM after the host wrote it. -/
theorem imemWord_written (m : Memory) (a : Nat) (v : W32) :
    Memory.readN (m.writeN a (leBytes 4 v.toNat)) a 4 = leBytes 4 v.toNat ∧
      ∀ b, b < a ∨ a + 4 ≤ b → Memory.read (m.writeN a (leBytes 4 v.toNat)) b = Memory.read m b := by
  refine ⟨?_, fun b hb => Memory.read_writeN_outside _ _ _ _ (by simpa using hb)⟩
  simpa using Memory.readN_writeN m a (leBytes 4 v.toNat)

/-- Settles O14: each command is one change of the tile, but for the watchdog of a handler, which is a fault (`Dev.scbFault_mode`). -/
theorem scarabRunControl : Obligations.ScarabRunControl := by
  intro s t ht x
  refine ⟨fun hm => ?run, fun hm => ?runs, fun hm => ?halt, fun hm hr => ?halted, fun c v rest hm hi hs hp => ?async,
    fun hm hw hl hn => ⟨watchdog_raises ht ⟨hm, hw, hl, hn⟩, watchdog_faults ht ⟨hm, hw, hl, hn⟩⟩, completes_modTile ht rfl rfl rfl,
    fun a v ha h4 => ⟨fun hm => ?imem, fun hm => ?drop⟩⟩
  case run =>
    have hstart : x.scbRun = x.scbStart := if_pos hm
    obtain ⟨d', hx, ho, hd⟩ := completes_modTile (c := .scbCtlRun t) ht rfl rfl hstart
    exact ⟨d', hx, ho, by rw [hd]; rfl, by rw [hd]; rfl, by rw [hd]; rfl⟩
  case runs => exact completes_modTile ht rfl rfl (if_neg hm)
  case halt => exact completes_modTile ht rfl rfl (if_pos hm)
  case halted =>
    refine completes_of_tile ht rfl (if_pos ⟨hr, hm⟩) ?_
    exact onlyTile_setTile_and_tile ..
  case async =>
    have htake : x.scb.takeable = true := (Scarab.takeable_iff _).mpr ⟨hi, by simp [hp]⟩
    obtain ⟨hpend, hin, hst, hepc, hpc, hcause⟩ := Tile.asyncTake_spec hp
    refine completes_of_tile ht rfl (if_pos ⟨hm, htake, hs⟩) ⟨Dev.onlyTile_setTile .., ?_⟩
    rw [Dev.tile_setTile_self]
    exact ⟨hpend, hin, hst, hepc, hpc, hcause⟩
  case imem =>
    have ha4 : a / 4 * 4 = a := by omega
    obtain ⟨hr, hf⟩ := imemWord_written x.imem a v
    obtain ⟨d', hx, ho, hd⟩ := completes_modTile (c := .hostImemWrite t a v) ht rfl rfl ((if_neg (by omega)).trans (if_pos hm))
    rw [ha4] at hd
    exact ⟨d', hx, ho, by rw [hd], by rw [hd]; exact hr, by rw [hd]; exact hf⟩
  case drop =>
    have hstand : ¬ (x.scb.mode = .halted ∨ x.scb.mode = .fault) := by simp [hm]
    obtain ⟨d', hx, ho, hd⟩ := completes_modTile (c := .hostImemWrite t a v) ht rfl rfl ((if_neg (by omega)).trans (if_neg hstand))
    refine ⟨d', hx, ho, ?_⟩
    rw [hd]
    exact Tile.onlyTileReg_setReg ..

end Sys2Proof.Machine

/-! ### Issue (04 R85 to R99) -/

namespace Sys2Proof.Machine

open Sys2Proof Sys2Proof.Claims

/-! #### What enters a queue or an address generator -/

/-- Tickets change the AGs of a tile and nothing else. -/
theorem Tile.takeTickets_frame (x : Tile) (id : Nat) (ns : List Nat) : ∃ ags, x.takeTickets id ns = { x with ags := ags } := by
  unfold Tile.takeTickets
  induction ns generalizing x with
  | nil => exact ⟨x.ags, rfl⟩
  | cons n ns ih =>
    obtain ⟨ags, h⟩ := ih (x.setAg n { x.ag n with tickets := (x.ag n).tickets ++ [id] })
    exact ⟨ags, h⟩

/-- ACW `a` with the ranges `rs` stands last in the queue of `y`, unstarted, behind those of `x`. -/
def AcwPushed (a : Acw) (rs : List LineRange) (x y : Tile) : Prop :=
  ∃ e, y.acwQ = x.acwQ ++ [e] ∧ e.acw = a ∧ e.started = false ∧ e.done = false ∧ e.ranges = rs

/-- Vector instruction `w` with the ranges `rs` stands last in the queue of `y`, behind those of `x`. -/
def VecPushed (w : VWord) (rs : List LineRange) (x y : Tile) : Prop := ∃ e, y.vecQ = x.vecQ ++ [e] ∧ e.word = w ∧ e.done = false ∧ e.ranges = rs

/-- Program `p` is the current one of AG `n` of `y` but for its port setting; every other AG is as in `x`. -/
def AgTaken (n : Nat) (p : AgProg) (x y : Tile) : Prop := { (y.ag n).cur with port := p.port } = p ∧ ∀ k, k ≠ n → y.ag k = x.ag k

theorem Tile.acwPush_spec (x : Tile) (a : Acw) (rs : List LineRange) : (x.acwPush a rs).scb = x.scb ∧ AcwPushed a rs x (x.acwPush a rs) := by
  unfold Tile.acwPush
  obtain ⟨ags, h⟩ := Tile.takeTickets_frame _ x.nextId a.ags
  rw [h]
  exact ⟨rfl, _, rfl, rfl, rfl, rfl, rfl⟩

/-- The positions that a RAND reserves are kept in a register. -/
theorem Tile.vecPush_spec (x : Tile) (w : VWord) (rs : List LineRange) : (x.vecPush w rs).scb = x.scb ∧ VecPushed w rs x (x.vecPush w rs) := by
  unfold Tile.vecPush
  obtain ⟨ags, h⟩ := Tile.takeTickets_frame _ x.nextId w.ags
  rw [h]
  dsimp only
  split <;> exact ⟨rfl, _, rfl, rfl, rfl, rfl⟩

/-- An AG without tickets takes a program at once, and with it the port setting. -/
theorem Tile.agTake_spec {x : Tile} {n : Nat} (p : AgProg) (h : (x.ag n).tickets = []) :
    (x.agTake n p).scb = x.scb ∧ AgTaken n p x (x.agTake n p) := by
  have ht : x.agTake n p = x.agLoad n p := if_pos (by rw [h]; rfl)
  rw [ht, Tile.agLoad]
  refine ⟨rfl, ?_, fun k hk => Tile.ag_setAg_ne _ _ _ hk⟩
  rw [Tile.ag_setAg_self]

/-! #### The checks that pass -/

section

variable {d : Dev} {t : Nat}

/-- With no store buffered a block that lies in DMEM is read. -/
theorem Dev.blockRead_of_clear {n align : Nat} {a : W32} (k : Stall) (f : List Byte → Dev) (ha : a.toNat + n ≤ 0x10000) (hm : a.toNat % align = 0)
    (hs : (d.tile t).scb.sbuf = []) : d.blockRead t n align a k f = f (Memory.readN (d.tile t).dmem a.toNat n) := by
  rw [Dev.blockRead, if_neg (by omega), if_neg (by omega), Tile.dmemLoad_of_clear (by simp [hs])]

theorem Dev.acwBlock_of_ok {bs : List Byte} (hc : Acw.check (BitVec.ofNat 256 (rdNat bs 0 32)) = none)
    (hr : (d.tile t).acwRoleOk (BitVec.ofNat 256 (rdNat bs 0 32)) = true) (hg : rangesOk (rangeWords bs 32) = true)
    (hq : (d.tile t).acwQ.length < 64) (hb : (d.tile t).boardFree (rangeWords bs 32) = true) :
    d.acwBlock t bs = (d.setTile t ((d.tile t).acwPush (BitVec.ofNat 256 (rdNat bs 0 32)) (rangeWords bs 32))).scbNext t := by
  simp only [Dev.acwBlock, hc, hr, hg, Bool.true_eq_false, if_false]
  exact if_pos ⟨hq, hb⟩

theorem Dev.vecBlock_of_ok {bs : List Byte} (hc : VWord.check (BitVec.ofNat 64 (rdNat bs 0 8)) = none)
    (hr : (d.tile t).vecRoleOk (BitVec.ofNat 64 (rdNat bs 0 8)) = true) (hg : rangesOk (rangeWords bs 8) = true)
    (hq : (d.tile t).vecQ.length < 32) (hb : (d.tile t).boardFree (rangeWords bs 8) = true) :
    d.vecBlock t bs = (d.setTile t ((d.tile t).vecPush (BitVec.ofNat 64 (rdNat bs 0 8)) (rangeWords bs 8))).scbNext t := by
  simp only [Dev.vecBlock, hc, hr, hg, Bool.true_eq_false, if_false]
  exact if_pos ⟨hq, hb⟩

theorem Dev.scbAgs_of_ok {n : Nat} {ws : List W32} (hb : (agParse ws).bad = false) (hp : ((d.tile t).ag n).pending = none) :
    d.scbAgs t n ws = (d.setTile t ((d.tile t).agTake n (agParse ws))).scbNext t := by
  simp only [Dev.scbAgs, hb, hp, Option.isSome_none, Bool.false_eq_true, if_false]
  rfl

end

/-! #### The commands -/

section

variable {c : Instr} {s : State} {t : Nat}

/-- An instruction that changes its tile outside the Scarab and goes on. -/
theorem completes_issued {f : Dev → Dev} {y : Tile} {P : Tile → Prop} (h : ScbReady s t) (hx : exec c s = onScb t s f)
    (hf : f s.dev = (s.dev.setTile t y).scbNext t) (hy : y.scb = (s.dev.tile t).scb) (hP : ∀ b, P { y with scb := b }) :
    Completes c s fun d' => OnlyTile t s.dev d' ∧ (d'.tile t).scb.pc = (s.dev.tile t).scb.pc + 4 ∧ P (d'.tile t) := by
  refine completes_of_ready h hx hf ?_
  rw [scbNext_setTile_of_ready h (congrArg Scarab.pc hy) (congrArg Scarab.stall hy), Dev.tile_setTile_self]
  exact ⟨Dev.onlyTile_setTile .., rfl, hP _⟩

/-- An AGS of a checked program, by either way to issue it. -/
theorem ags_completes {f : Dev → Dev} {n : Nat} {ws : List W32} (h : ScbReady s t) (hx : exec c s = onScb t s f)
    (hf : f s.dev = s.dev.scbAgs t n ws) (hb : (agParse ws).bad = false) (hp : ((s.dev.tile t).ag n).pending = none)
    (ht : ((s.dev.tile t).ag n).tickets = []) : Completes c s fun d' => OnlyTile t s.dev d' ∧ (d'.tile t).scb.pc = (s.dev.tile t).scb.pc + 4 ∧
      AgTaken n (agParse ws) (s.dev.tile t) (d'.tile t) := by
  obtain ⟨hs, htaken⟩ := Tile.agTake_spec (agParse ws) ht
  exact completes_issued (P := AgTaken n (agParse ws) (s.dev.tile t)) h hx (hf.trans (Dev.scbAgs_of_ok hb hp)) hs fun _ => htaken

/-- A stalled store enters the buffer once it has room. -/
theorem issueResume_store {e : StoreEntry} (ht : t < Config.nTiles) (hr : (s.dev.tile t).mayRun = true) (hp : (s.dev.tile t).scb.pc.toNat + 4 < 0x10000)
    (hs : (s.dev.tile t).scb.stall = .store e) (hf : (s.dev.tile t).scb.sbuf.length < 8) :
    Completes (.issueResume t) s fun d' => OnlyTile t s.dev d' ∧ (d'.tile t).scb.sbuf = (s.dev.tile t).scb.sbuf ++ [e] ∧
      (d'.tile t).scb.stall = .none ∧ (d'.tile t).scb.pc = (s.dev.tile t).scb.pc + 4 := by
  refine completes_of_tile (d' := (s.dev.setTile t ((s.dev.tile t).pushStore e)).scbNext t) ht rfl ?_ ?_
  · simp only [hr, hs, Tile.pushStore, Bool.true_eq_false, if_false]
    exact if_pos hf
  · rw [Dev.scbNext_eq _ _ (by rw [Dev.tile_setTile_self]; exact hp), Dev.tile_setTile_self, Dev.setTile_setTile, Dev.tile_setTile_self]
    exact ⟨Dev.onlyTile_setTile .., rfl, rfl, rfl⟩

/-- A stalled load reads DMEM once no buffered store meets it. -/
theorem issueResume_load {a n : Nat} {sg : Bool} {rd : R5} (ht : t < Config.nTiles) (hr : (s.dev.tile t).mayRun = true)
    (hp : (s.dev.tile t).scb.pc.toNat + 4 < 0x10000) (hs : (s.dev.tile t).scb.stall = .load a n sg rd)
    (hc : ∀ e ∈ (s.dev.tile t).scb.sbuf, e.meets a n = false) :
    Completes (.issueResume t) s fun d' => OnlyTile t s.dev d' ∧
      (rd ≠ 0 → (d'.tile t).gr rd = loadExt sg (Memory.readN (s.dev.tile t).dmem a n)) ∧ (d'.tile t).scb.stall = .none ∧
      (d'.tile t).scb.pc = (s.dev.tile t).scb.pc + 4 := by
  have hfree : (!(s.dev.tile t).scb.sbuf.any fun e => e.meets a n) = true := by simpa using hc
  have hgr := (s.dev.tile t).gr_setGr rd rd (loadExt sg (Memory.readN (s.dev.tile t).dmem a n))
  refine completes_of_tile (d' := s.dev.scbSet t rd (loadExt sg (Memory.readN (s.dev.tile t).dmem a n))) ht rfl ?_ ?_
  · simp only [hr, hs, Bool.true_eq_false, if_false]
    exact if_pos hfree
  · rw [Dev.scbSet_eq _ _ _ _ hp, Dev.tile_setTile_self]
    exact ⟨Dev.onlyTile_setTile .., fun h0 => hgr.trans (if_pos ⟨rfl, h0⟩), rfl, rfl⟩

end

/-- Settles O15: the block is read from DMEM, its checks pass, and the push is the only change of the tile; ISSUE_RESUME by what the Scarab
waits for. -/
theorem scarabIssueQueuesCheckedWork : Obligations.ScarabIssueQueuesCheckedWork := by
  refine ⟨?issue, fun s t n h hb hp ht => ?commit, fun s t e ht hr hp hs hf => issueResume_store ht hr hp hs hf,
    fun s t a n sg rd ht hr hp hs hc => issueResume_load ht hr hp hs hc⟩
  case issue =>
    intro s t rs1 imm h x a block hs
    have hrd : ¬ ((0 : R5) ≠ 0) := fun c => c rfl
    refine ⟨?acwp, ?viss, fun rd hrd ha hb hp ht => ?ags⟩
    case acwp =>
      intro w ha hm hc hr hg hq hb
      obtain ⟨hscb, hpush⟩ := x.acwPush_spec w (rangeWords (block 48) 32)
      exact completes_issued (P := AcwPushed w _ x) h rfl
        ((if_neg hrd).trans ((Dev.blockRead_of_clear _ _ ha hm hs).trans (Dev.acwBlock_of_ok hc hr hg hq hb))) hscb fun _ => hpush
    case viss =>
      intro w ha hm hc hr hg hq hb
      obtain ⟨hscb, hpush⟩ := x.vecPush_spec w (rangeWords (block 24) 8)
      exact completes_issued (P := VecPushed w _ x) h rfl
        ((if_neg hrd).trans ((Dev.blockRead_of_clear _ _ ha hm hs).trans (Dev.vecBlock_of_ok hc hr hg hq hb))) hscb fun _ => hpush
    case ags =>
      exact ags_completes h rfl ((if_neg (by omega)).trans (Dev.blockRead_of_clear _ _ ha (Nat.mod_one _) hs)) hb hp ht
  case commit =>
    obtain ⟨d', hx, ho, hpc, hcur, -⟩ := ags_completes (c := .agCommit t n .scarab) h rfl rfl hb hp ht
    exact ⟨d', hx, ho, hpc, hcur⟩

end Sys2Proof.Machine

/-! ## The vector engine

Proofs of the statements of 05 (O22 to O25). The layer first: what the operand cache holds after a write, what the head of the queue is, and one rule for
an instruction that goes unit by unit (`completes_unitsInOrder`). -/

/-! ### The operand cache (05 R110) -/

namespace Sys2Proof.Machine

open Sys2Proof Sys2Proof.Claims

theorem SMap.get_foldl_set (d : Nat → Byte) (a b k : Nat) (bs : List Byte) (m : SMap Byte) :
    SMap.get d ((bs.zipIdx k).foldl (fun m e => SMap.set d m (a + e.2) e.1) m) b =
      if a + k ≤ b ∧ b < a + k + bs.length then bs.getD (b - (a + k)) 0 else SMap.get d m b := by
  induction bs generalizing k m with
  | nil => exact (if_neg (by simp only [List.length_nil]; omega)).symm
  | cons c bs ih =>
    rw [List.zipIdx_cons, List.foldl_cons, ih, SMap.get_set]
    by_cases hb : b = a + k
    · subst hb
      simp
    · by_cases hin : a + (k + 1) ≤ b ∧ b < a + (k + 1) + bs.length
      · have hsub : b - (a + k) = b - (a + (k + 1)) + 1 := by omega
        rw [if_pos hin, if_pos (by simp only [List.length_cons]; omega), hsub, List.getD_cons_succ]
      · rw [if_neg hin, if_neg hb, if_neg (by simp only [List.length_cons]; omega)]

section

variable {x : Tile} {oc oc' : Nat → Byte} {a b n : Nat} {bs : List Byte}

theorem leNat_lt (l : List Byte) : leNat l < 256 ^ l.length := by
  induction l with
  | nil => exact Nat.one_pos
  | cons b l ih =>
    have hb := b.isLt
    rw [leNat, List.length_cons, Nat.pow_succ]
    omega

theorem leNat_slice_lt (l : List Byte) (off n : Nat) : leNat (slice l off n) < 256 ^ n := by
  have h := leNat_lt (slice l off n)
  rwa [length_slice] at h

/-- What a byte of the cache is after bytes were written from byte `a`. -/
theorem ocBytes_ocWrite (x : Tile) (a : Nat) (bs : List Byte) (b : Nat) :
    OcBytes (x.ocWrite a bs) b = if a ≤ b ∧ b < a + bs.length then bs.getD (b - a) 0 else OcBytes x b :=
  SMap.get_foldl_set x.ocD a b 0 bs x.ocache

theorem onlyBytes_ocWrite (x : Tile) (a : Nat) (h : bs.length = n) : OnlyBytes a n (OcBytes x) (OcBytes (x.ocWrite a bs)) := fun b hb => by
  rw [ocBytes_ocWrite, if_neg (by omega)]

@[simp] theorem length_block (oc : Nat → Byte) (b n : Nat) : (Block oc b n).length = n := by simp [Block]

theorem getD_block {i : Nat} (h : i < n) : (Block oc b n).getD i 0 = oc (b + i) := by
  simp [Block, List.getD_eq_getElem?_getD, h]

theorem block_congr (h : ∀ i, i < n → oc (a + i) = oc' (b + i)) : Block oc a n = Block oc' b n :=
  List.map_congr_left fun i hi => h i (List.mem_range.mp hi)

theorem block_eq (hn : bs.length = n) (h : ∀ i, i < n → oc (b + i) = bs.getD i 0) : Block oc b n = bs := by
  refine List.ext_getElem (by simp [hn]) fun i hi hi' => ?_
  have hb := h i (hn ▸ hi')
  simpa [Block, List.getD_eq_getElem?_getD, hi'] using hb

/-- The bytes just written read back. -/
theorem block_ocWrite (x : Tile) (a : Nat) (h : bs.length = n) : Block (OcBytes (x.ocWrite a bs)) a n = bs := by
  refine block_eq h fun i hi => ?_
  rw [ocBytes_ocWrite, if_pos (by omega), Nat.add_sub_cancel_left]

theorem slice_block {off k : Nat} (h : off + k ≤ n) : slice (Block oc b n) off k = Block oc (b + off) k := by
  refine (block_eq (length_slice ..) fun i hi => ?_).symm
  have hlen : ((List.drop off (Block oc b n)).take k).length = k := by simp; omega
  rw [slice, List.getD_append _ _ _ _ (by omega), Nat.add_assoc, ← getD_block (oc := oc) (b := b) (n := n) (i := off + i) (by omega)]
  simp [List.getD_eq_getElem?_getD, hi, List.getElem?_drop]

/-- An instruction reads its bytes from the cache as it stands. -/
theorem ocRead_eq_block (x : Tile) (a n : Nat) : x.ocRead a n = Block (OcBytes x) a n := rfl

theorem length_flatMap_leBytes (k : Nat) (xs : List Nat) : (xs.flatMap (leBytes k)).length = k * xs.length := by
  simp [List.length_flatMap, List.map_const', List.sum_replicate, Nat.mul_comm]

/-- Element `j` of bytes that hold elements of `k` bytes each. -/
theorem slice_flatMap_leBytes (k : Nat) {xs : List Nat} {j : Nat} (h : j < xs.length) :
    slice (xs.flatMap (leBytes k)) (j * k) k = leBytes k (xs.getD j 0) := by
  have hx : xs.take j ++ xs.getD j 0 :: xs.drop (j + 1) = xs := by
    rw [List.getD_eq_getElem _ _ h, List.getElem_cons_drop, List.take_append_drop]
  have hm := slice_middle ((xs.take j).flatMap (leBytes k)) (leBytes k (xs.getD j 0)) ((xs.drop (j + 1)).flatMap (leBytes k)) (j * k) k
    (by rw [length_flatMap_leBytes, List.length_take, Nat.min_eq_left h.le, Nat.mul_comm]) (length_leBytes ..)
  rwa [List.append_assoc, ← List.flatMap_cons, ← List.flatMap_append, hx] at hm

end

end Sys2Proof.Machine

/-! ### The elements of an entry (05 R110, R422) -/

namespace Sys2Proof.Machine

open Sys2Proof Sys2Proof.Claims

theorem laneWidth_cases (ty : Nat) : laneWidth ty = 8 ∨ laneWidth ty = 16 ∨ laneWidth ty = 32 ∨ laneWidth ty = 64 := by
  unfold laneWidth tyWidth
  split <;> decide

/-- Elements of `w` bits are whole bytes, and fill an entry. -/
structure FillsEntry (w : Nat) : Prop where
  bytes : 2048 / w * (w / 8) = 256
  pow : 256 ^ (w / 8) = 2 ^ w

theorem fillsEntry_laneWidth (ty : Nat) : FillsEntry (laneWidth ty) := by
  obtain h | h | h | h := laneWidth_cases ty <;> rw [h] <;> exact ⟨rfl, rfl⟩

section

variable {w r j : Nat} {oc : Nat → Byte}

/-- The last byte of an element lies in its entry. -/
theorem FillsEntry.le (hw : FillsEntry w) (h : j < 2048 / w) : j * (w / 8) + w / 8 ≤ 256 := by
  rw [← hw.bytes, ← Nat.succ_mul]
  exact Nat.mul_le_mul_right _ h

theorem FillsEntry.pos (hw : FillsEntry w) : 0 < 2048 / w := Nat.pos_of_ne_zero fun h0 => by
  have hb := hw.bytes
  rw [h0, Nat.zero_mul] at hb
  cases hb

theorem el_eq_rdNat (hw : FillsEntry w) (h : j < 2048 / w) : El oc w r j = rdNat (Block oc (256 * r) 256) (j * (w / 8)) (w / 8) := by
  rw [El, rdNat, rdNat, slice_block (by omega), slice_block (hw.le h), Nat.add_zero]

theorem el_lt (hw : FillsEntry w) : El oc w r j < 2 ^ w := by
  rw [← hw.pow, El, rdNat]
  exact leNat_slice_lt ..

theorem ocElems_eq (hw : FillsEntry w) (x : Tile) (r : Nat) : x.ocElems r w = (List.range (2048 / w)).map (El (OcBytes x) w r) :=
  List.map_congr_left fun _ hj => (el_eq_rdNat hw (List.mem_range.mp hj)).symm

/-- Elements that are put in an entry are what it then holds. -/
theorem el_ocPut (hw : FillsEntry w) (x : Tile) {xs : List Nat} (hx : xs.length = 2048 / w) (h : j < 2048 / w) :
    El (OcBytes (x.ocPut r w xs)) w r j = xs.getD j 0 % 2 ^ w := by
  have hlen : (xs.flatMap (leBytes (w / 8))).length = 256 := by rw [length_flatMap_leBytes, hx, Nat.mul_comm, hw.bytes]
  rw [el_eq_rdNat hw h, Tile.ocPut, block_ocWrite x _ hlen, rdNat, slice_flatMap_leBytes _ (hx ▸ h), leNat_leBytes, hw.pow]

theorem onlyBytes_ocPut (hw : FillsEntry w) (x : Tile) {xs : List Nat} (hx : xs.length = 2048 / w) :
    OnlyBytes (256 * r) 256 (OcBytes x) (OcBytes (x.ocPut r w xs)) :=
  onlyBytes_ocWrite x _ (by rw [length_flatMap_leBytes, hx, Nat.mul_comm, hw.bytes])

end

end Sys2Proof.Machine

/-! ### The head of the queue (05 R117) -/

namespace Sys2Proof.Machine

open Sys2Proof Sys2Proof.Claims

theorem Tile.vecHead_eq_some_iff {x : Tile} {op : Nat} {e : VecEntry} : x.vecHead op = some e ↔
    (∃ l, x.vecQ = e :: l) ∧ VWord.op e.word = op ∧ e.done = false ∧ x.stopped = false ∧ x.atHead e.id e.ags = true ∧
      e.ags.all (fun n => !(x.ag n).stopped) = true := by
  unfold Tile.vecHead
  cases x.vecQ with
  | nil => simp
  | cons y l =>
    dsimp only
    constructor
    · intro h
      split at h
      · rename_i hy
        obtain rfl := Option.some.inj h
        exact ⟨⟨l, rfl⟩, hy⟩
      · cases h
    · rintro ⟨⟨l', hl⟩, hy⟩
      obtain ⟨rfl, rfl⟩ := List.cons.inj hl
      exact if_pos hy

/-- The end of an instruction changes its entry at the head, and AGs whose tickets it releases. -/
theorem Tile.vecDone_frame {x : Tile} {e : VecEntry} {l : List VecEntry} (h : x.vecQ = e :: l) (fl : VFlags) :
    ∃ ags, x.vecDone e fl = { x with vecQ := { e with done := true, flags := e.flags ||| fl } :: l, ags := ags } := by
  have hm : x.modVec (fun y => { y with done := true, flags := y.flags ||| fl }) =
      { x with vecQ := { e with done := true, flags := e.flags ||| fl } :: l } := by simp only [Tile.modVec, h]
  rw [Tile.vecDone, hm]
  exact Tile.foldl_agRelease_frame ..

/-- What the end of an instruction leaves as it was. -/
theorem Tile.vecDone_keeps {α : Type} (F : Tile → α) (hF : ∀ x q g, F { x with vecQ := q, ags := g } = F x) (x : Tile) (e : VecEntry) (fl : VFlags) :
    F (x.vecDone e fl) = F x := by
  have hm : F (x.modVec fun y => { y with done := true, flags := y.flags ||| fl }) = F x := by
    unfold Tile.modVec
    split
    · exact hF x _ x.ags
    · rfl
  obtain ⟨g, hg⟩ := Tile.foldl_agRelease_frame e.id e.ags (x.modVec fun y => { y with done := true, flags := y.flags ||| fl })
  rw [Tile.vecDone, hg]
  exact (hF _ _ g).trans hm

section

variable (x : Tile) (e : VecEntry) (fl : VFlags)

@[simp] theorem Tile.vecDone_ocache : (x.vecDone e fl).ocache = x.ocache := Tile.vecDone_keeps Tile.ocache (fun _ _ _ => rfl) ..
@[simp] theorem Tile.vecDone_spad : (x.vecDone e fl).spad = x.spad := Tile.vecDone_keeps Tile.spad (fun _ _ _ => rfl) ..
@[simp] theorem Tile.vecDone_regs : (x.vecDone e fl).regs = x.regs := Tile.vecDone_keeps Tile.regs (fun _ _ _ => rfl) ..
@[simp] theorem Tile.vecDone_scb : (x.vecDone e fl).scb = x.scb := Tile.vecDone_keeps Tile.scb (fun _ _ _ => rfl) ..
@[simp] theorem Tile.vecDone_reg (a : Nat) : (x.vecDone e fl).reg a = x.reg a := Tile.vecDone_keeps (Tile.reg · a) (fun _ _ _ => rfl) ..
@[simp] theorem Tile.vecDone_qc (n : Nat) : (x.vecDone e fl).qc n = x.qc n := Tile.vecDone_keeps (Tile.qc · n) (fun _ _ _ => rfl) ..
@[simp] theorem Tile.vecDone_ocBytes : OcBytes (x.vecDone e fl) = OcBytes x := Tile.vecDone_keeps OcBytes (fun _ _ _ => rfl) ..

end

section

variable {s : State} {t op : Nat} {e : VecEntry}

theorem vecAt_vecQ (h : VecAt s t op e) : ∃ l, (s.dev.tile t).vecQ = e :: l := by
  obtain ⟨-, hh, -⟩ := h
  exact (Tile.vecHead_eq_some_iff.mp hh).1

/-- A vector command that finds its instruction at the head completes with what its meaning does to the device. -/
theorem completes_of_vec {c : Instr} {f : Dev → VecEntry → Dev} {d' : Dev} {P : Dev → Prop} (ht : t < Config.nTiles)
    (hh : (s.dev.tile t).vecHead op = some e) (hx : exec c s = onVec t op s f) (hf : f s.dev e = d') (hP : P d') : Completes c s P := by
  refine completes_of_tile ht hx ?_ hP
  rw [hh]
  exact hf

/-- An instruction whose head is `e` in tile `x` is complete once `vecDone` has run. -/
theorem vecComplete_vecDone {d : Dev} {x : Tile} {fl : VFlags} (k : Nat) (h : x.vecQ = { e with prog := k } :: (d.tile t).vecQ.tail) (d' : Dev) :
    VecComplete t e fl d (d'.setTile t (x.vecDone { e with prog := k } fl)) := by
  obtain ⟨ags, hd⟩ := Tile.vecDone_frame h fl
  rw [VecComplete, Dev.tile_setTile_self, hd]
  exact ⟨k, rfl⟩

end

/-- A tile that differs from `x` in the bytes of its operand cache alone. -/
def OnlyCache (x y : Tile) : Prop := ∃ m, y = { x with ocache := m }

theorem OnlyCache.trans {x y z : Tile} (h : OnlyCache x y) (h' : OnlyCache y z) : OnlyCache x z := by
  obtain ⟨m, rfl⟩ := h
  obtain ⟨m', rfl⟩ := h'
  exact ⟨m', rfl⟩

theorem onlyCache_ocWrite (x : Tile) (a : Nat) (bs : List Byte) : OnlyCache x (x.ocWrite a bs) := ⟨_, rfl⟩

theorem OnlyCache.vecQ {x y : Tile} (h : OnlyCache x y) : y.vecQ = x.vecQ := by
  obtain ⟨m, rfl⟩ := h
  rfl

theorem OnlyCache.reg {x y : Tile} (h : OnlyCache x y) (a : Nat) : y.reg a = x.reg a := by
  obtain ⟨m, rfl⟩ := h
  rfl

/-- An instruction that only changes the operand cache leaves its tile as it was but for the cache and the queue. -/
theorem completes_onlyCache {c : Instr} {s : State} {t op : Nat} {e : VecEntry} {f : Tile → VecEntry → Tile × VFlags} {P : Dev → Prop}
    (h : VecAt s t op e) (hx : exec c s = onVecT t op s f) (hf : OnlyCache (s.dev.tile t) (f (s.dev.tile t) e).1)
    (hP : ∀ d', OnlyTile t s.dev d' → VecComplete t e (f (s.dev.tile t) e).2 s.dev d' → OcBytes (d'.tile t) = OcBytes (f (s.dev.tile t) e).1 →
      (d'.tile t).spad = (s.dev.tile t).spad → (d'.tile t).regs = (s.dev.tile t).regs → (d'.tile t).scb = (s.dev.tile t).scb → P d') :
    Completes c s P := by
  obtain ⟨l, hq⟩ := vecAt_vecQ h
  obtain ⟨ht, hh, -⟩ := h
  refine completes_of_vec ht hh hx rfl (hP _ (Dev.onlyTile_setTile ..) (vecComplete_vecDone e.prog ?_ _) ?_ ?_ ?_ ?_)
  · rw [hf.vecQ, hq]
    rfl
  all_goals
    rw [Dev.modTile, Dev.tile_setTile_self]
    obtain ⟨m, hm⟩ := hf
    simp [hm]

/-! #### Unit by unit -/

theorem vecUnits_succ (n : Nat) (f : Nat → Tile → Tile × VFlags) (x : Tile) :
    vecUnits (n + 1) f x = ((f n (vecUnits n f x).1).1, (vecUnits n f x).2 ||| (f n (vecUnits n f x).1).2) := by
  simp only [vecUnits, List.range_succ, List.foldl_append, List.foldl_cons, List.foldl_nil]

section

variable {f : Nat → Tile → Tile × VFlags} {x : Tile}

theorem onlyCache_vecUnits (hf : ∀ i y, OnlyCache y (f i y).1) (n : Nat) : OnlyCache x (vecUnits n f x).1 := by
  induction n with
  | zero => exact ⟨x.ocache, rfl⟩
  | succ n ih =>
    rw [vecUnits_succ]
    exact ih.trans (hf n _)

theorem vecUnits_flags (n : Nat) :
    (vecUnits n f x).2 = (List.range n).foldl (fun a i => a ||| (f i (vecUnits i f x).1).2) 0 := by
  induction n with
  | zero => rfl
  | succ n ih => rw [vecUnits_succ, ih, List.range_succ, List.foldl_append, List.foldl_cons, List.foldl_nil]

end

/-- An instruction whose units change the operand cache alone executes them in ascending order, each on the cache that the one before left. -/
theorem completes_unitsInOrder {c : Instr} {s : State} {t op : Nat} {e : VecEntry} {g : Tile → VecEntry → Tile × VFlags}
    {f : Nat → Tile → Tile × VFlags} {P : Nat → (Nat → Byte) → (Nat → Byte) → VFlags → Prop} (h : VecAt s t op e)
    (hx : exec c s = onVecT t op s g) (hg : g (s.dev.tile t) e = vecUnits (VWord.n e.word) f (s.dev.tile t)) (hf : ∀ i y, OnlyCache y (f i y).1)
    (hP : ∀ i y, OnlyCache (s.dev.tile t) y → P i (OcBytes y) (OcBytes (f i y).1) (f i y).2) : Completes c s (UnitsInOrder t e P s.dev) := by
  refine completes_onlyCache h hx (hg ▸ onlyCache_vecUnits hf _) fun d' ho hc hb hs hr hscb => ⟨ho, hs, hr, hscb, ?_⟩
  rw [hg] at hb hc
  refine ⟨fun i => OcBytes (vecUnits i f (s.dev.tile t)).1, fun i => (f i (vecUnits i f (s.dev.tile t)).1).2, rfl, hb.symm, fun i _ => ?_, ?_⟩
  · dsimp only
    rw [vecUnits_succ]
    exact hP i _ (onlyCache_vecUnits hf i)
  · rw [← vecUnits_flags]
    exact hc

/-! #### Element by element (05 R110 to R113) -/

/-- The lanes of one entry, each enabled lane by the function and each other as it was. -/
theorem vecLanes_map (m : W64) (f : ElFn) (A B C X : Nat → Nat) (k n : Nat) :
    (vecLanes m f k ((List.range' k n).map A) ((List.range' k n).map B) ((List.range' k n).map C) ((List.range' k n).map X)).1 =
      (List.range' k n).map fun j => if bit m (j % 64) then (f (A j) (B j) (C j)).1 else X j := by
  induction n generalizing k with
  | zero => rfl
  | succ n ih =>
    simp only [List.range'_succ, List.map_cons, vecLanes, ih]
    split <;> rfl

/-- What an element-wise unit reads as operand B of lane `j`. -/
def laneB (v : VWord) (w i : Nat) (oc : Nat → Byte) (j : Nat) : Nat :=
  if v.bcb then El oc w v.vb 0 else if v.hasB then El oc w (v.vb + i) j else El oc w (v.va + i) j

/-- What it reads as operand C. -/
def laneC (v : VWord) (w i : Nat) (oc : Nat → Byte) (j : Nat) : Nat := if v.hasC then El oc w (v.vc + i) j else El oc w (v.va + i) j

/-- What a unit of an element-wise instruction puts in lane `j` of its entry. -/
def laneOut (f : ElFn) (e : VecEntry) (w i : Nat) (oc : Nat → Byte) (j : Nat) : Nat :=
  if bit e.lmask (j % 64) then (f (El oc w (VWord.va e.word + i) j) (laneB e.word w i oc j) (laneC e.word w i oc j)).1
  else El oc w (VWord.vd e.word + i) j

/-- Unit `i` of an element-wise instruction. -/
def elemUnit (w : Nat) (f : ElFn) (e : VecEntry) (i : Nat) (y : Tile) : Tile × VFlags :=
  let v : VWord := e.word
  let as := y.ocElems (v.va + i) w
  let bs := if v.bcb then as.map fun _ => (y.ocElems v.vb w).headD 0 else if v.hasB then y.ocElems (v.vb + i) w else as
  let cs := if v.hasC then y.ocElems (v.vc + i) w else as
  let r := vecLanes e.lmask f 0 as bs cs (y.ocElems (v.vd + i) w)
  (y.ocPut (v.vd + i) w r.1, r.2)

theorem headD_ocElems {w : Nat} (hw : FillsEntry w) (y : Tile) (r : Nat) : (y.ocElems r w).headD 0 = El (OcBytes y) w r 0 := by
  obtain ⟨n, hn⟩ := Nat.exists_eq_succ_of_ne_zero hw.pos.ne'
  rw [ocElems_eq hw, hn, List.range_succ_eq_map]
  rfl

theorem elemUnit_tile {w : Nat} (hw : FillsEntry w) (f : ElFn) (e : VecEntry) (i : Nat) (y : Tile) : (elemUnit w f e i y).1 =
    y.ocPut (VWord.vd e.word + i) w ((List.range (2048 / w)).map (laneOut f e w i (OcBytes y))) := by
  have hb : (if VWord.bcb e.word then (y.ocElems (VWord.va e.word + i) w).map fun _ => (y.ocElems (VWord.vb e.word) w).headD 0
      else if VWord.hasB e.word then y.ocElems (VWord.vb e.word + i) w else y.ocElems (VWord.va e.word + i) w) =
      (List.range (2048 / w)).map (laneB e.word w i (OcBytes y)) := by
    rw [headD_ocElems hw]
    simp only [ocElems_eq hw, List.map_map]
    unfold laneB
    split
    · rfl
    · split <;> rfl
  have hc : (if VWord.hasC e.word then y.ocElems (VWord.vc e.word + i) w else y.ocElems (VWord.va e.word + i) w) =
      (List.range (2048 / w)).map (laneC e.word w i (OcBytes y)) := by
    simp only [ocElems_eq hw]
    unfold laneC
    split <;> rfl
  unfold elemUnit
  dsimp only
  rw [hb, hc, ocElems_eq hw, ocElems_eq hw, List.range_eq_range', vecLanes_map]
  rfl

/-- What a unit of an element-wise instruction does to the cache, as `ElementWise` says it. -/
def LaneResult (w : Nat) (e : VecEntry) (f : Nat → Nat → Nat → Nat) (i : Nat) (oc oc' : Nat → Byte) : Prop :=
  let v : VWord := e.word
  OnlyBytes (256 * (v.vd + i)) 256 oc oc' ∧ ∀ j, j < 2048 / w → El oc' w (v.vd + i) j =
    let a := El oc w (v.va + i) j
    if e.lmask.getLsbD (j % 64) then
      f a (if v.bcb then El oc w v.vb 0 else if v.hasB then El oc w (v.vb + i) j else a) (if v.hasC then El oc w (v.vc + i) j else a) % 2 ^ w
    else El oc w (v.vd + i) j

theorem elementWise_iff {t : Nat} {e : VecEntry} {f : Nat → Nat → Nat → Nat} {d d' : Dev} :
    ElementWise t e f d d' ↔ UnitsInOrder t e (fun i oc oc' _ => LaneResult (laneWidth (VWord.ty e.word)) e f i oc oc') d d' := Iff.rfl

theorem getD_map_range {F : Nat → Nat} {n j : Nat} (h : j < n) : ((List.range n).map F).getD j 0 = F j := by
  simp [List.getD_eq_getElem?_getD, h]

theorem laneB_lt {w : Nat} (hw : FillsEntry w) (v : VWord) (i : Nat) (oc : Nat → Byte) (j : Nat) : laneB v w i oc j < 2 ^ w := by
  unfold laneB
  split
  · exact el_lt hw
  · split <;> exact el_lt hw

theorem laneResult_elemUnit {w : Nat} (hw : FillsEntry w) {g : ElFn} {f : Nat → Nat → Nat → Nat}
    (hf : ∀ a b c, a < 2 ^ w → b < 2 ^ w → (g a b c).1 % 2 ^ w = f a b c % 2 ^ w) (e : VecEntry) (i : Nat) (y : Tile) :
    LaneResult w e f i (OcBytes y) (OcBytes (elemUnit w g e i y).1) := by
  have hlen : ((List.range (2048 / w)).map (laneOut g e w i (OcBytes y))).length = 2048 / w := by simp
  rw [elemUnit_tile hw]
  refine ⟨onlyBytes_ocPut hw y hlen, fun j hj => ?_⟩
  rw [el_ocPut hw y hlen hj, getD_map_range hj]
  by_cases hm : bit e.lmask (j % 64) = true
  · rw [laneOut, if_pos hm, hf _ _ _ (el_lt hw) (laneB_lt hw ..)]
    exact (if_pos hm).symm
  · rw [laneOut, if_neg hm, Nat.mod_eq_of_lt (el_lt hw)]
    exact (if_neg hm).symm

theorem completes_imp {c : Instr} {s : State} {P Q : Dev → Prop} (h : Completes c s P) (hPQ : ∀ d', P d' → Q d') : Completes c s Q :=
  Exists.imp (fun d' hd => hd.imp_right (hPQ d')) h

/-- An element-wise command gives each enabled lane the value of its element function. -/
theorem completes_elementWise {c : Instr} {s : State} {t op : Nat} {e : VecEntry} {g : Nat → Nat → ElFn} {f : Nat → Nat → Nat → Nat}
    (hx : exec c s = vecElemCmd t op g s) (h : VecAt s t op e)
    (hf : ∀ a b c, a < 2 ^ laneWidth (VWord.ty e.word) → b < 2 ^ laneWidth (VWord.ty e.word) →
      (g (VWord.ty e.word) (VWord.fn e.word) a b c).1 % 2 ^ laneWidth (VWord.ty e.word) = f a b c % 2 ^ laneWidth (VWord.ty e.word)) :
    Completes c s (ElementWise t e f s.dev) :=
  completes_imp (completes_unitsInOrder h hx (f := elemUnit (laneWidth (VWord.ty e.word)) (g (VWord.ty e.word) (VWord.fn e.word)) e) rfl
    (fun _ _ => ⟨_, rfl⟩) fun i y _ => laneResult_elemUnit (fillsEntry_laneWidth _) hf e i y) fun _ => elementWise_iff.mpr

end Sys2Proof.Machine

/-! ### Floating-point lanes (05 R119, R124) -/

namespace Sys2Proof.Machine

open Sys2Proof Sys2Proof.Claims

theorem fnMinMax_value (ty : Nat) (mx : Bool) (a b c : Nat) : (fnMinMax ty mx a b c).1 =
    if ((laneFp ty).decode a).isNan || ((laneFp ty).decode b).isNan then (laneFp ty).nanCode
    else if Val.lt ((laneFp ty).decode a) ((laneFp ty).decode b) ||
        (!Val.lt ((laneFp ty).decode b) ((laneFp ty).decode a) && ((laneFp ty).decode a).neg && !((laneFp ty).decode b).neg) then
      if mx then b else a
    else if mx then a else b := by
  unfold fnMinMax
  dsimp only
  generalize (Val.lt ((laneFp ty).decode a) ((laneFp ty).decode b) || _) = less
  split
  · rfl
  · cases mx <;> cases less <;> rfl

theorem fnFcmp_value {fn : Nat} (h : fn < 4) (ty a b c : Nat) : (fnFcmp ty fn a b c).1 =
    let f := laneFp ty
    let nan := (f.decode a).isNan || (f.decode b).isNan
    boolEl f.width (if fn = 0 then !nan && Val.eq (f.decode a) (f.decode b) else if fn = 1 then !nan && Val.lt (f.decode a) (f.decode b)
      else if fn = 2 then !nan && !Val.lt (f.decode b) (f.decode a) else nan) := by
  match fn, h with
  | 0, _ => rfl
  | 1, _ => rfl
  | 2, _ => rfl
  | 3, _ => rfl

/-- FSGN replaces the sign bit, which has value `h`. -/
theorem fnFsgn_value {fn : Nat} (hf : fn < 3) (ty a b c : Nat) : (fnFsgn ty fn a b c).1 =
    let h := 2 ^ ((laneFp ty).width - 1)
    a % h + h * (if fn = 0 then 0 else if fn = 1 then 1 - a / h % 2 else b / h % 2) := by
  match fn, hf with
  | 0, _ => rfl
  | 1, _ =>
    have hm := Nat.mod_two_eq_zero_or_one (a / 2 ^ ((laneFp ty).width - 1))
    simp only [fnFsgn, one_ne_zero, if_false, if_true]
    obtain h | h := hm <;> simp [h]
  | 2, _ => exact congrArg _ (Nat.mul_comm ..)

/-- Settles O22: every instruction is its element function lane by lane (`completes_elementWise`), and each function decodes, computes exactly and
encodes once; FTRN gives the model's own choice within the bound (R124, log 13). -/
theorem vectorFloatingPointLanes : Obligations.VectorFloatingPointLanes := by
  intro s t e
  refine ⟨?fadd, ?fsub, ?fmul, ?ffma, ?fdiv, ?fsqrt, ?fmin, ?fmax, ?fcmp, ?fsgn, ?ftrn⟩
  case fadd => exact fun h => completes_elementWise (g := fun ty _ => fnFadd ty) rfl h fun _ _ _ _ _ => rfl
  case fsub => exact fun h => completes_elementWise (g := fun ty _ => fnFsub ty) rfl h fun _ _ _ _ _ => rfl
  case fmul => exact fun h => completes_elementWise (g := fun ty _ => fnFmul ty) rfl h fun _ _ _ _ _ => rfl
  case ffma => exact fun h => completes_elementWise (g := fun ty _ => fnFfma ty) rfl h fun _ _ _ _ _ => rfl
  case fdiv => exact fun h => completes_elementWise (g := fun ty _ => fnFdiv ty) rfl h fun _ _ _ _ _ => rfl
  case fsqrt => exact fun h => completes_elementWise (g := fun ty _ => fnFsqrt ty) rfl h fun _ _ _ _ _ => rfl
  case fmin =>
    exact fun h => completes_elementWise (g := fun ty _ => fnMinMax ty false) rfl h fun a b c _ _ => by rw [fnMinMax_value]; rfl
  case fmax =>
    exact fun h => completes_elementWise (g := fun ty _ => fnMinMax ty true) rfl h fun a b c _ _ => by rw [fnMinMax_value]; rfl
  case fcmp => exact fun h hf => completes_elementWise (g := fnFcmp) rfl h fun a b c _ _ => by rw [fnFcmp_value hf]
  case fsgn => exact fun h hf => completes_elementWise (g := fnFsgn) rfl h fun a b c _ _ => by rw [fnFsgn_value hf]
  case ftrn => exact fun h => completes_elementWise (g := fun _ fn => fnFtrn fn) rfl h fun _ _ _ _ _ => rfl

end Sys2Proof.Machine

/-! ### Integer lanes (05 R121) -/

namespace Sys2Proof.Machine

open Sys2Proof Sys2Proof.Claims

/-- A result wraps, or is limited to the range of the type (R121). -/
theorem intRes_value {w : Nat} (hw : 0 < w) (fn : Nat) (i : Int) : (intRes w fn i).1 =
    if fn = 0 then (i % 2 ^ w).toNat else (max (-(2 ^ (w - 1))) (min (2 ^ (w - 1) - 1) i) % 2 ^ w).toNat := by
  obtain ⟨k, rfl⟩ := Nat.exists_eq_succ_of_ne_zero hw.ne'
  have hpow : (2 : Int) ^ (k + 1) = 2 * 2 ^ k := by rw [pow_succ, mul_comm]
  have hcast : ((2 ^ k : Nat) : Int) = 2 ^ k := by push_cast; rfl
  have hpos : 0 < 2 ^ k := Nat.two_pow_pos k
  simp only [intRes, intBits, Nat.succ_eq_add_one, Nat.add_sub_cancel, hpow]
  rw [← hcast]
  generalize 2 ^ k = H at hpos
  split
  · rfl
  · split
    · rw [min_eq_left (by omega), max_eq_right (by omega), Int.emod_eq_of_lt (by omega) (by omega)]
      omega
    · split
      · rw [min_eq_right (by omega), max_eq_left (by omega), ← Int.add_emod_right, Int.emod_eq_of_lt (by omega) (by omega)]
        omega
      · rw [min_eq_right (by omega), max_eq_right (by omega)]

theorem fnIlog_value {w fn b : Nat} (hf : fn < 4) (hb : b < 2 ^ w) (a c : Nat) : (fnIlog w fn a b c).1 =
    if fn = 0 then a &&& b else if fn = 1 then a ||| b else if fn = 2 then a ^^^ b else a &&& (2 ^ w - 1 - b) := by
  match fn, hf with
  | 0, _ => rfl
  | 1, _ => rfl
  | 2, _ => rfl
  | 3, _ => exact congrArg (fun b => a &&& (2 ^ w - 1 - b)) (Nat.mod_eq_of_lt hb)

theorem fnIsh_value {w fn : Nat} (hf : fn < 3) (a b c : Nat) : (fnIsh w fn a b c).1 % 2 ^ w =
    (if fn = 0 then a * 2 ^ (b % w) else if fn = 1 then a / 2 ^ (b % w) else ((sInt w a / 2 ^ (b % w)) % 2 ^ w).toNat) % 2 ^ w := by
  match fn, hf with
  | 0, _ => exact Nat.mod_mod ..
  | 1, _ => rfl
  | 2, _ => rfl

theorem fnIcmp_value {w fn : Nat} (hf : fn < 3) (a b c : Nat) : (fnIcmp w fn a b c).1 =
    if (if fn = 0 then a = b else if fn = 1 then sInt w a < sInt w b else a < b) then 2 ^ w - 1 else 0 := by
  match fn, hf with
  | 0, _ => simp [fnIcmp, boolEl]
  | 1, _ => simp [fnIcmp, boolEl]
  | 2, _ => simp [fnIcmp, boolEl]

/-- Settles O23: every instruction is its element function lane by lane (`completes_elementWise`). -/
theorem vectorIntegerLanes : Obligations.VectorIntegerLanes := by
  intro s t e
  have hw : 0 < laneWidth (VWord.ty e.word) := Nat.lt_of_lt_of_le (by decide) (Nat.le_max_left 8 _)
  refine ⟨?iadd, ?isub, ?imul, ?imin, ?imax, ?ilog, ?ish, ?icmp, ?sel, ?mov⟩
  case iadd =>
    exact fun h => completes_elementWise (g := fun ty fn => fnIadd (laneWidth ty) fn) rfl h fun a b c _ _ => by rw [fnIadd, intRes_value hw]
  case isub =>
    exact fun h => completes_elementWise (g := fun ty fn => fnIsub (laneWidth ty) fn) rfl h fun a b c _ _ => by rw [fnIsub, intRes_value hw]
  case imul =>
    exact fun h => completes_elementWise (g := fun ty fn => fnImul (laneWidth ty) fn) rfl h fun a b c _ _ => by rw [fnImul, intRes_value hw]
  case imin => exact fun h => completes_elementWise (g := fun ty _ => fnImin (laneWidth ty)) rfl h fun _ _ _ _ _ => rfl
  case imax => exact fun h => completes_elementWise (g := fun ty _ => fnImax (laneWidth ty)) rfl h fun _ _ _ _ _ => rfl
  case ilog =>
    exact fun h hf => completes_elementWise (g := fun ty fn => fnIlog (laneWidth ty) fn) rfl h fun a b c _ hb => by rw [fnIlog_value hf hb]
  case ish => exact fun h hf => completes_elementWise (g := fun ty fn => fnIsh (laneWidth ty) fn) rfl h fun a b c _ _ => fnIsh_value hf a b c
  case icmp =>
    exact fun h hf => completes_elementWise (g := fun ty fn => fnIcmp (laneWidth ty) fn) rfl h fun a b c _ _ => by rw [fnIcmp_value hf]
  case sel => exact fun h => completes_elementWise (g := fun _ _ => fnSel) rfl h fun _ _ _ _ _ => rfl
  case mov => exact fun h => completes_elementWise (g := fun _ _ => fnMov) rfl h fun _ _ _ _ _ => rfl

end Sys2Proof.Machine

/-! ### Transfers between the cache and the scratchpad (04 R98, 05 Table 5.3) -/

namespace Sys2Proof.Machine

open Sys2Proof Sys2Proof.Claims

/-- What decides whether the head of the vector queue may go on is the same in two tiles (04 R99). -/
def SameGate (x y : Tile) : Prop := y.stopped = x.stopped ∧ ∀ n, (y.ag n).tickets = (x.ag n).tickets ∧ (y.ag n).stopped = (x.ag n).stopped

theorem SameGate.trans {x y z : Tile} (h : SameGate x y) (h' : SameGate y z) : SameGate x z :=
  ⟨h'.1.trans h.1, fun n => ⟨(h'.2 n).1.trans (h.2 n).1, (h'.2 n).2.trans (h.2 n).2⟩⟩

theorem sameGate_agEmit (x : Tile) (g : Nat) : SameGate x (x.agEmit g) := by
  refine ⟨x.agEmit_keeps Tile.stopped (fun _ _ _ => rfl) (fun _ _ _ => rfl) g, fun n => ?_⟩
  by_cases h : n = g
  · subst h
    rw [Tile.ag_agEmit_self]
    exact ⟨rfl, rfl⟩
  · rw [Tile.ag_agEmit_ne _ h]
    exact ⟨rfl, rfl⟩

theorem SameGate.vecHead {x y : Tile} {op k : Nat} {e : VecEntry} {l : List VecEntry} (h : SameGate x y) (hx : x.vecHead op = some e)
    (hq : y.vecQ = { e with prog := k } :: l) : y.vecHead op = some { e with prog := k } := by
  obtain ⟨hst, hag⟩ := h
  obtain ⟨-, hop, hd, hs, hat, hal⟩ := Tile.vecHead_eq_some_iff.mp hx
  refine Tile.vecHead_eq_some_iff.mpr ⟨⟨l, hq⟩, hop, hd, hst.trans hs, ?_, ?_⟩
  · simpa only [Tile.atHead, hag] using hat
  · simpa only [hag] using hal

theorem Tile.modVec_of_head {x : Tile} {e : VecEntry} {l : List VecEntry} (h : x.vecQ = e :: l) (f : VecEntry → VecEntry) :
    x.modVec f = { x with vecQ := f e :: l } := by simp only [Tile.modVec, h]

/-- The head of the queue has moved one more entry. -/
def Tile.vecAdvance (x : Tile) : Tile := x.modVec fun y => { y with prog := y.prog + 1 }

@[simp] theorem Tile.vecAdvance_spad (x : Tile) : x.vecAdvance.spad = x.spad := by
  unfold Tile.vecAdvance Tile.modVec
  split <;> rfl
@[simp] theorem Tile.vecAdvance_ocache (x : Tile) : x.vecAdvance.ocache = x.ocache := by
  unfold Tile.vecAdvance Tile.modVec
  split <;> rfl
@[simp] theorem Tile.vecAdvance_ocBytes (x : Tile) : OcBytes x.vecAdvance = OcBytes x := by
  unfold Tile.vecAdvance Tile.modVec
  split <;> rfl

/-- Tile `y` after `k` entries of the transfer `e`, which met `x`: the entry counts them, and its AG serves the addresses that are left. -/
structure Transferring (x : Tile) (e : VecEntry) (a : Nat → Nat) (k : Nat) (y : Tile) : Prop where
  queue : y.vecQ = { e with prog := k } :: x.vecQ.tail
  gate : SameGate x y
  serve : ∀ n, k + (n + 1) = VWord.n e.word → AgServes y (VWord.ag e.word) (n + 1) (fun _ => 256) fun i => a (k + i)

section

variable {x y : Tile} {e : VecEntry} {a : Nat → Nat} {k : Nat}

theorem Transferring.zero {op : Nat} (hx : x.vecHead op = some e) (hp : e.prog = 0) (h : AgServes x (VWord.ag e.word) (VWord.n e.word) (fun _ => 256) a) :
    Transferring x e a 0 x where
  queue := by
    obtain ⟨⟨l, hl⟩, -⟩ := Tile.vecHead_eq_some_iff.mp hx
    rw [hl, ← hp]
    rfl
  gate := ⟨rfl, fun _ => ⟨rfl, rfl⟩⟩
  serve n hn := by
    rw [Nat.zero_add] at hn
    simpa only [hn, Nat.zero_add] using h

/-- One more entry: the AG has emitted its address, and no word fails parity that did not before. -/
theorem Transferring.next (h : Transferring x e a k y) {z : Tile} (hq : z.vecQ = y.vecQ) (hst : z.stopped = y.stopped)
    (hag : z.ags = (y.agEmit (VWord.ag e.word)).ags) (hp : ∀ w ∈ z.parInv, w ∈ y.parInv) : Transferring x e a (k + 1) z.vecAdvance := by
  have hz : z.vecAdvance = { z with vecQ := { e with prog := k + 1 } :: x.vecQ.tail } := Tile.modVec_of_head (hq.trans h.queue) _
  have hagn : ∀ n, z.ag n = (y.agEmit (VWord.ag e.word)).ag n := fun n => by rw [Tile.ag, hag]; rfl
  have hemit := sameGate_agEmit y (VWord.ag e.word)
  rw [hz]
  refine ⟨rfl, h.gate.trans ⟨hst, fun n => ?_⟩, fun n hn => ?_⟩
  · exact hagn n ▸ hemit.2 n
  · have hr := AgServes.rest (h.serve (n + 1) (by omega)) (y.ag_agEmit_self _) (y.agEmit_spad _) (y.agEmit_parInv _)
    simp only [← Nat.add_assoc, Nat.add_right_comm k _ 1] at hr ⊢
    exact AgServes.of_parInv_subset hr (hagn _) fun w hw => by
      rw [Tile.agEmit_parInv]
      exact hp w hw

end

/-! #### VLD -/

section

variable {x : Tile} {e : VecEntry} {a : Nat → Nat} {t : Nat}

/-- The tile after one more entry of a VLD, whose AG emitted `i`. -/
def Tile.loadEntry (y : Tile) (e : VecEntry) (k i : Nat) : Tile :=
  ((y.agEmit (VWord.ag e.word)).ocWrite (256 * (VWord.vd e.word + k)) (y.spad.readN i 256)).vecAdvance

/-- Tile `y` after `k` entries of the VLD `e`, which met `x`. -/
structure VldAfter (x : Tile) (e : VecEntry) (a : Nat → Nat) (k : Nat) (y : Tile) : Prop extends Transferring x e a k y where
  spad : y.spad = x.spad
  loaded : ∀ i, i < k → Block (OcBytes y) (256 * (VWord.vd e.word + i)) 256 = Memory.readN x.spad (a i) 256
  rest : OnlyBytes (256 * VWord.vd e.word) (256 * k) (OcBytes x) (OcBytes y)

theorem VldAfter.next {k : Nat} {y : Tile} (h : VldAfter x e a k y) : VldAfter x e a (k + 1) (y.loadEntry e k (a k)) := by
  have ht := h.toTransferring.next (z := (y.agEmit (VWord.ag e.word)).ocWrite (256 * (VWord.vd e.word + k)) (y.spad.readN (a k) 256))
    (y.agEmit_keeps Tile.vecQ (fun _ _ _ => rfl) (fun _ _ _ => rfl) _) (y.agEmit_keeps Tile.stopped (fun _ _ _ => rfl) (fun _ _ _ => rfl) _) rfl
    fun w hw => (y.agEmit_parInv _).symm ▸ hw
  have hb : OcBytes (y.loadEntry e k (a k)) = OcBytes ((y.agEmit (VWord.ag e.word)).ocWrite (256 * (VWord.vd e.word + k)) (y.spad.readN (a k) 256)) :=
    Tile.vecAdvance_ocBytes _
  have he : OcBytes (y.agEmit (VWord.ag e.word)) = OcBytes y := y.agEmit_keeps OcBytes (fun _ _ _ => rfl) (fun _ _ _ => rfl) _
  have hout : OnlyBytes (256 * (VWord.vd e.word + k)) 256 (OcBytes y) (OcBytes (y.loadEntry e k (a k))) := by
    rw [hb, ← he]
    exact onlyBytes_ocWrite _ _ (Memory.length_readN ..)
  refine ⟨ht, ?_, fun i hi => ?_, fun b hbb => ?_⟩
  · rw [Tile.loadEntry, Tile.vecAdvance_spad]
    exact (y.agEmit_spad _).trans h.spad
  · obtain hi | rfl := Nat.lt_succ_iff_lt_or_eq.mp hi
    · rw [← h.loaded i hi]
      exact block_congr fun b hbb => hout _ (by omega)
    · rw [hb, block_ocWrite _ _ (Memory.length_readN ..), h.spad]
  · rw [hout b (by omega), h.rest b (by omega)]

/-- The entries that are left, and then the end of the instruction. -/
theorem Dev.vldGo_of_serves (hx : x.vecHead oVLD = some e) {m k : Nat} (hm : k + m = VWord.n e.word) {d : Dev} (h : VldAfter x e a k (d.tile t)) :
    ∃ y, VldAfter x e a (VWord.n e.word) y ∧ Dev.vldGo t (m + 1) d = d.setTile t (y.vecDone { e with prog := VWord.n e.word } 0) := by
  have hh := h.gate.vecHead hx h.queue
  induction m generalizing k d with
  | zero =>
    obtain rfl : k = VWord.n e.word := by omega
    refine ⟨d.tile t, h, ?_⟩
    simp only [Dev.vldGo, hh, ge_iff_le, le_refl, if_true, Dev.modTile]
  | succ m ih =>
    have hr := Dev.unitRead_of_serves (array := false) (AgServes.first (h.serve m (by omega))) nofun
    have hnext := h.next
    obtain ⟨y, hy, hgo⟩ := ih (k := k + 1) (d := d.setTile t ((d.tile t).loadEntry e k (a k))) (by omega) (by rwa [Dev.tile_setTile_self])
      (by rw [Dev.tile_setTile_self]; exact hnext.gate.vecHead hx hnext.queue)
    refine ⟨y, hy, ?_⟩
    rw [Dev.setTile_setTile] at hgo
    rw [← hgo, Dev.vldGo, hh]
    dsimp only
    rw [if_neg (by omega), hr]
    simp only [Dev.modTile, Dev.tile_setTile_self, Dev.setTile_setTile]
    rfl

theorem vld_completes {s : State} (h : VecAt s t oVLD e) (ha : AgServes (s.dev.tile t) (VWord.ag e.word) (VWord.n e.word) (fun _ => 256) a) :
    Completes (.vld t Upset.none) s fun d' => OnlyTile t s.dev d' ∧ VecComplete t e 0 s.dev d' ∧
      (∀ k, k < VWord.n e.word →
        Block (OcBytes (d'.tile t)) (256 * (VWord.vd e.word + k)) 256 = Memory.readN (s.dev.tile t).spad (a k) 256) ∧
      OcacheOutside t (256 * VWord.vd e.word) (256 * VWord.n e.word) s.dev d' ∧ (d'.tile t).spad = (s.dev.tile t).spad := by
  obtain ⟨ht, hh, hp⟩ := h
  have h0 : VldAfter (s.dev.tile t) e a 0 (s.dev.tile t) := ⟨.zero hh hp ha, rfl, fun i hi => absurd hi (Nat.not_lt_zero i), fun _ _ => rfl⟩
  obtain ⟨y, hy, hgo⟩ := Dev.vldGo_of_serves hh (Nat.zero_add _) h0
  refine completes_of_vec ht hh rfl hgo ⟨Dev.onlyTile_setTile .., vecComplete_vecDone _ hy.queue _, ?_⟩
  rw [OcacheOutside, Dev.tile_setTile_self, Tile.vecDone_ocBytes, Tile.vecDone_spad]
  exact ⟨hy.loaded, hy.rest, hy.spad⟩

end

/-! #### VST -/

section

variable {x : Tile} {e : VecEntry} {a : Nat → Nat} {t : Nat}

/-- A write of a vector instruction through an AG that serves: no alignment is asked for (04 R98). -/
theorem Dev.unitWrite_of_agServes {d : Dev} {t g i : Nat} {bs : List Byte} (h : AgServes (d.tile t) g 1 (fun _ => bs.length) fun _ => i) :
    d.unitWrite t g bs false = (d.modTile t fun x => (x.agEmit g).spadWrite i bs, some bs) := by
  obtain ⟨hst, hex, hsp, hmo, -, hk⟩ := h
  obtain ⟨haddr, hle, hbad⟩ := hk 0 Nat.one_pos
  have hnext : ((d.tile t).ag g).next = .addr i := by simp_all [Ag.next]
  have hw : d.agWrite t g bs false = ⟨d.modTile t fun x => (x.agEmit g).spadWrite i bs, some bs, none, []⟩ := by
    simp [Dev.agWrite, hnext, hsp, hmo, hle, alignOk, Tile.mergeBad_of_badWord hbad]
  simp [Dev.unitWrite, hw]

theorem Tile.spadWrite_spad (x : Tile) (i : Nat) (bs : List Byte) : (x.spadWrite i bs).spad = x.spad.writeN i bs := rfl

/-- The entries that a VST has written after `k` of them. -/
def storedEntries (x : Tile) (e : VecEntry) (k : Nat) : List (List Byte) :=
  (List.range k).map fun i => Block (OcBytes x) (256 * (VWord.va e.word + i)) 256

theorem length_storedEntries (x : Tile) (e : VecEntry) (k : Nat) : (storedEntries x e k).length = k := by simp [storedEntries]

theorem getD_storedEntries {i k : Nat} (h : i < k) : (storedEntries x e k).getD i [] = Block (OcBytes x) (256 * (VWord.va e.word + i)) 256 := by
  simp [storedEntries, List.getD_eq_getElem?_getD, h]

theorem storedEntries_succ (x : Tile) (e : VecEntry) (k : Nat) :
    storedEntries x e (k + 1) = storedEntries x e k ++ [Block (OcBytes x) (256 * (VWord.va e.word + k)) 256] := by
  simp [storedEntries, List.range_succ]

/-- The tile after one more entry of a VST, whose AG emitted `i`. -/
def Tile.storeEntryAt (y : Tile) (e : VecEntry) (k i : Nat) : Tile :=
  ((y.agEmit (VWord.ag e.word)).spadWrite i (y.ocRead (256 * (VWord.va e.word + k)) 256)).vecAdvance

/-- Tile `y` after `k` entries of the VST `e`, which met `x`. -/
structure VstAfter (x : Tile) (e : VecEntry) (a : Nat → Nat) (k : Nat) (y : Tile) : Prop extends Transferring x e a k y where
  ocache : y.ocache = x.ocache
  bytes : OcBytes y = OcBytes x
  written : WrittenOver (storedEntries x e k) a x.spad y.spad

theorem VstAfter.next {k : Nat} {y : Tile} (h : VstAfter x e a k y) : VstAfter x e a (k + 1) (y.storeEntryAt e k (a k)) := by
  have hr : y.ocRead (256 * (VWord.va e.word + k)) 256 = Block (OcBytes x) (256 * (VWord.va e.word + k)) 256 := by rw [ocRead_eq_block, h.bytes]
  rw [Tile.storeEntryAt, hr]
  refine ⟨h.toTransferring.next (y.agEmit_keeps Tile.vecQ (fun _ _ _ => rfl) (fun _ _ _ => rfl) _)
    (y.agEmit_keeps Tile.stopped (fun _ _ _ => rfl) (fun _ _ _ => rfl) _) rfl fun w hw => ?_, ?_, ?_, ?_⟩
  · exact (y.agEmit_parInv _) ▸ List.mem_of_mem_filter hw
  · exact (Tile.vecAdvance_ocache _).trans ((y.agEmit_keeps Tile.ocache (fun _ _ _ => rfl) (fun _ _ _ => rfl) _).trans h.ocache)
  · exact (Tile.vecAdvance_ocBytes _).trans ((y.agEmit_keeps OcBytes (fun _ _ _ => rfl) (fun _ _ _ => rfl) _).trans h.bytes)
  · have hw := h.written.snoc (Block (OcBytes x) (256 * (VWord.va e.word + k)) 256)
    rw [length_storedEntries] at hw
    rwa [storedEntries_succ, Tile.vecAdvance_spad, Tile.spadWrite_spad, Tile.agEmit_spad]

/-- The entries that are left, and then the end of the instruction. -/
theorem Dev.vstGo_of_serves (hx : x.vecHead oVST = some e) {m k : Nat} (hm : k + m = VWord.n e.word) {d : Dev} (h : VstAfter x e a k (d.tile t)) :
    ∃ y, VstAfter x e a (VWord.n e.word) y ∧ Dev.vstGo t (m + 1) d = d.setTile t (y.vecDone { e with prog := VWord.n e.word } 0) := by
  have hh := h.gate.vecHead hx h.queue
  induction m generalizing k d with
  | zero =>
    obtain rfl : k = VWord.n e.word := by omega
    refine ⟨d.tile t, h, ?_⟩
    simp only [Dev.vstGo, hh, ge_iff_le, le_refl, if_true, Dev.modTile]
  | succ m ih =>
    have hlen : ((d.tile t).ocRead (256 * (VWord.va e.word + k)) 256).length = 256 := length_block ..
    have hs : AgServes (d.tile t) (VWord.ag e.word) 1 (fun _ => ((d.tile t).ocRead (256 * (VWord.va e.word + k)) 256).length) fun _ => a k := by
      rw [hlen]
      exact AgServes.first (h.serve m (by omega))
    have hw := Dev.unitWrite_of_agServes hs
    have hnext := h.next
    obtain ⟨y, hy, hgo⟩ := ih (k := k + 1) (d := d.setTile t ((d.tile t).storeEntryAt e k (a k))) (by omega) (by rwa [Dev.tile_setTile_self])
      (by rw [Dev.tile_setTile_self]; exact hnext.gate.vecHead hx hnext.queue)
    refine ⟨y, hy, ?_⟩
    rw [Dev.setTile_setTile] at hgo
    rw [← hgo, Dev.vstGo, hh]
    dsimp only
    rw [if_neg (by omega), hw]
    simp only [Dev.modTile, Dev.tile_setTile_self, Dev.setTile_setTile]
    rfl

theorem vst_completes {s : State} (h : VecAt s t oVST e) (ha : AgServes (s.dev.tile t) (VWord.ag e.word) (VWord.n e.word) (fun _ => 256) a) :
    Completes (.vst t) s fun d' => OnlyTile t s.dev d' ∧ VecComplete t e 0 s.dev d' ∧
      (∀ k i, k < VWord.n e.word → i < 256 → (∀ l, k < l → l < VWord.n e.word → a k + i < a l ∨ a l + 256 ≤ a k + i) →
        Memory.read (d'.tile t).spad (a k + i) = OcBytes (s.dev.tile t) (256 * (VWord.va e.word + k) + i)) ∧
      (∀ b, (∀ k, k < VWord.n e.word → b < a k ∨ a k + 256 ≤ b) → Memory.read (d'.tile t).spad b = Memory.read (s.dev.tile t).spad b) ∧
      (d'.tile t).ocache = (s.dev.tile t).ocache := by
  obtain ⟨ht, hh, hp⟩ := h
  have h0 : VstAfter (s.dev.tile t) e a 0 (s.dev.tile t) :=
    ⟨.zero hh hp ha, rfl, rfl, fun k i hk => absurd hk (Nat.not_lt_zero k), fun _ _ => rfl⟩
  obtain ⟨y, hy, hgo⟩ := Dev.vstGo_of_serves hh (Nat.zero_add _) h0
  refine completes_of_vec ht hh rfl hgo ⟨Dev.onlyTile_setTile .., vecComplete_vecDone _ hy.queue _, ?_⟩
  rw [Dev.tile_setTile_self, Tile.vecDone_spad, Tile.vecDone_ocache]
  obtain ⟨hin, hout⟩ := hy.written
  rw [length_storedEntries] at hin hout
  refine ⟨fun k i hk hi hl => ?_, fun b hb => hout b fun k hk => ?_, hy.ocache⟩
  · rw [hin k i hk (by rwa [getD_storedEntries hk, length_block]) fun l hkl hln => ?_, getD_storedEntries hk, getD_block hi]
    rw [getD_storedEntries hln, length_block]
    exact hl l hkl hln
  · rw [getD_storedEntries hk, length_block]
    exact hb k hk

end

/-! ### Items into the cache (06 R149, R150) -/

/-- The context is stored, and at most an event is set. -/
theorem Tile.putQc_eq (x : Tile) (n : Nat) (q : QCtx) : x.putQc n q = x.setQc n q ∨ x.putQc n q = (x.setQc n q).event 4 := by
  unfold Tile.putQc
  dsimp only
  split
  · exact .inr rfl
  · exact .inl rfl

@[simp] theorem Tile.qc_putQc_self (x : Tile) (n : Nat) (q : QCtx) : (x.putQc n q).qc n = q := by
  obtain h | h := x.putQc_eq n q <;> rw [h]
  · exact x.qc_setQc_self n q
  · exact x.qc_setQc_self n q

@[simp] theorem Tile.putQc_ocache (x : Tile) (n : Nat) (q : QCtx) : (x.putQc n q).ocache = x.ocache := by
  obtain h | h := x.putQc_eq n q <;> rw [h] <;> rfl

/-- The tile once the item `i` that left `y` of `x` is in the cache, and its header in the registers. -/
def Tile.itemLoaded (y x : Tile) (v : VWord) (i : RxItem) : Tile :=
  let q := x.qc v.qid
  let h := rdNat (x.itemWords q i 0 1) 0 16
  ((y.ocWrite (256 * v.vd) (slice (x.payload q i) 0 (256 * cdiv (i.words - 1) 16))).setReg Reg.SPAD_QHDR0 (BitVec.ofNat 64 h)).setReg
    Reg.SPAD_QHDR1 (BitVec.ofNat 64 (h / 2 ^ 64))

section

variable {s : State} {t : Nat} {e : VecEntry} {i : RxItem}

theorem vldq_exec (ht : t < Config.nTiles) (hh : (s.dev.tile t).vecHead oVLDQ = some e)
    (hrx : ((s.dev.tile t).qc (VWord.qid e.word)).rx = true) (hi : ((s.dev.tile t).qc (VWord.qid e.word)).head? = some i) (ha : i.arrived = i.words)
    (hp : (s.dev.tile t).parInv = []) (hn : cdiv (i.words - 1) 16 ≤ VWord.n e.word) :
    ∃ y, (s.dev.tile t).qTake (VWord.qid e.word) = some (i, y) ∧
      exec (.vldq t Upset.none) s = .next ⟨s.dev.setTile t ((y.itemLoaded (s.dev.tile t) e.word i).vecDone e 0), s.pending⟩ := by
  have htake := Tile.qTake_some.mpr ⟨hi, ⟨hrx, ha⟩, rfl⟩
  refine ⟨_, htake, ?_⟩
  generalize Tile.putQc _ _ _ = y at htake
  have hpy : y.parInv = [] := (Tile.qTake_keeps Tile.parInv (fun _ _ _ => rfl) (fun _ _ _ => rfl) htake).trans hp
  have hc : ∀ d : Dev, Dev.spadChecks (itemReads t ((s.dev.tile t).qc (VWord.qid e.word)) i) (d.setTile t y) = (d.setTile t y, false) := fun d =>
    Dev.spadChecks_itemReads (by rw [Dev.tile_setTile_self, hpy]) _ _
  have hav : ((s.dev.tile t).qc (VWord.qid e.word)).avail = true := by simp [QCtx.avail, hi, ha]
  refine (onUnit_of_lt s _ ht).trans ?_
  simp only [hh, Dev.upset_none, hrx, hav, hi, htake, hc, not_lt.mpr hn]
  simp [Dev.modTile, Tile.itemLoaded]

/-- An item that does not fit stays, and sets LONG. -/
theorem vldq_long_exec (ht : t < Config.nTiles) (hh : (s.dev.tile t).vecHead oVLDQ = some e)
    (hrx : ((s.dev.tile t).qc (VWord.qid e.word)).rx = true) (hi : ((s.dev.tile t).qc (VWord.qid e.word)).head? = some i) (ha : i.arrived = i.words)
    (hn : VWord.n e.word < cdiv (i.words - 1) 16) : exec (.vldq t Upset.none) s = .next ⟨s.dev.setTile t (((s.dev.tile t).putQc (VWord.qid e.word)
      { (s.dev.tile t).qc (VWord.qid e.word) with w3 := setBit ((s.dev.tile t).qc (VWord.qid e.word)).w3 47 }).vecDone e 0), s.pending⟩ := by
  have hav : ((s.dev.tile t).qc (VWord.qid e.word)).avail = true := by simp [QCtx.avail, hi, ha]
  refine (onUnit_of_lt s _ ht).trans ?_
  simp only [hh, Dev.upset_none, hrx, hav, hi]
  simp [Dev.modTile, hn]

end

theorem QCtx.afterTake_items {q : QCtx} (h : q.retain = false) (i : RxItem) (k : Nat) : (q.afterTake i k).items = q.items.drop 1 :=
  congrArg QCtx.items (if_neg (by rw [QCtx.retain] at h ⊢; simp [h]))

section

variable (y x : Tile) (v : VWord) (i : RxItem)

theorem Tile.itemLoaded_qc (n : Nat) : (y.itemLoaded x v i).qc n = y.qc n := rfl

theorem Tile.itemLoaded_ocRead : (y.itemLoaded x v i).ocRead (256 * v.vd) (256 * cdiv (i.words - 1) 16) =
    slice (x.payload (x.qc v.qid) i) 0 (256 * cdiv (i.words - 1) 16) :=
  block_ocWrite y _ (length_slice ..)

theorem Tile.itemLoaded_hdr : (y.itemLoaded x v i).reg Reg.SPAD_QHDR0 = BitVec.ofNat 64 (rdNat (x.itemWords (x.qc v.qid) i 0 1) 0 16) ∧
    (y.itemLoaded x v i).reg Reg.SPAD_QHDR1 = BitVec.ofNat 64 (rdNat (x.itemWords (x.qc v.qid) i 0 1) 0 16 / 2 ^ 64) :=
  ⟨(Tile.reg_setReg_ne _ _ _ (by decide)).trans (Tile.reg_setReg_self ..), Tile.reg_setReg_self ..⟩

end

/-- Settles O24: VLD and VST entry by entry (`VldAfter`, `VstAfter`), VLDQ by what `qTake` gives, or by the length of the item. -/
theorem vectorTransfers : Obligations.VectorTransfers := by
  refine ⟨fun s t a e => ⟨fun h => ?vnop, vld_completes, vst_completes⟩, fun s t e i ht hh hrx hi ha hp => ⟨fun hn => ?vldq, fun hn => ?long⟩⟩
  case vnop =>
    obtain ⟨l, hl⟩ := vecAt_vecQ h
    obtain ⟨ht, hh, -⟩ := h
    refine completes_of_vec ht hh rfl rfl ⟨Dev.onlyTile_setTile .., vecComplete_vecDone e.prog ?_ _, ?_⟩
    · rw [hl]
      rfl
    · rw [Dev.modTile, Dev.tile_setTile_self, Tile.vecDone_ocache, Tile.vecDone_spad, Tile.vecDone_regs]
      exact ⟨rfl, rfl, rfl⟩
  case vldq =>
    obtain ⟨y, htake, hexec⟩ := vldq_exec ht hh hrx hi ha hp hn
    obtain ⟨-, -, rfl⟩ := Tile.qTake_some.mp htake
    refine ⟨_, hexec, Dev.onlyTile_setTile .., ?_⟩
    rw [Dev.tile_setTile_self, ocRead_eq_block, Tile.vecDone_ocBytes, Tile.vecDone_reg, Tile.vecDone_reg, Tile.vecDone_qc, Tile.itemLoaded_qc,
      Tile.qc_putQc_self]
    obtain ⟨h0, h1⟩ := Tile.itemLoaded_hdr _ (s.dev.tile t) e.word i
    exact ⟨Tile.itemLoaded_ocRead .., h0, h1, fun hr => QCtx.afterTake_items hr ..⟩
  case long =>
    refine ⟨_, vldq_long_exec ht hh hrx hi ha hn, Dev.onlyTile_setTile .., ?_⟩
    rw [Dev.tile_setTile_self, Tile.vecDone_qc, Tile.qc_putQc_self, Tile.vecDone_ocache, Tile.putQc_ocache]
    exact ⟨bit_setBit_self _ _ (by decide), rfl, rfl⟩

end Sys2Proof.Machine

/-! ### An item from the cache (06 R145) -/

namespace Sys2Proof.Machine

open Sys2Proof Sys2Proof.Claims

/-- What packets that leave a tile do not touch: all but its scratchpad, its registers, its flows and what waits or is held. -/
def OffSend {α : Type} (F : Tile → α) : Prop := ∀ (x : Tile) sp pi rg rp ra tw fs,
  F { x with spad := sp, parInv := pi, regs := rg, replay := rp, replayAt := ra, txWait := tw, flowSeq := fs } = F x

section

variable {α : Type} {F : Tile → α}

theorem OffSend.hold (hF : OffSend F) (x : Tile) (route : Nat) (p : Packet) (now : Nat) : F (x.hold route p now) = F x := by
  unfold Tile.hold
  dsimp only
  refine (hF _ _ _ _ _ _ _ _).trans (Tile.foldl_keeps (fun y b => ?_) _ x)
  split
  · exact hF y _ _ y.regs y.replay y.replayAt y.txWait y.flowSeq
  · rfl

theorem OffSend.txGo (hF : OffSend F) (t n : Nat) (d : Dev) : F ((Dev.txGo t n d).tile t) = F (d.tile t) := by
  induction n generalizing d with
  | zero => rfl
  | succ n ih =>
    have left : ∀ (x : Tile) (l : List Flight), F x = F (d.tile t) → F ((Dev.txGo t n { d.setTile t x with flying := l }).tile t) = F (d.tile t) :=
      fun x l hx => (ih _).trans ((congrArg F (d.tile_setTile_self t x)).trans hx)
    have hw : ∀ rest, F { d.tile t with txWait := rest } = F (d.tile t) := fun rest =>
      hF (d.tile t) (d.tile t).spad (d.tile t).parInv (d.tile t).regs (d.tile t).replay (d.tile t).replayAt rest (d.tile t).flowSeq
    unfold Dev.txGo
    dsimp only
    split
    · rfl
    · split
      · exact left _ _ (hw _)
      · split
        · exact left _ _ ((hF.hold ..).trans (hw _))
        · have hc : (d.countFree t Reg.MESH_REPLAY_WAIT).tile t = (d.tile t).modReg Reg.MESH_REPLAY_WAIT fun v => addCnt v 0 64 d.free :=
            d.tile_modTile_self t fun x => x.modReg Reg.MESH_REPLAY_WAIT fun v => addCnt v 0 64 d.free
          rw [hc]
          exact hF (d.tile t) (d.tile t).spad (d.tile t).parInv _ (d.tile t).replay (d.tile t).replayAt (d.tile t).txWait (d.tile t).flowSeq

theorem OffSend.sendItem (hF : OffSend F) (hQ : ∀ x n q, F (Tile.setQc x n q) = F x) {d : Dev} {t q : Nat} (bs : List Byte)
    (h : (d.routeAlt (fld ((d.tile t).qc q).w1 48 16)).isSome = true) : F ((d.sendItem t q bs).tile t) = F (d.tile t) := by
  obtain ⟨a, ha⟩ := Option.isSome_iff_exists.mp h
  unfold Dev.sendItem
  simp only [ha]
  refine (hF.txGo ..).trans ?_
  rw [Dev.tile_setTile_self, Dev.tile_setTile_self]
  exact (hF (Tile.setQc _ _ _) _ _ _ _ _ _ _).trans (hQ ..)

end

theorem vstq_completes {s : State} {t : Nat} {e : VecEntry} (h : VecAt s t oVSTQ e)
    (hr : (s.dev.routeAlt (fld ((s.dev.tile t).qc (VWord.qid e.word)).w1 48 16)).isSome = true) : Completes (.vstq t) s fun d' =>
      VecComplete t e 0 s.dev d' ∧
      fld ((d'.tile t).qc (VWord.qid e.word)).w2 0 16 = (fld ((s.dev.tile t).qc (VWord.qid e.word)).w2 0 16 + 1) % 2 ^ 16 ∧
      fld ((d'.tile t).qc (VWord.qid e.word)).w3 0 32 = min (fld ((s.dev.tile t).qc (VWord.qid e.word)).w3 0 32 + 1) (2 ^ 32 - 1) ∧
      (d'.tile t).ocache = (s.dev.tile t).ocache := by
  obtain ⟨l, hl⟩ := vecAt_vecQ h
  obtain ⟨ht, hh, -⟩ := h
  generalize hbs : (s.dev.tile t).ocRead (256 * VWord.va e.word) (256 * VWord.n e.word) = bs
  obtain ⟨-, hoff⟩ := Dev.sendItem_keeps bs hr
  simp only [Tile.offRouter, Prod.mk.injEq] at hoff
  obtain ⟨-, -, -, hqctx, -⟩ := hoff
  have hqc : ((s.dev.sendItem t (VWord.qid e.word) bs).tile t).qc (VWord.qid e.word) = ((s.dev.tile t).qc (VWord.qid e.word)).sentOne := by
    rw [Tile.qc, hqctx]
    exact Tile.qc_setQc_self ..
  have hq : ((s.dev.sendItem t (VWord.qid e.word) bs).tile t).vecQ = (s.dev.tile t).vecQ :=
    OffSend.sendItem (F := Tile.vecQ) (fun _ _ _ _ _ _ _ _ => rfl) (fun _ _ _ => rfl) bs hr
  have hoc : ((s.dev.sendItem t (VWord.qid e.word) bs).tile t).ocache = (s.dev.tile t).ocache :=
    OffSend.sendItem (F := Tile.ocache) (fun _ _ _ _ _ _ _ _ => rfl) (fun _ _ _ => rfl) bs hr
  refine completes_of_vec (d' := (s.dev.sendItem t (VWord.qid e.word) bs).modTile t fun x => x.vecDone e 0) ht hh rfl (hbs ▸ rfl)
    ⟨vecComplete_vecDone e.prog ?_ _, ?_⟩
  · rw [hq, hl]
    rfl
  · rw [Dev.modTile, Dev.tile_setTile_self, Tile.vecDone_qc, Tile.vecDone_ocache, hqc]
    obtain ⟨h2, h3⟩ := QCtx.sentOne_counts (c := (s.dev.tile t).qc (VWord.qid e.word)) (c₀ := (s.dev.tile t).qc (VWord.qid e.word)) (n := 0)
      (Nat.mod_eq_of_lt (fld_lt ..)).symm (min_eq_left (Nat.le_sub_one_of_lt (fld_lt ..))).symm
    exact ⟨h2, h3, hoc⟩

end Sys2Proof.Machine

/-! ### SETM (05 R114) -/

namespace Sys2Proof.Machine

open Sys2Proof Sys2Proof.Claims

/-- The mask `m` with the bits of the elements that `en` enables. -/
def maskSet (en : W64) (m : W64) (y : Nat × Nat) : W64 := if bit en y.2 then putBit m y.2 (decide (y.1 ≠ 0)) else m

theorem getLsbD_putBit {m : W64} {k j : Nat} (hk : k < 64) (b : Bool) : (putBit m k b).getLsbD j = if j = k then b else m.getLsbD j := by
  split
  · rename_i h
    subst h
    exact bit_putBit_self m j b hk
  · rename_i h
    exact bit_putBit_ne m b (Ne.symm h)

theorem getLsbD_foldl_maskSet (en : W64) (xs : List Nat) (k : Nat) (m : W64) (h : k + xs.length ≤ 64) (j : Nat) :
    ((xs.zipIdx k).foldl (maskSet en) m).getLsbD j =
      if (k ≤ j ∧ j < k + xs.length) ∧ en.getLsbD j = true then decide (xs.getD (j - k) 0 ≠ 0) else m.getLsbD j := by
  induction xs generalizing k m with
  | nil => exact (if_neg (by simp only [List.length_nil]; omega)).symm
  | cons x xs ih =>
    rw [List.length_cons] at h
    have hm : (maskSet en m (x, k)).getLsbD j = if j = k ∧ en.getLsbD j = true then decide (x ≠ 0) else m.getLsbD j := by
      have hset : maskSet en m (x, k) = if en.getLsbD k = true then putBit m k (decide (x ≠ 0)) else m := rfl
      rw [hset]
      by_cases hj : j = k
      · subst hj
        by_cases he : en.getLsbD j = true
        · rw [if_pos he, getLsbD_putBit (by omega), if_pos rfl, if_pos ⟨rfl, he⟩]
        · rw [if_neg he, if_neg fun c => he c.2]
      · rw [if_neg fun c : j = k ∧ _ => hj c.1]
        split
        · rw [getLsbD_putBit (by omega), if_neg hj]
        · rfl
    rw [List.zipIdx_cons, List.foldl_cons, ih (k + 1) _ (by omega), hm]
    by_cases hj : j = k
    · subst hj
      rw [if_neg (by omega)]
      simp
    · by_cases hin : k + 1 ≤ j ∧ j < k + 1 + xs.length
      · have hsub : j - k = j - (k + 1) + 1 := by omega
        have hin' : k ≤ j ∧ j < k + (x :: xs).length := by simp only [List.length_cons]; omega
        simp only [hin, hin', hj, hsub, List.getD_cons_succ, true_and, false_and, and_self, if_false]
      · have hin' : ¬ (k ≤ j ∧ j < k + (x :: xs).length) := by simp only [List.length_cons]; omega
        simp only [hin, hin', hj, false_and, if_false]

theorem setm_completes {s : State} {t : Nat} {e : VecEntry} (h : VecAt s t oSETM e) : Completes (.setm t) s fun d' =>
    OnlyTile t s.dev d' ∧ VecComplete t e 0 s.dev d' ∧ (d'.tile t).ocache = (s.dev.tile t).ocache ∧
      ∀ j, j < 64 → ((d'.tile t).reg (Reg.VE_LMASK + 8 * (VWord.vc e.word % 8))).getLsbD j =
        if e.lmask.getLsbD j then decide (((s.dev.tile t).ocElems (VWord.va e.word) 32).getD j 0 ≠ 0)
        else ((s.dev.tile t).reg (Reg.VE_LMASK + 8 * (VWord.vc e.word % 8))).getLsbD j := by
  obtain ⟨l, hl⟩ := vecAt_vecQ h
  obtain ⟨ht, hh, -⟩ := h
  refine completes_of_vec ht hh rfl rfl ⟨Dev.onlyTile_setTile .., vecComplete_vecDone e.prog ?_ _, ?_⟩
  · rw [Tile.modReg_vecQ, hl]
    rfl
  · rw [Dev.modTile, Dev.tile_setTile_self, Tile.vecDone_ocache, Tile.vecDone_reg, Tile.reg_modReg_self]
    refine ⟨rfl, fun j hj => ?_⟩
    have hlen : ((s.dev.tile t).ocElems (VWord.va e.word) 32).length = 64 := by simp [Tile.ocElems]
    refine (getLsbD_foldl_maskSet e.lmask _ 0 _ (by rw [hlen]) j).trans ?_
    rw [hlen, Nat.sub_zero, Nat.zero_add]
    simp only [Nat.zero_le, hj, and_self, true_and]

end Sys2Proof.Machine

/-! ### RED, RAND, XADD and XCVT (05 R120, R126 to R128) -/

namespace Sys2Proof.Machine

open Sys2Proof Sys2Proof.Claims

theorem zipIdx_map_range {α : Type} (F : Nat → Nat) (G : Nat × Nat → α) (n : Nat) :
    (((List.range n).map F).zipIdx).map G = (List.range n).map fun j => G (F j, j) :=
  List.ext_getElem (by simp) fun i _ _ => by simp

section

variable {s : State} {t : Nat} {e : VecEntry}

/-- The elements that RED reduces: a masked one is the identity (R112). -/
def redInput (e : VecEntry) (w i : Nat) (oc : Nat → Byte) : List Nat :=
  (List.range (2048 / w)).map fun j => if e.lmask.getLsbD (j % 64) then El oc w (VWord.va e.word + i) j else redId (VWord.ty e.word) (VWord.fn e.word)

/-- The tree over them. -/
def redOut (e : VecEntry) (w i : Nat) (oc : Nat → Byte) : Nat × VFlags :=
  redTree (redFn (VWord.ty e.word) (VWord.fn e.word)) (Nat.log2 (2048 / w)) (redInput e w i oc)

/-- Unit `i` of a RED. -/
def redUnit (e : VecEntry) (w i : Nat) (y : Tile) : Tile × VFlags :=
  let xs := ((y.ocElems (VWord.va e.word + i) w).zipIdx).map fun p => if bit e.lmask (p.2 % 64) then p.1 else redId (VWord.ty e.word) (VWord.fn e.word)
  let r := redTree (redFn (VWord.ty e.word) (VWord.fn e.word)) (Nat.log2 (2048 / w)) xs
  (y.ocPut (VWord.vd e.word + i) w (r.1 :: List.replicate (2048 / w - 1) 0), r.2)

theorem redUnit_eq {w : Nat} (hw : FillsEntry w) (i : Nat) (y : Tile) : redUnit e w i y =
    (y.ocPut (VWord.vd e.word + i) w ((redOut e w i (OcBytes y)).1 :: List.replicate (2048 / w - 1) 0), (redOut e w i (OcBytes y)).2) := by
  have hxs : (((y.ocElems (VWord.va e.word + i) w).zipIdx).map fun p => if bit e.lmask (p.2 % 64) then p.1 else redId (VWord.ty e.word) (VWord.fn e.word)) =
      redInput e w i (OcBytes y) := by
    rw [ocElems_eq hw, zipIdx_map_range]
    rfl
  unfold redUnit
  rw [hxs]
  rfl

theorem red_completes (h : VecAt s t oRED e) : Completes (.red t) s (UnitsInOrder t e (fun i oc oc' fl =>
    let w := laneWidth (VWord.ty e.word)
    let r := redOut e w i oc
    fl = r.2 ∧ OnlyBytes (256 * (VWord.vd e.word + i)) 256 oc oc' ∧ El oc' w (VWord.vd e.word + i) 0 = r.1 % 2 ^ w ∧
      ∀ j, 0 < j → j < 2048 / w → El oc' w (VWord.vd e.word + i) j = 0) s.dev) := by
  refine completes_unitsInOrder h rfl (f := redUnit e (laneWidth (VWord.ty e.word))) rfl (fun _ _ => ⟨_, rfl⟩) fun i y _ => ?_
  have hw := fillsEntry_laneWidth (VWord.ty e.word)
  generalize laneWidth (VWord.ty e.word) = w at *
  dsimp only
  have hpos := hw.pos
  have hlen : ((redOut e w i (OcBytes y)).1 :: List.replicate (2048 / w - 1) 0).length = 2048 / w := by
    rw [List.length_cons, List.length_replicate]
    omega
  rw [redUnit_eq hw]
  refine ⟨rfl, onlyBytes_ocPut hw y hlen, el_ocPut hw y hlen hpos, fun j h0 hj => ?_⟩
  obtain ⟨j, rfl⟩ := Nat.exists_eq_succ_of_ne_zero h0.ne'
  have hz : (List.replicate (2048 / w - 1) 0).getD j 0 = 0 := by
    rw [List.getD_replicate]
    omega
  rw [el_ocPut hw y hlen hj, List.getD_cons_succ, hz, Nat.zero_mod]

/-- An instruction whose units each write one run of bytes: what `UnitsInOrder` says of unit `i` follows from the bytes and flags. -/
theorem completes_writes {c : Instr} {op : Nat} {a n : Nat → Nat} {bs : Nat → (Nat → Byte) → List Byte} {fl : Nat → (Nat → Byte) → VFlags}
    {g : Tile → VecEntry → Tile × VFlags} {f : Nat → Tile → Tile × VFlags} (h : VecAt s t op e) (hx : exec c s = onVecT t op s g)
    (hg : g (s.dev.tile t) e = vecUnits (VWord.n e.word) f (s.dev.tile t)) (ho : ∀ i y, OnlyCache y (f i y).1)
    (hf : ∀ i y, OnlyCache (s.dev.tile t) y → f i y = (y.ocWrite (a i) (bs i (OcBytes y)), fl i (OcBytes y))) (hn : ∀ i oc, (bs i oc).length = n i) :
    Completes c s (UnitsInOrder t e (fun i oc oc' l => l = fl i oc ∧ OnlyBytes (a i) (n i) oc oc' ∧ Block oc' (a i) (n i) = bs i oc) s.dev) :=
  completes_unitsInOrder h hx hg ho fun i y hy => by
    rw [hf i y hy]
    exact ⟨rfl, onlyBytes_ocWrite y _ (hn i _), block_ocWrite y _ (hn i _)⟩

theorem rand_completes (h : VecAt s t oRAND e) : Completes (.rand t) s (UnitsInOrder t e (fun i oc oc' fl =>
    let w := laneWidth (VWord.ty e.word)
    let r := randUnit (VWord.ty e.word) e.seed t e.pos e.stream ((s.dev.tile t).reg Reg.SCB_STEP) i
    fl = 0 ∧ OnlyBytes (256 * (VWord.vd e.word + i)) (w / 8 * r.length) oc oc' ∧
      Block oc' (256 * (VWord.vd e.word + i)) (w / 8 * r.length) = r.flatMap (leBytes (w / 8))) s.dev) :=
  completes_writes h rfl
    (f := fun i y => (y.ocPut (VWord.vd e.word + i) (laneWidth (VWord.ty e.word))
      (randUnit (VWord.ty e.word) e.seed t e.pos e.stream (y.reg Reg.SCB_STEP) i), 0)) (fl := fun _ _ => 0)
    rfl (fun _ _ => ⟨_, rfl⟩) (fun i y hy => by rw [hy.reg]; rfl) fun i _ => length_flatMap_leBytes ..

theorem xadd_vec_completes (h : VecAt s t oXADD e) : Completes (.xadd t) s (UnitsInOrder t e (fun i oc oc' fl =>
    let v : VWord := e.word
    let r := Xps.add (Xps.parse (Block oc (256 * (v.va + 3 * i)) 528)) (Xps.parse (Block oc (256 * (if v.bcb then v.vb else v.vb + 3 * i)) 528))
    fl = r.2 ∧ OnlyBytes (256 * (v.vd + 3 * i)) 768 oc oc' ∧ Block oc' (256 * (v.vd + 3 * i)) 768 = slice r.1.bytes 0 768) s.dev) :=
  completes_writes h rfl rfl (fun _ _ => ⟨_, rfl⟩) (fun _ _ _ => rfl) fun _ _ => length_slice ..

theorem length_toFp32 (a : Xps) (oe : Int) : (a.toFp32 oe).1.length = 32 := by simp [Xps.toFp32]

theorem xcvt_completes (h : VecAt s t oXCVT e) : Completes (.xcvt t) s (UnitsInOrder t e (fun i oc oc' fl =>
    let v : VWord := e.word
    let r := (Xps.parse (Block oc (256 * (v.va + 3 * i)) 528)).toFp32 e.oe
    let b := 256 * (v.vd + i / 2) + 128 * (i % 2)
    fl = r.2 ∧ OnlyBytes b 128 oc oc' ∧ Block oc' b 128 = r.1.flatMap (leBytes 4)) s.dev) :=
  completes_writes h rfl rfl (fun _ _ => ⟨_, rfl⟩) (fun _ _ _ => rfl) fun _ _ => by rw [length_flatMap_leBytes, length_toFp32]

end

end Sys2Proof.Machine

/-! ### Retirement (05 R122, R123) -/

namespace Sys2Proof.Machine

open Sys2Proof Sys2Proof.Claims

/-- The tile once the head `e` has left the queue `e :: rest` with its flags. -/
def Tile.vecRetired (x : Tile) (e : VecEntry) (rest : List VecEntry) : Tile :=
  { (({ x with vecQ := rest } : Tile).count Reg.VE_RETIRED 1).modReg Reg.VE_FLAGS fun f => f ||| e.flags.setWidth 64 with
    exWindow := x.exWindow || bit e.flags 6 }

theorem Tile.vecRetired_regs (x : Tile) (e : VecEntry) (rest : List VecEntry) :
    (x.vecRetired e rest).reg Reg.VE_FLAGS = x.reg Reg.VE_FLAGS ||| e.flags.zeroExtend 64 ∧
      (x.vecRetired e rest).reg Reg.VE_RETIRED = addCnt (x.reg Reg.VE_RETIRED) 0 64 1 := by
  have hreg : ∀ a, (x.vecRetired e rest).reg a = ((x.count Reg.VE_RETIRED 1).modReg Reg.VE_FLAGS fun f => f ||| e.flags.setWidth 64).reg a :=
    fun _ => rfl
  have hne : Reg.VE_FLAGS ≠ Reg.VE_RETIRED := by decide
  rw [hreg, hreg, Tile.reg_modReg_self, Tile.reg_modReg_ne _ _ _ hne.symm, Tile.count, Tile.reg_modReg_ne _ _ _ hne, Tile.reg_modReg_self]
  exact ⟨rfl, rfl⟩

/-- The flags that are enabled in VE_TRAPEN raise VE_FLAG. -/
def Tile.vecTrapped (x : Tile) (e : VecEntry) : Tile :=
  let en := e.flags &&& BitVec.ofNat 7 (x.reg Reg.VE_TRAPEN).toNat
  if en ≠ 0 then x.raise .veFlag (BitVec.ofNat 32 (en.toNat + VWord.op e.word * 256)) else x

theorem Tile.vecTrapped_frame (x : Tile) (e : VecEntry) : ∃ sc, x.vecTrapped e = { x with scb := sc } := by
  unfold Tile.vecTrapped
  dsimp only
  split
  · exact x.raise_frame ..
  · exact ⟨x.scb, rfl⟩

theorem exec_vecRetire {s : State} {t : Nat} {e : VecEntry} {rest : List VecEntry} (ht : t < Config.nTiles) (hq : (s.dev.tile t).vecQ = e :: rest)
    (hd : e.done = true) : exec (.vecRetire t) s = .next ⟨s.dev.setTile t (if VWord.ev e.word then
      (((s.dev.tile t).vecRetired e rest).vecTrapped e).event 1 else ((s.dev.tile t).vecRetired e rest).vecTrapped e), s.pending⟩ := by
  refine (onUnit_of_lt s _ ht).trans ?_
  rw [Dev.modTile]
  simp only [hq, hd, Bool.true_eq_false, if_false]
  rfl

theorem vecRetire_completes {s : State} {t : Nat} {e : VecEntry} {rest : List VecEntry} (ht : t < Config.nTiles)
    (hq : (s.dev.tile t).vecQ = e :: rest) (hd : e.done = true) : Completes (.vecRetire t) s fun d' => OnlyTile t s.dev d' ∧
      (d'.tile t).vecQ = rest ∧ (d'.tile t).reg Reg.VE_FLAGS = (s.dev.tile t).reg Reg.VE_FLAGS ||| e.flags.zeroExtend 64 ∧
      (d'.tile t).reg Reg.VE_RETIRED = addCnt ((s.dev.tile t).reg Reg.VE_RETIRED) 0 64 1 ∧
      (VWord.ev e.word = true → bit ((d'.tile t).reg Reg.SCB_EVENT) 1 = true) ∧ (d'.tile t).ocache = (s.dev.tile t).ocache := by
  refine ⟨_, exec_vecRetire ht hq hd, Dev.onlyTile_setTile .., ?_⟩
  rw [Dev.tile_setTile_self]
  generalize s.dev.tile t = x
  obtain ⟨sc, hsc⟩ := (x.vecRetired e rest).vecTrapped_frame e
  obtain ⟨hfl, hre⟩ := x.vecRetired_regs e rest
  rw [hsc]
  split
  · refine ⟨rfl, ?_, ?_, fun _ => ?_, rfl⟩
    · exact (Tile.reg_modReg_ne _ _ _ (by decide)).trans hfl
    · exact (Tile.reg_modReg_ne _ _ _ (by decide)).trans hre
    · rw [Tile.event, Tile.reg_modReg_self]
      exact bit_setBit_self _ _ (by decide)
  · rename_i hev
    exact ⟨rfl, hfl, hre, fun h => absurd h hev, rfl⟩

end Sys2Proof.Machine

/-! ### Packed streams (05 R125)

A stream is read and written bit by bit here: element `j` of width `w` is bits `w * j` to `w * j + w - 1` of the cache from its first entry on. -/

namespace Sys2Proof.Machine

open Sys2Proof Sys2Proof.Claims

/-- Bit `p` of a cache. -/
def ocBit (oc : Nat → Byte) (p : Nat) : Bool := (oc (p / 8)).getLsbD (p % 8)

theorem testBit_leNat (l : List Byte) (p : Nat) : (leNat l).testBit p = (l.getD (p / 8) 0).getLsbD (p % 8) := by
  induction l generalizing p with
  | nil => simp [leNat]
  | cons b l ih =>
    have hb : b.toNat < 2 ^ 8 := b.isLt
    rw [leNat, Nat.add_comm, Nat.testBit_two_pow_mul_add _ hb]
    split
    · rename_i h
      rw [Nat.div_eq_of_lt h, Nat.mod_eq_of_lt h]
      rfl
    · rename_i h
      have hd : p / 8 = (p - 8) / 8 + 1 := by omega
      have hm : (p - 8) % 8 = p % 8 := by omega
      rw [ih, hm, hd, List.getD_cons_succ]

theorem getLsbD_leBytes {n i k : Nat} (x : Nat) (hi : i < n) (hk : k < 8) : ((leBytes n x).getD i 0).getLsbD k = x.testBit (8 * i + k) := by
  induction n generalizing i x with
  | zero => omega
  | succ n ih =>
    cases i with
    | zero =>
      rw [leBytes, List.getD_cons_zero, BitVec.getLsbD_ofNat]
      simp [hk]
    | succ i =>
      have h8 : x / 256 = x / 2 ^ 8 := rfl
      rw [leBytes, List.getD_cons_succ, ih _ (by omega), h8, Nat.testBit_div_two_pow]
      congr 1
      omega

theorem testBit_packNat {w : Nat} (hw : 0 < w) (cs : List Nat) (p : Nat) :
    (packNat w cs).testBit p = (cs.getD (p / w) 0).testBit (p % w) := by
  induction cs generalizing p with
  | nil => simp [packNat]
  | cons c cs ih =>
    rw [packNat, Nat.add_comm, Nat.testBit_two_pow_mul_add _ (Nat.mod_lt _ (Nat.two_pow_pos w))]
    split
    · rename_i h
      rw [Nat.div_eq_of_lt h, Nat.mod_eq_of_lt h, Nat.testBit_mod_two_pow]
      simp [h]
    · rename_i h
      have hp : p = (p - w) + w := by omega
      rw [ih]
      conv_rhs => rw [hp, Nat.add_div_right _ hw, Nat.add_mod_right, List.getD_cons_succ]

section

variable {x y : Tile} {e w j : Nat}

theorem testBit_streamEl (x : Tile) (e w j k : Nat) : (x.streamEl e w j).testBit k = (decide (k < w) && ocBit (OcBytes x) (2048 * e + w * j + k)) := by
  unfold Tile.streamEl
  dsimp only
  rw [Nat.testBit_mod_two_pow, Nat.testBit_div_two_pow, testBit_leNat]
  generalize w * j = q
  by_cases hk : k < w
  · have hlt : (k + q % 8) / 8 < w / 8 + 2 := by omega
    have ha : 256 * e + q / 8 + (k + q % 8) / 8 = (2048 * e + q + k) / 8 := by omega
    have hb : (k + q % 8) % 8 = (2048 * e + q + k) % 8 := by omega
    rw [ocRead_eq_block, getD_block hlt, ha, hb, ocBit]
  · simp [hk]

/-- An element is its bits. -/
theorem streamEl_congr (h : ∀ p, w * j ≤ p → p < w * j + w → ocBit (OcBytes y) (2048 * e + p) = ocBit (OcBytes x) (2048 * e + p)) :
    y.streamEl e w j = x.streamEl e w j := by
  refine Nat.eq_of_testBit_eq fun k => ?_
  rw [testBit_streamEl, testBit_streamEl]
  by_cases hk : k < w
  · rw [Nat.add_assoc, h _ (by omega) (by omega)]
  · simp [hk]

/-- An element of the bits of `c` is `c`. -/
theorem streamEl_eq {c : Nat} (h : ∀ k, k < w → ocBit (OcBytes x) (2048 * e + w * j + k) = c.testBit k) : x.streamEl e w j = c % 2 ^ w := by
  refine Nat.eq_of_testBit_eq fun k => ?_
  rw [testBit_streamEl, Nat.testBit_mod_two_pow]
  by_cases hk : k < w
  · rw [h k hk]
  · simp [hk]

end

theorem tyWidth_pos (ty : Nat) : 0 < tyWidth ty := by
  unfold tyWidth
  split <;> decide

end Sys2Proof.Machine

/-! ### CVT: what it converts (05 R125, 02 R46) -/

namespace Sys2Proof.Machine

open Sys2Proof Sys2Proof.Claims

/-- Element `j` that a CVT to a type without scales converts. -/
def Tile.cvtOne (x : Tile) (v : VWord) (j : Nat) : Nat × VFlags :=
  if tyMx v.ty then mxToFp32 v.ty (x.streamEl v.va (tyWidth v.ty) j) (x.streamEl v.vb 8 (j / 32)) else cvtTo (v.vc % 16) (x.cvtSrc v j)

/-- The block from element `j` on that a CVT to an MX type quantises. -/
def Tile.cvtBlock (x : Tile) (v : VWord) (j : Nat) : Nat × List Nat × VFlags :=
  mxQuantise (v.vc % 16) ((List.range (min 32 (v.cvtE - j))).map fun k => x.cvtSrc v (j + k))

/-- The code of destination element `j`. -/
def Tile.cvtCode (x : Tile) (v : VWord) (j : Nat) : Nat :=
  if tyMx (v.vc % 16) then (x.cvtBlock v (32 * (j / 32))).2.1.getD (j % 32) 0 else (x.cvtOne v j).1

/-- The scale of destination block `b`. -/
def Tile.cvtScale (x : Tile) (v : VWord) (b : Nat) : Nat := (x.cvtBlock v (32 * b)).1

/-- The source elements and scales of a CVT are the same in two tiles. -/
structure SameSource (v : VWord) (x y : Tile) : Prop where
  elems : ∀ j, j < v.cvtE → y.streamEl v.va (tyWidth v.ty) j = x.streamEl v.va (tyWidth v.ty) j
  scales : tyMx v.ty = true → ∀ b, b < cdiv v.cvtE 32 → y.streamEl v.vb 8 b = x.streamEl v.vb 8 b

/-- What has been converted of the source in `x`, and how far: whole blocks where the destination has scales. -/
structure Converted (v : VWord) (x : Tile) (c : CvtAcc) : Prop where
  le : c.codes.length ≤ v.cvtE
  codes : c.codes = (List.range c.codes.length).map (x.cvtCode v)
  scales : c.scales = (List.range (if tyMx (v.vc % 16) then cdiv c.codes.length 32 else 0)).map (x.cvtScale v)
  whole : tyMx (v.vc % 16) = true → c.codes.length < v.cvtE → 32 ∣ c.codes.length

section

variable {v : VWord} {x y : Tile} {c : CvtAcc}

theorem SameSource.cvtSrc (h : SameSource v x y) {j : Nat} (hj : j < v.cvtE) : y.cvtSrc v j = x.cvtSrc v j := by
  unfold Tile.cvtSrc
  dsimp only
  rw [h.elems j hj]
  by_cases hm : tyMx v.ty = true
  · rw [h.scales hm (j / 32) (by unfold cdiv; omega)]
  · rw [if_neg hm, if_neg hm]

theorem SameSource.cvtOne (h : SameSource v x y) {j : Nat} (hj : j < v.cvtE) : y.cvtOne v j = x.cvtOne v j := by
  unfold Tile.cvtOne
  rw [h.elems j hj, h.cvtSrc hj]
  by_cases hm : tyMx v.ty = true
  · rw [h.scales hm (j / 32) (by unfold cdiv; omega)]
  · rw [if_neg hm, if_neg hm]

theorem SameSource.cvtBlock (h : SameSource v x y) (j : Nat) : y.cvtBlock v j = x.cvtBlock v j := by
  unfold Tile.cvtBlock
  refine congrArg _ (List.map_congr_left fun k hk => h.cvtSrc ?_)
  have := List.mem_range.mp hk
  omega

theorem length_mxQuantise (ty : Nat) (vs : List Val) : (mxQuantise ty vs).2.1.length = vs.length := by
  unfold mxQuantise
  split
  · exact List.length_map ..
  · split <;> simp

theorem length_cvtBlock (x : Tile) (v : VWord) (j : Nat) : (x.cvtBlock v j).2.1.length = min 32 (v.cvtE - j) := by
  simp [Tile.cvtBlock, length_mxQuantise]

theorem Converted.nil (v : VWord) (x : Tile) : Converted v x ⟨[], [], 0⟩ where
  le := Nat.zero_le _
  codes := rfl
  scales := by split <;> rfl
  whole _ _ := Nat.dvd_zero _

/-- The next element, or the next block, is converted. -/
theorem Converted.next (h : Converted v x c) (hs : SameSource v x y) (hlt : c.codes.length < v.cvtE) :
    Converted v x (y.cvtNext v c) ∧ c.codes.length < (y.cvtNext v c).codes.length := by
  by_cases hm : tyMx (v.vc % 16) = true
  · obtain ⟨n, hn⟩ := h.whole hm hlt
    have hnext : y.cvtNext v c = ⟨c.codes ++ (x.cvtBlock v (32 * n)).2.1, c.scales ++ [x.cvtScale v n], c.fl ||| (x.cvtBlock v (32 * n)).2.2⟩ := by
      unfold Tile.cvtNext Tile.cvtScale
      dsimp only
      rw [if_pos hm, hn, ← hs.cvtBlock]
      rfl
    have hblock : (x.cvtBlock v (32 * n)).2.1 = (List.range (min 32 (v.cvtE - 32 * n))).map fun k => x.cvtCode v (32 * n + k) := by
      refine List.ext_getElem (by rw [length_cvtBlock, List.length_map, List.length_range]) fun k hk _ => ?_
      rw [length_cvtBlock] at hk
      have hd : (32 * n + k) / 32 = n := by omega
      have hr : (32 * n + k) % 32 = k := by omega
      rw [List.getElem_map, List.getElem_range, Tile.cvtCode, if_pos hm, hd, hr, List.getD_eq_getElem]
    have hlen : (c.codes ++ (x.cvtBlock v (32 * n)).2.1).length = 32 * n + min 32 (v.cvtE - 32 * n) := by
      rw [List.length_append, length_cvtBlock, hn]
    have hsc := h.scales
    rw [hn] at hlt hsc
    rw [hnext]
    refine ⟨⟨?_, ?_, ?_, fun _ hl => ?_⟩, ?_⟩
    · rw [hlen]
      omega
    · rw [hlen, List.range_add, List.map_append, List.map_map, ← hn, ← h.codes, hn, hblock]
      rfl
    · have h0 : cdiv (32 * n) 32 = n := by unfold cdiv; omega
      have h1 : cdiv (32 * n + min 32 (v.cvtE - 32 * n)) 32 = n + 1 := by unfold cdiv; omega
      simp only [hlen, hsc, if_pos hm, h0, h1, List.range_succ, List.map_append, List.map_cons, List.map_nil]
    · rw [hlen] at hl ⊢
      exact ⟨n + 1, by omega⟩
    · rw [hlen, hn]
      omega
  · have hnext : y.cvtNext v c = ⟨c.codes ++ [x.cvtCode v c.codes.length], c.scales, c.fl ||| (x.cvtOne v c.codes.length).2⟩ := by
      unfold Tile.cvtNext Tile.cvtCode
      dsimp only
      rw [if_neg hm, if_neg hm, ← hs.cvtOne hlt]
      rfl
    have hlen : (c.codes ++ [x.cvtCode v c.codes.length]).length = c.codes.length + 1 := by simp
    rw [hnext]
    refine ⟨⟨?_, ?_, ?_, fun hm' _ => absurd hm' hm⟩, ?_⟩
    · rw [hlen]
      exact hlt
    · rw [hlen, List.range_succ, List.map_append, ← h.codes]
      rfl
    · have hsc := h.scales
      rwa [if_neg hm] at hsc ⊢
    · rw [hlen]
      exact Nat.lt_succ_self _

/-- As many elements are converted as an entry needs. -/
theorem Converted.upTo (h : Converted v x c) (hs : SameSource v x y) {n : Nat} (hn : n ≤ v.cvtE) {k : Nat} (hk : n ≤ c.codes.length + k) :
    Converted v x (y.cvtUpTo v n k c) ∧ n ≤ (y.cvtUpTo v n k c).codes.length := by
  induction k generalizing c with
  | zero => exact ⟨h, hk⟩
  | succ k ih =>
    rw [Tile.cvtUpTo]
    split
    · rename_i hge
      exact ⟨h, hge⟩
    · obtain ⟨hnext, hlt⟩ := h.next hs (by omega)
      exact ih hnext (by omega)

/-- Bit `p` of the stream of codes. -/
def cvtBit (x : Tile) (v : VWord) (p : Nat) : Bool :=
  decide (p < v.cvtE * tyWidth (v.vc % 16)) && (x.cvtCode v (p / tyWidth (v.vc % 16))).testBit (p % tyWidth (v.vc % 16))

/-- The codes converted, packed, are the stream as far as they reach. -/
theorem Converted.testBit_pack (h : Converted v x c) {p : Nat}
    (hp : p < c.codes.length * tyWidth (v.vc % 16) ∨ c.codes.length = v.cvtE) : (packNat (tyWidth (v.vc % 16)) c.codes).testBit p = cvtBit x v p := by
  have hw := tyWidth_pos (v.vc % 16)
  rw [testBit_packNat hw, cvtBit]
  generalize tyWidth (v.vc % 16) = w at *
  by_cases hlt : p / w < c.codes.length
  · have hle : p < v.cvtE * w := lt_of_lt_of_le ((Nat.div_lt_iff_lt_mul hw).mp hlt) (Nat.mul_le_mul_right w h.le)
    have hget : c.codes.getD (p / w) 0 = x.cvtCode v (p / w) := by
      rw [h.codes]
      exact getD_map_range hlt
    rw [hget, decide_eq_true hle, Bool.true_and]
  · have hge := mt (Nat.div_lt_iff_lt_mul hw).mpr hlt
    have he : c.codes.length = v.cvtE := hp.resolve_left hge
    rw [he] at hge
    rw [List.getD_eq_default _ _ (Nat.le_of_not_lt hlt), decide_eq_false hge, Nat.zero_testBit, Bool.false_and]

end

end Sys2Proof.Machine

/-! ### CVT: what it writes (05 R117, R125) -/

namespace Sys2Proof.Machine

open Sys2Proof Sys2Proof.Claims

theorem cdiv_le_iff {a b c : Nat} (hb : 0 < b) : cdiv a b ≤ c ↔ a ≤ b * c := by
  rw [cdiv, Nat.div_le_iff_le_mul_add_pred hb]
  omega

/-- The entries and the bytes of the destination of a CVT. -/
def cvtEntries (v : VWord) : Nat := cdiv (v.cvtE * tyWidth (v.vc % 16)) 2048
def cvtBytes (v : VWord) : Nat := cdiv (v.cvtE * tyWidth (v.vc % 16)) 8

/-- The destination entry that holds the last element of block `b`: the scale is written with it. -/
def cvtDue (v : VWord) (b : Nat) : Nat := (tyWidth (v.vc % 16) * (min (32 * b + 32) v.cvtE - 1 + 1) - 1) / 2048

theorem cvtBytes_le (v : VWord) : cvtBytes v ≤ 256 * cvtEntries v := by
  unfold cvtBytes cvtEntries cdiv
  omega

/-- The source elements lie in the entries from VA on. -/
theorem cvtE_mul_le (v : VWord) : tyWidth v.ty * v.cvtE ≤ 2048 * v.n := by
  rw [VWord.cvtE, Nat.mul_comm 2048]
  exact Nat.mul_div_le ..

theorem cvtDue_lt {v : VWord} {b : Nat} (h : b < cdiv v.cvtE 32) : cvtDue v b < cvtEntries v := by
  have hb : 32 * b < v.cvtE := by
    unfold cdiv at h
    omega
  have hle : tyWidth (v.vc % 16) * (min (32 * b + 32) v.cvtE - 1 + 1) ≤ v.cvtE * tyWidth (v.vc % 16) := by
    rw [Nat.mul_comm v.cvtE]
    exact Nat.mul_le_mul_left _ (by omega)
  have hpos : 0 < tyWidth (v.vc % 16) * (min (32 * b + 32) v.cvtE - 1 + 1) := Nat.mul_pos (tyWidth_pos _) (Nat.succ_pos _)
  unfold cvtDue cvtEntries cdiv
  omega

/-- Writes the scale `b.1` of block `b.2` with destination entry `i`. -/
def Tile.scaleWrite (v : VWord) (i : Nat) (y : Tile) (b : Nat × Nat) : Tile :=
  if cvtDue v b.2 = i then y.ocWrite (256 * v.vb + b.2) [BitVec.ofNat 8 b.1] else y

section

variable {v : VWord} {i q : Nat}

theorem ocBytes_scaleWrite (y : Tile) (a b : Nat) :
    OcBytes (y.scaleWrite v i (a, b)) q = if q = 256 * v.vb + b ∧ cvtDue v b = i then BitVec.ofNat 8 a else OcBytes y q := by
  unfold Tile.scaleWrite
  dsimp only
  by_cases hd : cvtDue v b = i
  · rw [if_pos hd, ocBytes_ocWrite]
    by_cases hq : q = 256 * v.vb + b
    · subst hq
      simp [hd]
    · rw [if_neg (by simp only [List.length_singleton]; omega), if_neg fun h => hq h.1]
  · rw [if_neg hd, if_neg fun h => hd h.2]

theorem onlyCache_scaleWrites (l : List (Nat × Nat)) (y : Tile) : OnlyCache y (l.foldl (Tile.scaleWrite v i) y) := by
  induction l generalizing y with
  | nil => exact ⟨y.ocache, rfl⟩
  | cons b l ih =>
    refine OnlyCache.trans ?_ (ih _)
    unfold Tile.scaleWrite
    split
    · exact onlyCache_ocWrite ..
    · exact ⟨y.ocache, rfl⟩

theorem ocBytes_scaleWrites (l : List Nat) (k : Nat) (y : Tile) : OcBytes ((l.zipIdx k).foldl (Tile.scaleWrite v i) y) q =
    if (256 * v.vb + k ≤ q ∧ q < 256 * v.vb + k + l.length) ∧ cvtDue v (q - 256 * v.vb) = i then BitVec.ofNat 8 (l.getD (q - (256 * v.vb + k)) 0)
    else OcBytes y q := by
  induction l generalizing k y with
  | nil => exact (if_neg (by simp only [List.length_nil]; omega)).symm
  | cons a l ih =>
    rw [List.zipIdx_cons, List.foldl_cons, ih, ocBytes_scaleWrite]
    by_cases hq : q = 256 * v.vb + k
    · subst hq
      rw [if_neg (by omega)]
      simp
    · by_cases hin : 256 * v.vb + (k + 1) ≤ q ∧ q < 256 * v.vb + (k + 1) + l.length
      · have hsub : q - (256 * v.vb + k) = q - (256 * v.vb + (k + 1)) + 1 := by omega
        have hin' : 256 * v.vb + k ≤ q ∧ q < 256 * v.vb + k + (a :: l).length := by simp only [List.length_cons]; omega
        simp only [hin, hin', hq, hsub, List.getD_cons_succ, true_and, false_and, and_self, if_false]
      · have hin' : ¬ (256 * v.vb + k ≤ q ∧ q < 256 * v.vb + k + (a :: l).length) := by simp only [List.length_cons]; omega
        simp only [hin, hin', hq, false_and, if_false]

end

/-- The codes that entry `i` needs. -/
def cvtHigh (v : VWord) (i : Nat) : Nat := min v.cvtE (cdiv (2048 * (i + 1)) (tyWidth (v.vc % 16)))

/-- The bytes of entry `i` from the codes `cs`. -/
def cvtEntryBytes (v : VWord) (i : Nat) (cs : List Nat) : List Byte :=
  leBytes (min 256 (cvtBytes v - 256 * i)) (packNat (tyWidth (v.vc % 16)) cs / 2 ^ (2048 * i))

theorem cvtEntry_eq (v : VWord) (i : Nat) (s : Tile × CvtAcc) : Tile.cvtEntry v i s =
    let c := s.1.cvtUpTo v (cvtHigh v i) (cvtHigh v i) s.2
    ((c.scales.zipIdx).foldl (Tile.scaleWrite v i) (s.1.ocWrite (256 * (v.vd + i)) (cvtEntryBytes v i c.codes)), c) := rfl

theorem ocBytes_cvtEntry (v : VWord) (i : Nat) (s : Tile × CvtAcc) (q : Nat) : OcBytes (Tile.cvtEntry v i s).1 q =
    if (256 * v.vb ≤ q ∧ q < 256 * v.vb + (Tile.cvtEntry v i s).2.scales.length) ∧ cvtDue v (q - 256 * v.vb) = i then
      BitVec.ofNat 8 ((Tile.cvtEntry v i s).2.scales.getD (q - 256 * v.vb) 0)
    else if 256 * (v.vd + i) ≤ q ∧ q < 256 * (v.vd + i) + min 256 (cvtBytes v - 256 * i) then
      (cvtEntryBytes v i (Tile.cvtEntry v i s).2.codes).getD (q - 256 * (v.vd + i)) 0
    else OcBytes s.1 q := by
  rw [cvtEntry_eq]
  dsimp only
  rw [ocBytes_scaleWrites, ocBytes_ocWrite, cvtEntryBytes, length_leBytes]
  rfl

/-- The entries that a CVT reads and writes do not meet, where one of several is written before the last is read. -/
structure CvtApart (v : VWord) : Prop where
  source : cvtEntries v ≤ 1 ∨ Apart v.vd (cvtEntries v) v.va v.n
  sourceScales : tyMx v.ty = true → cvtEntries v ≤ 1 ∨ Apart v.vd (cvtEntries v) v.vb (cdiv (cdiv v.cvtE 32) 256)
  scales : tyMx (v.vc % 16) = true → tyMx v.ty = false ∧ (cvtEntries v ≤ 1 ∨ Apart v.vb (cdiv (cdiv v.cvtE 32) 256) v.va v.n) ∧
    Apart v.vb (cdiv (cdiv v.cvtE 32) 256) v.vd (cvtEntries v)

/-- The tile and the conversion after `i` entries of a CVT, which met `x`. -/
structure CvtAfter (v : VWord) (x : Tile) (i : Nat) (s : Tile × CvtAcc) : Prop where
  only : OnlyCache x s.1
  conv : Converted v x s.2
  start : i = 0 → s.1 = x
  out : ∀ p, p < 2048 * i → p < 8 * cvtBytes v → ocBit (OcBytes s.1) (2048 * v.vd + p) = cvtBit x v p
  scales : tyMx (v.vc % 16) = true → ∀ b, b < cdiv v.cvtE 32 → cvtDue v b < i →
    OcBytes s.1 (256 * v.vb + b) = BitVec.ofNat 8 (x.cvtScale v b)
  rest : ∀ q, q < 256 * v.vd ∨ 256 * v.vd + min (256 * i) (cvtBytes v) ≤ q →
    (tyMx (v.vc % 16) = true → q < 256 * v.vb ∨ 256 * v.vb + cdiv v.cvtE 32 ≤ q) → OcBytes s.1 q = OcBytes x q

section

variable {v : VWord} {x : Tile} {i : Nat} {s : Tile × CvtAcc}

theorem CvtAfter.zero (v : VWord) (x : Tile) : CvtAfter v x 0 (x, ⟨[], [], 0⟩) where
  only := ⟨x.ocache, rfl⟩
  conv := .nil v x
  start _ := rfl
  out p hp := absurd hp (Nat.not_lt_zero p)
  scales _ _ _ hb := absurd hb (Nat.not_lt_zero _)
  rest _ _ _ := rfl

/-- What is still to be read of the source stands. -/
theorem CvtAfter.sameSource (h : CvtAfter v x i s) (ha : CvtApart v) (hi : i < cvtEntries v) : SameSource v x s.1 := by
  by_cases h0 : i = 0
  · rw [h.start h0]
    exact ⟨fun _ _ => rfl, fun _ _ _ => rfl⟩
  have hnd : ¬ cvtEntries v ≤ 1 := by omega
  have hsrc : v.vd + cvtEntries v ≤ v.va ∨ v.va + v.n ≤ v.vd := ha.source.resolve_left hnd
  have hB := cvtBytes_le v
  have hns : cdiv v.cvtE 32 ≤ 256 * cdiv (cdiv v.cvtE 32) 256 := (cdiv_le_iff (by decide)).mp le_rfl
  constructor
  · intro j hj
    have hlast : tyWidth v.ty * j + tyWidth v.ty ≤ 2048 * v.n := by
      rw [← Nat.mul_succ]
      exact (Nat.mul_le_mul_left _ hj).trans (cvtE_mul_le v)
    refine streamEl_congr fun p _ hp => ?_
    rw [ocBit, ocBit, h.rest _ (by omega) fun hm => ?_]
    obtain ⟨-, hsc, -⟩ := ha.scales hm
    have hsc : v.vb + cdiv (cdiv v.cvtE 32) 256 ≤ v.va ∨ v.va + v.n ≤ v.vb := hsc.resolve_left hnd
    omega
  · intro hm b hb
    have hsc : v.vd + cvtEntries v ≤ v.vb ∨ v.vb + cdiv (cdiv v.cvtE 32) 256 ≤ v.vd := (ha.sourceScales hm).resolve_left hnd
    refine streamEl_congr fun p _ hp => ?_
    rw [ocBit, ocBit, h.rest _ (by omega) fun hd => ?_]
    obtain ⟨hno, -⟩ := ha.scales hd
    rw [hm] at hno
    cases hno

/-- Block `b`, whose last element lies in entry `i`, is among those converted for entry `i`. -/
theorem Converted.scale_mem {c : CvtAcc} (h : Converted v x c) (hm : tyMx (v.vc % 16) = true) {b : Nat} (hb : b < cdiv v.cvtE 32)
    (hd : cvtDue v b = i) (hc : cvtHigh v i ≤ c.codes.length) : b < c.scales.length ∧ c.scales.getD b 0 = x.cvtScale v b := by
  have hbe : 32 * b < v.cvtE := by
    unfold cdiv at hb
    omega
  have hw := tyWidth_pos (v.vc % 16)
  have hlast : tyWidth (v.vc % 16) * (min (32 * b + 32) v.cvtE - 1 + 1) ≤ 2048 * (i + 1) := by
    unfold cvtDue at hd
    omega
  have hreach : min (32 * b + 32) v.cvtE - 1 + 1 ≤ cdiv (2048 * (i + 1)) (tyWidth (v.vc % 16)) :=
    Nat.le_of_mul_le_mul_left (hlast.trans ((cdiv_le_iff hw).mp le_rfl)) hw
  have hlen : 32 * b < c.codes.length := by
    unfold cvtHigh at hc
    omega
  have hmem : b < cdiv c.codes.length 32 := by
    unfold cdiv
    omega
  have hsc := h.scales
  rw [if_pos hm] at hsc
  rw [hsc]
  exact ⟨by simpa using hmem, getD_map_range hmem⟩

/-- The scales converted are scales of blocks, and there are none where the destination has none. -/
theorem Converted.length_scales {c : CvtAcc} (h : Converted v x c) : c.scales.length ≤ cdiv v.cvtE 32 ∧
    (tyMx (v.vc % 16) = false → c.scales.length = 0) := by
  have hle := h.le
  rw [h.scales, List.length_map, List.length_range]
  split
  · rename_i hm
    refine ⟨?_, fun hf => by rw [hm] at hf; cases hf⟩
    unfold cdiv
    omega
  · exact ⟨Nat.zero_le _, fun _ => rfl⟩

/-- The bits that entry `i` takes from the codes. -/
theorem Converted.bit_entry {c : CvtAcc} (h : Converted v x c) (hc : cvtHigh v i ≤ c.codes.length) {p : Nat} (h0 : 2048 * i ≤ p)
    (h1 : p < 2048 * (i + 1)) (hp : p < 8 * cvtBytes v) : ((cvtEntryBytes v i c.codes).getD (p / 8 - 256 * i) 0).getLsbD (p % 8) = cvtBit x v p := by
  have hw := tyWidth_pos (v.vc % 16)
  rw [cvtEntryBytes, getLsbD_leBytes _ (by omega) (Nat.mod_lt _ (by decide)), Nat.testBit_div_two_pow]
  have hpos : 8 * (p / 8 - 256 * i) + p % 8 + 2048 * i = p := by omega
  rw [hpos]
  refine h.testBit_pack ?_
  have hle := h.le
  by_cases he : cvtHigh v i = v.cvtE
  · exact .inr (by omega)
  · have hr : cdiv (2048 * (i + 1)) (tyWidth (v.vc % 16)) ≤ c.codes.length := by
      unfold cvtHigh at he hc
      omega
    refine .inl (h1.trans_le ?_)
    rw [Nat.mul_comm c.codes.length]
    exact (cdiv_le_iff hw).mp hr

/-- One entry more. -/
theorem CvtAfter.next (h : CvtAfter v x i s) (ha : CvtApart v) (hi : i < cvtEntries v) : CvtAfter v x (i + 1) (Tile.cvtEntry v i s) := by
  obtain ⟨hconv, hhigh⟩ := h.conv.upTo (n := cvtHigh v i) (k := cvtHigh v i) (h.sameSource ha hi) (Nat.min_le_left ..) (Nat.le_add_left ..)
  have hacc : (Tile.cvtEntry v i s).2 = s.1.cvtUpTo v (cvtHigh v i) (cvtHigh v i) s.2 := rfl
  rw [← hacc] at hconv hhigh
  obtain ⟨hsl, hs0⟩ := hconv.length_scales
  have hB := cvtBytes_le v
  have hns : cdiv v.cvtE 32 ≤ 256 * cdiv (cdiv v.cvtE 32) 256 := (cdiv_le_iff (by decide)).mp le_rfl
  have hapart : tyMx (v.vc % 16) = true → v.vb + cdiv (cdiv v.cvtE 32) 256 ≤ v.vd ∨ v.vd + cvtEntries v ≤ v.vb := fun hm => (ha.scales hm).2.2
  refine ⟨?_, hconv, fun h0 => absurd h0 (Nat.succ_ne_zero i), fun p hp hpB => ?_, fun hm b hb hd => ?_, fun q hq hqs => ?_⟩
  · rw [cvtEntry_eq]
    exact h.only.trans ((onlyCache_ocWrite ..).trans (onlyCache_scaleWrites ..))
  · have hnot : ¬ (256 * v.vb ≤ (2048 * v.vd + p) / 8 ∧ (2048 * v.vd + p) / 8 < 256 * v.vb + (Tile.cvtEntry v i s).2.scales.length) := by
      cases hm : tyMx (v.vc % 16)
      · rw [hs0 hm]
        omega
      · have := hapart hm
        omega
    have hmod : (2048 * v.vd + p) % 8 = p % 8 := by omega
    rw [ocBit, ocBytes_cvtEntry, if_neg fun c => hnot c.1, hmod]
    by_cases hlow : p < 2048 * i
    · rw [if_neg (by omega), ← hmod]
      exact h.out p hlow hpB
    · have hsub : (2048 * v.vd + p) / 8 - 256 * (v.vd + i) = p / 8 - 256 * i := by omega
      rw [if_pos (by omega), hsub]
      exact hconv.bit_entry hhigh (Nat.le_of_not_lt hlow) hp hpB
  · have hcancel : 256 * v.vb + b - 256 * v.vb = b := Nat.add_sub_cancel_left ..
    have := hapart hm
    rw [ocBytes_cvtEntry, hcancel]
    by_cases hdi : cvtDue v b = i
    · obtain ⟨hmem, hval⟩ := hconv.scale_mem hm hb hdi hhigh
      rw [if_pos ⟨by omega, hdi⟩, hval]
    · rw [if_neg fun c => hdi c.2, if_neg (by omega)]
      exact h.scales hm b hb (by omega)
  · have hnot : ¬ (256 * v.vb ≤ q ∧ q < 256 * v.vb + (Tile.cvtEntry v i s).2.scales.length) := by
      cases hm : tyMx (v.vc % 16)
      · rw [hs0 hm]
        omega
      · have := hqs hm
        omega
    rw [ocBytes_cvtEntry, if_neg fun c => hnot c.1, if_neg (by omega)]
    exact h.rest q (by omega) hqs

/-- The tile and the conversion once `k` entries of a CVT are written. -/
def cvtRun (v : VWord) (x : Tile) (k : Nat) : Tile × CvtAcc := (List.range k).foldl (fun a i => Tile.cvtEntry v i a) (x, ⟨[], [], 0⟩)

theorem cvtRun_after (ha : CvtApart v) {k : Nat} (hk : k ≤ cvtEntries v) : CvtAfter v x k (cvtRun v x k) := by
  induction k with
  | zero => exact .zero v x
  | succ k ih =>
    rw [cvtRun, List.range_succ, List.foldl_append]
    exact (ih (by omega)).next ha hk

end

/-- A whole CVT. -/
def cvtAll (x : Tile) (e : VecEntry) : Tile × VFlags :=
  ((cvtRun e.word x (cvtEntries e.word)).1, (cvtRun e.word x (cvtEntries e.word)).2.fl)

theorem mul_le_cvtBytes (v : VWord) : v.cvtE * tyWidth (v.vc % 16) ≤ 8 * cvtBytes v := (cdiv_le_iff (by decide)).mp le_rfl

theorem stream_index_lt {n w j k : Nat} (hj : j < n) (hk : k < w) : w * j + k < n * w := by
  have h : w * (j + 1) ≤ w * n := Nat.mul_le_mul_left w hj
  rw [Nat.mul_succ] at h
  rw [Nat.mul_comm n]
  omega

/-- Bit `k` of element `j` of the stream of codes. -/
theorem cvtBit_element {v : VWord} (x : Tile) {j k : Nat} (hj : j < v.cvtE) (hk : k < tyWidth (v.vc % 16)) :
    cvtBit x v (tyWidth (v.vc % 16) * j + k) = (x.cvtCode v j).testBit k := by
  rw [cvtBit, decide_eq_true (stream_index_lt hj hk), Bool.true_and, Nat.mul_add_div (tyWidth_pos _), Nat.div_eq_of_lt hk, Nat.add_zero,
    Nat.mul_add_mod, Nat.mod_eq_of_lt hk]

/-- A CVT leaves the codes of its elements, and the scales of its blocks where the destination has scales, and no other byte changes. -/
theorem cvt_completes {st : State} {t : Nat} {e : VecEntry} (h : VecAt st t oCVT e) (ha : CvtApart e.word) : Completes (.cvt t) st fun d' =>
    OnlyTile t st.dev d' ∧ (∃ fl, VecComplete t e fl st.dev d') ∧
    (∀ j, j < VWord.cvtE e.word → (d'.tile t).streamEl (VWord.vd e.word) (tyWidth (VWord.vc e.word % 16)) j =
      (st.dev.tile t).cvtCode e.word j % 2 ^ tyWidth (VWord.vc e.word % 16)) ∧
    (tyMx (VWord.vc e.word % 16) = true → ∀ b, b < cdiv (VWord.cvtE e.word) 32 →
      (d'.tile t).streamEl (VWord.vb e.word) 8 b = (st.dev.tile t).cvtScale e.word b % 256) ∧
    ∀ q, q < 256 * VWord.vd e.word ∨ 256 * VWord.vd e.word + cvtBytes e.word ≤ q →
      (tyMx (VWord.vc e.word % 16) = true → q < 256 * VWord.vb e.word ∨ 256 * VWord.vb e.word + cdiv (VWord.cvtE e.word) 32 ≤ q) →
      OcBytes (d'.tile t) q = OcBytes (st.dev.tile t) q := by
  have hafter : CvtAfter e.word (st.dev.tile t) (cvtEntries e.word) _ := cvtRun_after ha le_rfl
  refine completes_onlyCache h (f := cvtAll) rfl hafter.only fun d' ho hc hb _ _ _ => ⟨ho, ⟨_, hc⟩, fun j hj => streamEl_eq fun k hk => ?_,
    fun hm b hbn => streamEl_eq fun k hk => ?_, fun q hq hqs => ?_⟩
  · have hlt : tyWidth (VWord.vc e.word % 16) * j + k < _ := stream_index_lt hj hk
    have hbytes := mul_le_cvtBytes e.word
    have hentries := cvtBytes_le e.word
    rw [hb, cvtAll, Nat.add_assoc]
    refine (hafter.out _ ?_ ?_).trans (cvtBit_element _ hj hk)
    · omega
    · omega
  · have hbyte : (2048 * VWord.vb e.word + 8 * b + k) / 8 = 256 * VWord.vb e.word + b := by omega
    have hbit : (2048 * VWord.vb e.word + 8 * b + k) % 8 = k := by omega
    rw [hb, cvtAll, ocBit, hbyte, hbit]
    refine (congrArg (·.getLsbD k) (hafter.scales hm b hbn (cvtDue_lt hbn))).trans ?_
    rw [BitVec.getLsbD_ofNat, decide_eq_true hk, Bool.true_and]
  · rw [hb]
    exact hafter.rest q (by rwa [Nat.min_eq_right (cvtBytes_le _)]) hqs

end Sys2Proof.Machine

/-! ### The statement of the other instructions -/

namespace Sys2Proof.Machine

open Sys2Proof Sys2Proof.Claims

section

variable (x : Tile) (v : VWord) (j : Nat)

theorem Tile.cvtCode_of_plain (hd : tyMx (v.vc % 16) = false) : x.cvtCode v j =
    (if tyMx v.ty then mxToFp32 v.ty (x.streamEl v.va (tyWidth v.ty) j) (x.streamEl v.vb 8 (j / 32))
      else cvtTo (v.vc % 16) (tyDecode v.ty (x.streamEl v.va (tyWidth v.ty) j))).1 := by
  rw [Tile.cvtCode, hd, Tile.cvtOne, Tile.cvtSrc]
  cases tyMx v.ty <;> rfl

theorem Tile.cvtBlock_of_plain (hs : tyMx v.ty = false) : x.cvtBlock v j = mxQuantise (v.vc % 16)
    ((List.range (min 32 (v.cvtE - j))).map fun k => tyDecode v.ty (x.streamEl v.va (tyWidth v.ty) (j + k))) := by
  have hsrc : ∀ i, x.cvtSrc v i = tyDecode v.ty (x.streamEl v.va (tyWidth v.ty) i) := fun i => by
    rw [Tile.cvtSrc, hs]
    rfl
  simp only [Tile.cvtBlock, hsrc]

end

/-- Settles O25: one lemma for each instruction. RAND is the model's Philox (log 27), RED writes element 0 and the zeros whatever the mask (log 94), and a
CVT from or to an MX type is the model's `mxToFp32` and `mxQuantise` (logs 22, 93). -/
theorem vectorOtherInstructions : Obligations.VectorOtherInstructions := by
  intro s t e
  refine ⟨vstq_completes, setm_completes, red_completes, rand_completes, xadd_vec_completes, xcvt_completes,
    fun h hsrc => ⟨fun hd hsc => ?plain, fun hd hs hva hvd => ?mx⟩, fun rest => vecRetire_completes⟩
  case plain =>
    have ha : CvtApart e.word := ⟨hsrc, hsc, fun hm => Bool.noConfusion (hd.symm.trans hm)⟩
    refine completes_imp (cvt_completes h ha) ?_
    rintro d' ⟨ho, hc, hcode, -, hrest⟩
    refine ⟨ho, hc, fun q hq => hrest q hq fun hm => Bool.noConfusion (hd.symm.trans hm), fun j hj => ?_⟩
    rw [hcode j hj, Tile.cvtCode_of_plain _ _ _ hd]
  case mx =>
    have ha : CvtApart e.word := ⟨hsrc, fun hm => Bool.noConfusion (hs.symm.trans hm), fun _ => ⟨hs, hva, hvd⟩⟩
    refine completes_imp (cvt_completes h ha) ?_
    rintro d' ⟨ho, hc, hcode, hscale, hrest⟩
    refine ⟨ho, hc, fun b hb => ?_, fun j hj => ?_, fun q hq hqs => hrest q hq fun _ => hqs⟩
    · rw [hscale hd b hb, Tile.cvtScale, Tile.cvtBlock_of_plain _ _ _ hs]
    · rw [hcode j hj, Tile.cvtCode, if_pos hd, Tile.cvtBlock_of_plain _ _ _ hs]

end Sys2Proof.Machine

/-! ### A word of an open item (06 R146, R148) -/

namespace Sys2Proof.Machine

open Sys2Proof Sys2Proof.Claims

section

variable (x : Tile)

@[simp] theorem Tile.putQc_spad (n : Nat) (q : QCtx) : (x.putQc n q).spad = x.spad := by
  obtain h | h := x.putQc_eq n q <;> rw [h] <;> rfl

/-- The word goes to the place in the ring that the entry's pointer names. -/
theorem Tile.storeWord_spad (n : Nat) (e : Reasm) (w : W128) :
    (x.storeWord n e w).spad = x.spad.writeN ((x.qc n).addr e.wptr) (leBytes 16 w.toNat) :=
  (Tile.putQc_spad ..).trans (Tile.spadWrite_spad ..)

variable {x} {n : Nat} {e : Reasm} (w : W128)

/-- An entry that is not in skip state stores the words it still has space for. -/
theorem Tile.entryWord_of_store (hk : e.skip = false) (hs : e.store ≠ 0) :
    x.entryWord n e w = (x.storeWord n e w).setEntry { e with left := e.left - 1, store := e.store - 1, wptr := e.wptr + 1 } := by
  simp [Tile.entryWord, hk, hs]

theorem Tile.entryWord_spad_of_store (hk : e.skip = false) (hs : e.store ≠ 0) :
    (x.entryWord n e w).spad = x.spad.writeN ((x.qc n).addr e.wptr) (leBytes 16 w.toNat) := by
  rw [Tile.entryWord_of_store w hk hs]
  exact x.storeWord_spad n e w

/-- A word for a receive context goes to the open entry of its source. -/
theorem Tile.qWord_of_entry {sd st : Nat} (hrx : (x.qc n).rx = true) (he : x.entry sd st n = some e) :
    x.qWord n sd st false w = some (x.entryWord n e w) := by
  simp [Tile.qWord, hrx, he]

end

/-! #### A packet of one word -/

section

variable {x y : Tile} {p : Packet} {w : W128} {sh : Bool}

theorem Tile.qWords_of_word {n sd st : Nat} (h : x.qWord n sd st sh w = some y) : Tile.qWords n sd st sh [w] x = ([], y) := by
  simp [Tile.qWords, h]

/-- The packet in front goes on when its first word is taken. -/
theorem Tile.firstReady_of_word (hw : p.words = [w]) (h : x.qWord p.dqid.toNat p.srcdev.toNat p.srctile.toNat sh w = some y)
    (pre ps : List Packet) : x.firstReady sh pre (p :: ps) = some (pre, p, ps) := by
  simp [Tile.firstReady, hw, h]

/-- A packet whose one word is taken leaves the Local port. -/
theorem qitemArrival_of_word {s : State} {t : Nat} {ps : List Packet} (ht : t < Config.nTiles) (hp : (s.dev.tile t).localIn = p :: ps)
    (hw : p.words = [w]) (h : (s.dev.tile t).qWord p.dqid.toNat p.srcdev.toNat p.srctile.toNat (s.dev.shut t) w = some y) :
    Completes (.qitemArrival t) s fun d' => OnlyTile t s.dev d' ∧ d'.tile t = { y with localIn := ps } := by
  refine completes_of_tile ht rfl ?_ (onlyTile_setTile_and_tile ..)
  simp [hp, Tile.firstReady_of_word hw h, hw, Tile.qWords_of_word h]

end

/-- Settles O26: the packet in front is ready because its entry is open, its word is stored by `storeWord`, and no other part of the delivery writes
the scratchpad. -/
theorem queueWordReachesItsRing : Obligations.QueueWordReachesItsRing := by
  intro s t p ps w e ht x n hp hw hrx hsh he hk hs
  have hword : x.qWord n p.srcdev.toNat p.srctile.toNat (s.dev.shut t) w = some (x.entryWord n e w) := by
    rw [hsh]
    exact Tile.qWord_of_entry w hrx he
  refine completes_imp (qitemArrival_of_word ht hp hw hword) ?_
  rintro d' ⟨ho, hy⟩
  have hspad : (d'.tile t).spad = x.spad.writeN ((x.qc n).addr e.wptr) (leBytes 16 w.toNat) := by
    rw [hy]
    exact Tile.entryWord_spad_of_store w hk hs
  refine ⟨ho, congrArg Tile.localIn hy, ?ring, fun b hb => ?other⟩
  case ring =>
    have hread := Memory.readN_writeN x.spad ((x.qc n).addr e.wptr) (leBytes 16 w.toNat)
    rwa [length_leBytes, ← hspad] at hread
  case other =>
    rw [hspad]
    exact Memory.read_writeN_outside _ _ _ _ (by rwa [length_leBytes])

end Sys2Proof.Machine

/-! ### The commands of SPAD_QCMD (06 R153, R154) -/

namespace Sys2Proof.Machine

open Sys2Proof Sys2Proof.Claims

section

variable (x : Tile) (st : W16)

@[simp] theorem Tile.qcmdEnd_qctx : (x.qcmdEnd st).qctx = x.qctx := rfl
@[simp] theorem Tile.qcmdEnd_qc (m : Nat) : (x.qcmdEnd st).qc m = x.qc m := rfl
@[simp] theorem Tile.qcmdEnd_reasm : (x.qcmdEnd st).reasm = x.reasm := rfl

/-- The end of a command writes SPAD_QCMD alone. -/
theorem Tile.qcmdEnd_reg_ne {a : Nat} (h : a ≠ Reg.SPAD_QCMD) : (x.qcmdEnd st).reg a = x.reg a := x.reg_modReg_ne _ _ h

/-- At the end of a command SPAD_QCMD is not busy and holds the status. -/
theorem Tile.qcmdEnd_reg : bit ((x.qcmdEnd st).reg Reg.SPAD_QCMD) 16 = false ∧ fld ((x.qcmdEnd st).reg Reg.SPAD_QCMD) 32 16 = st.toNat := by
  rw [Tile.qcmdEnd, Tile.reg_modReg_self]
  refine ⟨?_, ?_⟩
  · rw [bit_setFld_other _ _ _ _ _ (by decide) (by decide), bit_clrBit_self]
  · rw [fld_setFld_self _ _ _ _ (by decide), Nat.mod_eq_of_lt st.isLt]

end

section

variable {s : State} {t n : Nat}

/-- A busy command of its own operation, with no RESET that waits, changes its tile. -/
theorem completes_qcmd {c : Instr} {op : Nat} {f : Nat → Dev → Dev} {y : Tile} (ht : t < Config.nTiles) (hx : exec c s = onQcmd t op s f)
    (hw : (s.dev.tile t).qwait = false) (hc : (s.dev.tile t).qcmd = some (n, op)) (hf : f n s.dev = s.dev.setTile t y) :
    Completes c s fun d' => OnlyTile t s.dev d' ∧ d'.tile t = y :=
  completes_of_tile ht hx (by simp [hc, hw, hf]) (onlyTile_setTile_and_tile ..)

/-! #### READ -/

/-- The words of context `n` in the staging words. -/
def Tile.staged (x : Tile) (n : Nat) : Tile :=
  (((x.setReg Reg.SPAD_QCTX (x.qc n).w0).setReg (Reg.SPAD_QCTX + 8) (x.qc n).w1).setReg (Reg.SPAD_QCTX + 16) (x.qc n).w2).setReg
    (Reg.SPAD_QCTX + 24) (x.qc n).w3

@[simp] theorem Tile.staged_qctx (x : Tile) (n : Nat) : (x.staged n).qctx = x.qctx := rfl

theorem Tile.staged_reg (x : Tile) (n : Nat) : (x.staged n).reg Reg.SPAD_QCTX = (x.qc n).w0 ∧ (x.staged n).reg (Reg.SPAD_QCTX + 8) = (x.qc n).w1 ∧
    (x.staged n).reg (Reg.SPAD_QCTX + 16) = (x.qc n).w2 ∧ (x.staged n).reg (Reg.SPAD_QCTX + 24) = (x.qc n).w3 := by
  simp [Tile.staged]

theorem qcmdRead_completes (ht : t < Config.nTiles) (hw : (s.dev.tile t).qwait = false) (hc : (s.dev.tile t).qcmd = some (n, 0)) :
    Completes (.qcmdRead t) s fun d' => OnlyTile t s.dev d' ∧ d'.tile t = ((s.dev.tile t).staged n).qcmdEnd St.OK :=
  completes_qcmd ht rfl hw hc rfl

/-! #### CONFIG -/

/-- Word `i` of the staging words. -/
def Tile.stagingWord (x : Tile) (i : Nat) : W64 := x.reg (Reg.SPAD_QCTX + 8 * i)

/-- The context that the staging words describe. -/
def Tile.stagedQc (x : Tile) : QCtx := QCtx.ofWords (x.stagingWord 0) (x.stagingWord 1) (x.stagingWord 2) (x.stagingWord 3)

/-- CONFIG of a context that holds and sends nothing, with words that pass the checks: of the contexts it changes this one alone. -/
theorem Dev.qConfig_of_ok {d : Dev} {w0 w1 : W64} (w2 w3 : W64) (hi : ((d.tile t).qc n).items = []) (hr : ∀ e ∈ (d.tile t).reasm, e.qid ≠ n)
    (hs : d.sending t (some n) = false) (hk : qCheck w0 w1 = St.OK) : ∃ y, d.qConfig t n w0 w1 w2 w3 = (St.OK, d.setTile t y) ∧
      ∀ m, y.qc m = ((d.tile t).setQc n (QCtx.ofWords w0 w1 w2 w3)).qc m := by
  have hfree : ¬(((d.tile t).qc n).items.isEmpty = false ∨ (d.tile t).reasm.any (fun e => decide (e.qid = n)) = true ∨ d.sending t (some n) = true) := by
    simpa [hi, hs] using hr
  refine ⟨_, by rw [Dev.qConfig, if_neg hfree, if_neg (not_not.mpr hk)], fun m => ?_⟩
  split <;> rfl

theorem qcmdConfig_completes (ht : t < Config.nTiles) (hw : (s.dev.tile t).qwait = false) (hc : (s.dev.tile t).qcmd = some (n, 1))
    (hi : ((s.dev.tile t).qc n).items = []) (hr : ∀ e ∈ (s.dev.tile t).reasm, e.qid ≠ n) (hs : s.dev.sending t (some n) = false)
    (hk : qCheck ((s.dev.tile t).stagingWord 0) ((s.dev.tile t).stagingWord 1) = St.OK) :
    ∃ y : Tile, (∀ m, y.qc m = ((s.dev.tile t).setQc n (s.dev.tile t).stagedQc).qc m) ∧
      Completes (.qcmdConfig t) s fun d' => OnlyTile t s.dev d' ∧ d'.tile t = y.qcmdEnd St.OK := by
  obtain ⟨y, hy, hq⟩ := Dev.qConfig_of_ok ((s.dev.tile t).stagingWord 2) ((s.dev.tile t).stagingWord 3) hi hr hs hk
  simp only [Tile.stagingWord] at hy
  refine ⟨y, hq, completes_qcmd ht rfl hw hc ?_⟩
  simp only [hy, Dev.modTile, Dev.tile_setTile_self, Dev.setTile_setTile]

/-! #### FLUSH and RESET -/

section

variable (x : Tile) (n : Nat)

theorem Tile.flush_items : ((x.flush n).qc n).items = [] := congrArg QCtx.items (x.qc_setQc_self n _)

/-- FLUSH changes no other context. -/
theorem Tile.flush_qc_ne {m : Nat} (h : m ≠ n) : (x.flush n).qc m = x.qc m := x.qc_setQc_ne n _ h

/-- FLUSH puts the open entries of its context in skip state. -/
theorem Tile.flush_skip {e : Reasm} (he : e ∈ (x.flush n).reasm) (hn : e.qid = n) : e.skip = true := by
  obtain ⟨e₀, -, rfl⟩ := List.mem_map.mp he
  by_cases h : e₀.qid = n
  · simp [h]
  · simp [h] at hn

/-- A receive context after RESET: flushed, with SPOIL and ERRS zero. -/
def Tile.resetQc : Tile :=
  (x.flush n).setQc n { (x.flush n).qc n with w3 := setFld (setFld ((x.flush n).qc n).w3 0 24 0) 43 6 0 }

theorem Tile.resetQc_qc : ((x.resetQc n).qc n).items = [] ∧ fld ((x.resetQc n).qc n).w3 0 24 = 0 ∧ fld ((x.resetQc n).qc n).w3 43 6 = 0 := by
  rw [Tile.resetQc, Tile.qc_setQc_self]
  refine ⟨x.flush_items n, ?_, ?_⟩
  · rw [fld_setFld_other _ _ _ _ _ _ (by decide) (by decide), fld_setFld_self _ _ _ _ (by decide)]
    rfl
  · rw [fld_setFld_self _ _ _ _ (by decide)]
    rfl

end

theorem qcmdFlush_completes (ht : t < Config.nTiles) (hw : (s.dev.tile t).qwait = false) (hc : (s.dev.tile t).qcmd = some (n, 2))
    (hrx : ((s.dev.tile t).qc n).tx = false) :
    Completes (.qcmdFlush t) s fun d' => OnlyTile t s.dev d' ∧ d'.tile t = ((s.dev.tile t).flush n).qcmdEnd St.OK :=
  completes_qcmd ht rfl hw hc (by simp [Dev.modTile, hrx])

theorem qcmdReset_rx_completes (ht : t < Config.nTiles) (hw : (s.dev.tile t).qwait = false) (hc : (s.dev.tile t).qcmd = some (n, 3))
    (hrx : ((s.dev.tile t).qc n).tx = false) :
    Completes (.qcmdReset t) s fun d' => OnlyTile t s.dev d' ∧ d'.tile t = ((s.dev.tile t).resetQc n).qcmdEnd St.OK :=
  completes_qcmd ht rfl hw hc (by simp [Dev.modTile, hrx, Tile.resetQc])

theorem qcmdReset_tx_completes (ht : t < Config.nTiles) (hw : (s.dev.tile t).qwait = false) (hc : (s.dev.tile t).qcmd = some (n, 3))
    (htx : ((s.dev.tile t).qc n).tx = true) :
    Completes (.qcmdReset t) s fun d' => OnlyTile t s.dev d' ∧ d'.tile t = { s.dev.tile t with qwait := true } :=
  completes_qcmd ht rfl hw hc (by simp [Dev.modTile, htx])

/-- The RESET of a send context ends once none of its items is in sending, whatever operation SPAD_QCMD then names. -/
theorem qcmdTxResetDone_completes {o : Nat} (ht : t < Config.nTiles) (hw : (s.dev.tile t).qwait = true) (hc : (s.dev.tile t).qcmd = some (n, o))
    (hs : s.dev.sending t (some n) = false) : Completes (.qcmdTxResetDone t) s fun d' => OnlyTile t s.dev d' ∧
      d'.tile t = { ((s.dev.tile t).setQc n { (s.dev.tile t).qc n with w2 := 0, w3 := 0 }).qcmdEnd St.OK with qwait := false } :=
  completes_of_tile ht rfl (by simp [hc, hw, hs, Dev.modTile]) (onlyTile_setTile_and_tile ..)

end

/-- Settles O27: each command is one change of its tile, read off field by field; `Tile.qcmdEnd_reg` is the end with OK. -/
theorem queueCommandsEndWithOk : Obligations.QueueCommandsEndWithOk := by
  intro s t n ht x ended
  refine ⟨fun hw hc => ?read, fun hw hc hi hr hs hk => ?config, fun hw hc hrx => ?flush, fun hw hc hrx => ?resetRx,
    fun hw hc htx => qcmdReset_tx_completes ht hw hc htx, fun o hw hc hs => ?resetDone⟩
  case read =>
    refine completes_imp (qcmdRead_completes ht hw hc) ?_
    rintro d' ⟨ho, hy⟩
    rw [hy]
    refine ⟨ho, Tile.qcmdEnd_reg .., (Tile.qcmdEnd_qctx ..).trans (x.staged_qctx n), ?_⟩
    simp (disch := decide) only [Tile.qcmdEnd_reg_ne]
    exact x.staged_reg n
  case config =>
    obtain ⟨y, hq, hdone⟩ := qcmdConfig_completes ht hw hc hi hr hs hk
    refine completes_imp hdone ?_
    rintro d' ⟨ho, hy⟩
    rw [hy]
    simp only [Tile.qcmdEnd_qc]
    exact ⟨ho, Tile.qcmdEnd_reg .., (hq n).trans (Tile.qc_setQc_self ..), fun m hm => (hq m).trans (Tile.qc_setQc_ne _ _ _ hm)⟩
  case flush =>
    refine completes_imp (qcmdFlush_completes ht hw hc hrx) ?_
    rintro d' ⟨ho, hy⟩
    rw [hy]
    simp only [Tile.qcmdEnd_qc, Tile.qcmdEnd_reasm]
    exact ⟨ho, Tile.qcmdEnd_reg .., x.flush_items n, fun _ => x.flush_skip n, fun _ => x.flush_qc_ne n⟩
  case resetRx =>
    refine completes_imp (qcmdReset_rx_completes ht hw hc hrx) ?_
    rintro d' ⟨ho, hy⟩
    rw [hy, Tile.qcmdEnd_qc]
    exact ⟨ho, Tile.qcmdEnd_reg .., x.resetQc_qc n⟩
  case resetDone =>
    refine completes_imp (qcmdTxResetDone_completes ht hw hc hs) ?_
    rintro d' ⟨ho, hy⟩
    have hqc : (d'.tile t).qc n = { x.qc n with w2 := 0, w3 := 0 } := by
      rw [hy]
      exact Tile.qc_setQc_self ..
    rw [hqc, hy]
    exact ⟨ho, Tile.qcmdEnd_reg .., rfl, rfl, rfl, rfl, rfl⟩

end Sys2Proof.Machine

/-! ## The weight tier

Proofs of the statements of 07: the journal (O30, refuted), the image commands (O31), the haul (O32), layer swaps, resident weights and adapter slots
(O33). What a host command needs to begin and what its reply leaves stand first. -/

/-! ### The last stage of a record whose page holds nothing

O30 asks that after the last stage of a record every usable copy holds it committed. Stage 3 programs COMMIT behind the 240 bytes that the page holds
(R172); the premises say that the stages before are done, but not that they have programmed the page. -/

namespace Sys2Proof.Machine

open Sys2Proof Sys2Proof.Claims

/-- A record that no command, session or allocation waits for. -/
def lonePend : JPend := ⟨.checkpoint, noImage, 0, none, 0, none, none⟩

/-- The authority acts, replay is complete, four copies are usable and hold nothing, and the last stage of a record with SEQ 1 is next. -/
def unwrittenState : State :=
  ⟨{ (Dev.reset.setReg Reg.WT_STATUS 0x3C1).setReg Reg.WT_JSEQ 1 with
      hive := { Hive.reset with run := true }
      aon := { AlwaysOn.reset with owner := .west }
      wt := { WTier.reset with jq := [lonePend], jstage := 2 } }, []⟩

/-- The last byte of such a page is the 16th: byte 255, where COMMIT belongs, is not programmed. -/
theorem recCommitted_recPage_nil : recCommitted (recPage [] 0xA5) = false := by decide

/-- The last stage puts the COMMIT of copy 0 behind nothing. -/
theorem jread_of_exec_unwritten {d : Dev} (h : exec (.journalCommit 0) unwrittenState = .next ⟨d, unwrittenState.pending⟩) :
    d.wt.jread 0 (jpage 1) = recPage [] 0xA5 := by
  have hr : (match exec (.journalCommit 0) unwrittenState with | .next s => some (s.dev.wt.jread 0 (jpage 1)) | _ => none) = some (recPage [] 0xA5) := by
    decide
  simpa only [h, Option.some.injEq] using hr

/-- Refutes O30 at `unwrittenState`: every premise of the clause on stage 3 holds, and copy 0 does not hold the record committed. Stages 1 and 2 leave
no such state; the statement does not ask that they ran. -/
theorem not_journalRefreshAndScrub : ¬ Obligations.JournalRefreshAndScrub := by
  intro h
  obtain ⟨⟨hstages, -⟩, -⟩ := h
  obtain ⟨-, -, hlast⟩ := hstages unwrittenState lonePend [] (by decide) (by decide) rfl
  obtain ⟨d, hexec, -, -, -, hcommitted⟩ := hlast rfl rfl rfl rfl (by decide)
  have hcopy : recCommitted (d.wt.jread 0 (jpage 1)) = true := hcommitted 0 (by decide)
  rw [jread_of_exec_unwritten hexec, recCommitted_recPage_nil] at hcopy
  exact absurd hcopy (by decide)

end Sys2Proof.Machine

/-! ### The forms of a command and its reply (16 R367, R373, R375) -/

namespace Sys2Proof.Machine

open Sys2Proof Sys2Proof.Claims

section

variable {c : Instr} {s : State} {f : Dev → Dev} {P : Dev → Prop}

theorem completes_onDev (hx : exec c s = onDev s f) (hP : P (f s.dev)) : Completes c s P := ⟨_, hx, hP⟩

theorem completes_onUnit {n i : Nat} (hi : i < n) (hx : exec c s = onUnit n i s f) (hP : P (f s.dev)) : Completes c s P :=
  ⟨_, hx.trans (onUnit_of_lt s f hi), hP⟩

variable {m op r : Nat}

theorem completes_onHost (h : HostReady s m op) (hx : exec c s = onHost m op s f) (hP : P (f (s.dev.begin_ m))) : Completes c s P := by
  obtain ⟨hm, hc⟩ := h
  refine ⟨f (s.dev.begin_ m), ?_, hP⟩
  rw [hx, onHost_of_lt s f hm, if_pos (Dev.accepts_of_canBegin hc rfl)]

theorem completes_onHostJ (h : HostReady s m op) (hj : s.dev.jReady = true) (hx : exec c s = onHostJ m op s f) (hP : P (f (s.dev.begin_ m))) :
    Completes c s P := by
  obtain ⟨hm, hc⟩ := h
  refine ⟨f (s.dev.begin_ m), ?_, hP⟩
  rw [hx, onHostJ, onUnit_of_lt s _ hm, Dev.accepts_of_canBegin hc rfl, hj, Bool.and_self, if_pos rfl]

theorem completes_onHostR (h : HostReadyR s m op r) (hx : exec c s = onHostR m op r s f) (hP : P (f (s.dev.begin_ m))) : Completes c s P := by
  obtain ⟨⟨hm, hc⟩, hr, hregion⟩ := h
  refine ⟨f (s.dev.begin_ m), ?_, hP⟩
  rw [hx, onHostR, if_pos hr, onHostM_of_lt s f hm, if_pos (Dev.accepts_of_canBegin hc (decide_eq_true hregion))]

end

/-! #### The message area -/

theorem SMap.get_filter {V : Type} (d : Nat → V) {p : Nat × V → Bool} {k : Nat} (h : ∀ v, p (k, v) = true) (m : SMap V) :
    SMap.get d (m.filter p) k = SMap.get d m k := by
  induction m with
  | nil => rfl
  | cons e m ih =>
    obtain ⟨j, v⟩ := e
    by_cases hk : k = j
    · subst hk
      simp [SMap.get, h]
    · cases hp : p (j, v) <;> simp [SMap.get, hp, hk, ih]

/-- Bytes outside those cleared read as before. -/
theorem Memory.read_clear_outside (m : Memory) {a n x : Nat} (h : x < a ∨ a + n ≤ x) : (Memory.clear m a n).read x = m.read x :=
  SMap.get_filter _ (by simpa using h) m

theorem Memory.readN_congr {m m' : Memory} {a n : Nat} (h : ∀ x, a ≤ x → x < a + n → m'.read x = m.read x) : m'.readN a n = m.readN a n := by
  induction n generalizing a with
  | zero => rfl
  | succ n ih =>
    rw [Memory.readN, Memory.readN, h a le_rfl (by omega), ih fun x h₁ h₂ => h x (by omega) (by omega)]

/-- The first of the bytes just written read back. -/
theorem Memory.readN_writeN_append (m : Memory) (a : Nat) (bs cs : List Byte) : (m.writeN a (bs ++ cs)).readN a bs.length = bs := by
  have h := m.readN_writeN a (bs ++ cs)
  rw [List.length_append, Memory.readN_add] at h
  exact List.append_inj_left h (by simp)

/-! #### Replies -/

@[simp] theorem Dev.irq_hive (d : Dev) (v : Nat) : (d.irq v).hive = d.hive := by
  obtain ⟨_, _, h⟩ := d.irq_frame v
  rw [h]

section

variable (d : Dev) (m : Nat) (st : W16) (detail : W32) (w57 : List W32) (data : List Byte)

/-- A reply reaches registers, the mailboxes, the MSI-X window and what leaves the device, and nothing else. -/
theorem Dev.replyFull_frame : ∃ regs hive msix out,
    d.replyFull m st detail w57 data = { d with regs := regs, hive := hive, host := { d.host with msix := msix }, out := out } := by
  unfold Dev.replyFull
  split_ifs
  · exact ⟨_, _, _, _, rfl⟩
  · exact ⟨_, _, _, _, rfl⟩
  · exact ⟨_, _, _, _, rfl⟩
  · obtain ⟨msix, out, h⟩ := Dev.irq_frame _ (2016 + m)
    exact ⟨_, _, msix, out, h⟩
  · exact ⟨_, _, _, _, rfl⟩

@[simp] theorem Dev.replyFull_wt : (d.replyFull m st detail w57 data).wt = d.wt := by
  obtain ⟨_, _, _, _, h⟩ := d.replyFull_frame m st detail w57 data
  rw [h]

@[simp] theorem Dev.replyFull_region (r : Nat) : (d.replyFull m st detail w57 data).region r = d.region r := by
  obtain ⟨_, _, _, _, h⟩ := d.replyFull_frame m st detail w57 data
  rw [h]
  rfl

@[simp] theorem Dev.replyFull_dmaOut (use : DmaUse) : (d.replyFull m st detail w57 data).dmaOut use = d.dmaOut use := by
  obtain ⟨_, _, _, _, h⟩ := d.replyFull_frame m st detail w57 data
  rw [h]
  rfl

end

/-- The command of mailbox `m` runs on `d`, can be answered there, and words 0 and 1 of its message are those on `d₀`. -/
structure Awaits (m : Nat) (d₀ d : Dev) : Prop where
  lt : m < Config.nMailboxes
  authority : d.authority = true
  running : d.mbState m = 2
  wanted : m ∉ d.hive.noReply
  words : d.mbNat m 0 8 = d₀.mbNat m 0 8

theorem awaits_of_ready {s : State} {m op : Nat} (h : HostReady s m op) : Awaits m s.dev (s.dev.begin_ m) := by
  obtain ⟨hm, hc⟩ := h
  simp only [Dev.canBegin, Bool.and_eq_true, decide_eq_true_eq, Bool.not_eq_true'] at hc
  obtain ⟨⟨⟨⟨⟨ha, hst⟩, -⟩, -⟩, hn⟩, -⟩ := hc
  have hwanted : m ∉ s.dev.hive.noReply := by simpa using hn
  exact ⟨hm, ha, hst, hwanted, rfl⟩

section

variable {m : Nat} {d₀ d : Dev}

/-- A change that leaves the registers, the mailboxes and the latch alone. -/
theorem Awaits.congr (h : Awaits m d₀ d) {e : Dev} (hr : e.regs = d.regs) (hh : e.hive = d.hive) (ha : e.aon = d.aon) : Awaits m d₀ e := by
  have hreg : ∀ a, e.reg a = d.reg a := fun a => by rw [Dev.reg, hr, Dev.reg]
  refine ⟨h.lt, ?_, ?_, hh ▸ h.wanted, ?_⟩
  · rw [← h.authority]
    simp only [Dev.authority, Dev.seamF, hh, ha, hreg]
  · rw [← h.running, Dev.mbState, hreg, Dev.mbState]
  · rw [← h.words, Dev.mbNat, hh, Dev.mbNat]

/-- A command that awaits its reply gets it, with the status it is given (16 R375). -/
theorem Awaits.replied (h : Awaits m d₀ d) (st : W16) (detail : W32) (w57 : List W32) (data : List Byte) :
    Replied m st d₀ (d.replyFull m st detail w57 data) := by
  refine ⟨(d.replyFull_spec m st detail w57 data h.lt h.authority h.wanted h.running).1, ?_⟩
  have harea : ∃ bs, (d.replyFull m st detail w57 data).hive.mbox =
      (Memory.clear d.hive.mbox (4096 * m + 8) 4088).writeN (4096 * m + 8) (leBytes 4 st.toNat ++ bs) := by
    unfold Dev.replyFull
    rw [if_neg (by simp [h.authority]), if_neg (by simpa using h.wanted), if_pos h.running]
    simp only [List.append_assoc]
    split_ifs
    · exact ⟨_, rfl⟩
    · exact ⟨_, congrArg Hive.mbox (Dev.irq_hive ..)⟩
  obtain ⟨bs, hb⟩ := harea
  rw [← h.words, Dev.mbNat, Dev.mbNat, Dev.mbNat, Memory.readNat, Memory.readNat, Memory.readNat, hb]
  refine ⟨?_, congrArg leNat (Memory.readN_congr fun x _ hx => ?_)⟩
  · have hlen : (leBytes 4 st.toNat).length = 4 := length_leBytes ..
    have hread := Memory.readN_writeN_append (Memory.clear d.hive.mbox (4096 * m + 8) 4088) (4096 * m + 8) (leBytes 4 st.toNat) bs
    rw [hlen] at hread
    rw [hread, leNat_leBytes]
    omega
  · rw [Memory.read_writeN_outside _ _ _ _ (by omega), Memory.read_clear_outside _ (by omega)]

end

end Sys2Proof.Machine

/-! ### Images and their commands (07 R166, R168, R177) -/

namespace Sys2Proof.Machine

open Sys2Proof Sys2Proof.Claims

/-! #### The images of the tier -/

section

variable {w v : WTier} {id gen : W32} {i : Image}

theorem Image.is_iff : i.is id gen = true ↔ i.id = id ∧ i.gen = gen := by simp [Image.is]

theorem WTier.pair_of_image? (h : w.image? id gen = some i) : i.id = id ∧ i.gen = gen :=
  Image.is_iff.mp (List.find?_some (p := fun j : Image => j.is id gen) h)

/-- What the tier answers for a pair depends on its images alone. -/
theorem WTier.image?_congr (h : v.images = w.images) : v.image? id gen = w.image? id gen := by rw [WTier.image?, h, WTier.image?]

theorem WTier.putImage_frame (w : WTier) (i : Image) : ∃ l, w.putImage i = { w with images := l } := by
  unfold WTier.putImage
  split <;> exact ⟨_, rfl⟩

@[simp] theorem WTier.putImage_verifying (w : WTier) (i : Image) : (w.putImage i).verifying = w.verifying := by
  obtain ⟨_, h⟩ := w.putImage_frame i
  rw [h]

/-- The image put in place is the one of its pair. -/
theorem WTier.image?_putImage (w : WTier) (i : Image) : (w.putImage i).image? i.id i.gen = some i := by
  have hi : i.is i.id i.gen = true := Image.is_iff.mpr ⟨rfl, rfl⟩
  unfold WTier.putImage
  cases h : w.image? i.id i.gen with
  | some j =>
    have hp : ((fun e : Image => e.is i.id i.gen) ∘ fun e => if e.is i.id i.gen then i else e) = fun e => e.is i.id i.gen := by
      funext e
      cases he : e.is i.id i.gen <;> simp [he, hi]
    rw [Option.isSome_some, if_pos rfl, WTier.image?, List.find?_map, hp]
    rw [WTier.image?] at h
    rw [h, Option.map_some, if_pos (Image.is_iff.mpr (WTier.pair_of_image? h))]
  | none =>
    rw [WTier.image?] at h
    simp [WTier.image?, List.find?_append, h, hi]

theorem WTier.image?_putImage_of_pair (w : WTier) (h : i.id = id ∧ i.gen = gen) : (w.putImage i).image? id gen = some i := by
  obtain ⟨rfl, rfl⟩ := h
  exact w.image?_putImage i

/-- The owners of extents, and the headers that hold them, are not the images. -/
@[simp] theorem WTier.setOwners_images (w : WTier) (os : List (Nat × Nat × W32 × W32 × Bool)) : (w.setOwners os).images = w.images :=
  List.foldlRecOn (motive := fun v : WTier => v.images = w.images) _ _ rfl fun _ hv _ _ => hv

@[simp] theorem WTier.own_image? (w : WTier) (q : Rect) (x : BitVec 15) (a b : W32) (o : Bool) : (w.own q x a b o).image? id gen = w.image? id gen :=
  WTier.image?_congr (w.setOwners_images _)

end

/-! #### A read of codewords -/

/-- What a read meets leaves the weight tier as it was but for the pages to refresh. -/
theorem Dev.cwMeet_wt (d : Dev) (hits : List (Nat × Nat × Nat)) : ∃ l, (d.cwMeet hits).1.wt = { d.wt with refreshQ := l } := by
  unfold Dev.cwMeet
  refine List.foldlRecOn (motive := fun e : Dev => ∃ l, e.wt = { d.wt with refreshQ := l }) _ _ ⟨_, rfl⟩ ?_
  rintro e ⟨l, hl⟩ h -
  dsimp only
  split
  · exact ⟨_, by rw [Dev.count_wt, hl]⟩
  · exact ⟨l, hl⟩

/-! #### IMAGE_ALLOC -/

/-- The image that an allocation starts to download. -/
def allocImage (q : AllocReq) (x : BitVec 15) : Image where
  id := q.id
  gen := q.gen
  ikind := q.ikind
  st := .downloading
  rect := q.rect
  xset := x
  mbytes := q.mbytes.toNat
  mdigest := q.mdigest
  shards := []
  adapters := []
  manOk := false
  stored := []
  priorGen := 0
  trialLimit := 0
  boots := 0
  badShards := []
  before := .empty
  lastSeq := 0

theorem extents_ne_nil {x : BitVec 15} (h : x ≠ 0) : ((List.range 15).filter fun e => bit x e) ≠ [] := by
  intro hnil
  refine h (BitVec.eq_of_getLsbD_eq fun e he => ?_)
  simpa [bit] using List.filter_eq_nil_iff.mp hnil e (List.mem_range.mpr he)

section

variable {d : Dev} {m : Nat} {q : AllocReq} {x : BitVec 15}

/-- An allocation for a pair that the device does not hold, in extents that no image has, starts the download at once. -/
theorem Dev.imageAlloc_of_free (hp : pairBad q.id q.gen = false) (h₁ : 1 ≤ q.ikind.toNat) (h₄ : q.ikind.toNat ≤ 4)
    (hi : d.wt.image? q.id q.gen = none) (hr : rectOk q.rect = true) (hx : d.wt.chooseExt q = some x) (h₀ : x ≠ 0)
    (hl : d.wt.images.length < 1024) (hret : ∀ j ∈ d.wt.images, j.st ≠ .retired)
    (hb : ∀ e, e < 15 → x.getLsbD e = true → d.wt.extBusy (rectSlices q.rect) e = false) :
    d.imageAlloc m q = (d.modWt fun w => (w.putImage (allocImage q x)).own q.rect x q.id q.gen true).replyFull m St.OK 0 [x.setWidth 32, 0, 0] [] := by
  have hgood : ¬(pairBad q.id q.gen = true ∨ q.ikind = 0 ∨ 5 ≤ q.ikind.toNat) := by
    rintro (h | h | h)
    · exact absurd h (by simp [hp])
    · exact absurd h₁ (by simp [h])
    · omega
  have hgone : (d.wt.images.filter fun i => decide (i.st = .retired) && (rectSlices q.rect).any fun t =>
      ((List.range 15).filter fun e => bit x e).any fun e => d.wt.owners.any fun o => decide (o = (t, e, i.id, i.gen, false))) = [] :=
    List.filter_eq_nil_iff.mpr fun i hmem => by simp [hret i hmem]
  have hroom : ¬(((List.range 15).filter fun e => bit x e) = [] ∨ d.wt.images.length + 1 > 1024 + ([] : List Image).length) := by
    rintro (h | h)
    · exact extents_ne_nil h₀ h
    · rw [List.length_nil] at h
      omega
  have hfree : (((List.range 15).filter fun e => bit x e).any fun e => d.wt.extBusy (rectSlices q.rect) e) = false := by
    simp only [List.any_eq_false, List.mem_filter, List.mem_range]
    exact fun e he => by simp [hb e he.1 he.2]
  unfold Dev.imageAlloc
  dsimp only
  rw [if_neg hgood, if_neg (by simp [hi]), if_pos hr, hx]
  dsimp only
  rw [hgone, if_neg hroom, if_neg (by simp [hfree])]
  rfl

end

/-! #### Commands on a held pair -/

section

variable {d : Dev} {m : Nat} {id gen : W32} {i : Image}

theorem Dev.onImage_of_held (hp : pairBad id gen = false) (hi : d.wt.image? id gen = some i) (f : Image → Dev) : d.onImage m id gen f = f i := by
  rw [Dev.onImage, hp, if_neg Bool.false_ne_true, hi]

theorem Dev.imageVerify_of_downloaded (hp : pairBad id gen = false) (hi : d.wt.image? id gen = some i) (hs : i.st = .downloaded) :
    d.imageVerify m id gen = d.modWt fun w => { w with verifying := w.verifying ++ [⟨id, gen, some m⟩] } := by
  rw [Dev.imageVerify, Dev.onImage_of_held hp hi, if_pos hs]

/-- No verification of the pair goes on. -/
def Dev.notVerifying (d : Dev) (id gen : W32) : Dev :=
  d.modWt fun w => { w with verifying := w.verifying.filter fun v => !(decide (v.id = id) && decide (v.gen = gen)) }

/-- The end of the device's own verification of an image whose shards all match: what the read met, and VERIFIED. -/
theorem Dev.verifyDone_of_match (hi : d.wt.image? id gen = some i) (hs : i.st = .downloaded) (hv : d.wt.verifying = [⟨id, gen, none⟩])
    (hb : d.wt.firstBad i = none) :
    ∃ hits, d.verifyDone id gen = ((d.notVerifying id gen).cwMeet hits).1.modWt fun w => w.putImage { i with st := .verified } := by
  have hvs : (d.wt.verifying.filter fun v => decide (v.id = id) && decide (v.gen = gen)) = [⟨id, gen, none⟩] := by simp [hv]
  have hi' : (d.notVerifying id gen).wt.image? id gen = some i := hi
  have hb' : (d.notVerifying id gen).wt.firstBad i = none := hb
  unfold Dev.verifyDone
  dsimp only
  rw [hvs, if_neg (List.cons_ne_nil _ _), ← Dev.notVerifying, hi']
  dsimp only
  rw [if_neg (not_not_intro hs), hb']
  exact ⟨_, rfl⟩

/-- The same, as the two things that it changes. -/
theorem Dev.verifyDone_wt (hi : d.wt.image? id gen = some i) (hs : i.st = .downloaded) (hv : d.wt.verifying = [⟨id, gen, none⟩])
    (hb : d.wt.firstBad i = none) : (d.verifyDone id gen).wt.image? id gen = some { i with st := .verified } ∧ (d.verifyDone id gen).wt.verifying = [] := by
  obtain ⟨hits, h⟩ := Dev.verifyDone_of_match hi hs hv hb
  obtain ⟨l, hl⟩ := (d.notVerifying id gen).cwMeet_wt hits
  have hwt : (d.verifyDone id gen).wt = ({ (d.notVerifying id gen).wt with refreshQ := l } : WTier).putImage { i with st := .verified } := by
    rw [h, ← hl]
    rfl
  have hpair : i.id = id ∧ i.gen = gen := WTier.pair_of_image? hi
  rw [hwt]
  refine ⟨WTier.image?_putImage_of_pair (i := { i with st := .verified }) _ hpair, ?_⟩
  rw [WTier.putImage_verifying]
  simp [Dev.notVerifying, Dev.modWt, hv]

/-- With two copies of the journal left, the record of a command joins the queue (R173). -/
theorem Dev.recordFor_of_jOk (hj : d.jOk = true) (k : RKind) (i : Image) (param : Nat) :
    d.recordFor m k i param = d.journal ⟨k, i, param, some m, St.OK, none, none⟩ := if_pos hj

/-- The first generation of an IMAGE_ID goes on trial without a revert target. -/
theorem Dev.imageActivate_of_verified (hp : pairBad id gen = false) (hi : d.wt.image? id gen = some i) (hs : i.st = .verified)
    (ht : d.wt.trial id = none) (ha : d.wt.active id = none) (limit : Byte) :
    d.imageActivate m id gen limit = d.recordFor m .activate { i with trialLimit := if limit = 0 then 3 else limit, priorGen := 0 } 0 := by
  rw [Dev.imageActivate, Dev.onImage_of_held hp hi]
  simp [ha, ht, hs]

theorem Dev.imageConfirm_of_trial (hp : pairBad id gen = false) (hi : d.wt.image? id gen = some i) (hs : i.st = .trial) (h₀ : i.priorGen = 0) :
    d.imageConfirm m id gen = d.recordFor m .confirm i 0 := by
  rw [Dev.imageConfirm, Dev.onImage_of_held hp hi]
  simp [hs, h₀]

theorem Dev.imageRevert_of_trial (hp : pairBad id gen = false) (hi : d.wt.image? id gen = some i) (hs : i.st = .trial) (hm : d.mapped i = false) :
    d.imageRevert m id gen = d.recordFor m .revert i 2 := by
  rw [Dev.imageRevert, Dev.onImage_of_held hp hi]
  simp [hs, hm]

theorem Dev.imageRetire_of_confirmed (hp : pairBad id gen = false) (hi : d.wt.image? id gen = some i) (hs : i.st = .confirmed)
    (ht : d.wt.revertTarget i = false) (hm : d.mapped i = false) : d.imageRetire m id gen = d.recordFor m .retire i 0 := by
  rw [Dev.imageRetire, Dev.onImage_of_held hp hi]
  simp [hs, ht, hm]

/-- A held pair is answered with its standing. -/
theorem Dev.imageQuery_of_held (hp : pairBad id gen = false) (hi : d.wt.image? id gen = some i) :
    ∃ items, d.imageQuery m id (some gen) = d.replyItems m [] items := by
  have hfound : i ∈ d.wt.images.filter fun j => decide (j.id = id) && decide (j.gen = gen) :=
    List.mem_filter.mpr ⟨List.mem_of_find?_eq_some hi, by simp [WTier.pair_of_image? hi]⟩
  unfold Dev.imageQuery
  dsimp only
  rw [if_neg]
  · exact ⟨_, rfl⟩
  · rintro (h | h)
    · exact absurd h (by simp [hp])
    · exact absurd h (List.ne_nil_of_mem hfound)

end

section

variable {s : State} {m op : Nat} {i : Image}

/-- A command that starts the download of an image answers OK, and the device then holds the image. -/
theorem replied_and_held (h : HostReady s m op) {j : Image} {q : AllocReq} {x : BitVec 15} (w57 : List W32) {d' : Dev}
    (hd : d' = ((s.dev.begin_ m).modWt fun w => (w.putImage j).own q.rect x q.id q.gen true).replyFull m St.OK 0 w57 []) :
    Replied m St.OK s.dev d' ∧ d'.wt.image? j.id j.gen = some j := by
  have hw := (awaits_of_ready h).congr (e := (s.dev.begin_ m).modWt fun w => (w.putImage j).own q.rect x q.id q.gen true) rfl rfl rfl
  rw [hd]
  refine ⟨hw.replied .., ?_⟩
  rw [Dev.replyFull_wt, Dev.modWt, WTier.own_image?]
  exact WTier.image?_putImage ..

/-- A command whose branch asks for a record queues it; the reply comes once the record is in force. -/
theorem completes_recordFor {c : Instr} {f : Dev → Dev} {k : RKind} {j : Image} {param : Nat} (h : HostReady s m op) (hj : s.dev.jReady = true)
    (hok : s.dev.jOk = true) (hx : exec c s = onHostJ m op s f) (hf : f (s.dev.begin_ m) = (s.dev.begin_ m).recordFor m k j param) (hid : j.id = i.id)
    (hgen : j.gen = i.gen) :
    Completes c s fun d' => ∃ p, d'.wt.jq = s.dev.wt.jq ++ [p] ∧ p.kind = k ∧ p.img.id = i.id ∧ p.img.gen = i.gen ∧ p.param = param ∧ p.reply = some m := by
  have hrec : f (s.dev.begin_ m) = (s.dev.begin_ m).journal ⟨k, j, param, some m, St.OK, none, none⟩ := hf.trans (Dev.recordFor_of_jOk (d := s.dev.begin_ m) hok ..)
  refine completes_onHostJ h hj hx ?_
  rw [hrec]
  exact ⟨_, rfl, rfl, hid, hgen, rfl, rfl⟩

end

/-- Settles O31, command by command: the premises name one branch of each, and the reply or the record of that branch is what is asked for. -/
theorem imageCommandsChangeTheStanding : Obligations.ImageCommandsChangeTheStanding := by
  intro s m id gen i hj hp queued
  refine ⟨?alloc, fun hi => ⟨?verify, ?verified, fun hok => ⟨?activate, ?confirm, ?revert, ?retire⟩, ?query⟩⟩
  case alloc =>
    rintro q x rfl rfl h₁ h₄ hi hr hx h₀ hl hret hb h
    refine completes_onHostJ (f := fun d => d.imageAlloc m q) h hj rfl ?_
    obtain ⟨hreply, hheld⟩ := replied_and_held h _ (Dev.imageAlloc_of_free (d := s.dev.begin_ m) hp h₁ h₄ hi hr hx h₀ hl hret hb)
    exact ⟨hreply, allocImage q x, hheld, rfl, rfl, rfl⟩
  case verify =>
    exact fun hs h => completes_onHostJ (f := fun d => d.imageVerify m id gen) h hj rfl
      (congrArg (fun d => d.wt.verifying) (Dev.imageVerify_of_downloaded (d := s.dev.begin_ m) hp hi hs))
  case verified =>
    exact fun hs hv hb => completes_onDev (f := fun d => (d.modWt fun w => w.ail []).verifyDone id gen) rfl (Dev.verifyDone_wt hi hs hv hb)
  case activate =>
    exact fun limit hs ht ha h => completes_recordFor h hj hok (f := fun d => d.imageActivate m id gen limit) rfl
      (Dev.imageActivate_of_verified (d := s.dev.begin_ m) hp hi hs ht ha limit) rfl rfl
  case confirm =>
    exact fun hs h₀ h => completes_recordFor h hj hok (f := fun d => d.imageConfirm m id gen) rfl (Dev.imageConfirm_of_trial (d := s.dev.begin_ m) hp hi hs h₀) rfl rfl
  case revert =>
    exact fun hs hm h => completes_recordFor h hj hok (f := fun d => d.imageRevert m id gen) rfl (Dev.imageRevert_of_trial (d := s.dev.begin_ m) hp hi hs hm) rfl rfl
  case retire =>
    exact fun hs ht hm h => completes_recordFor h hj hok (f := fun d => d.imageRetire m id gen) rfl (Dev.imageRetire_of_confirmed (d := s.dev.begin_ m) hp hi hs ht hm) rfl rfl
  case query =>
    intro h
    obtain ⟨items, hq⟩ := Dev.imageQuery_of_held (d := s.dev.begin_ m) (m := m) hp hi
    refine completes_onHost (f := fun d => d.imageQuery m id (some gen)) h rfl ?_
    rw [hq]
    exact (awaits_of_ready h).replied ..

end Sys2Proof.Machine

/-! ### The haul (07 R180 to R185) -/

namespace Sys2Proof.Machine

open Sys2Proof Sys2Proof.Claims

/-! #### What a device unit sends leaves the weight tier as it was -/

section

variable (d : Dev) (k : Packet)

@[simp] theorem Dev.toPort_wt (src : Nat) (s : Dev × List Copy) (p : Nat) : (Dev.toPort src k s p).1.wt = s.1.wt := by
  unfold Dev.toPort
  dsimp only
  split_ifs <;> rfl

theorem Dev.foldl_toPort_wt (src : Nat) (ps : List Nat) : (ps.foldl (Dev.toPort src k) (d, [])).1.wt = d.wt :=
  List.foldlRecOn (motive := fun s : Dev × List Copy => s.1.wt = d.wt) _ _ rfl fun _ hs _ _ => (Dev.toPort_wt ..).trans hs

@[simp] theorem Dev.relayOuts_wt (src : Nat) : (d.relayOuts src k).1.wt = d.wt := by
  unfold Dev.relayOuts
  dsimp only
  split_ifs <;> simp [Dev.foldl_toPort_wt]

@[simp] theorem Dev.toUnit_wt : (d.toUnit k).wt = d.wt := by
  unfold Dev.toUnit
  split_ifs <;> rfl

@[simp] theorem Dev.accepted_wt : (d.accepted k).wt = d.wt := by
  unfold Dev.accepted
  split_ifs
  · exact d.toUnit_wt k
  · rfl

@[simp] theorem Dev.arriveHere_wt : (d.arriveHere k).wt = d.wt := by
  unfold Dev.arriveHere
  split_ifs
  · rfl
  · rfl
  · rfl
  · exact d.accepted_wt k

@[simp] theorem Dev.relayIn_wt (src : Nat) : (d.relayIn src k).wt = d.wt := by
  unfold Dev.relayIn
  dsimp only
  split_ifs <;> simp

@[simp] theorem Dev.unitSend_wt (route : Nat) (kind : BitVec 4) (vc : BitVec 2) (sflow : Nat) (ws : List W128) :
    (d.unitSend route kind vc sflow ws).wt = d.wt := by
  unfold Dev.unitSend
  split
  · rfl
  · dsimp only
    split_ifs
    · exact Dev.accepted_wt ..
    · exact Dev.relayIn_wt ..

end

/-! #### Sessions and their DMA reads -/

section

variable {d : Dev} {m : Nat} {k : W32} {e : Session}

@[simp] theorem Dev.dmaOut_issueDma_self (d : Dev) (use : DmaUse) : (d.issueDma use).dmaOut use = true := by simp [Dev.dmaOut, Dev.issueDma]

@[simp] theorem Dev.dmaOut_dropDma_self (d : Dev) (use : DmaUse) : (d.dropDma use).dmaOut use = false := by simp [Dev.dmaOut, Dev.dropDma]

/-- A session that has just been opened. -/
def Session.opened (q : HaulReq) (no : Nat) : Session := ⟨q, [], [], [], [], false, false, no, none⟩

/-- Below the limit of four sessions a head opens its session, whatever the device holds of the pair. -/
theorem Dev.haulOpen_of_head {q : HaulReq} (hp : pairBad q.id q.gen = false) (hl : d.wt.sessions.length < 4) (hr : q.role = .head) :
    ∃ no, d.haulOpen m q =
      ((d.modWt fun w => { w with sessions := w.sessions ++ [Session.opened q no] }).issueDma (.haul q.session)).reply m St.OK := by
  unfold Dev.haulOpen
  dsimp only
  rw [if_neg (by simp [hp]), if_neg (Nat.not_le.mpr hl), if_neg (by simp [hr]), if_pos hr]
  exact ⟨_, rfl⟩

theorem Dev.haulClose_of_open (h : ∃ e ∈ d.wt.sessions, e.q.session = k) : d.haulClose m k =
    ((d.modWt fun w => { w with sessions := w.sessions.filter fun s => decide (s.q.session ≠ k) }).dropDma (.haul k)).reply m St.OK :=
  if_pos (by simpa using h)

/-! #### The head -/

theorem Dev.headSend_of_frame {fr : HaulFrame} (h : d.headOf k = some e) (hf : e.frame.map HaulFrame.ofBytes = some fr) : d.headSend k fr =
    ((d.modHead k fun e => { e with frame := none }).unitSend e.q.down 4 3 e.frameFlow fr.words).issueDma (.haul k) := by
  rw [Dev.headSend, h]
  exact if_pos hf

theorem Dev.headSend_of_ne {fr : HaulFrame} (h : d.headOf k = some e) (hf : e.frame.map HaulFrame.ofBytes ≠ some fr) : d.headSend k fr = d := by
  rw [Dev.headSend, h]
  exact if_neg hf

/-- An acknowledgement for a session of the head goes to its ring; a SESSION_ERR sets its flag. -/
theorem Dev.haulAckArrival_of_head {a : HaulAck} (h : d.headOf a.session = some e) : d.haulAckArrival a =
    if a.kind = 4 then (d.emit (.ackRing e.q.ackRing a)).modReg Reg.WT_ERR fun v => setBit v 4 else d.emit (.ackRing e.q.ackRing a) := by
  rw [Dev.haulAckArrival, h]

/-! #### Receiving devices -/

theorem Dev.frameArrival_of_no_session {p : Packet} {fr : HaulFrame} (h : d.session? fr.session = none) :
    d.frameArrival p fr = d.count Reg.WT_HAUL_BAD 0 64 1 := by
  rw [Dev.frameArrival, h]

/-- A MEMBER that does not hold the pair forwards the packet's own words. -/
theorem Dev.frameArrival_of_member {p : Packet} {fr : HaulFrame} (h : d.session? fr.session = some e) (hr : e.q.role = .member)
    (hi : d.wt.image? e.q.id e.q.gen = none) (hf : frameBad fr none = false) :
    d.frameArrival p fr = d.unitSend e.q.down 4 3 e.frameFlow p.payload := by
  rw [Dev.frameArrival, h]
  dsimp only
  rw [hi, Option.filter_none, if_neg (by simp [hf]), if_pos hr]

theorem session_of_session? (h : d.session? k = some e) : e.q.session = k := by
  have hp := List.find?_some h
  simp only [Bool.and_eq_true, decide_eq_true_eq] at hp
  exact hp.1

/-- The one shard that matched is acknowledged; a device that does not hold the pair does no more. -/
theorem Dev.shardOkSend_of_landed {n : W32} (h : d.session? k = some e) (hl : e.landed = [n.toNat]) (hi : d.wt.image? e.q.id e.q.gen = none) :
    d.shardOkSend k n = (d.modSession k fun s => { s with landed := s.landed.filter fun j => decide (j ≠ n.toNat) }).sendAck e 1 n 0 0 := by
  have hcontains : e.landed.contains n.toNat = true := by simp [hl]
  have hnone : ((d.modSession k fun s => { s with landed := s.landed.filter fun j => decide (j ≠ n.toNat) }).sendAck e 1 n 0 0).wt.image? e.q.id e.q.gen =
      none := by
    rw [Dev.sendAck, Dev.unitSend_wt]
    exact hi
  rw [Dev.shardOkSend, h]
  dsimp only
  rw [if_pos hcontains, hnone]

end

/-! #### The packets that wait for the haul unit -/

section

variable {s : State} {p : Packet} {P : Dev → Prop}

theorem completes_haulFrameArrival {fr : HaulFrame} (hu : (s.dev.unitPkt 0x7FF 4 fun _ => true) = some p) (hp : p.haul = some fr)
    (hP : P ((s.dev.unitTake 0x7FF p).frameArrival p fr)) : Completes (.haulFrameArrival fr) s P := by
  refine ⟨_, ?_, hP⟩
  change execHaulFrameArrival fr s = _
  rw [execHaulFrameArrival, onDev, hu]
  dsimp only
  rw [if_pos hp]

theorem completes_haulAckArrival {a : HaulAck} (hu : (s.dev.unitPkt 0x7FF 5 fun _ => true) = some p) (hp : p.haulAck = a)
    (hP : P ((s.dev.unitTake 0x7FF p).haulAckArrival a)) : Completes (.haulAckArrival a) s P := by
  refine ⟨_, ?_, hP⟩
  change execHaulAckArrival a s = _
  rw [execHaulAckArrival, onDev, hu]
  dsimp only
  rw [if_pos hp]

end

/-- Settles O32: each command in the branch that its premises name. The model's choices in it: frames wait at their unit (log 44), a HEAD does not store
(log 65), ring entries are typed (log 69), when DMA reads are issued (log 70), and the flows (log 111). -/
theorem haulSessionsForwardAndAcknowledge : Obligations.HaulSessionsForwardAndAcknowledge := by
  intro s m
  refine ⟨?opening, ?closing, fun k fr e he => ⟨fun hf => ?send, fun hf => ?keep⟩, fun fr p hu hp => ⟨fun hn => ?noSession, ?member⟩, ?shard, ?ack⟩
  case opening =>
    intro q hj hp hl hr h
    refine completes_onHostJ (f := fun d => d.haulOpen m q) h hj rfl ?_
    obtain ⟨no, ho⟩ := Dev.haulOpen_of_head (d := s.dev.begin_ m) (m := m) hp hl hr
    rw [ho, Dev.reply, Dev.replyFull_wt, Dev.replyFull_dmaOut]
    have hw := (awaits_of_ready h).congr (e := ((s.dev.begin_ m).modWt fun w =>
      { w with sessions := w.sessions ++ [Session.opened q no] }).issueDma (.haul q.session)) rfl rfl rfl
    exact ⟨hw.replied .., List.length_append, ⟨_, List.mem_append_right _ (List.mem_singleton_self _), rfl⟩, Dev.dmaOut_issueDma_self ..⟩
  case closing =>
    intro k hj hk h
    refine completes_onHostJ (f := fun d => d.haulClose m k) h hj rfl ?_
    rw [Dev.haulClose_of_open (d := s.dev.begin_ m) hk, Dev.reply, Dev.replyFull_wt, Dev.replyFull_dmaOut]
    have hw := (awaits_of_ready h).congr (e := ((s.dev.begin_ m).modWt fun w =>
      { w with sessions := w.sessions.filter fun s => decide (s.q.session ≠ k) }).dropDma (.haul k)) rfl rfl rfl
    exact ⟨hw.replied .., rfl, Dev.dmaOut_dropDma_self ..⟩
  case send => exact completes_onDev (f := fun d => d.headSend k fr) rfl (Dev.headSend_of_frame he hf)
  case keep => exact completes_onDev (f := fun d => d.headSend k fr) rfl (Dev.headSend_of_ne he hf)
  case noSession =>
    refine completes_haulFrameArrival hu hp ?_
    rw [Dev.frameArrival_of_no_session (d := s.dev.unitTake 0x7FF p) hn]
    exact ⟨Dev.onlyReg_setReg .., Dev.reg_modReg_self ..⟩
  case member =>
    exact fun e he hr hi hf => completes_haulFrameArrival hu hp (Dev.frameArrival_of_member (d := s.dev.unitTake 0x7FF p) he hr hi hf)
  case shard =>
    intro k n e he hl hi
    refine completes_onDev (f := fun d => d.shardOkSend k n) rfl ?_
    rw [Dev.shardOkSend_of_landed he hl hi, Dev.sendAck, session_of_session? he]
    rfl
  case ack =>
    intro a p e hu hp he
    refine completes_haulAckArrival hu hp ?_
    rw [Dev.haulAckArrival_of_head (d := s.dev.unitTake 0x7FF p) he]
    split_ifs with ha
    · exact ⟨rfl, rfl, fun _ => by rw [Dev.reg_modReg_self, bit_setBit_self _ _ (by decide)]⟩
    · exact ⟨rfl, rfl, fun h => absurd h ha⟩

end Sys2Proof.Machine

/-! ### Layer swaps, resident weights and adapter slots (07 R189 to R194) -/

namespace Sys2Proof.Machine

open Sys2Proof Sys2Proof.Claims

/-! #### Layer swaps -/

section

variable {d : Dev} {m : Nat} {mask : W64} {rolling : Bool} {w : Swap}

theorem Dev.foldl_wt {f : Dev → Nat → Dev} (hf : ∀ d r, (f d r).wt = d.wt) (l : List Nat) (d : Dev) : (l.foldl f d).wt = d.wt :=
  List.foldlRecOn (motive := fun e : Dev => e.wt = d.wt) _ _ rfl fun _ he _ _ => (hf ..).trans he

/-- A copy that a swap makes changes maps and regions, not the tier. -/
@[simp] theorem Dev.swapStep_wt (d : Dev) (w : Swap) : (d.swapStep w).1.wt = d.wt := by
  have hcopies (l : List Nat) : (l.foldl (fun d r => d.copyMap r) d).wt = d.wt :=
    Dev.foldl_wt (f := fun d r => d.copyMap r) (fun _ _ => rfl) l d
  unfold Dev.swapStep
  dsimp only
  generalize (if w.rolling = true then _ else _ : List Nat) = now
  split_ifs
  · rfl
  · refine (Dev.foldl_wt ?_ ..).trans (hcopies now)
    exact fun _ _ => rfl
  · exact hcopies now

/-- Whether a swap is the one that LAYER_SWAP armed with these operands. -/
def Swap.isFor (w : Swap) (m : Nat) (mask : W64) (rolling : Bool) : Prop := w.m = m ∧ w.mask = mask ∧ w.rolling = rolling

theorem Dev.swapStep_isFor (d : Dev) (h : w.isFor m mask rolling) : (d.swapStep w).2.isFor m mask rolling := by
  unfold Dev.swapStep
  dsimp only
  split_ifs <;> exact h

/-- Copies leave a swap armed. -/
theorem Dev.swapRun_isFor (h : ∃ w ∈ d.wt.swaps, w.isFor m mask rolling) : ∃ w ∈ d.swapRun.wt.swaps, w.isFor m mask rolling := by
  refine List.foldlRecOn (motive := fun e : Dev => ∃ w ∈ e.wt.swaps, w.isFor m mask rolling) _ _ h ?_
  rintro e ⟨w, hw, hfor⟩ v -
  refine ⟨if w = v then (e.swapStep v).2 else w, ?_, ?_⟩
  · exact List.mem_map.mpr ⟨w, (e.swapStep_wt v).symm ▸ hw, rfl⟩
  · split_ifs with hv
    · exact e.swapStep_isFor (hv ▸ hfor)
    · exact hfor

/-- LAYER_SWAP of regions that pass the checks of R189. -/
theorem Dev.layerSwap_of_ok {tail : Byte} (hf : rolling = true → d.feature 1 = true)
    (h : ∀ r, r < 64 → mask.getLsbD r = true → d.swapArmed r = false ∧ (d.region r).st ≠ .empty ∧ (d.region r).st ≠ .fault ∧
      d.wt.mapServes (d.reg (Reg.WT_XMAP_NEXT + 8 * r)) = true ∧ (d.region r).residents = []) :
    d.layerSwap m mask rolling tail =
      (d.modWt fun w => { w with swaps := w.swaps ++ [⟨mask, rolling, if rolling then tail.toNat else 0, 0, 0, none, m⟩] }).swapRun := by
  have hmem : ∀ r ∈ (List.range Config.nRegions).filter fun r => bit mask r, r < 64 ∧ mask.getLsbD r = true := fun r hr => by
    simpa [bit, Config.nRegions] using hr
  unfold Dev.layerSwap
  dsimp only
  rw [if_neg, if_neg, if_neg, if_pos]
  · refine List.all_eq_true.mpr fun r hr => ?_
    obtain ⟨-, -, -, hserves, hres⟩ := h r (hmem r hr).1 (hmem r hr).2
    rw [hserves, hres]
    rfl
  · intro hany
    obtain ⟨r, hr, hst⟩ := List.any_eq_true.mp hany
    obtain ⟨-, hempty, hfault, -⟩ := h r (hmem r hr).1 (hmem r hr).2
    simp [hempty, hfault] at hst
  · intro hany
    obtain ⟨r, hr, harmed⟩ := List.any_eq_true.mp hany
    obtain ⟨hfree, -⟩ := h r (hmem r hr).1 (hmem r hr).2
    rw [hfree] at harmed
    exact absurd harmed Bool.false_ne_true
  · cases rolling with
    | false => simp
    | true => simp [hf rfl]

/-- A swap that waits for no region makes no copy. -/
theorem Dev.swapRun_of_done (hs : d.wt.swaps = [w]) (hw : w.waits = []) : d.swapRun = d := by
  have hstep : d.swapStep w = (d, w) := by simp [Dev.swapStep, hw]
  have hmap : d.wt.swaps.map (fun u => if u = w then w else u) = d.wt.swaps := by simp [hs]
  unfold Dev.swapRun
  rw [hs, List.foldl_cons, List.foldl_nil, hstep]
  dsimp only [Dev.modWt]
  rw [hmap]

/-- The reply of a swap whose regions have all copied and loaded, and none of which left. -/
theorem Dev.layerSwapReply_of_done (hs : d.wt.swaps = [w]) (hm : w.m = m) (hw : w.waits = []) (hl : w.left = 0)
    (hr : ∀ r, (d.region r).reload = false) :
    d.layerSwapReply m = (d.modWt fun t => { t with swaps := t.swaps.filter fun u => decide (u.m ≠ m) }).reply m St.OK := by
  have hfind : d.wt.swaps.find? (fun w => decide (w.m = m)) = some w := by simp [hs, hm]
  unfold Dev.layerSwapReply
  dsimp only
  rw [Dev.swapRun_of_done hs hw, hfind]
  dsimp only
  rw [if_pos ⟨hw, by simp [hr]⟩, if_pos hl]

end

/-! #### Reads of a tier without wrong bits -/

section

variable {w : WTier}

theorem WTier.weakIn_of_sound (h : w.weak = []) (t a n : Nat) : w.weakIn t a n = [] := by simp [WTier.weakIn, h]

theorem WTier.readable_of_sound (h : w.weak = []) (t a n : Nat) : w.readable t a n = true := by simp [WTier.readable, WTier.weakIn_of_sound h]

/-- A read delivers the bytes that the slice holds. -/
theorem WTier.read_of_sound (h : w.weak = []) (c t a n : Nat) : w.read c t a n = w.bytes t a n := by
  simp [WTier.read, WTier.bytes, WTier.readable_of_sound h]

theorem WTier.readProg_of_sound (h : w.weak = []) (c : Nat) (x : W64) (t a n : Nat) : w.readProg c x t a n = w.prog x t a n := by
  simp [WTier.readProg, WTier.prog, WTier.readable_of_sound h]

theorem Dev.tierMeet_of_sound {d : Dev} (h : d.wt.weak = []) (t : Nat) (rs : List (Nat × Nat)) : d.tierMeet t rs = (d, []) := by
  have hits : (rs.flatMap fun r => (d.wt.weakIn t r.1 r.2).map fun e => (t, e.1, e.2)) = [] := by simp [WTier.weakIn_of_sound h]
  unfold Dev.tierMeet
  rw [hits]
  rfl

end

/-! #### Resident weights -/

/-- A reload of one range writes its bytes under the new map, and the region no longer waits. -/
theorem Dev.reloadDone_of_sound {d : Dev} {r : Nat} {x : Resident} (hl : (d.region r).reload = true) (hx : (d.region r).residents = [x])
    (hw : d.wt.weak = []) : d.reloadDone r =
      (d.modTile x.t fun y => y.spadWrite (64 * x.line) (d.wt.prog (d.xmap r) x.t x.saddr (64 * x.lines))).modRegion r fun y => { y with reload := false } := by
  have hload : d.loadResident r x =
      (d.modTile x.t fun y => y.spadWrite (64 * x.line) (d.wt.prog (d.xmap r) x.t x.saddr (64 * x.lines)), false) := by
    unfold Dev.loadResident
    dsimp only
    rw [Dev.tierMeet_of_sound hw, WTier.readProg_of_sound hw]
    rfl
  unfold Dev.reloadDone
  rw [if_pos hl, hx, Dev.loadResidents, List.foldl_cons, List.foldl_nil, hload]
  rfl

/-! #### Adapter slots -/

/-- The slot that a change names holds what the change makes of it. -/
theorem Region.modAd_slot (x : Region) (k : Nat) (f : AdSlot → AdSlot) : (x.modAd k f).adslots[k]? = x.adslots[k]?.map f := by
  rw [Region.modAd, List.getElem?_map, List.getElem?_zipIdx, Option.map_map]
  refine congrArg (Option.map · _) (funext fun a => ?_)
  simp

section

variable {d : Dev} {m r slot : Nat} {a : AdSlot}

/-- ADAPTER_LOAD of an adapter that passes the checks starts the copy. -/
theorem Dev.adapterLoad_of_ok {id gen ad : W32} {i : Image} {e : AdEnt} (hf : d.feature 5 = true) (hs : (d.region r).st ≠ .empty)
    (ha : (d.region r).adslots[slot]? = some a) (hp : pairBad id gen = false) (hi : d.wt.image? id gen = some i) (hk : i.ikind = 3) (hc : i.st = .confirmed)
    (he : i.adapters.find? (fun e => decide (e.ad = ad)) = some e) (ht : (d.region r).tileList.all (fun t => rectHolds i.rect t) = true)
    (hl : e.part ≤ 64 * a.lines) :
    d.adapterLoad m r slot id gen ad = (d.modRegion r fun x => x.modAd slot fun a => { a with
      job := some ⟨id, gen, ad, e.xoff, e.part, false⟩, evict := false
      st := if a.st = .empty then .loading else a.st
      ad := if a.st = .empty then 0 else a.ad }).reply m St.OK := by
  unfold Dev.adapterLoad
  dsimp only
  rw [if_neg (by simp [hf]), if_neg hs, ha]
  dsimp only
  rw [Dev.onImage_of_held hp hi, if_neg (by simp [hk, hc]), he]
  dsimp only
  rw [if_neg (by simp [ht]), if_neg (Nat.not_lt.mpr hl)]

theorem Dev.adapterEvict_of_ok (hf : d.feature 5 = true) (hs : (d.region r).st ≠ .empty) (ha : (d.region r).adslots[slot]? = some a) :
    d.adapterEvict m r slot = (d.modRegion r fun x => x.modAd slot fun a => { a with evict := true, job := none }).reply m St.OK := by
  unfold Dev.adapterEvict
  dsimp only
  rw [if_neg (by simp [hf]), if_neg hs, if_pos (List.getElem?_eq_some_iff.mp ha).1]

/-- A change of an adapter slot whose command then answers OK. -/
theorem adapter_replied {s : State} {op : Nat} (h : HostReady s m op) (ha : (s.dev.region r).adslots[slot]? = some a) (f : AdSlot → AdSlot) {d' : Dev}
    (hd : d' = ((s.dev.begin_ m).modRegion r fun x => x.modAd slot f).reply m St.OK) :
    Replied m St.OK s.dev d' ∧ (d'.region r).adslots[slot]? = some (f a) := by
  have hw := (awaits_of_ready h).congr (e := (s.dev.begin_ m).modRegion r fun x => x.modAd slot f) rfl rfl rfl
  rw [hd]
  refine ⟨hw.replied .., ?_⟩
  rw [Dev.reply, Dev.replyFull_region, Dev.region_modRegion_self, Region.modAd_slot]
  exact congrArg (Option.map f) ha

end

/-! #### The bytes of an adapter -/

section

variable (i : Image) (w : WTier) (t : Nat)

/-- Addresses within one extent of an image follow each other. -/
theorem Image.extAddr_add {lo k : Nat} (h : (lo + k) / 2 ^ 26 = lo / 2 ^ 26) : i.extAddr (lo + k) = i.extAddr lo + k := by
  unfold Image.extAddr
  rw [h]
  omega

/-- The parts of the bytes from `a` to `b` of an image, one for each of its first `n` extents: a slice address and a length. -/
def Image.parts (a b n : Nat) : List (Nat × Nat) := (List.range n).filterMap fun x =>
  if max a (x * 2 ^ 26) < min b ((x + 1) * 2 ^ 26) then
    some (i.extAddr (max a (x * 2 ^ 26)), min b ((x + 1) * 2 ^ 26) - max a (x * 2 ^ 26))
  else none

/-- The bytes from `a` to `b` of the image extent space, in the slice of tile `t`. -/
def WTier.imageBytes (a b : Nat) : List Byte := (List.range (b - a)).map fun o => w.byte t (i.extAddr (a + o))

theorem WTier.imageBytes_append {a b c : Nat} (hab : a ≤ b) (hbc : b ≤ c) : w.imageBytes i t a b ++ w.imageBytes i t b c = w.imageBytes i t a c := by
  have hlen : c - a = (b - a) + (c - b) := by omega
  rw [WTier.imageBytes, WTier.imageBytes, WTier.imageBytes, hlen, List.range_add, List.map_append, List.map_map]
  refine congrArg _ (List.map_congr_left fun k _ => ?_)
  rw [Function.comp_apply, ← Nat.add_assoc, Nat.add_sub_cancel' hab]

/-- Within one extent they are the bytes from the address of the first. -/
theorem WTier.bytes_extAddr {x lo hi : Nat} (hl : x * 2 ^ 26 ≤ lo) (hh : hi ≤ (x + 1) * 2 ^ 26) :
    w.bytes t (i.extAddr lo) (hi - lo) = w.imageBytes i t lo hi := by
  refine List.map_congr_left fun k hk => ?_
  rw [List.mem_range] at hk
  rw [i.extAddr_add (by omega)]

/-- The parts of the extents, one after the other, are the bytes in order. -/
theorem WTier.flatMap_parts {a b : Nat} (hab : a ≤ b) (n : Nat) :
    (i.parts a b n).flatMap (fun x => w.bytes t x.1 x.2) = w.imageBytes i t a (max a (min b (n * 2 ^ 26))) := by
  induction n with
  | zero => simp [Image.parts, WTier.imageBytes]
  | succ n ih =>
    have hsplit : i.parts a b (n + 1) = i.parts a b n ++ if max a (n * 2 ^ 26) < min b ((n + 1) * 2 ^ 26) then
        [(i.extAddr (max a (n * 2 ^ 26)), min b ((n + 1) * 2 ^ 26) - max a (n * 2 ^ 26))] else [] := by
      rw [Image.parts, List.range_succ, List.filterMap_append, ← Image.parts, List.filterMap_cons, List.filterMap_nil]
      split_ifs <;> rfl
    rw [hsplit, List.flatMap_append, ih]
    split_ifs with h
    · have hlo : min b (n * 2 ^ 26) = n * 2 ^ 26 := min_eq_right (((le_max_right ..).trans_lt h).le.trans (min_le_left ..))
      have hhi : max a (min b ((n + 1) * 2 ^ 26)) = min b ((n + 1) * 2 ^ 26) := max_eq_right ((le_max_left ..).trans_lt h).le
      rw [List.flatMap_singleton, w.bytes_extAddr i t (x := n) (le_max_right ..) (min_le_right ..), hlo, hhi,
        w.imageBytes_append i t (le_max_left ..) h.le]
    · have hend : max a (min b (n * 2 ^ 26)) = max a (min b ((n + 1) * 2 ^ 26)) := by omega
      rw [List.flatMap_nil, List.append_nil, hend]

end

/-- The copy of one tile on a tier without wrong bits: PART bytes from XOFF of its own slice. -/
theorem Dev.adapterPart_of_sound {d : Dev} (h : d.wt.weak = []) (t at_ : Nat) (i : Image) {j : AdJob} (hj : j.xoff + j.part ≤ 15 * 2 ^ 26) :
    d.adapterPart t at_ i j = d.modTile t fun y => y.spadWrite at_ (d.wt.imageBytes i t j.xoff (j.xoff + j.part)) := by
  have hend : max j.xoff (min (j.xoff + j.part) (15 * 2 ^ 26)) = j.xoff + j.part := by omega
  have hbytes := d.wt.flatMap_parts i t (Nat.le_add_right j.xoff j.part) 15
  rw [hend] at hbytes
  unfold Dev.adapterPart
  dsimp only
  rw [Dev.tierMeet_of_sound h]
  simp only [WTier.read_of_sound h]
  rw [← hbytes]
  rfl

/-- The copy of a slot of a region of one tile. -/
theorem Dev.adapterCopied_of_sound {d : Dev} {r slot t : Nat} {a : AdSlot} {j : AdJob} {i : Image} (ha : (d.region r).adslots[slot]? = some a)
    (hj : a.job = some j) (hs : a.st = .loading) (hc : j.copied = false) (hi : d.wt.image? j.id j.gen = some i) (ht : (d.region r).tileList = [t])
    (hw : d.wt.weak = []) (hb : j.xoff + j.part ≤ 15 * 2 ^ 26) :
    d.adapterCopied r slot = (d.modTile t fun y => y.spadWrite (64 * a.line) (d.wt.imageBytes i t j.xoff (j.xoff + j.part))).modRegion r fun x =>
      x.modAd slot fun a => { a with job := some { j with copied := true } } := by
  unfold Dev.adapterCopied
  dsimp only
  rw [ha]
  dsimp only
  rw [hj]
  dsimp only
  rw [if_pos ⟨hs, hc⟩, hi]
  dsimp only
  rw [ht, List.foldl_cons, List.foldl_nil, Dev.adapterPart_of_sound hw _ _ _ hb]

/-- Bytes just written to a scratchpad read back. -/
theorem Tile.read_spadWrite (x : Tile) (a : Nat) (bs : List Byte) {o : Nat} (h : o < bs.length) :
    Memory.read (x.spadWrite a bs).spad (a + o) = bs.getD o 0 := by
  rw [Tile.spadWrite_spad, Memory.read_writeN, if_pos (by omega), Nat.add_sub_cancel_left]

/-- Settles O33, command by command: the premises name one branch of each, and on a tier without wrong bits a read delivers what the slice holds (what
one with wrong bits delivers is log 105, the model's choice). -/
theorem swapsResidentsAndAdapters : Obligations.SwapsResidentsAndAdapters := by
  refine ⟨?swap, ?reply, ?reload, ?load, ?copied, ?evict⟩
  case swap =>
    intro s m mask mode tail hj hf h hready
    refine completes_onHostJ (f := fun d => d.layerSwap m mask mode tail) hready hj rfl ?_
    rw [Dev.layerSwap_of_ok (d := s.dev.begin_ m) hf h]
    exact Dev.swapRun_isFor ⟨_, List.mem_append_right _ (List.mem_singleton_self _), rfl, rfl, rfl⟩
  case reply =>
    intro s m w hm hauth hst hno hs hwm hw hl hr
    refine completes_onUnit (f := fun d => d.layerSwapReply m) hm rfl ?_
    rw [Dev.layerSwapReply_of_done hs hwm hw hl hr, Dev.reply, Dev.replyFull_wt]
    have hawaits : Awaits m s.dev s.dev := ⟨hm, hauth, hst, by simp [hno], rfl⟩
    refine ⟨(hawaits.congr (e := s.dev.modWt fun t => { t with swaps := t.swaps.filter fun u => decide (u.m ≠ m) }) rfl rfl rfl).replied .., ?_⟩
    simp [Dev.modWt, hs, hwm]
  case reload =>
    intro s r x hr hl hx hw
    refine completes_onUnit (f := fun d => d.reloadDone r) hr rfl ?_
    rw [Dev.reloadDone_of_sound hl hx hw]
    refine ⟨congrArg Region.reload (Dev.region_modRegion_self ..), fun i hi => ?_⟩
    rw [Dev.modRegion_tile, Dev.tile_modTile_self, Tile.read_spadWrite _ _ _ (by simpa [WTier.prog] using hi)]
  case load =>
    intro s m r slot id gen ad i a e hf hs ha hp hi hk hc he ht hl h
    refine completes_onHostR (f := fun d => d.adapterLoad m r slot id gen ad) h rfl ?_
    obtain ⟨hreply, hslot⟩ := adapter_replied h.1 ha _ (Dev.adapterLoad_of_ok (d := s.dev.begin_ m) (m := m) hf hs ha hp hi hk hc he ht hl)
    exact ⟨hreply, _, hslot, rfl, rfl⟩
  case copied =>
    intro s r slot t a j i hr ha hj hs hc hi ht hw hb
    refine completes_onUnit (f := fun d => d.adapterCopied r slot) hr rfl ?_
    rw [Dev.adapterCopied_of_sound ha hj hs hc hi ht hw hb]
    refine ⟨fun o ho => ?_, { a with job := some { j with copied := true } }, ?_, rfl⟩
    · have hlen : o < (s.dev.wt.imageBytes i t j.xoff (j.xoff + j.part)).length := by simpa [WTier.imageBytes] using ho
      rw [Dev.modRegion_tile, Dev.tile_modTile_self, Tile.read_spadWrite _ _ _ hlen, List.getD_eq_getElem _ _ hlen]
      simp [WTier.imageBytes]
    · rw [Dev.region_modRegion_self, Region.modAd_slot]
      exact congrArg (Option.map _) ha
  case evict =>
    intro s m r slot a hf hs ha h
    refine completes_onHostR (f := fun d => d.adapterEvict m r slot) h rfl ?_
    obtain ⟨hreply, hslot⟩ := adapter_replied h.1 ha _ (Dev.adapterEvict_of_ok (d := s.dev.begin_ m) (m := m) hf hs ha)
    exact ⟨hreply, _, hslot, rfl, rfl⟩

end Sys2Proof.Machine

/-! ## Attention and KV

Proofs of the statements of 08: the append port (O34, refuted), fetches and requests (O35), WVL_CMD and the configuration words (O36), the KV commands
(O37), claims and shadow records (O38). What directories are read from, and what changes of tiles leave alone, stand first. -/

/-! ### Numbers in memory -/

namespace Sys2Proof.Machine

open Sys2Proof Sys2Proof.Claims

section

variable {m m' : Memory} {a b n : Nat} {bs : List Byte}

theorem Memory.readNat_lt (m : Memory) (a n : Nat) : m.readNat a n < 256 ^ n := by
  have h := leNat_lt (m.readN a n)
  rwa [Memory.length_readN] at h

theorem Memory.readNat_congr (h : ∀ x, a ≤ x → x < a + n → m'.read x = m.read x) : m'.readNat a n = m.readNat a n :=
  congrArg leNat (Memory.readN_congr h)

/-- A number just written reads back. -/
theorem Memory.readNat_writeN_leBytes (m : Memory) (a n v : Nat) : (m.writeN a (leBytes n v)).readNat a n = v % 256 ^ n := by
  have h := m.readN_writeN a (leBytes n v)
  rw [length_leBytes] at h
  rw [Memory.readNat, h, leNat_leBytes]

theorem Memory.readNat_writeN_outside (h : a + n ≤ b ∨ b + bs.length ≤ a) : (m.writeN b bs).readNat a n = m.readNat a n :=
  Memory.readNat_congr fun _ _ _ => Memory.read_writeN_outside _ _ _ _ (by omega)

theorem Memory.writeN_append (m : Memory) (a : Nat) (bs cs : List Byte) : m.writeN a (bs ++ cs) = (m.writeN a bs).writeN (a + bs.length) cs := by
  induction bs generalizing m a with
  | nil => rfl
  | cons b bs ih =>
    rw [List.length_cons, Nat.add_comm bs.length, ← Nat.add_assoc]
    exact ih _ _

theorem leNat_append (bs cs : List Byte) : leNat (bs ++ cs) = leNat bs + 256 ^ bs.length * leNat cs := by
  induction bs with
  | nil => simp [leNat]
  | cons b bs ih =>
    rw [List.cons_append, leNat, leNat, ih, List.length_cons]
    ring

theorem Memory.getD_readN {i : Nat} (m : Memory) (a : Nat) (h : i < n) : (m.readN a n).getD i 0 = m.read (a + i) := by
  induction n generalizing a i with
  | zero => omega
  | succ n ih =>
    cases i with
    | zero => rfl
    | succ i => exact (ih (a + 1) (by omega)).trans (by congr 1; omega)

end

end Sys2Proof.Machine

/-! ### Directories (08 Tables 8.1, 8.2) -/

namespace Sys2Proof.Machine

open Sys2Proof Sys2Proof.Claims

/-- All that a tile's directories are read from: its scratchpad and WVL_DIR. -/
def Tile.directory (x : Tile) : Memory × W64 := (x.spad, x.reg Reg.WVL_DIR)

section

variable {x y : Tile}

theorem Tile.dirAddr_congr (h : y.reg Reg.WVL_DIR = x.reg Reg.WVL_DIR) (slot : Nat) : y.dirAddr slot = x.dirAddr slot := by
  simp only [Tile.dirAddr, Tile.dirBase, Tile.slotBase, Tile.dirLines, Tile.dirLen, h]

theorem Tile.clen_congr (h : y.directory = x.directory) (slot : Nat) : y.clen slot = x.clen slot := by
  obtain ⟨hs, hd⟩ := Prod.mk.inj h
  rw [Tile.clen, hs, Tile.dirAddr_congr hd, Tile.clen]

theorem Tile.plen_congr (h : y.directory = x.directory) (slot : Nat) : y.plen slot = x.plen slot := by
  obtain ⟨hs, hd⟩ := Prod.mk.inj h
  rw [Tile.plen, hs, Tile.dirAddr_congr hd, Tile.plen]

theorem Tile.pte_congr (h : y.directory = x.directory) (slot page : Nat) : y.pte slot page = x.pte slot page := by
  obtain ⟨hs, hd⟩ := Prod.mk.inj h
  rw [Tile.pte, hs, Tile.dirAddr_congr hd, Tile.pte]

/-- A write of another register than WVL_DIR leaves the directories as they were. -/
theorem Tile.directory_setReg (x : Tile) {a : Nat} (v : W64) (h : Reg.WVL_DIR ≠ a) : (x.setReg a v).directory = x.directory :=
  congrArg (Prod.mk x.spad) (x.reg_setReg_ne a v h)

variable (x) (slot p : Nat)

theorem Tile.pte_setPte_self (e : W32) : (x.setPte slot p e).pte slot p = e := by
  have h : (x.setPte slot p e).pte slot p = BitVec.ofNat 32 (e.toNat % 256 ^ 4) := congrArg (BitVec.ofNat 32) (Memory.readNat_writeN_leBytes ..)
  rw [h, Nat.mod_eq_of_lt (by exact e.isLt), BitVec.ofNat_toNat, BitVec.setWidth_eq]

theorem Tile.pte_setPte_ne (e : W32) {q : Nat} (h : q ≠ p) : (x.setPte slot p e).pte slot q = x.pte slot q :=
  congrArg (BitVec.ofNat 32) (Memory.readNat_writeN_outside (a := x.dirAddr slot + 16 + 4 * q) (by rw [length_leBytes]; omega))

theorem Tile.clen_setClen (n : Nat) : (x.setClen slot n).clen slot = n % 2 ^ 32 := Memory.readNat_writeN_leBytes ..

theorem Tile.plen_setPlen (n : Nat) : (x.setPlen slot n).plen slot = n % 2 ^ 32 := Memory.readNat_writeN_leBytes ..

theorem Tile.clen_setPlen (n : Nat) : (x.setPlen slot n).clen slot = x.clen slot :=
  Memory.readNat_writeN_outside (b := x.dirAddr slot + 4) (.inl le_rfl)

end

end Sys2Proof.Machine

/-! ### Changes of tiles alone -/

namespace Sys2Proof.Machine

open Sys2Proof Sys2Proof.Claims

theorem SMap.get_of_forall {V : Type} (d : Nat → V) {P : V → Prop} (hd : ∀ k, P (d k)) {m : SMap V} (h : ∀ e ∈ m, P e.2) (k : Nat) : P (SMap.get d m k) := by
  induction m with
  | nil => exact hd k
  | cons e m ih =>
    obtain ⟨j, v⟩ := e
    rw [SMap.get]
    split
    · exact h (j, v) List.mem_cons_self
    · exact ih fun e he => h e (List.mem_cons_of_mem _ he)

/-- On a device of good parity no word of any tile fails. -/
theorem parInv_of_parityGood {d : Dev} (h : ParityGood d) (t : Nat) : (d.tile t).parInv = [] :=
  SMap.get_of_forall _ (P := fun x => x.parInv = []) (fun _ => rfl) (fun e he => List.isEmpty_iff.mp (List.all_eq_true.mp h e he)) t

section

variable {d d₀ d' : Dev} {α β : Type}

/-- Nothing but tiles differs between two devices. -/
def OnlyTiles (d d' : Dev) : Prop := ∃ ts, d' = { d with tiles := ts }

theorem OnlyTiles.refl (d : Dev) : OnlyTiles d d := ⟨d.tiles, rfl⟩

theorem OnlyTiles.trans (h : OnlyTiles d₀ d) (h' : OnlyTiles d d') : OnlyTiles d₀ d' := by
  obtain ⟨_, rfl⟩ := h
  obtain ⟨ts, rfl⟩ := h'
  exact ⟨ts, rfl⟩

theorem OnlyTiles.modTile (h : OnlyTiles d₀ d) (t : Nat) (f : Tile → Tile) : OnlyTiles d₀ (d.modTile t f) := h.trans ⟨_, rfl⟩

theorem OnlyTiles.foldl {f : Dev → α → Dev} (h : OnlyTiles d₀ d) (hf : ∀ d a, OnlyTiles d (f d a)) (l : List α) : OnlyTiles d₀ (l.foldl f d) := by
  induction l generalizing d with
  | nil => exact h
  | cons a l ih => exact ih (h.trans (hf d a))

theorem OnlyTiles.modTiles (h : OnlyTiles d₀ d) (ts : List Nat) (f : Tile → Tile) : OnlyTiles d₀ (d.modTiles ts f) :=
  h.foldl (fun d t => (OnlyTiles.refl d).modTile t f) ts

/-- An upset that meets no parity reaches the weight tier alone. -/
theorem Dev.upset_of_no_parity (d : Dev) {f : Upset} (h : f.parity = none) : d.upset f = d.modWt fun w => w.ail f.cells := by
  rw [Dev.upset, h]
  rfl

/-- A reply that was awaited is still awaited after a change of tiles. -/
theorem Awaits.onlyTiles {m : Nat} (h : Awaits m d₀ d) (ho : OnlyTiles d d') : Awaits m d₀ d' := by
  obtain ⟨_, rfl⟩ := ho
  exact h.congr rfl rfl rfl

variable {F : Tile → α}

/-- What a change of a tile keeps of it, it keeps of every tile. -/
theorem Dev.modTile_keeps (d : Dev) (t : Nat) {f : Tile → Tile} (hf : F (f (d.tile t)) = F (d.tile t)) (u : Nat) : F ((d.modTile t f).tile u) = F (d.tile u) := by
  by_cases h : u = t
  · subst h
    rw [Dev.tile_modTile_self, hf]
  · rw [d.tile_modTile_ne _ _ h]

/-- What no round of a loop changes, the loop does not change. -/
theorem Dev.foldl_keeps {G : Dev → α} {f : Dev → β → Dev} (hf : ∀ d b, G (f d b) = G d) (l : List β) (d : Dev) : G (l.foldl f d) = G d := by
  induction l generalizing d with
  | nil => rfl
  | cons b l ih => exact (ih _).trans (hf d b)

theorem Dev.modTiles_keeps (d : Dev) (ts : List Nat) {f : Tile → Tile} (hf : ∀ x, F (f x) = F x) (u : Nat) : F ((d.modTiles ts f).tile u) = F (d.tile u) :=
  Dev.foldl_keeps (G := fun d => F (d.tile u)) (fun d t => d.modTile_keeps t (hf _) u) ts d

/-- What a change brings about at every tile it is made at, it brings about at all tiles of a list. -/
theorem Dev.modTiles_of_mem {P : Tile → Prop} {f : Tile → Tile} (hf : ∀ x, P (f x)) {ts : List Nat} {u : Nat} (h : u ∈ ts ∨ P (d.tile u)) :
    P ((d.modTiles ts f).tile u) := by
  induction ts generalizing d with
  | nil => exact h.resolve_left List.not_mem_nil
  | cons t ts ih =>
    refine ih ?_
    by_cases hu : u = t
    · subst hu
      exact .inr (by rw [Dev.tile_modTile_self]; exact hf _)
    · rw [d.tile_modTile_ne _ _ hu]
      exact h.imp_left fun hm => (List.mem_cons.mp hm).resolve_left hu

end

end Sys2Proof.Machine

/-! ### An append whose upset meets the tier

O34 bounds the frame of the upset and its parity, and asks that nothing but tiles changes; the cells of the upset go wrong in the weight tier. -/

namespace Sys2Proof.Machine

open Sys2Proof Sys2Proof.Claims

/-- An arena of two frames from line 64 and the directory of slot 5 at line 0, whose page 0 is frame 1; entry 0 of the ragged table at line 32 names
slot 5, and a row of one byte waits for it. -/
def rowTile : Tile :=
  { Tile.reset with
    regs := [(Reg.WVL_CFG, BitVec.ofNat 64 (64 + 2 * 2 ^ 16 + 16 * 2 ^ 28 + 4 * 2 ^ 40)), (Reg.WVL_DIR, BitVec.ofNat 64 (5 * 2 ^ 16 + 2 ^ 32 + 2 * 2 ^ 48)),
      (Reg.WVL_KVS, BitVec.ofNat 64 (32 + 2 ^ 16))]
    spad := [(16, 9), (2048, 5)]
    wvl := { Weevil.reset with ft := [(1, 65537)], appendQ := [⟨0, [7], 0⟩] } }

/-- Region 2 is tile 0, and runs. -/
def rowState : State :=
  ⟨{ Dev.reset.setTile 0 rowTile with regions := [(2, { Region.reset with st := .running, h := 1, w := 1 })] }, []⟩

/-- A cell of the first codeword of slice 0 goes wrong; no parity and no frame table is met. -/
def cellUpset : Upset := { Upset.none with cells := [⟨0, 0, 0, 1⟩] }

/-- The append leaves a wrong bit in the tier. -/
theorem weak_of_exec_rowState {d : Dev} (h : exec (.appendRow 0 cellUpset) rowState = .next ⟨d, rowState.pending⟩) : d.wt.weak = [(0, 1)] := by
  have hr : (match exec (.appendRow 0 cellUpset) rowState with | .next s => some s.dev.wt.weak | _ => none) = some [(0, 1)] := by decide
  simpa only [h, Option.some.injEq] using hr

/-- Refutes O34 at `rowState`: every premise holds, and the tier, which the statement asks to be as it was, holds a wrong bit after the append. -/
theorem not_weevilAppendWritesTheRow : ¬ Obligations.WeevilAppendWritesTheRow := by
  intro h
  obtain ⟨d, hexec, -, hframe, -⟩ := h rowState 0 2 0 0 cellUpset ⟨0, [7], 0⟩ [] (by decide) rfl rfl (by unfold ParityGood; decide) rfl rfl (by decide)
    (by decide) (by decide) (by decide) (by decide) (by decide) (by decide) (by decide) (by decide)
  have hweak : d.wt.weak = rowState.dev.wt.weak := congrArg (fun e => e.wt.weak) hframe
  rw [weak_of_exec_rowState hexec] at hweak
  exact absurd hweak (by decide)

end Sys2Proof.Machine

/-! ### Fetches and the requests of other tiles (08 R211, R212, R220) -/

namespace Sys2Proof.Machine

open Sys2Proof Sys2Proof.Claims

/-- What a translation may change of the tile that asks: the PTLB, and WVL_MISS (08 R213). -/
structure Translated (x y : Tile) : Prop where
  spad : y.spad = x.spad
  parInv : y.parInv = x.parInv
  fq : y.wvl.fq = x.wvl.fq
  reg : ∀ a, a ≠ Reg.WVL_MISS → y.reg a = x.reg a

section

variable {d : Dev} {r t slot p i : Nat} {d0 d1 : W64} {e : W32}

/-- A translation changes nothing but the PTLB and the misses of its tile. -/
theorem Dev.translate_tile (d : Dev) (r t slot p : Nat) : ∃ y, (d.translate r t slot p).1 = d.setTile t y ∧ Translated (d.tile t) y := by
  have hmiss : Translated (d.tile t) ((d.tile t).count Reg.WVL_MISS 1) := ⟨rfl, rfl, rfl, fun a ha => Tile.reg_modReg_ne _ _ _ ha⟩
  unfold Dev.translate
  dsimp only
  split
  · exact ⟨_, rfl, rfl, rfl, rfl, fun _ _ => rfl⟩
  · split
    · exact ⟨_, rfl, hmiss⟩
    · split_ifs
      · exact ⟨_, rfl, hmiss⟩
      · rw [Dev.modTile, Dev.modTile, Dev.tile_setTile_self, Dev.setTile_setTile]
        exact ⟨_, rfl, hmiss.spad, hmiss.parInv, hmiss.fq, hmiss.reg⟩
      · rw [Dev.modTile, Dev.modTile, Dev.tile_setTile_self, Dev.setTile_setTile]
        exact ⟨_, rfl, hmiss.spad, hmiss.parInv, hmiss.fq, hmiss.reg⟩
      · exact ⟨_, rfl, hmiss⟩

/-- The entry that a translation finds: one of the PTLB, or one of the home directory once the miss is counted. -/
def Dev.found (d : Dev) (r t slot p : Nat) : Option W32 :=
  let page := p / (d.tile t).kvPpp
  match ((d.tile t).ptlbFind slot page).filter fun e => decide (p < e.clen) with
  | some e => if d.frameOk r e.pte true then some e.pte else none
  | none =>
    let m := d.modTile t fun x => x.count Reg.WVL_MISS 1
    match m.homeOf r slot with
    | none => none
    | some h =>
      let y := m.tile h
      let e := y.pte slot page
      if page ≥ y.dirLen then none
      else if pteV e then
        if p < y.clen slot + y.plen slot ∧ (m.modTile t fun x => x.ptlbUse ⟨slot, page, e, y.clen slot⟩).frameOk r e true = true then some e else none
      else none

theorem Dev.translate_snd (d : Dev) (r t slot p : Nat) : (d.translate r t slot p).2 = d.found r t slot p := by
  unfold Dev.translate Dev.found
  dsimp only
  cases ((d.tile t).ptlbFind slot (p / (d.tile t).kvPpp)).filter fun e => decide (p < e.clen) with
  | some e => rfl
  | none =>
    dsimp only
    cases (d.modTile t fun x => x.count Reg.WVL_MISS 1).homeOf r slot with
    | none => rfl
    | some h => simp only [apply_ite Prod.snd]

/-- The weight tier has no part in a translation. -/
theorem Dev.translate_modWt (d : Dev) (f : WTier → WTier) (r t slot p : Nat) : ((d.modWt f).translate r t slot p).2 = (d.translate r t slot p).2 := by
  rw [Dev.translate_snd, Dev.translate_snd]
  rfl

/-- What a tile reads from a frame is what it held before the translation. -/
theorem Translated.frameAddr {x y : Tile} (h : Translated x y) (f : Nat) : y.frameAddr f = x.frameAddr f := by
  simp only [Tile.frameAddr, Tile.kvBase, h.reg Reg.WVL_CFG (by decide)]

theorem Translated.kvPpp {x y : Tile} (h : Translated x y) : y.kvPpp = x.kvPpp := by simp only [Tile.kvPpp, h.reg Reg.WVL_CFG (by decide)]
theorem Translated.kvPosb {x y : Tile} (h : Translated x y) : y.kvPosb = x.kvPosb := by simp only [Tile.kvPosb, h.reg Reg.WVL_CFG (by decide)]

/-- The first position of a fetch, on a device of good parity, when its translation finds an entry: the bytes at the position in its frame reach the
destination (08 R212). -/
theorem Dev.fetchPos_zero (hp : ∀ u, (d.tile u).parInv = []) (hr : d.regionOf t = some r)
    (he : (d.translate r t (fld d0 0 16) (fld d0 32 32)).2 = some e) : ∃ y, Translated (d.tile t) y ∧
      d.fetchPos t d0 d1 0 = (d.setTile t (y.spadWrite (fld d1 24 22) ((d.tile (pteTile e)).spad.readN ((d.tile (pteTile e)).frameAddr (pteFrame e) +
        fld d0 32 32 % (d.tile t).kvPpp * (d.tile t).kvPosb + fld d1 0 12) (cnt0 (fld d1 12 12) 4096))), false) := by
  obtain ⟨y, hy, hty⟩ := d.translate_tile r t (fld d0 0 16) (fld d0 32 32)
  have htr : d.translate r t (fld d0 0 16) (fld d0 32 32) = (d.setTile t y, some e) := Prod.ext hy he
  have hkeep : ∀ {α : Type} {F : Tile → α}, F y = F (d.tile t) → ∀ u, F ((d.setTile t y).tile u) = F (d.tile u) := fun hF u => d.modTile_keeps t (f := fun _ => y) hF u
  have hmerge : ∀ a n, d.mergeCheck t a n = (d, false) := fun a n => by rw [Dev.mergeCheck, Tile.mergeBad_of_good (hp t)]
  have hcheck : ∀ u a n, (d.setTile t y).spadCheck u a n = (d.setTile t y, false) := fun u a n =>
    Dev.spadCheck_of_good ((hkeep (F := Tile.parInv) hty.parInv u).trans (hp u)) a n
  refine ⟨y, hty, ?_⟩
  unfold Dev.fetchPos
  simp only [hmerge, hr, Dev.spadChecks_of_good hp, Nat.zero_mul, Nat.add_zero, htr, hcheck]
  simp only [Dev.modTile, Dev.tile_setTile_self, Dev.setTile_setTile, hty.kvPpp, hty.kvPosb, hkeep (F := Tile.spad) hty.spad,
    hkeep (F := fun x => x.frameAddr (pteFrame e)) (hty.frameAddr _)]

/-- A fetch of one position (08 R212). -/
theorem Dev.fetchRun_one {f : Upset} {rest : List (W64 × W64)} (hf : f.frame = false) (hn : f.parity = none) (hp : ParityGood d)
    (hq : (d.tile t).wvl.fq = (d0, d1) :: rest) (h1 : fld d0 16 12 = 1) (hr : d.regionOf t = some r)
    (he : (d.translate r t (fld d0 0 16) (fld d0 32 32)).2 = some e) : ∃ y w, Translated (d.tile t) y ∧
      d.fetchRun t f = (d.modWt w).setTile t (({ y.spadWrite (fld d1 24 22) ((d.tile (pteTile e)).spad.readN ((d.tile (pteTile e)).frameAddr (pteFrame e) +
        fld d0 32 32 % (d.tile t).kvPpp * (d.tile t).kvPosb + fld d1 0 12) (cnt0 (fld d1 12 12) 4096)) with
          wvl := { y.wvl with fq := rest } } : Tile).modReg Reg.WVL_FDONE fun v => addCnt v 0 32 1) := by
  obtain ⟨y, hty, hpos⟩ := Dev.fetchPos_zero (d := d.modWt fun w => w.ail f.cells) (d1 := d1) (parInv_of_parityGood hp) hr ((d.translate_modWt ..).trans he)
  refine ⟨y, fun w => w.ail f.cells, hty, ?_⟩
  unfold Dev.fetchRun
  simp only [hq, hf, Bool.false_eq_true, if_false, h1, cnt0, one_ne_zero, Dev.upset_of_no_parity d hn, Dev.fetchGo, hpos, Dev.modTile, Dev.tile_setTile_self, Dev.setTile_setTile]
  rfl

/-- Bytes outside those just written to a scratchpad are as they were. -/
theorem Tile.read_spadWrite_outside (x : Tile) {a b : Nat} {bs : List Byte} (h : b < a ∨ a + bs.length ≤ b) :
    Memory.read (x.spadWrite a bs).spad b = Memory.read x.spad b := Memory.read_writeN_outside _ _ _ _ h

end

/-! #### WVL_FQ_COMMIT and requests -/

section

variable {d : Dev} {x : Tile} {t src : Nat}

theorem Tile.fqCommit_of_ok (h : x.fetchOk (x.reg Reg.WVL_FQ0) (x.reg Reg.WVL_FQ1) = true) (hl : x.wvl.fq.length < 16) :
    x.fqCommit = { x with wvl := { x.wvl with fq := x.wvl.fq ++ [(x.reg Reg.WVL_FQ0, x.reg Reg.WVL_FQ1)] } } := by
  rw [Tile.fqCommit, if_neg (by simp [h]), if_neg (by omega)]

/-- What a request reads of a tile of good parity fails no check. -/
theorem Dev.spadChecks_reqReads (h : (d.tile t).parInv = []) (q : WvlReq) : Dev.spadChecks ((d.tile t).reqReads t q) d = (d, false) := by
  have check : ∀ a n, d.spadCheck t a n = (d, false) := Dev.spadCheck_of_good h
  cases q with
  | walk _ slot page =>
    simp only [Tile.reqReads]
    split_ifs <;> simp [Dev.spadChecks, check]
  | read _ frame _ _ =>
    simp only [Tile.reqReads]
    split_ifs <;> simp [Dev.spadChecks, check]
  | claim _ => rfl
  | claimed _ => rfl

theorem Dev.wvlReq_walk (h : (d.tile t).parInv = []) {slot : BitVec 16} {page : Nat} (hs : (d.tile t).claims slot.toNat = true) (hp : page < (d.tile t).dirLen) :
    d.wvlReq t (.walk src slot page) = d.emit (.wvlData src (leBytes 4 ((d.tile t).pte slot.toNat page).toNat ++ leBytes 4 ((d.tile t).clen slot.toNat) ++
      leBytes 4 ((d.tile t).plen slot.toNat))) := by
  simp only [Dev.wvlReq, Dev.spadChecks_reqReads h, hs, hp, decide_true, Bool.and_self, if_true, List.append_assoc]

theorem Dev.wvlReq_read (h : (d.tile t).parInv = []) {frame : Nat} (off n : Nat) (hf : frame < (d.tile t).kvFrames) :
    d.wvlReq t (.read src frame off n) = d.emit (.wvlData src ((d.tile t).spad.readN ((d.tile t).frameAddr frame + off) n)) := by
  simp only [Dev.wvlReq, Dev.spadChecks_reqReads h, hf, if_true]

theorem Dev.wvlReq_claim (h : (d.tile t).parInv = []) :
    d.wvlReq t (.claim src) = (d.claimServe t).1.emit (.wvl src (.claimed (d.claimServe t).2)) := by
  simp only [Dev.wvlReq, Dev.spadChecks_reqReads h]

theorem Dev.wvlReq_claimed (h : (d.tile t).parInv = []) {i : W32} (hc : (d.tile t).wvl.claimOut ≠ 0) : d.wvlReq t (.claimed i) = d.claimGot t i := by
  simp only [Dev.wvlReq, Dev.spadChecks_reqReads h, hc, ne_eq, not_false_eq_true, if_true]

/-- A tile that receives an index shows it in WVL_CLAIMED, and one request less is outstanding; whether the index is a steal is only counted. -/
theorem Dev.claimGot_tile (d : Dev) (t : Nat) (i : W32) : ((d.claimGot t i).tile t).reg Reg.WVL_CLAIMED = BitVec.ofNat 64 i.toNat ∧
    ((d.claimGot t i).tile t).wvl = { (d.tile t).wvl with claimOut := (d.tile t).wvl.claimOut - 1 } := by
  unfold Dev.claimGot
  rw [Dev.tile_modTile_self]
  have hreg : ((d.tile t).setReg Reg.WVL_CLAIMED (BitVec.ofNat 64 i.toNat)).reg Reg.WVL_CLAIMED = BitVec.ofNat 64 i.toNat := Tile.reg_setReg_self ..
  dsimp only
  split_ifs
  · exact ⟨(Tile.reg_modReg_ne _ _ _ (by decide)).trans hreg, rfl⟩
  · exact ⟨hreg, rfl⟩

end

/-- Settles O35: a fetch of one position is a translation and one write (`Dev.fetchRun_one`); each request is one answer. The layout of the answer to a
walk is the model's choice (log 44). -/
theorem weevilFetchCopiesTheFrame : Obligations.WeevilFetchCopiesTheFrame := by
  refine ⟨?fetch, ?commit, ?requests⟩
  case fetch =>
    intro s t r f d0 d1 rest e ht hf hn hp hq h1 hr he
    obtain ⟨y, w, hty, hrun⟩ := Dev.fetchRun_one hf hn hp hq h1 hr he
    refine completes_of_tile ht rfl hrun ?_
    rw [Dev.tile_setTile_self]
    refine ⟨fun i hi => ?copied, fun b hb => ?others, rfl, ?done, fun u hu => Dev.tile_setTile_ne _ _ _ hu⟩
    case copied =>
      exact (Tile.read_spadWrite y _ _ (by rwa [Memory.length_readN])).trans (Memory.getD_readN _ _ hi)
    case others =>
      exact (Tile.read_spadWrite_outside y (by rwa [Memory.length_readN])).trans (by rw [hty.spad])
    case done =>
      rw [Tile.reg_modReg_self]
      exact congrArg (addCnt · 0 32 1) (hty.reg Reg.WVL_FDONE (by decide))
  case commit =>
    intro s t ht x hok hl
    exact completes_of_tile ht rfl (congrArg (s.dev.setTile t) (Tile.fqCommit_of_ok hok hl)) rfl
  case requests =>
    intro s t src ht hp x
    refine ⟨fun slot page hs hpage => ?walk, fun frame off n hframe => ?read, ?claim, fun i hc => ?claimed⟩
    case walk => exact completes_of_tile ht rfl (Dev.wvlReq_walk hp hs hpage) rfl
    case read => exact completes_of_tile ht rfl (Dev.wvlReq_read hp off n hframe) rfl
    case claim =>
      refine completes_of_tile ht rfl (Dev.wvlReq_claim hp) ⟨?_, rfl⟩
      exact congrArg (fun y => y.wvl.claimCtr) (s.dev.tile_setTile_self t { x with wvl := { x.wvl with claimCtr := x.wvl.claimCtr + 1 } })
    case claimed =>
      obtain ⟨hreg, hwvl⟩ := s.dev.claimGot_tile t i
      exact completes_of_tile ht rfl (Dev.wvlReq_claimed hp hc) ⟨by rw [hwvl], hreg⟩

end Sys2Proof.Machine

/-! ### WVL_CMD and the configuration words (08 R198, R199, R213, R215) -/

namespace Sys2Proof.Machine

open Sys2Proof Sys2Proof.Claims

/-- A tile whose WVL_CMD operation has ended with OK. -/
def Tile.cmdOk (x : Tile) : Tile := x.modReg Reg.WVL_CMD fun v => setFld (clrBit v 32) 48 16 0

section

variable (x : Tile)

theorem Tile.cmdOk_reg_ne {a : Nat} (h : a ≠ Reg.WVL_CMD) : x.cmdOk.reg a = x.reg a := x.reg_modReg_ne _ _ h

theorem Tile.cmdOk_directory : x.cmdOk.directory = x.directory := x.directory_setReg _ (by decide)

/-! #### Translations that are dropped (08 R213) -/

variable (slot page : Nat)

theorem Tile.ptlbInv_directory : (x.ptlbInv slot page).directory = x.directory := rfl

theorem Tile.ptlbFind_ptlbInv : (x.ptlbInv slot page).ptlbFind slot page = none := by
  simp only [Tile.ptlbFind, Tile.ptlbInv, Tile.ptlbDrop, List.find?_eq_none, List.mem_filter]
  rintro e ⟨-, he⟩ h
  rw [h] at he
  cases he

theorem Tile.ptlbFind_ptlbInvSlot : (x.ptlbInvSlot slot).ptlbFind slot page = none := by
  simp only [Tile.ptlbFind, Tile.ptlbInvSlot, Tile.ptlbDrop, List.find?_eq_none, List.mem_filter]
  rintro e ⟨-, he⟩ h
  rw [(Bool.and_eq_true_iff.mp h).1] at he
  cases he

end

/-- Operation `op` of WVL_CMD is busy on a slot and a page. -/
structure CmdBusy (x : Tile) (op slot page : Nat) : Prop where
  busy : bit (x.reg Reg.WVL_CMD) 32 = true
  op : fld (x.reg Reg.WVL_CMD) 12 3 = op
  slot : fld (x.reg Reg.WVL_CMD) 16 16 = slot
  page : fld (x.reg Reg.WVL_CMD) 0 12 = page

section

variable {d d' : Dev} {t op slot page : Nat}

/-- A busy operation whose effect ends with OK. -/
theorem Dev.wvlCmd_of_busy {f : Nat → Nat → Dev × W16} (h : CmdBusy (d.tile t) op slot page) (hf : f slot page = (d', St.OK)) :
    d.wvlCmd t op f = d'.modTile t Tile.cmdOk := by
  obtain ⟨hb, hop, hslot, hpage⟩ := h
  rw [Dev.wvlCmd, if_pos ⟨hb, hop⟩, hslot, hpage, hf]
  rfl

theorem completes_cmdOk {c : Instr} {s : State} {f : Dev → Dev} (ht : t < Config.nTiles) (hx : exec c s = onTile t s f) (hf : f s.dev = d.modTile t Tile.cmdOk)
    (hr : (d.tile t).reg Reg.WVL_CMD = (s.dev.tile t).reg Reg.WVL_CMD) {P : Tile → Prop} (hP : P (d.tile t).cmdOk) :
    Completes c s fun d' => WvlDone t s.dev d' ∧ P (d'.tile t) := by
  refine completes_of_tile ht hx hf ⟨?_, by rwa [Dev.tile_modTile_self]⟩
  rw [WvlDone, Dev.tile_modTile_self, Tile.cmdOk, Tile.reg_modReg_self, hr]

/-! #### The operations -/

/-- A value in WVL_CMDDATA is seen there once the operation has ended. -/
theorem Tile.cmdData_shows (x : Tile) (v : W32) : (x.cmdData v).cmdOk.reg Reg.WVL_CMDDATA = BitVec.ofNat 64 v.toNat :=
  (Tile.cmdOk_reg_ne _ (by decide)).trans (Tile.reg_setReg_self ..)

theorem Dev.readpte_of_ok (h : CmdBusy (d.tile t) 0 slot page) (hh : d.homedAt t slot = true) (hp : page < (d.tile t).dirLen) (hg : (d.tile t).parInv = []) :
    d.readpte t = (d.modTile t fun x => x.cmdData (x.pte slot page)).modTile t Tile.cmdOk :=
  Dev.wvlCmd_of_busy h (by simp [hh, hp, Dev.spadCheck_of_good hg])

/-- A slot is noted as unsynchronised, and nothing else of any tile changes (08 R215). -/
theorem Dev.markUnsync_keeps {α : Type} {F : Tile → α} (hF : ∀ (x : Tile) l b, F { x with wvl := { x.wvl with unsync := l }, exUnsync := b } = F x)
    (d : Dev) (t slot u : Nat) : F ((d.markUnsync t slot).tile u) = F (d.tile u) :=
  d.modTiles_keeps _ (fun x => hF x _ _) u

theorem Dev.writepte_of_ok (h : CmdBusy (d.tile t) 1 slot page) (hh : d.homedAt t slot = true) (hp : page < (d.tile t).dirLen) :
    d.writepte t = ((d.modTile t fun x => (x.setPte slot page (BitVec.ofNat 32 (fld (x.reg Reg.WVL_CMDDATA) 0 32))).ptlbInv slot page).markUnsync t slot).modTile t
      Tile.cmdOk :=
  Dev.wvlCmd_of_busy h (by simp [hh, hp])

theorem Dev.readft_of_ok (h : CmdBusy (d.tile t) 4 slot page) (hp : page < (d.tile t).kvFrames) :
    d.readft t = (d.modTile t fun x => x.cmdData (x.ft page)).modTile t Tile.cmdOk :=
  Dev.wvlCmd_of_busy h (by simp [hp])

/-! #### The configuration words -/

theorem RegRow.write_fullMask {r : RegRow} (h : r.w1c = 0) (old v : W64) : r.write fullMask old v = old &&& ~~~r.rw ||| v &&& r.rw := by
  have hf : ∀ w : W64, w &&& fullMask = w := fun _ => BitVec.and_allOnes
  have hkeep : ~~~((0 : W64) &&& v) = fullMask := by simp
  simp only [RegRow.write, h, hf, hkeep]

theorem Dev.tileWrite_config (d : Dev) (t : Nat) {a : Nat} (ha : a = Reg.WVL_CFG ∨ a = Reg.WVL_DIR) {r : RegRow} (hr : tileRow a = some r) (hc : r.w1c = 0)
    (v : W64) : d.tileWrite t a fullMask v = d.setTile t ((d.tile t).wvlCfgWrite a ((d.tile t).reg a &&& ~~~r.rw ||| v &&& r.rw)) := by
  rw [← RegRow.write_fullMask hc]
  rcases ha with rfl | rfl <;> simp [Dev.tileWrite, hr]

section

variable {x : Tile} {v : W64}

theorem Tile.wvlCfgWrite_cfg (h : x.wvlCfgOk v = true) : x.wvlCfgWrite Reg.WVL_CFG v = x.setReg Reg.WVL_CFG v := by
  rw [Tile.wvlCfgWrite, if_pos rfl, if_pos h]

theorem Tile.wvlCfgWrite_dir (h : x.wvlDirOk v = true) : x.wvlCfgWrite Reg.WVL_DIR v = x.setReg Reg.WVL_DIR v := by
  simp [Tile.wvlCfgWrite, h]

/-- While a frame is in use no configuration word passes its check. -/
theorem Tile.wvlCfgWrite_inUse (h : x.allFree = false) (a : Nat) (v : W64) :
    x.wvlCfgWrite a v = x.setReg Reg.WVL_ERR (setBit (x.reg Reg.WVL_ERR) 17) := by
  have hcfg : x.wvlCfgOk v = false := by simp [Tile.wvlCfgOk, h]
  have hdir : x.wvlDirOk v = false := by simp [Tile.wvlDirOk, h]
  simp [Tile.wvlCfgWrite, hcfg, hdir, Tile.modReg]

end

end

/-- Settles O36: each operation of WVL_CMD is its effect and `Tile.cmdOk`; the configuration words go through `Tile.wvlCfgWrite`. -/
theorem weevilCommandsOfTheTile : Obligations.WeevilCommandsOfTheTile := by
  refine ⟨?operations, ?config⟩
  case operations =>
    intro s t op ht x c hb hop slot page
    have busy : CmdBusy (s.dev.tile t) op slot page := ⟨hb, hop, rfl, rfl⟩
    refine ⟨?readpte, ?writepte, ?inv, ?invSlot, ?readft⟩
    case readpte =>
      rintro rfl hh hp hg
      refine completes_cmdOk ht rfl (Dev.readpte_of_ok busy hh hp hg) ?_ (P := fun y => y.reg Reg.WVL_CMDDATA = _ ∧ y.spad = x.spad) ?_ <;> rw [Dev.tile_modTile_self]
      · exact Tile.reg_setReg_ne _ _ _ (by decide)
      · exact ⟨Tile.cmdData_shows .., rfl⟩
    case writepte =>
      rintro rfl hh hp
      refine completes_cmdOk ht rfl (Dev.writepte_of_ok busy hh hp) ?_ (P := fun y => y.pte slot page = _ ∧ y.ptlbFind slot page = none) ⟨?_, ?_⟩
      · rw [Dev.markUnsync_keeps (F := (Tile.reg · Reg.WVL_CMD)) (fun _ _ _ => rfl), Dev.tile_modTile_self]
        rfl
      · rw [Tile.pte_congr (Tile.cmdOk_directory _), Dev.markUnsync_keeps (F := (Tile.pte · slot page)) (fun _ _ _ => rfl), Dev.tile_modTile_self]
        rw [Tile.pte_congr (Tile.ptlbInv_directory ..), Tile.pte_setPte_self]
      · refine (Dev.markUnsync_keeps (F := (Tile.ptlbFind · slot page)) (fun _ _ _ => rfl) ..).trans ?_
        rw [Dev.tile_modTile_self]
        exact Tile.ptlbFind_ptlbInv ..
    case inv =>
      rintro rfl
      refine completes_cmdOk ht rfl (Dev.wvlCmd_of_busy busy rfl) ?_ (P := fun y => y.ptlbFind slot page = none ∧ y.spad = x.spad) ?_ <;> rw [Dev.tile_modTile_self]
      · rfl
      · exact ⟨x.ptlbFind_ptlbInv slot page, rfl⟩
    case invSlot =>
      rintro rfl
      refine completes_cmdOk ht rfl (Dev.wvlCmd_of_busy busy rfl) ?_ (P := fun y => (∀ p, y.ptlbFind slot p = none) ∧ y.spad = x.spad) ?_ <;> rw [Dev.tile_modTile_self]
      · rfl
      · exact ⟨x.ptlbFind_ptlbInvSlot slot, rfl⟩
    case readft =>
      rintro rfl hp
      refine completes_cmdOk ht rfl (Dev.readft_of_ok busy hp) ?_ (P := fun y => y.reg Reg.WVL_CMDDATA = _ ∧ y.spad = x.spad) ?_ <;> rw [Dev.tile_modTile_self]
      · exact Tile.reg_setReg_ne _ _ _ (by decide)
      · exact ⟨Tile.cmdData_shows .., rfl⟩
  case config =>
    intro s t v ht x cfg dir
    have hcfg : s.dev.tileWrite t Reg.WVL_CFG fullMask v = s.dev.setTile t (x.wvlCfgWrite Reg.WVL_CFG cfg) :=
      s.dev.tileWrite_config t (.inl rfl) (r := ⟨0x4010, 1, 1, 8, 0, 0xffffff3ffffff, 0, 0, 0⟩) (by decide) rfl v
    have hdir : s.dev.tileWrite t Reg.WVL_DIR fullMask v = s.dev.setTile t (x.wvlCfgWrite Reg.WVL_DIR dir) :=
      s.dev.tileWrite_config t (.inr rfl) (r := ⟨0x4018, 1, 1, 8, 0, 0xfffffffffffffff, 0, 0, 0⟩) (by decide) rfl v
    refine ⟨fun h => ?cfgStored, fun h => ?dirStored, fun h => ⟨?cfgDropped, ?dirDropped⟩⟩
    case cfgStored => exact completes_of_tile ht rfl (hcfg.trans (by rw [Tile.wvlCfgWrite_cfg h])) rfl
    case dirStored => exact completes_of_tile ht rfl (hdir.trans (by rw [Tile.wvlCfgWrite_dir h])) rfl
    case cfgDropped => exact completes_of_tile ht rfl (hcfg.trans (by rw [Tile.wvlCfgWrite_inUse h])) rfl
    case dirDropped => exact completes_of_tile ht rfl (hdir.trans (by rw [Tile.wvlCfgWrite_inUse h])) rfl

end Sys2Proof.Machine

/-! ### The KV commands (08 R208 to R210, R225) -/

namespace Sys2Proof.Machine

open Sys2Proof Sys2Proof.Claims

/-! #### What every KV command does -/

section

variable {d d₀ : Dev} {r slot : Nat} {pages : List Nat} {ts : List Nat} {f : Dev → Dev}

/-- A KV command reads a directory of good parity. -/
theorem Dev.dirCheck_of_good {h : Nat} (hg : (d.tile h).parInv = []) (slot : Nat) : d.dirCheck h slot = d := by
  rw [Dev.dirCheck, Dev.spadCheck_of_good hg]

theorem OnlyTiles.kvInv (h : OnlyTiles d₀ d) (r slot : Nat) (pages : List Nat) : OnlyTiles d₀ (d.kvInv r slot pages) := h.modTiles _ _

/-- A KV command changes tiles alone when what it does at the home tiles does. -/
theorem OnlyTiles.kvChange (h : OnlyTiles d₀ d) (ts : List Nat) (hf : ∀ d, OnlyTiles d (f d)) : OnlyTiles d₀ (d.kvChange ts f) :=
  ((h.modTiles ts _).trans (hf _)).foldl (fun d t => (OnlyTiles.refl d).modTile t _) ts

/-- PTLBs are not read for directories. -/
theorem Dev.kvInv_directory (d : Dev) (r slot : Nat) (pages : List Nat) (u : Nat) : ((d.kvInv r slot pages).tile u).directory = (d.tile u).directory := by
  refine d.modTiles_keeps (F := Tile.directory) _ ?_ u
  exact fun _ => rfl

/-- Nor are marks and shadow records: a KV command leaves the directories that its change at the home tiles leaves. -/
theorem Dev.kvChange_directory (d : Dev) (ts : List Nat) (f : Dev → Dev) (u : Nat) :
    ((d.kvChange ts f).tile u).directory = ((f (d.modTiles ts Tile.shadowAside)).tile u).directory :=
  Dev.foldl_keeps (G := fun d => (d.tile u).directory) (fun e t => e.modTile_keeps t rfl u) ts _

theorem Dev.shadowAside_directory (d : Dev) (ts : List Nat) (u : Nat) : ((d.modTiles ts Tile.shadowAside).tile u).directory = (d.tile u).directory := by
  refine d.modTiles_keeps (F := Tile.directory) _ ?_ u
  exact fun _ => rfl

@[simp] theorem Dev.replyFull_tile (d : Dev) (m : Nat) (st : W16) (detail : W32) (w57 : List W32) (data : List Byte) (u : Nat) :
    (d.replyFull m st detail w57 data).tile u = d.tile u := by
  obtain ⟨_, _, _, _, h⟩ := d.replyFull_frame m st detail w57 data
  rw [h]
  rfl

@[simp] theorem Dev.reply_tile (d : Dev) (m : Nat) (st : W16) (u : Nat) : (d.reply m st).tile u = d.tile u := Dev.replyFull_tile ..

/-- A command that changed tiles alone is answered with OK. -/
theorem replied_onlyTiles {s : State} {m op : Nat} {e : Dev} (h : HostReady s m op) (ho : OnlyTiles (s.dev.begin_ m) e) : Replied m St.OK s.dev (e.reply m St.OK) :=
  ((awaits_of_ready h).onlyTiles ho).replied ..

end

/-! #### KV_SHARE -/

section

variable {d : Dev} {m r src dst n hs hd : Nat}

/-- A KV_SHARE that passes its checks changes tiles alone, and gives the destination its length (08 R208). -/
theorem Dev.kvShare_of_ok (hg : ∀ u, (d.tile u).parInv = []) (hsrc : d.homeOf r src = some hs) (hdst : d.homeOf r dst = some hd) (h0 : 0 < n)
    (hns : n ≤ (d.tile hs).dirLen) (hnd : n ≤ (d.tile hd).dirLen) (hfree : (((d.tile hd).ptes dst 0 (d.tile hd).dirLen).all fun e => !pteV e.2) = true)
    (hlen : (d.tile hd).clen dst = 0) (hpend : anyPending ((d.tile hs).ptes src 0 n) = false)
    (hcount : ∀ h v, ftRef ((d.tile h).ft v) + ftCwd ((d.tile h).ft v) + n ≤ 255) : ∃ e, OnlyTiles d e ∧ d.kvShare m r src dst n = e.reply m St.OK ∧
      (e.tile hd).clen dst = min ((d.tile hs).clen src) (n * (d.tile hs).kvPpp) := by
  have hany : (((d.tile hd).ptes dst 0 (d.tile hd).dirLen).any fun e => pteV e.2) = false := by
    rw [List.any_eq_false]
    intro e he
    simpa using List.all_eq_true.mp hfree e he
  have hframes : ∀ frames : List (Nat × Nat), frames.length ≤ n →
      (frames.any fun f => decide (ftRef ((d.tile f.1).ft f.2) + ftCwd ((d.tile f.1).ft f.2) + frames.count f > 255)) = false := fun frames hl => by
    rw [List.any_eq_false]
    intro f _
    have h255 := hcount f.1 f.2
    have hle : frames.count f ≤ frames.length := List.count_le_length
    simp only [decide_eq_true_eq]
    omega
  have hl : (((d.tile hs).ptes src 0 n).filterMap fun e => d.frameOf r e.2).length ≤ n :=
    (List.length_filterMap_le ..).trans (by simp [Tile.ptes])
  unfold Dev.kvShare
  rw [hsrc, hdst]
  simp only [Dev.dirCheck_of_good (hg _)]
  rw [if_neg (by omega), if_neg (by simp [hany, hlen]), if_neg (by simp [hpend]), if_neg (by simp [hframes _ hl])]
  refine ⟨_, (((OnlyTiles.refl d).kvChange _ fun e => ?_).kvInv ..).kvInv .., rfl, ?_⟩
  · refine (((OnlyTiles.refl e).foldl (fun d p => ?_) _).foldl (fun d p => (OnlyTiles.refl d).modTile ..) _).modTile ..
    split_ifs
    · exact ((OnlyTiles.refl d).modTile ..).modTile ..
    · exact (OnlyTiles.refl d).modTile ..
  · have hlt : min ((d.tile hs).clen src) (n * (d.tile hs).kvPpp) < 2 ^ 32 := lt_of_le_of_lt (Nat.min_le_left ..) (Memory.readNat_lt ..)
    rw [Tile.clen_congr (Dev.kvInv_directory ..), Tile.clen_congr (Dev.kvInv_directory ..), Tile.clen_congr (Dev.kvChange_directory ..), Dev.tile_modTile_self,
      Tile.clen_setClen, Nat.mod_eq_of_lt hlt]

end

/-! #### KV_FREE and KV_FREE_SLOT -/

section

variable {d : Dev} {m r slot h : Nat}

/-- One entry freed (08 R209): a valid one gives up its frame and becomes zero. -/
def Dev.freeEntry (d : Dev) (r h slot : Nat) (e : Nat × W32) : Dev :=
  if pteV e.2 then
    (match d.frameOf r e.2 with | some f => d.decFrame r f.1 f.2 | none => d).modTile h fun x => x.setPte slot e.1 0
  else d

theorem Dev.freeEntries_eq (d : Dev) (r h slot : Nat) (es : List (Nat × W32)) : d.freeEntries r h slot es = es.foldl (fun d e => d.freeEntry r h slot e) d := rfl

theorem Dev.decFrame_onlyTiles (d : Dev) (r u f : Nat) : OnlyTiles d (d.decFrame r u f) := ⟨_, rfl⟩

theorem OnlyTiles.freeEntries {d₀ : Dev} (ho : OnlyTiles d₀ d) (r h slot : Nat) (es : List (Nat × W32)) : OnlyTiles d₀ (d.freeEntries r h slot es) := by
  rw [Dev.freeEntries_eq]
  refine ho.foldl (fun d e => ?_) es
  unfold Dev.freeEntry
  split
  · refine OnlyTiles.modTile ?_ _ _
    split
    · exact Dev.decFrame_onlyTiles ..
    · exact OnlyTiles.refl d
  · exact OnlyTiles.refl d

/-- A freed entry that was valid is zero; no other entry of the slot changes. -/
theorem Dev.pte_freeEntry (d : Dev) (r h slot : Nat) (e : Nat × W32) (p : Nat) :
    ((d.freeEntry r h slot e).tile h).pte slot p = if pteV e.2 = true ∧ p = e.1 then 0 else (d.tile h).pte slot p := by
  unfold Dev.freeEntry
  by_cases hv : pteV e.2 = true
  · rw [if_pos hv, Dev.tile_modTile_self]
    by_cases hp : p = e.1
    · rw [if_pos ⟨hv, hp⟩, hp, Tile.pte_setPte_self]
    · rw [if_neg fun c => hp c.2, Tile.pte_setPte_ne _ _ _ _ hp]
      split
      · exact Dev.modTile_keeps (F := (Tile.pte · slot p)) _ _ rfl h
      · rfl
  · rw [if_neg hv, if_neg fun c => hv c.1]

/-- An entry that is not valid, or is among those freed with its valid value, is not valid afterwards. -/
theorem Dev.pteV_freeEntries {es : List (Nat × W32)} {p : Nat} (hp : pteV ((d.tile h).pte slot p) = false ∨ ∃ v, (p, v) ∈ es ∧ pteV v = true) :
    pteV (((d.freeEntries r h slot es).tile h).pte slot p) = false := by
  induction es generalizing d with
  | nil =>
    obtain hp | ⟨_, hm, -⟩ := hp
    · exact hp
    · cases hm
  | cons e es ih =>
    refine ih (d := d.freeEntry r h slot e) ?_
    rw [Dev.pte_freeEntry]
    split_ifs with hc
    · exact .inl rfl
    · refine hp.imp_right fun ⟨v, hm, hv⟩ => ⟨v, (List.mem_cons.mp hm).resolve_left fun he => hc ?_, hv⟩
      rw [← he]
      exact ⟨hv, rfl⟩

/-- When the entries of a slot from page `first` on are freed, none of them is valid. -/
theorem Dev.pteV_free_ptes {first n i : Nat} (hi : i < n) (e : Dev) (he : (e.tile h).directory = (d.tile h).directory) :
    pteV (((e.freeEntries r h slot ((d.tile h).ptes slot first n)).tile h).pte slot (first + i)) = false := by
  refine Dev.pteV_freeEntries ?_
  rw [Tile.pte_congr he]
  cases hv : pteV ((d.tile h).pte slot (first + i))
  · exact .inl rfl
  · exact .inr ⟨_, List.mem_map_of_mem (List.mem_range.mpr hi), hv⟩

/-- A KV_FREE that passes its checks changes tiles alone, and leaves no valid entry in its range (08 R209). -/
theorem Dev.kvFree_of_ok {first n : Nat} {f : Upset} (hg : ∀ u, (d.tile u).parInv = []) (hf : f.frame = false) (hn : f.parity = none)
    (hh : d.homeOf r slot = some h) (hl : first + cnt0 n 4096 ≤ (d.tile h).dirLen) (hpend : anyPending ((d.tile h).ptes slot first (cnt0 n 4096)) = false) :
    ∃ e, OnlyTiles (d.modWt fun w => w.ail f.cells) e ∧ d.kvFree m r slot first n f = e.reply m St.OK ∧
      ∀ i, i < cnt0 n 4096 → pteV ((e.tile h).pte slot (first + i)) = false := by
  unfold Dev.kvFree
  rw [hh]
  simp only [hf, Bool.false_eq_true, if_false, Dev.upset_of_no_parity d hn]
  generalize hm : (d.modWt fun w => w.ail f.cells) = e
  have htile : ∀ u, e.tile u = d.tile u := fun u => by rw [← hm]; rfl
  have hpar : (e.tile h).parInv = [] := by rw [htile, hg]
  rw [Dev.dirCheck_of_good hpar, htile, if_neg (by omega), if_neg (by simp [hpend])]
  refine ⟨_, ((OnlyTiles.refl e).kvChange _ fun d => (OnlyTiles.refl d).freeEntries ..).kvInv .., rfl, fun i hi => ?_⟩
  rw [Tile.pte_congr (Dev.kvInv_directory ..), Tile.pte_congr (Dev.kvChange_directory ..)]
  exact Dev.pteV_free_ptes hi _ ((Dev.shadowAside_directory ..).trans (by rw [htile]))

/-- A KV_FREE_SLOT that finds nothing pending changes tiles alone, and leaves CLEN and PLEN zero (08 R210). -/
theorem Dev.kvFreeSlot_of_ok (hg : ∀ u, (d.tile u).parInv = []) (hh : d.homeOf r slot = some h)
    (hpend : anyPending ((d.tile h).ptes slot 0 (d.tile h).dirLen) = false) :
    ∃ e, OnlyTiles d e ∧ d.kvFreeSlot m r slot = e.reply m St.OK ∧ (e.tile h).clen slot = 0 ∧ (e.tile h).plen slot = 0 := by
  have hreply : d.kvFreeSlot m r slot = (d.freeSlot r h slot).reply m St.OK := by
    rw [Dev.kvFreeSlot, hh]
    exact if_neg (by simp [hpend])
  refine ⟨_, ?_, hreply, ?_⟩
  all_goals rw [Dev.freeSlot, Dev.dirCheck_of_good (hg h)]
  · exact ((OnlyTiles.refl d).kvChange _ fun d => ((OnlyTiles.refl d).freeEntries ..).modTile ..).kvInv ..
  · rw [Tile.clen_congr (Dev.kvInv_directory ..), Tile.plen_congr (Dev.kvInv_directory ..), Tile.clen_congr (Dev.kvChange_directory ..),
      Tile.plen_congr (Dev.kvChange_directory ..), Dev.tile_modTile_self, Tile.clen_setPlen, Tile.clen_setClen, Tile.plen_setPlen]
    exact ⟨rfl, rfl⟩

end

/-! #### KV_RESTORE -/

/-- The words 5 and 6 of a reply that is awaited (16 R375). -/
theorem Awaits.words_replied {m : Nat} {d₀ d : Dev} (h : Awaits m d₀ d) (st : W16) (detail a b c : W32) (data : List Byte) :
    (d.replyFull m st detail [a, b, c] data).mbNat m 20 8 = a.toNat + 2 ^ 32 * b.toNat := by
  have harea : ∃ pre post, pre.length = 12 ∧ (d.replyFull m st detail [a, b, c] data).hive.mbox =
      (Memory.clear d.hive.mbox (4096 * m + 8) 4088).writeN (4096 * m + 8) (pre ++ (leBytes 4 a.toNat ++ leBytes 4 b.toNat ++ post)) := by
    refine ⟨leBytes 4 st.toNat ++ leBytes 4 detail.toNat ++ leBytes 4 (data.take 4064).length, leBytes 4 c.toNat ++ data.take 4064, by simp, ?_⟩
    unfold Dev.replyFull
    rw [if_neg (by simp [h.authority]), if_neg (by simpa using h.wanted), if_pos h.running]
    simp only [List.append_assoc]
    split_ifs
    · rfl
    · exact congrArg Hive.mbox (Dev.irq_hive ..)
  obtain ⟨pre, post, hpre, hmbox⟩ := harea
  have hlen : (leBytes 4 a.toNat ++ leBytes 4 b.toNat).length = 8 := by simp
  have hread := Memory.readN_writeN_append ((Memory.clear d.hive.mbox (4096 * m + 8) 4088).writeN (4096 * m + 8) pre) (4096 * m + 20)
    (leBytes 4 a.toNat ++ leBytes 4 b.toNat) post
  rw [hlen] at hread
  rw [Dev.mbNat, Memory.readNat, hmbox, Memory.writeN_append, hpre, hread, leNat_append, leNat_leBytes, leNat_leBytes, length_leBytes]
  have ha := a.isLt
  have hb := b.isLt
  omega

section

variable {v : Nat → Nat}

/-- The least of a bound and the values of a list. -/
theorem foldl_min_le (ts : List Nat) (b : Nat) : ts.foldl (fun s t => min s (v t)) b ≤ b ∧ ∀ t ∈ ts, ts.foldl (fun s t => min s (v t)) b ≤ v t := by
  induction ts generalizing b with
  | nil => exact ⟨le_rfl, fun _ h => nomatch h⟩
  | cons u ts ih =>
    obtain ⟨hb, hts⟩ := ih (min b (v u))
    refine ⟨hb.trans (Nat.min_le_left ..), fun t ht => ?_⟩
    obtain rfl | ht := List.mem_cons.mp ht
    · exact hb.trans (Nat.min_le_right ..)
    · exact hts t ht

/-- It is one of the values when none is above the bound. -/
theorem exists_foldl_min (ts : List Nat) (b : Nat) : ts.foldl (fun s t => min s (v t)) b = b ∨ ∃ t ∈ ts, ts.foldl (fun s t => min s (v t)) b = v t := by
  induction ts generalizing b with
  | nil => exact .inl rfl
  | cons u ts ih =>
    obtain h | ⟨t, ht, h⟩ := ih (min b (v u))
    · obtain hm | hm := min_choice b (v u)
      · exact .inl (h.trans hm)
      · exact .inr ⟨u, List.mem_cons_self, h.trans hm⟩
    · exact .inr ⟨t, List.mem_cons_of_mem _ ht, h⟩

end

section

variable {d : Dev} {r : Nat}

theorem OnlyTiles.rebuildFt {d₀ : Dev} (h : OnlyTiles d₀ d) (r : Nat) (ts : List Nat) : OnlyTiles d₀ (d.rebuildFt r ts) :=
  h.foldl (fun d t => (OnlyTiles.refl d).modTile t _) ts

/-- The step of a restore: the lowest WVL_SHSTEP of the tiles (08 R225). -/
def Dev.restoreStep (d : Dev) (ts : List Nat) : Nat := ts.foldl (fun s t => min s ((d.tile t).reg Reg.WVL_SHSTEP).toNat) (2 ^ 64 - 1)

theorem Dev.restoreStep_le (d : Dev) (ts : List Nat) :
    d.restoreStep ts ≤ 2 ^ 64 - 1 ∧ ∀ t ∈ ts, d.restoreStep ts ≤ ((d.tile t).reg Reg.WVL_SHSTEP).toNat := foldl_min_le ..

theorem Dev.exists_restoreStep (d : Dev) {ts : List Nat} (h : ts ≠ []) : ∃ t ∈ ts, d.restoreStep ts = ((d.tile t).reg Reg.WVL_SHSTEP).toNat := by
  obtain ⟨t, ht⟩ := List.exists_mem_of_ne_nil ts h
  obtain hb | he := exists_foldl_min (v := fun t => ((d.tile t).reg Reg.WVL_SHSTEP).toNat) ts (2 ^ 64 - 1)
  · have hle := (d.restoreStep_le ts).2 t ht
    have hlt := ((d.tile t).reg Reg.WVL_SHSTEP).isLt
    have hs : d.restoreStep ts = 2 ^ 64 - 1 := hb
    exact ⟨t, ht, by omega⟩
  · exact he

/-- A restore of a region whose every tile holds a shadow changes tiles alone; last, it drops every translation (08 R225). -/
theorem Dev.kvRestore_of_shadowed {x : Region} (hx : d.region r = x) (hg : ∀ u, (d.tile u).parInv = []) (hst : x.st ≠ .empty)
    (hsh : ∀ t ∈ x.tileList, bit ((d.tile t).reg Reg.WVL_SHADOW) 0 = true ∧ (d.tile t).reg Reg.WVL_SHSTEP ≠ 0) :
    ∃ e, OnlyTiles d e ∧ d.kvRestore ⟨x.b0, x.b0 + x.h - 1, x.c0, x.c0 + x.w - 1⟩ r =
      (St.OK, d.restoreStep x.tileList, e.modTiles x.tileList fun y => y.ptlbDrop fun _ => true) := by
  have habsent : (x.tileList.any fun t => !bit ((d.tile t).reg Reg.WVL_SHADOW) 0 || decide ((d.tile t).reg Reg.WVL_SHSTEP = 0)) = false := by
    rw [List.any_eq_false]
    intro t ht
    obtain ⟨hb, hs⟩ := hsh t ht
    rw [hb, decide_eq_false hs]
    exact Bool.false_ne_true
  unfold Dev.kvRestore
  rw [hx]
  dsimp only
  rw [if_neg (by simp [hst]), if_neg (by rw [habsent]; exact Bool.false_ne_true), Dev.spadChecks_of_good hg]
  exact ⟨_, ((OnlyTiles.refl d).kvChange _ fun d => (OnlyTiles.refl d).modTiles ..).rebuildFt .., rfl⟩

/-- Every tile of the list has no translation after all are dropped. -/
theorem Dev.ptlb_modTiles_drop {ts : List Nat} {t : Nat} (ht : t ∈ ts) (d : Dev) :
    ((d.modTiles ts fun x => x.ptlbDrop fun _ => true).tile t).wvl.ptlb = [] := by
  refine Dev.modTiles_of_mem (P := fun x => x.wvl.ptlb = []) (fun x => ?_) (.inl ht)
  simp [Tile.ptlbDrop]

/-- A region with rows and columns has a tile. -/
theorem Region.tileList_ne_nil {x : Region} (hh : 0 < x.h) (hw : 0 < x.w) : x.tileList ≠ [] := by
  refine List.ne_nil_of_mem (a := (x.b0 + 0) * Config.lcols + x.c0 + 0) ?_
  exact List.mem_flatMap.mpr ⟨0, List.mem_range.mpr hh, List.mem_map.mpr ⟨0, List.mem_range.mpr hw, rfl⟩⟩

end

/-- Settles O37: each command that passes its checks changes tiles alone and is then answered; the last write of each is what is asked for. That the reply
to KV_RESTORE gives the step in bytes 20 to 27 is the model's choice (log 30). -/
theorem kvCommandsShareFreeAndRestore : Obligations.KvCommandsShareFreeAndRestore := by
  intro s m r hparity
  have hg : ∀ u, ((s.dev.begin_ m).tile u).parInv = [] := parInv_of_parityGood hparity
  refine ⟨?share, ?free, ?freeSlot, ?restore⟩
  case share =>
    intro src dst n hs hd hready hsrc hdst x y h0 hns hnd hfree hlen hpend hcount
    obtain ⟨e, ho, hk, hclen⟩ := Dev.kvShare_of_ok (d := s.dev.begin_ m) (m := m) hg hsrc hdst h0 hns hnd hfree hlen hpend hcount
    refine completes_onHostR (f := fun d => d.kvShare m r src.toNat dst.toNat n) hready rfl ?_
    rw [hk]
    exact ⟨replied_onlyTiles hready.1 ho, by rw [Dev.reply_tile]; exact hclen⟩
  case free =>
    intro slot first n h f hready hf hn hh hl hpend
    obtain ⟨e, ho, hk, hfreed⟩ := Dev.kvFree_of_ok (d := s.dev.begin_ m) (m := m) hg hf hn hh hl hpend
    refine completes_onHostR (f := fun d => d.kvFree m r slot.toNat first n f) hready rfl ?_
    rw [hk]
    have hawaits : Awaits m s.dev ((s.dev.begin_ m).modWt fun w => w.ail f.cells) := (awaits_of_ready hready.1).congr rfl rfl rfl
    exact ⟨(hawaits.onlyTiles ho).replied .., by rw [Dev.reply_tile]; exact hfreed⟩
  case freeSlot =>
    intro slot h hready hh hpend
    obtain ⟨e, ho, hk, hclen, hplen⟩ := Dev.kvFreeSlot_of_ok (d := s.dev.begin_ m) (m := m) hg hh hpend
    refine completes_onHostR (f := fun d => d.kvFreeSlot m r slot.toNat) hready rfl ?_
    rw [hk, Dev.reply_tile]
    exact ⟨replied_onlyTiles hready.1 ho, hclen, hplen⟩
  case restore =>
    intro src x hready hx hst hh hw hsh
    obtain ⟨e, ho, hk⟩ := Dev.kvRestore_of_shadowed (d := s.dev.begin_ m) hx hg hst hsh
    have hawaits := (awaits_of_ready hready.1).onlyTiles (ho.modTiles x.tileList fun y => y.ptlbDrop fun _ => true)
    obtain ⟨hbound, hle⟩ := (s.dev.begin_ m).restoreStep_le x.tileList
    obtain ⟨t, ht, hleast⟩ := (s.dev.begin_ m).exists_restoreStep (Region.tileList_ne_nil hh hw)
    refine completes_onHostR hready rfl ?_
    generalize (s.dev.begin_ m).restoreStep x.tileList = step at *
    rw [hk]
    dsimp only
    rw [if_pos rfl, hawaits.words_replied]
    have hstep : (BitVec.ofNat 32 step).toNat + 2 ^ 32 * (BitVec.ofNat 32 (step / 2 ^ 32)).toNat = step := by
      simp only [BitVec.toNat_ofNat]
      omega
    rw [hstep]
    exact ⟨hawaits.replied .., hle, ⟨t, ht, hleast⟩, fun u hu => by rw [Dev.replyFull_tile]; exact Dev.ptlb_modTiles_drop hu e⟩

end Sys2Proof.Machine

/-! ### Claims and shadow pages (08 R220, R222 to R224) -/

namespace Sys2Proof.Machine

open Sys2Proof Sys2Proof.Claims

section

variable {d : Dev} {t : Nat}

/-! #### Claims -/

/-- An attention group follows from the regions and each tile's WVL_DCFG (08 R219). -/
theorem Dev.group_modTile {f : Tile → Tile} (hf : (f (d.tile t)).reg Reg.WVL_DCFG = (d.tile t).reg Reg.WVL_DCFG) (r : Nat) :
    (d.modTile t f).group r = d.group r := by
  unfold Dev.group
  exact List.filter_congr fun u _ => congrArg (bit · 0) (d.modTile_keeps (F := fun x => x.reg Reg.WVL_DCFG) t hf u)

/-- A STATIC claim takes the next unit of the tile's position in its group (08 R220). -/
theorem Dev.wvlClaim_static {r : Nat} (hr : d.regionOf t = some r) (hg : t ∈ d.group r) (hb : bit ((d.tile t).reg Reg.WVL_DCFG) 1 = false) :
    ∃ e : Dev, (e.tile t).wvl.claimCtr = (d.tile t).wvl.claimCtr + 1 ∧ d.wvlClaim t =
      e.claimGot t (claimIndex (posOf t (d.group r) + (d.tile t).wvl.claimCtr * (d.group r).length) (d.tile t).wvl.nUnits) := by
  have hgroup := Dev.group_modTile (d := d) (t := t) (f := fun x => { x with wvl := { x.wvl with claimOut := x.wvl.claimOut + 1 } }) rfl r
  have hregion : (d.modTile t fun x => { x with wvl := { x.wvl with claimOut := x.wvl.claimOut + 1 } }).regionOf t = some r := hr
  have hreg : bit (({ d.tile t with wvl := { (d.tile t).wvl with claimOut := (d.tile t).wvl.claimOut + 1 } } : Tile).reg Reg.WVL_DCFG) 1 = false := hb
  unfold Dev.modTile at hgroup hregion
  unfold Dev.wvlClaim
  dsimp only
  rw [hregion]
  dsimp only
  split
  case h_1 hnil => exact absurd hg (by rw [hgroup.symm.trans hnil]; exact List.not_mem_nil)
  case h_2 =>
    rw [← hgroup] at hg
    rw [if_neg (by simpa using hg), if_neg (by simp [hreg]), hgroup]
    refine ⟨_, ?_, rfl⟩
    rw [Dev.tile_setTile_self]

/-- A read of WVL_CLAIMED, its low word, sends nothing (04 R89). -/
theorem Dev.tileRead32_claimed (d : Dev) (who : Requester) (t : Nat) :
    ∃ e, e.out = d.out ∧ d.tileRead32 who t Reg.WVL_CLAIMED = (e, lo32 ((d.tile t).reg Reg.WVL_CLAIMED)) := by
  refine ⟨(d.modTile t fun y => y.afterRead Reg.WVL_CLAIMED).setCap who t Reg.WVL_CLAIMED ((d.tile t).reg Reg.WVL_CLAIMED), ?_, rfl⟩
  cases who <;> rfl

/-! #### Records that leave -/

section

variable {rt : Nat} (hrt : fld ((d.tile t).reg Reg.WVL_SHADOW) 16 16 = rt) (recs : List ShadowRec)

include hrt

/-- With no route loaded, the records are counted as missed (08 R222). -/
theorem Dev.sendShadow_of_no_route (h : d.routeAlt rt = none) : d.sendShadow t recs = d.modTile t fun x => x.count Reg.MESH_RPT_MISS recs.length := by
  subst hrt
  unfold Dev.sendShadow
  dsimp only
  rw [h]

/-- Else they leave through the route that ROUTE names. -/
theorem Dev.sendShadow_of_route {a : RouteAlt} (h : d.routeAlt rt = some a) : d.sendShadow t recs =
    d.tileSend t rt a { packet0 with dtile := BitVec.ofNat 11 t, vc := 3, kind := 3, sflow := 1024 } (recs.map ShadowRec.words) := by
  subst hrt
  unfold Dev.sendShadow
  dsimp only
  rw [h]

end

/-- What a tile sends does not touch the records that wait for a send. -/
theorem Dev.shadowQ_tileSend (d : Dev) (t route : Nat) (a : RouteAlt) (k : Packet) (parts : List (List W128)) :
    ((d.tileSend t route a k parts).tile t).wvl.shadowQ = (d.tile t).wvl.shadowQ := by
  have hoff : OffSend fun x => x.wvl.shadowQ := fun _ _ _ _ _ _ _ _ => rfl
  exact (hoff.txGo ..).trans (congrArg (fun x => x.wvl.shadowQ) (Dev.tile_setTile_self ..))

theorem Dev.shadowQ_sendShadow (d : Dev) (t : Nat) (recs : List ShadowRec) : ((d.sendShadow t recs).tile t).wvl.shadowQ = (d.tile t).wvl.shadowQ := by
  unfold Dev.sendShadow
  dsimp only
  split
  · exact congrArg (fun x => x.wvl.shadowQ) (Dev.tile_modTile_self ..)
  · exact Dev.shadowQ_tileSend ..

theorem Dev.shadowSend_of_on (h : bit ((d.tile t).reg Reg.WVL_SHADOW) 0 = true) :
    d.shadowSend t = (d.modTile t fun x => { x with wvl := { x.wvl with shadowQ := [] } }).sendShadow t (d.tile t).wvl.shadowQ := if_pos h

/-! #### Records that arrive -/

/-- Bytes inside the shadow area, which lies in the scratchpad, are stored (08 R223). -/
theorem Tile.read_shadowStore (x : Tile) {off : Nat} {bs : List Byte} {n : Nat} (hn : bs.length = 16 * n) (hl : off + 16 * n ≤ x.shBytes)
    (hs : x.shBase + x.shBytes ≤ Config.spadBytes) {i : Nat} (hi : i < 16 * n) :
    Memory.read (x.shadowStore off bs).spad (x.shBase + off + i) = bs.getD i 0 := by
  have hkeep : bs.take ((min x.shBytes (Config.spadBytes - x.shBase) - off) / 16 * 16) = bs := List.take_of_length_le (by omega)
  unfold Tile.shadowStore
  dsimp only
  rw [hkeep, if_neg (lt_irrefl _), Tile.read_spadWrite _ _ _ (by omega)]

/-- The first bytes of a list, filled up with zeros. -/
theorem getD_slice_zero (l : List Byte) {n i : Nat} (hi : i < n) : (slice l 0 n).getD i 0 = l.getD i 0 := by
  unfold slice
  grind

/-- A tile that keeps for whom it holds a shadow: what every record does first. -/
def Dev.shadowMet (d : Dev) (t : Nat) (src : BitVec 12) : Dev :=
  d.modTile t fun x => { x with wvl := { x.wvl with shFrom := if src ∈ x.wvl.shFrom then x.wvl.shFrom else x.wvl.shFrom ++ [src] } }

section

variable {src : BitVec 12} {q : ShadowRec}

theorem Dev.shadowArrival_of_data (hk : q.kind = 0) :
    d.shadowArrival t src q = (d.shadowMet t src).modTile t fun x => x.shadowStore q.offset.toNat (slice q.data 0 (16 * cnt0 q.len.toNat 4096)) := by
  unfold Dev.shadowArrival
  rw [hk]
  rfl

theorem Dev.shadowArrival_of_end (hk : q.kind = 2) :
    d.shadowArrival t src q = ((d.shadowMet t src).modTile t fun x => x.setReg Reg.WVL_SHSTEP q.value).emit (.shadowAck t src q.value) := by
  unfold Dev.shadowArrival
  rw [hk]
  rfl

/-- DATA of a shadow record is stored at its offset (08 R223). -/
theorem Dev.shadowArrival_data (hk : q.kind = 0) (hl : q.offset.toNat + 16 * cnt0 q.len.toNat 4096 ≤ (d.tile t).shBytes)
    (hs : (d.tile t).shBase + (d.tile t).shBytes ≤ Config.spadBytes) : (d.shadowArrival t src q).out = d.out ∧ ∀ i, i < 16 * cnt0 q.len.toNat 4096 →
      Memory.read ((d.shadowArrival t src q).tile t).spad ((d.tile t).shBase + q.offset.toNat + i) = q.data.getD i 0 := by
  rw [Dev.shadowArrival_of_data hk, Dev.tile_modTile_self, Dev.shadowMet, Dev.tile_modTile_self]
  refine ⟨rfl, fun i hi => ?_⟩
  rw [← getD_slice_zero q.data hi]
  refine Tile.read_shadowStore _ (length_slice ..) ?_ ?_ hi
  · exact hl
  · exact hs

/-- END of a shadow record sets WVL_SHSTEP and is acknowledged (08 R223). -/
theorem Dev.shadowArrival_end (hk : q.kind = 2) :
    ((d.shadowArrival t src q).tile t).reg Reg.WVL_SHSTEP = q.value ∧ (d.shadowArrival t src q).out = d.out ++ [.shadowAck t src q.value] := by
  rw [Dev.shadowArrival_of_end hk, Dev.emit_tile, Dev.tile_modTile_self, Tile.reg_setReg_self]
  exact ⟨rfl, rfl⟩

end

/-- The first record of a device that waits at a tile is taken and reaches it (log 44). -/
theorem completes_shadowRecordArrival {s : State} {src : BitVec 12} {q : ShadowRec} {k : Packet} {P : Dev → Prop} (ht : t < Config.nTiles)
    (hk : s.dev.unitPkt t 3 (fun k => decide (k.srcdev = src)) = some k) (hq : k.shadow = q) (hP : P ((s.dev.unitTake t k).shadowArrival t src q)) :
    Completes (.shadowRecordArrival t src q) s P := by
  refine completes_of_tile ht rfl ?_ hP
  rw [hk]
  exact if_pos hq

/-! #### An acknowledgement that does not come -/

/-- A tile whose shadowing has ended for want of an acknowledgement (08 R224). -/
def Tile.unshadowed (x : Tile) : Tile :=
  { (x.modReg Reg.WVL_SHADOW fun v => clrBit v 0).wvlErr 22 with wvl := { x.wvl with shadowQ := [] } }

theorem Tile.reg_unshadowed (x : Tile) (a : Nat) :
    x.unshadowed.reg a = ((x.modReg Reg.WVL_SHADOW fun v => clrBit v 0).modReg Reg.WVL_ERR fun v => setBit v 22).reg a := rfl

theorem Tile.reg_unshadowed_shadow (x : Tile) : x.unshadowed.reg Reg.WVL_SHADOW = clrBit (x.reg Reg.WVL_SHADOW) 0 := by
  rw [Tile.reg_unshadowed, Tile.reg_modReg_ne _ _ _ (by decide), Tile.reg_modReg_self]

theorem Tile.reg_unshadowed_err (x : Tile) : x.unshadowed.reg Reg.WVL_ERR = setBit (x.reg Reg.WVL_ERR) 22 := by
  rw [Tile.reg_unshadowed, Tile.reg_modReg_self, Tile.reg_modReg_ne _ _ _ (by decide)]

/-- The shadowing ends: the error record and the free value that is drawn for it leave the tile. -/
theorem Dev.shadowTimeout_tile (h : (d.tile t).shWaits = true) : (d.shadowTimeout t).tile t = (d.tile t).unshadowed := by
  unfold Dev.shadowTimeout
  rw [if_pos h]
  refine Eq.trans ?_ (d.tile_modTile_self t Tile.unshadowed)
  simp only [Dev.tile, Dev.drawn, Dev.recordTile_tiles]
  rfl

end

/-- Settles O38, command by command, at the tile that each is about. That records wait at the unit (log 44) and their form on the wire (log 111) are the
model's choice. -/
theorem claimsAndShadowRecords : Obligations.ClaimsAndShadowRecords := by
  intro s t ht x
  refine ⟨?claim, ?claimed, ?send, ?arrival, ?ack, ?timeout⟩
  case claim =>
    intro r _ hr hg hb
    obtain ⟨e, hctr, hclaim⟩ := Dev.wvlClaim_static hr hg hb
    obtain ⟨hreg, hwvl⟩ := e.claimGot_tile t (claimIndex (posOf t (s.dev.group r) + x.wvl.claimCtr * (s.dev.group r).length) x.wvl.nUnits)
    exact completes_of_tile ht rfl hclaim ⟨by rw [hwvl]; exact hctr, hreg⟩
  case claimed =>
    intro who hout
    obtain ⟨e, he, hread⟩ := s.dev.tileRead32_claimed who t
    refine completes_of_tile ht rfl (d' := e.emit (.readData (BitVec.ofNat 64 (lo32 (x.reg Reg.WVL_CLAIMED)).toNat))) ?_ (congrArg (· ++ _) he)
    rw [Dev.wvlClaimedRead, if_neg (not_not.mpr hout), hread]
  case send =>
    intro d hb
    have hreg : (d.tile t).reg Reg.WVL_SHADOW = x.reg Reg.WVL_SHADOW :=
      s.dev.modTile_keeps (F := fun y => y.reg Reg.WVL_SHADOW) t rfl t
    have hroute := congrArg (fld · 16 16) hreg
    refine completes_of_tile ht rfl (Dev.shadowSend_of_on hb) ⟨?_, Dev.sendShadow_of_no_route hroute _, fun _ => Dev.sendShadow_of_route hroute _⟩
    rw [Dev.shadowQ_sendShadow]
    exact congrArg (fun x => x.wvl.shadowQ) (Dev.tile_modTile_self ..)
  case arrival =>
    intro src q k hk hq
    refine ⟨fun hend => ?_, fun hdata hl hs => ?_⟩
    · exact completes_shadowRecordArrival ht hk hq (Dev.shadowArrival_end hend)
    · exact completes_shadowRecordArrival ht hk hq (Dev.shadowArrival_data (d := s.dev.unitTake t k) hdata hl hs)
  case ack => exact fun step => completes_of_tile ht rfl rfl rfl
  case timeout =>
    intro hw
    refine completes_of_tile ht rfl rfl ?_
    rw [Dev.shadowTimeout_tile hw, Tile.reg_unshadowed_shadow, Tile.reg_unshadowed_err]
    exact ⟨rfl, bit_clrBit_self _ 0, bit_setBit_self _ 22 (by decide)⟩

end Sys2Proof.Machine

/-! ## Programs

Proofs of the statements of 09: load, unload and ROUTE_SELECT (O39). A load writes its tiles, and a REGS record may send a claim, but nothing else of the
device follows from that; what a load and an unload write besides are the region, its route patch entries and the registers of `regionRegs`. -/

/-! ### Changes of tiles and of what leaves -/

namespace Sys2Proof.Machine

open Sys2Proof Sys2Proof.Claims

/-- The device without its tiles and without what has left it. -/
def Dev.sansTiles (d : Dev) : Dev := { d with tiles := [], out := [] }

section

variable (d : Dev) (t : Nat)

@[simp] theorem Dev.modTile_sansTiles (f : Tile → Tile) : (d.modTile t f).sansTiles = d.sansTiles := rfl
@[simp] theorem Dev.setTile_sansTiles (x : Tile) : (d.setTile t x).sansTiles = d.sansTiles := rfl
@[simp] theorem Dev.emit_sansTiles (o : Output) : (d.emit o).sansTiles = d.sansTiles := rfl
@[simp] theorem Dev.claimGot_sansTiles (i : W32) : (d.claimGot t i).sansTiles = d.sansTiles := rfl

@[simp] theorem Dev.wvlClaim_sansTiles : (d.wvlClaim t).sansTiles = d.sansTiles := by
  unfold Dev.wvlClaim
  dsimp only
  split
  · rfl
  · split_ifs <;> rfl

/-- A write of a register of a tile reaches tiles, and as a claim it may send a request (08 R220). -/
@[simp] theorem Dev.tileWrite_sansTiles (a : Nat) (m v : W64) : (d.tileWrite t a m v).sansTiles = d.sansTiles := by
  unfold Dev.tileWrite
  split
  · rfl
  · simp [apply_ite Dev.sansTiles]

@[simp] theorem Dev.modTiles_sansTiles (ts : List Nat) (f : Tile → Tile) : (d.modTiles ts f).sansTiles = d.sansTiles :=
  Dev.foldl_keeps (fun d t => d.modTile_sansTiles t f) ts d

@[simp] theorem Dev.loadRegs_sansTiles (ss : List Sect) (recov : Bool) : (d.loadRegs t ss recov).sansTiles = d.sansTiles := by
  refine Dev.foldl_keeps (fun d s => Dev.foldl_keeps (fun d b => ?_) _ d) _ d
  dsimp only
  split
  · rfl
  · exact d.tileWrite_sansTiles ..

/-- On a tier without wrong bits resident weights load, into their tiles alone (07 R193). -/
theorem Dev.loadResidents_of_sound (r : Nat) (xs : List Resident) {d : Dev} (h : d.wt.weak = []) :
    ∃ e : Dev, e.sansTiles = d.sansTiles ∧ d.loadResidents r xs = (e, false) := by
  induction xs generalizing d with
  | nil => exact ⟨d, rfl, rfl⟩
  | cons x xs ih =>
    obtain ⟨f, hf⟩ : ∃ f, d.loadResident r x = (d.modTile x.t f, false) := by
      unfold Dev.loadResident
      dsimp only
      rw [Dev.tierMeet_of_sound h]
      exact ⟨_, rfl⟩
    obtain ⟨e, he, hl⟩ := ih (d := d.modTile x.t f) h
    refine ⟨e, he, ?_⟩
    rw [Dev.loadResidents, List.foldl_cons, hf]
    exact hl

end

section

variable {d e : Dev} (h : e.sansTiles = d.sansTiles)

include h

theorem Dev.reg_of_sansTiles (a : Nat) : e.reg a = d.reg a := (congrArg (Dev.reg · a) h :)
theorem Dev.region_of_sansTiles (k : Nat) : e.region k = d.region k := (congrArg (Dev.region · k) h :)
theorem Dev.hive_of_sansTiles : e.hive = d.hive := (congrArg Dev.hive h :)
theorem Dev.aon_of_sansTiles : e.aon = d.aon := (congrArg Dev.aon h :)

end

/-! ### Route patch entries (09 R233) -/

@[simp] theorem Dev.setRoutes_hive (d : Dev) (rs : List (Nat × RouteEnt)) : (d.setRoutes rs).hive = d.hive := rfl

/-- An entry holds a value that it is given, or had, when it is given no other. -/
theorem Dev.route_setRoutes {k : Nat} {v : RouteEnt} {rs : List (Nat × RouteEnt)} (hu : ∀ w, (k, w) ∈ rs → w = v) {d : Dev}
    (h : (k, v) ∈ rs ∨ d.route k = v) : (d.setRoutes rs).route k = v := by
  induction rs generalizing d with
  | nil => exact h.resolve_left List.not_mem_nil
  | cons x rs ih =>
    obtain ⟨j, w⟩ := x
    refine ih (d := d.setRoutes [(j, w)]) (fun w hw => hu w (List.mem_cons_of_mem _ hw)) ?_
    by_cases hj : k = j
    · subst hj
      exact .inr ((SMap.get_set_self ..).trans (hu w List.mem_cons_self))
    · refine h.imp (fun hm => (List.mem_cons.mp hm).resolve_left ?_) (SMap.get_set_ne _ _ _ _ hj).trans
      exact fun heq => hj (congrArg Prod.fst heq)

/-- ROUTE_SELECT on entries that all have the alternate asked for (09 R234). -/
theorem Dev.routeSelect_of_ok {d : Dev} {sel : List RouteSel} (h : ∀ e ∈ sel, e.entry < 4096 ∧ e.alt.toNat < (d.route e.entry).nalt) (m : Nat) :
    d.routeSelect m sel = (d.setRoutes (sel.map fun e => (e.entry, { d.route e.entry with active := e.alt.toNat }))).reply m St.OK := by
  unfold Dev.routeSelect
  rw [if_pos (by simpa using h)]

/-! ### The registers of a region's program -/

/-- The registers that a load or an unload of a region writes. -/
def regionRegs (r : Nat) : List Nat :=
  [Reg.WT_XMAP_NEXT + 8 * r, Reg.WT_XMAP + 8 * r, Reg.HOST_CFGSIG + 8 * r, Reg.SRV_LAST + 8 * r, Reg.SRV_TDC + 8 * r]

/-- The features and the registers of the Hive are none of them. -/
theorem notMem_regionRegs {r a : Nat} (hr : r < Config.nRegions) (ha : a < 0x800 ∨ 0x100000 ≤ a ∧ a < 0x200000) : a ∉ regionRegs r := by
  have hr64 : r < 64 := hr
  simp only [regionRegs, Reg.WT_XMAP_NEXT, Reg.WT_XMAP, Reg.HOST_CFGSIG, Reg.SRV_LAST, Reg.SRV_TDC, List.mem_cons, List.not_mem_nil, or_false]
  omega

theorem Dev.reg_setReg_of_notMem {d : Dev} {l : List Nat} {a b : Nat} (ha : a ∉ l) (hb : b ∈ l) (v : W64) : (d.setReg b v).reg a = d.reg a :=
  d.reg_setReg_ne _ _ fun h => ha (h ▸ hb)

/-- A configuration signature is computed from the features of the device, whose registers are the first (09 R235). -/
theorem Dev.cfgSig_congr {d e : Dev} (h : ∀ a, a < 0x800 → e.reg a = d.reg a) (q : LoadReq) (n : Nat) : e.cfgSig q n = d.cfgSig q n := by
  unfold Dev.cfgSig
  rw [h Reg.HOST_FEAT0 (by decide), h Reg.HOST_FEAT1 (by decide), h Reg.HOST_FEAT2 (by decide), h Reg.HOST_FEAT3 (by decide)]

/-- A reply that was awaited is still awaited after a change that leaves mailboxes and latch alone, and of the registers writes those of a region. -/
theorem Awaits.congr_regionRegs {m r : Nat} {d₀ d e : Dev} (h : Awaits m d₀ d) (hr : r < Config.nRegions)
    (hreg : ∀ a, a ∉ regionRegs r → e.reg a = d.reg a) (hh : e.hive = d.hive) (ha : e.aon = d.aon) : Awaits m d₀ e := by
  have hst : e.reg Reg.HIVE_STATUS = d.reg Reg.HIVE_STATUS := hreg _ (notMem_regionRegs hr (by decide))
  have hmb : e.reg Reg.HIVE_MBOXST = d.reg Reg.HIVE_MBOXST := hreg _ (notMem_regionRegs hr (by decide))
  refine ⟨h.lt, ?_, ?_, hh ▸ h.wanted, ?_⟩
  · rw [← h.authority]
    simp only [Dev.authority, Dev.seamF, hh, ha, hst]
  · rw [← h.running, Dev.mbState, hmb, Dev.mbState]
  · rw [← h.words, Dev.mbNat, hh, Dev.mbNat]

theorem Awaits.setRoutes {m : Nat} {d₀ d : Dev} (h : Awaits m d₀ d) (rs : List (Nat × RouteEnt)) : Awaits m d₀ (d.setRoutes rs) := h.congr rfl rfl rfl

/-- A reply that is awaited writes no register but the states of the mailboxes. -/
theorem Awaits.reg_reply {m : Nat} {d₀ d : Dev} (h : Awaits m d₀ d) (st : W16) {a : Nat} (ha : a ≠ Reg.HIVE_MBOXST) : (d.reply m st).reg a = d.reg a := by
  obtain ⟨-, -, regs, hive, host, out, he, hreg⟩ := d.replyFull_spec m st 0 [] [] h.lt h.authority h.wanted h.running
  rw [Dev.reply, he]
  exact hreg a ha

theorem Awaits.reg_reply_regionRegs {m r : Nat} {d₀ d : Dev} (h : Awaits m d₀ d) (hr : r < Config.nRegions) (st : W16) {a : Nat}
    (ha : a ∈ regionRegs r) : (d.reply m st).reg a = d.reg a :=
  h.reg_reply st fun he => notMem_regionRegs hr (by decide) (he ▸ ha)

@[simp] theorem Dev.reply_region (d : Dev) (m : Nat) (st : W16) (k : Nat) : (d.reply m st).region k = d.region k := Dev.replyFull_region ..

@[simp] theorem Dev.reply_route (d : Dev) (m : Nat) (st : W16) (k : Nat) : (d.reply m st).route k = d.route k := by
  obtain ⟨_, _, _, _, h⟩ := d.replyFull_frame m st 0 [] []
  rw [Dev.reply, h]
  rfl

/-! ### The load (09 R231) -/

/-- The region takes the place, the parameters and the records of a program. -/
def Dev.loadPlace (d : Dev) (q : LoadReq) (p : Prog) (ss : List Sect) : Dev :=
  d.setRegion q.r { d.region q.r with
    b0 := q.b0, c0 := q.c0, h := p.h, w := p.w, load := some q, routes := (routesOf q ss).map (·.1)
    residents := residentsOf q p ss, adslots := adslotsOf ss, reload := false, badWords := [] }

/-- The sections reach the tiles of the region: memories and queues, then REGS records, then router slots. -/
def Dev.loadTiles (d : Dev) (q : LoadReq) (p : Prog) (ss : List Sect) : Dev :=
  let ts := (d.region q.r).tileList
  let mine (t : Nat) : List Sect := ss.filter fun s => (sectTiles q p s).contains t
  let d := ts.foldl (fun d t => d.modTile t fun y => (y.loadMem q.r [] (mine t)).loadQueues (mine t)) d
  let d := ts.foldl (fun d t => d.loadRegs t (mine t) false) d
  ts.foldl (fun d t => d.modTile t fun y => y.loadSlots (mine t)) d

/-- The route patch entries and the extent map of a program. -/
def Dev.loadMaps (d : Dev) (q : LoadReq) (ss : List Sect) : Dev :=
  let d := d.setRoutes (routesOf q ss)
  (d.setReg (Reg.WT_XMAP_NEXT + 8 * q.r) (d.xmapOf q.r ss)).setReg (Reg.WT_XMAP + 8 * q.r) (d.xmapOf q.r ss)

/-- What ends the load of an empty region. -/
def Dev.loadDone (d : Dev) (q : LoadReq) (p : Prog) : Dev :=
  (((d.setReg (Reg.HOST_CFGSIG + 8 * q.r) (d.cfgSig q p.ndev)).setReg (Reg.SRV_LAST + 8 * q.r) 0).setReg (Reg.SRV_TDC + 8 * q.r) 0).modRegion q.r fun x =>
    { x with st := .stopped }

section

variable {d e : Dev} {q : LoadReq} {p : Prog} {ss : List Sect}

@[simp] theorem Dev.loadTiles_sansTiles (d : Dev) (q : LoadReq) (p : Prog) (ss : List Sect) : (d.loadTiles q p ss).sansTiles = d.sansTiles := by
  unfold Dev.loadTiles
  dsimp only
  rw [Dev.foldl_keeps (fun d t => d.modTile_sansTiles ..), Dev.foldl_keeps (fun d t => d.loadRegs_sansTiles ..),
    Dev.foldl_keeps (fun d t => d.modTile_sansTiles ..)]

/-- Entries and maps follow from the device without its tiles. -/
theorem Dev.loadMaps_sansTiles_congr (h : e.sansTiles = d.sansTiles) : (e.loadMaps q ss).sansTiles = (d.loadMaps q ss).sansTiles :=
  (congrArg (Dev.loadMaps · q ss) h :)

/-- A load that is not one of a recovery finds its region empty (09 Table 9.3). -/
theorem Dev.region_empty_of_loadCheck {x : Prog × List Sect} (h : d.loadCheck q false = (St.OK, some x)) : (d.region q.r).st = .empty := by
  by_contra hst
  unfold Dev.loadCheck at h
  rw [if_pos ⟨hst, rfl⟩] at h
  cases h

/-- On a tier without wrong bits an accepted load of an empty region ends with OK. -/
theorem Dev.loadApply_of_sound (hst : (d.region q.r).st = .empty) (hw : d.wt.weak = []) :
    ∃ e : Dev, e.sansTiles = ((d.loadPlace q p ss).loadMaps q ss).sansTiles ∧ d.loadApply q p ss false = (e.loadDone q p, St.OK) := by
  have hmaps := Dev.loadMaps_sansTiles_congr (q := q) (ss := ss) (Dev.loadTiles_sansTiles (d.loadPlace q p ss) q p ss)
  have hsound : (((d.loadPlace q p ss).loadTiles q p ss).loadMaps q ss).wt.weak = [] := (congrArg (Dev.wt · |>.weak) hmaps :).trans hw
  obtain ⟨e, he, hl⟩ := Dev.loadResidents_of_sound q.r (residentsOf q p ss) hsound
  refine ⟨e, he.trans hmaps, ?_⟩
  unfold Dev.loadApply
  dsimp only
  split
  case h_1 h => cases hl.symm.trans h
  case h_2 h =>
    obtain rfl : e = _ := congrArg Prod.fst (hl.symm.trans h)
    rw [if_pos hst]
    rfl

theorem Dev.reg_loadMaps {a : Nat} (ha : a ∉ regionRegs q.r) : (d.loadMaps q ss).reg a = d.reg a := by
  unfold Dev.loadMaps
  dsimp only
  rw [Dev.reg_setReg_of_notMem ha (by simp [regionRegs]), Dev.reg_setReg_of_notMem ha (by simp [regionRegs])]
  rfl

theorem Dev.reg_loadMaps_xmap : (d.loadMaps q ss).reg (Reg.WT_XMAP + 8 * q.r) = d.xmapOf q.r ss := Dev.reg_setReg_self ..

@[simp] theorem Dev.loadMaps_region (k : Nat) : (d.loadMaps q ss).region k = d.region k := rfl
@[simp] theorem Dev.loadMaps_hive : (d.loadMaps q ss).hive = d.hive := rfl
@[simp] theorem Dev.loadMaps_aon : (d.loadMaps q ss).aon = d.aon := rfl

theorem Dev.reg_loadDone {a : Nat} (ha : a ∉ regionRegs q.r) : (d.loadDone q p).reg a = d.reg a := by
  rw [Dev.loadDone, Dev.modRegion_reg, Dev.reg_setReg_of_notMem ha (by simp [regionRegs]), Dev.reg_setReg_of_notMem ha (by simp [regionRegs]),
    Dev.reg_setReg_of_notMem ha (by simp [regionRegs])]

theorem Dev.reg_loadDone_xmap (hr : q.r < Config.nRegions) : (d.loadDone q p).reg (Reg.WT_XMAP + 8 * q.r) = d.reg (Reg.WT_XMAP + 8 * q.r) := by
  have hr64 : q.r < 64 := hr
  rw [Dev.loadDone, Dev.modRegion_reg, Dev.reg_setReg_ne, Dev.reg_setReg_ne, Dev.reg_setReg_ne] <;>
    simp only [Reg.WT_XMAP, Reg.HOST_CFGSIG, Reg.SRV_LAST, Reg.SRV_TDC] <;> omega

theorem Dev.reg_loadDone_last : (d.loadDone q p).reg (Reg.SRV_LAST + 8 * q.r) = 0 := by
  rw [Dev.loadDone, Dev.modRegion_reg, Dev.reg_setReg_ne, Dev.reg_setReg_self]
  simp only [Reg.SRV_LAST, Reg.SRV_TDC]
  omega

theorem Dev.reg_loadDone_cfgSig : (d.loadDone q p).reg (Reg.HOST_CFGSIG + 8 * q.r) = d.cfgSig q p.ndev := by
  rw [Dev.loadDone, Dev.modRegion_reg, Dev.reg_setReg_ne, Dev.reg_setReg_ne, Dev.reg_setReg_self] <;>
    simp only [Reg.HOST_CFGSIG, Reg.SRV_LAST, Reg.SRV_TDC] <;> omega

theorem Dev.region_loadDone_self : (d.loadDone q p).region q.r = { d.region q.r with st := .stopped } := by
  rw [Dev.loadDone, Dev.region_modRegion_self, Dev.setReg_region, Dev.setReg_region, Dev.setReg_region]

theorem Dev.region_loadDone_ne {k : Nat} (hk : k ≠ q.r) : (d.loadDone q p).region k = d.region k := by
  rw [Dev.loadDone, Dev.region_modRegion_ne _ _ _ hk, Dev.setReg_region, Dev.setReg_region, Dev.setReg_region]

@[simp] theorem Dev.loadDone_hive : (d.loadDone q p).hive = d.hive := by simp -implicitDefEqProofs [Dev.loadDone]
@[simp] theorem Dev.loadDone_aon : (d.loadDone q p).aon = d.aon := by simp -implicitDefEqProofs [Dev.loadDone]

/-- REGION_LOAD of an image that passes the checks, on a tier without wrong bits (09 R231). -/
theorem Dev.regionLoad_of_ok (hd : q.dmaFail = none) (hm : q.model = none) (hw : d.wt.weak = []) (hc : d.loadCheck q false = (St.OK, some (p, ss)))
    (m : Nat) : ∃ e : Dev, e.sansTiles = ((d.loadPlace q p ss).loadMaps q ss).sansTiles ∧ d.regionLoad m q = (e.loadDone q p).reply m St.OK := by
  obtain ⟨e, he, hl⟩ := Dev.loadApply_of_sound (p := p) (ss := ss) (Dev.region_empty_of_loadCheck hc) hw
  refine ⟨e, he, ?_⟩
  unfold Dev.regionLoad Dev.loadImage
  rw [hm, hd]
  dsimp only
  unfold Dev.loadChecked
  rw [hc]
  dsimp only
  rw [hl]

end

/-! ### The unload (16 R379) -/

/-- What an unload makes of a tile of the region. -/
def Tile.unloaded (x : Tile) : Tile :=
  let y := (((((x.scbHalted false).queuesReset).setReg Reg.MESH_REGION 0x7F).setReg Reg.WVL_CFG 0).setReg Reg.WVL_DIR 0).setReg Reg.WVL_SHADOW 0
  { y with wvl := { y.wvl with ft := [], unsync := [] } }

theorem Tile.unloaded_halted (x : Tile) : x.unloaded.scb.mode = .halted ∧ x.unloaded.reg Reg.MESH_REGION = 0x7F := by
  refine ⟨rfl, ?_⟩
  change (((((x.scbHalted false).queuesReset.setReg Reg.MESH_REGION 0x7F).setReg Reg.WVL_CFG 0).setReg Reg.WVL_DIR 0).setReg Reg.WVL_SHADOW 0).reg _ = _
  rw [Tile.reg_setReg_ne _ _ _ (by decide), Tile.reg_setReg_ne _ _ _ (by decide), Tile.reg_setReg_ne _ _ _ (by decide), Tile.reg_setReg_self]

/-- The maps and the signature of a region without a program. -/
def Dev.unloadMaps (d : Dev) (r : Nat) : Dev :=
  ((d.setReg (Reg.WT_XMAP + 8 * r) 0xFFFFFFFFFFFFFFF).setReg (Reg.WT_XMAP_NEXT + 8 * r) 0xFFFFFFFFFFFFFFF).setReg (Reg.HOST_CFGSIG + 8 * r) 0

/-- A region without a program. -/
def Region.unloaded (x : Region) : Region :=
  { x with
    st := .empty, b0 := 0, c0 := 0, h := 0, w := 0, load := none, routes := [], residents := [], adslots := [], fetched := none,
    reload := false, badWords := [], mixedLeft := 0 }

section

variable {d : Dev} {r : Nat}

theorem Dev.unload_eq (d : Dev) (r : Nat) : d.unload r =
    (((d.modTiles (d.region r).tileList Tile.unloaded).setRoutes ((d.region r).routes.map (·, RouteEnt.reset))).unloadMaps r).modRegion r
      Region.unloaded := by
  unfold Dev.setRoutes
  rw [List.foldl_map]
  rfl

theorem Dev.reg_unloadMaps {a : Nat} (ha : a ∉ regionRegs r) : (d.unloadMaps r).reg a = d.reg a := by
  rw [Dev.unloadMaps, Dev.reg_setReg_of_notMem ha (by simp [regionRegs]), Dev.reg_setReg_of_notMem ha (by simp [regionRegs]),
    Dev.reg_setReg_of_notMem ha (by simp [regionRegs])]

theorem Dev.reg_unloadMaps_cfgSig : (d.unloadMaps r).reg (Reg.HOST_CFGSIG + 8 * r) = 0 := Dev.reg_setReg_self ..

theorem Dev.reg_unloadMaps_xmap (hr : r < Config.nRegions) : (d.unloadMaps r).reg (Reg.WT_XMAP + 8 * r) = 0xFFFFFFFFFFFFFFF := by
  have hr64 : r < 64 := hr
  rw [Dev.unloadMaps, Dev.reg_setReg_ne, Dev.reg_setReg_ne, Dev.reg_setReg_self] <;>
    simp only [Reg.WT_XMAP, Reg.WT_XMAP_NEXT, Reg.HOST_CFGSIG] <;> omega

theorem Dev.region_unload : (d.unload r).region r = (d.region r).unloaded := by
  rw [Dev.unload_eq, Dev.region_modRegion_self]
  exact congrArg Region.unloaded (Dev.region_of_sansTiles (d.modTiles_sansTiles ..) r)

theorem Dev.reg_unload (d : Dev) (r a : Nat) : (d.unload r).reg a = (d.unloadMaps r).reg a := by
  rw [Dev.unload_eq]
  exact (congrArg (fun e : Dev => (e.unloadMaps r).reg a) (d.modTiles_sansTiles (d.region r).tileList Tile.unloaded) :)

theorem Dev.unload_hive : (d.unload r).hive = d.hive := by
  rw [Dev.unload_eq, Dev.modRegion_hive, Dev.unloadMaps, Dev.setReg_hive, Dev.setReg_hive, Dev.setReg_hive, Dev.setRoutes_hive]
  exact Dev.hive_of_sansTiles (d.modTiles_sansTiles ..)

/-- Every route patch entry of the region is empty. -/
theorem Dev.route_unload {k : Nat} (hk : k ∈ (d.region r).routes) : (d.unload r).route k = RouteEnt.reset := by
  rw [Dev.unload_eq]
  refine Dev.route_setRoutes (fun w hw => ?_) (.inl (List.mem_map_of_mem hk))
  obtain ⟨_, -, he⟩ := List.mem_map.mp hw
  exact (congrArg Prod.snd he).symm

theorem Dev.tile_unload {t : Nat} (ht : t ∈ (d.region r).tileList) :
    ((d.unload r).tile t).scb.mode = .halted ∧ ((d.unload r).tile t).reg Reg.MESH_REGION = 0x7F := by
  rw [Dev.unload_eq]
  exact Dev.modTiles_of_mem (P := fun x => x.scb.mode = .halted ∧ x.reg Reg.MESH_REGION = 0x7F) Tile.unloaded_halted (.inl ht)

theorem Dev.regionUnload_of_ok (hst : (d.region r).st = .stopped ∨ (d.region r).st = .fault) (hs : d.swapArmed r = false) (m : Nat) :
    d.regionUnload m r = (d.unload r).reply m St.OK := by
  unfold Dev.regionUnload
  dsimp only
  rw [if_neg (by tauto), if_neg (by simp [hs])]

end

/-! ### The statement -/

/-- Settles O39, command by command: a load that passes the checks is `Dev.loadPlace`, `Dev.loadMaps` and `Dev.loadDone` besides what it does to tiles, an
unload is `Dev.unload`, and ROUTE_SELECT writes the entries it lists; none of them writes what the reply reads. -/
theorem programsLoadAndUnload : Obligations.ProgramsLoadAndUnload := by
  intro s m
  refine ⟨?load, ?unload, ?select⟩
  case load =>
    intro q p ss hr hj hready hdma hmodel hw hc
    obtain ⟨e, he, hl⟩ := Dev.regionLoad_of_ok (d := s.dev.begin_ m) hdma hmodel hw hc m
    have hreg : ∀ a, a ∉ regionRegs q.r → e.reg a = s.dev.reg a := fun a ha => (Dev.reg_of_sansTiles he a).trans (Dev.reg_loadMaps ha)
    have hregion : ∀ k, e.region k = ((s.dev.begin_ m).loadPlace q p ss).region k := fun k => (Dev.region_of_sansTiles he k).trans (Dev.loadMaps_region k)
    have hmap : e.reg (Reg.WT_XMAP + 8 * q.r) = s.dev.xmapOf q.r ss := (Dev.reg_of_sansTiles he _).trans Dev.reg_loadMaps_xmap
    have hsig : e.cfgSig q p.ndev = s.dev.cfgSig q p.ndev :=
      Dev.cfgSig_congr (fun a ha => hreg a (notMem_regionRegs hr (.inl ha))) q p.ndev
    have hwait : Awaits m s.dev (e.loadDone q p) := (awaits_of_ready hready).congr_regionRegs hr
      (fun a ha => (Dev.reg_loadDone ha).trans (hreg a ha))
      (by rw [Dev.loadDone_hive, Dev.hive_of_sansTiles he, Dev.loadMaps_hive, Dev.loadPlace, Dev.setRegion_hive])
      (by rw [Dev.loadDone_aon, Dev.aon_of_sansTiles he, Dev.loadMaps_aon, Dev.loadPlace, Dev.setRegion_aon])
    refine completes_onHostJ hready hj (f := fun d => d.regionLoad m q) (if_pos hr) ?_
    simp only [hl, Dev.reply_region, Dev.region_loadDone_self, hregion, Dev.loadPlace, Dev.region_setRegion_self]
    refine ⟨hwait.replied .., trivial, trivial, trivial, trivial, trivial, trivial, ?_, ?_, ?_, fun k hk => ?_⟩
    · rw [hwait.reg_reply_regionRegs hr _ (by simp [regionRegs]), Dev.reg_loadDone_cfgSig, hsig]
    · rw [hwait.reg_reply_regionRegs hr _ (by simp [regionRegs]), Dev.reg_loadDone_last]
    · rw [hwait.reg_reply_regionRegs hr _ (by simp [regionRegs]), Dev.reg_loadDone_xmap hr, hmap]
    · rw [Dev.region_loadDone_ne hk, hregion, Dev.loadPlace, Dev.region_setRegion_ne _ _ _ hk]
      rfl
  case unload =>
    intro r hready hst hswap
    have ⟨hbegin, hr, _⟩ := hready
    have hwait : Awaits m s.dev ((s.dev.begin_ m).unload r) := (awaits_of_ready hbegin).congr_regionRegs hr
      (fun a ha => (Dev.reg_unload ..).trans (Dev.reg_unloadMaps ha)) Dev.unload_hive (Dev.unload_aon ..)
    refine completes_onHostR (f := fun d => d.regionUnload m r) hready rfl ?_
    rw [Dev.regionUnload_of_ok (d := s.dev.begin_ m) hst hswap]
    simp only [Dev.reply_region, Dev.reply_route, Dev.reply_tile]
    refine ⟨hwait.replied .., ?_, ?_, ?_, fun k => Dev.route_unload (d := s.dev.begin_ m), fun t => Dev.tile_unload (d := s.dev.begin_ m)⟩
    · rw [Dev.region_unload]
      rfl
    · rw [hwait.reg_reply_regionRegs hr _ (by simp [regionRegs]), Dev.reg_unload, Dev.reg_unloadMaps_cfgSig]
    · rw [hwait.reg_reply_regionRegs hr _ (by simp [regionRegs]), Dev.reg_unload, Dev.reg_unloadMaps_xmap hr]
  case select =>
    intro sel hready hsel hnodup
    refine completes_onHost (f := fun d => d.routeSelect m sel) hready rfl ?_
    rw [Dev.routeSelect_of_ok (d := s.dev.begin_ m) hsel]
    simp only [Dev.reply_route]
    refine ⟨((awaits_of_ready hready).setRoutes _).replied .., fun x hx => ?_, fun k hk => ?_⟩
    · refine Dev.route_setRoutes (fun w hw => ?_) (.inl (List.mem_map_of_mem hx))
      obtain ⟨y, hy, hyx⟩ := List.mem_map.mp hw
      obtain rfl : y = x := List.inj_on_of_nodup_map hnodup hy hx (congrArg Prod.fst hyx)
      exact (congrArg Prod.snd hyx).symm
    · refine Dev.route_setRoutes (fun w hw => ?_) (.inr rfl)
      obtain ⟨y, hy, hyk⟩ := List.mem_map.mp hw
      exact absurd (List.mem_map.mpr ⟨y, hy, congrArg Prod.fst hyk⟩) hk

end Sys2Proof.Machine

/-! ## Serving steps

Proofs of the statements of 10: host rings (O40), the way of a step to its start (O41, refuted), the end of a step (O42), the region commands (O43,
refuted), sequence slots and tenants (O44). -/

/-! ### What the end of a step leaves alone (10 R242 to R244, R258, 07 R190, R191)

The completions that wait, the copies of armed swaps and the fetch ahead follow a boundary, a token record and a write of a consumer index. Each touches
few things; `FinishKeeps` and `Dev.swapRun_keeps` say once which parts a function of the device must not read for the first two to keep it. -/

namespace Sys2Proof.Machine

open Sys2Proof Sys2Proof.Claims

/-! #### Interrupts and rings -/

section

variable (d : Dev) (p q v : Nat) (bs : List Byte)

@[simp] theorem Dev.irq_ring : (d.irq v).ring q = d.ring q := by
  obtain ⟨_, _, h⟩ := d.irq_frame v
  rw [h]
  rfl

@[simp] theorem Dev.irq_regions : (d.irq v).regions = d.regions := by
  obtain ⟨_, _, h⟩ := d.irq_frame v
  rw [h]

@[simp] theorem Dev.irq_reg (a : Nat) : (d.irq v).reg a = d.reg a := by
  obtain ⟨_, _, h⟩ := d.irq_frame v
  rw [h]
  rfl

/-- What has left the device has left it. -/
theorem Dev.out_subset_irq : d.out ⊆ (d.irq v).out := by
  unfold Dev.irq
  split_ifs
  · exact List.Subset.refl _
  · exact List.subset_append_left ..
  · exact List.Subset.refl _

/-- A vector whose Mask bit is clear sends its message (17 R390). -/
theorem Dev.irq_of_unmasked {d : Dev} {v : Nat} (hv : v < 2048) (hm : bit (d.msixByte (16 * v + 12)) 0 = false) : d.irq v = d.emit (.msix v) := by
  rw [Dev.irq, if_pos hv, if_neg (by simp [hm])]

/-- A ring's interrupt is sent or counted: its indices and its descriptor stay (17 R391). -/
theorem Dev.ringIrq_cases : d.ringIrq p = d ∨ d.ringIrq p = d.ringMessage p ∨ d.ringIrq p = d.setRing p { d.ring p with irq := (d.ring p).irq + 1 } := by
  unfold Dev.ringIrq
  dsimp only
  split_ifs
  · exact .inl rfl
  · exact .inr (.inl rfl)
  · exact .inr (.inr rfl)

theorem Dev.ring_ringMessage : (d.ringMessage p).ring p = { d.ring p with irq := 0, irqAt := d.elapsed + (d.ring p).d.imod.toNat } := by
  rw [Dev.ringMessage, Dev.irq_ring, Dev.ring_setRing_self]

theorem Dev.out_ringMessage {d : Dev} {p : Nat} (hv : (d.ring p).d.vector.toNat < 2048)
    (hm : bit (d.msixByte (16 * (d.ring p).d.vector.toNat + 12)) 0 = false) : (d.ringMessage p).out = d.out ++ [.msix (d.ring p).d.vector.toNat] :=
  congrArg Dev.out (Dev.irq_of_unmasked (d := d.setRing p _) hv hm)

/-- The indices of a ring pair. -/
def Ring.indices (g : Ring) : W32 × W32 × W32 × W32 := (g.h2dProd, g.h2dCons, g.d2hProd, g.d2hCons)

theorem Dev.indices_setRing {p : Nat} {g : Ring} (h : g.indices = (d.ring p).indices) (q : Nat) : ((d.setRing p g).ring q).indices = (d.ring q).indices := by
  by_cases hq : q = p
  · rw [hq, Dev.ring_setRing_self, h]
  · rw [Dev.ring_setRing_ne _ _ _ hq]

@[simp] theorem Dev.indices_ringIrq : ((d.ringIrq p).ring q).indices = (d.ring q).indices := by
  obtain h | h | h := d.ringIrq_cases p
  · rw [h]
  · rw [h, Dev.ringMessage, Dev.irq_ring, Dev.indices_setRing]
    rfl
  · rw [h, Dev.indices_setRing]
    rfl

@[simp] theorem Dev.ringIrq_regions : (d.ringIrq p).regions = d.regions := by
  obtain h | h | h := d.ringIrq_cases p
  · rw [h]
  · rw [h, Dev.ringMessage, Dev.irq_regions]
    rfl
  · rw [h]
    rfl

@[simp] theorem Dev.ringIrq_reg (a : Nat) : (d.ringIrq p).reg a = d.reg a := by
  obtain h | h | h := d.ringIrq_cases p
  · rw [h]
  · rw [h, Dev.ringMessage, Dev.irq_reg]
    rfl
  · rw [h]
    rfl

theorem Dev.out_subset_ringIrq : d.out ⊆ (d.ringIrq p).out := by
  obtain h | h | h := d.ringIrq_cases p
  · rw [h]
    exact List.Subset.refl _
  · rw [h]
    exact Dev.out_subset_irq (d.setRing p _) _
  · rw [h]
    exact List.Subset.refl _

@[simp] theorem Dev.d2hPut_regions : (d.d2hPut p bs).regions = d.regions := Dev.ringIrq_regions ..

@[simp] theorem Dev.d2hPut_reg (a : Nat) : (d.d2hPut p bs).reg a = d.reg a := Dev.ringIrq_reg ..

@[simp] theorem Dev.replyFull_ring (m : Nat) (st : W16) (detail : W32) (w57 : List W32) (data : List Byte) :
    (d.replyFull m st detail w57 data).ring q = d.ring q := by
  obtain ⟨_, _, _, _, h⟩ := d.replyFull_frame m st detail w57 data
  rw [h]
  rfl

@[simp] theorem Dev.reply_ring (m : Nat) (st : W16) : (d.reply m st).ring q = d.ring q := Dev.replyFull_ring ..

/-- A reply writes no register but the states of the mailboxes. -/
theorem Dev.reg_reply {a : Nat} (ha : a ≠ Reg.HIVE_MBOXST) (m : Nat) (st : W16) : (d.reply m st).reg a = d.reg a := by
  have hset (e : Dev) (n : Nat) : (e.setMbState m n).reg a = e.reg a := Dev.reg_modReg_ne _ _ _ ha
  have hhive (h : Hive) : ({ d with hive := h } : Dev).reg a = d.reg a := rfl
  unfold Dev.reply Dev.replyFull
  split_ifs
  · rfl
  · exact hhive _
  · exact (hset _ _).trans (hhive _)
  · exact (Dev.irq_reg ..).trans ((hset _ _).trans (hhive _))
  · exact hhive _

end

/-! #### Barriers (13 R325) -/

section

variable (d : Dev) (r : Nat) (id : W32)

/-- A report to a barrier reaches registers of the ring, the frames to send and what leaves. -/
theorem Dev.barReport_frame : ∃ regs cic out, d.barReport id r = { d with regs := regs, cic := cic, out := out } := by
  have harrive (e : Dev) : ∃ regs, e.barArrive id.toNat = { e with regs := regs } := by
    unfold Dev.barArrive
    split
    · exact ⟨_, rfl⟩
    · split
      · exact ⟨_, rfl⟩
      · split <;> exact ⟨_, rfl⟩
  obtain ⟨cic, out, hs⟩ : ∃ cic out, d.sendFrame ftBARRIER (leBytes 4 id.toNat ++ leBytes 1 r) = { d with cic := cic, out := out } := by
    unfold Dev.sendFrame Dev.transmit
    dsimp only
    split_ifs <;> exact ⟨_, _, rfl⟩
  unfold Dev.barReport
  rw [hs]
  dsimp only
  split_ifs
  · exact ⟨_, _, _, rfl⟩
  · obtain ⟨regs, ha⟩ := harrive { d with cic := cic, out := out }
    exact ⟨_, _, _, ha⟩

/-- The registers of the ring lie from 0x500000 on. -/
theorem Dev.reg_barReport {a : Nat} (ha : a < 0x500000) : (d.barReport id r).reg a = d.reg a := by
  have hne (k : Nat) : a ≠ Reg.CIC_BAR + 8 * k ∧ a ≠ Reg.CIC_ERR := by
    simp only [Reg.CIC_BAR, Reg.CIC_ERR]
    omega
  have harrive (e : Dev) : (e.barArrive id.toNat).reg a = e.reg a := by
    unfold Dev.barArrive
    split
    · rfl
    · split
      · exact Dev.reg_modReg_ne _ _ _ (hne _).1
      · split
        · exact Dev.reg_setReg_ne _ _ _ (hne _).1
        · exact Dev.reg_modReg_ne _ _ _ (hne 0).2
  have hsend : (d.sendFrame ftBARRIER (leBytes 4 id.toNat ++ leBytes 1 r)).reg a = d.reg a := by
    unfold Dev.sendFrame Dev.transmit
    dsimp only
    split_ifs <;> rfl
  unfold Dev.barReport
  dsimp only
  split_ifs
  · exact hsend
  · rw [harrive, hsend]

end

/-! #### The completions that wait -/

section

variable {α : Type} {r : Nat} {G : Dev → α}

/-- Nothing that the completions of region `r` do changes `G`. A region that a completion holds is RUNNING before (R258 item 6). -/
structure FinishKeeps (r : Nat) (G : Dev → α) : Prop where
  take : ∀ d p n, G (d.h2dTake p n) = G d
  put : ∀ d p bs, G (d.d2hPut p bs) = G d
  reply : ∀ d m st, G (d.reply m st) = G d
  report : ∀ d id, G (d.barReport id r) = G d
  hold : ∀ d, (d.region r).st = .running → G ((d.unfetch r).modRegion r fun x => { x with st := .held }) = G d
  rest : ∀ d l, G (d.setRegion r { d.region r with fins := l }) = G d

namespace FinishKeeps

variable (h : FinishKeeps r G) (d : Dev)

include h

theorem takeOf (kind n : Nat) : G (d.h2dTakeOf r kind n) = G d := by
  unfold Dev.h2dTakeOf
  split_ifs
  · rfl
  · split
    · exact h.take ..
    · rfl

theorem sendReplies (vs : List (Nat × W16)) : G (d.sendReplies vs) = G d := Dev.foldl_keeps (f := fun d v => d.reply v.1 v.2) (fun d v => h.reply d v.1 v.2) vs d

theorem finishStep (f : Finish) : G (d.finishStep r f) = G d := by
  have hput (e : Dev) : G (match e.pairOf r rkSTEP with | some p => if f.write then e.d2hPut p f.bytes else e | none => e) = G e := by
    split
    · split_ifs
      · exact h.put ..
      · rfl
    · rfl
  have hreport (e : Dev) : G (if f.barOut then e.barReport f.barrier r else e) = G e := by
    split_ifs
    · exact h.report ..
    · rfl
  have hhold (e : Dev) : G (if f.hold ∧ (e.region r).st = .running then (e.unfetch r).modRegion r fun x => { x with st := .held } else e) = G e := by
    split_ifs with hc
    · exact h.hold e hc.2
    · rfl
  exact (hhold _).trans ((hreport _).trans ((h.sendReplies _ _).trans ((hput _).trans ((h.takeOf _ _ _).trans (h.takeOf _ _ _)))))

theorem runFinsAux (n : Nat) : G (Dev.runFinsAux r n d) = G d := by
  induction n generalizing d with
  | zero => rfl
  | succ n ih =>
    unfold Dev.runFinsAux
    dsimp only
    split
    · rfl
    · split_ifs
      · exact (ih _).trans ((h.finishStep _ _).trans (h.rest _ _))
      · rfl

theorem runFins : G (d.runFins r) = G d := h.runFinsAux d _

end FinishKeeps

/-- A region without completions performs none. -/
theorem Dev.runFins_of_nil {d : Dev} (h : (d.region r).fins = []) : d.runFins r = d := by
  rw [Dev.runFins, h]
  rfl

/-! #### Swaps and the fetch ahead -/

/-- The copies of armed swaps touch the maps of regions, what regions hold of swaps, and the swaps. -/
theorem Dev.swapRun_keeps (hmap : ∀ d k, k < Config.nRegions → G (d.copyMap k) = G d)
    (hmixed : ∀ (d : Dev) k n, G (d.modRegion k fun x => { x with mixedLeft := max x.mixedLeft n }) = G d) (hwt : ∀ (d : Dev) f, G (d.modWt f) = G d) (d : Dev) :
    G d.swapRun = G d := by
  have hcopies (l : List Nat) (hl : ∀ k ∈ l, k < Config.nRegions) (d : Dev) : G (l.foldl (fun d k => d.copyMap k) d) = G d :=
    List.foldlRecOn (motive := fun e => G e = G d) l _ rfl fun _ he k hk => (hmap _ k (hl k hk)).trans he
  have hwaits (w : Swap) : ∀ k ∈ w.waits, k < Config.nRegions := fun k hk => List.mem_range.mp (List.mem_of_mem_filter hk)
  have hstep (d : Dev) (w : Swap) : G (d.swapStep w).1 = G d := by
    unfold Dev.swapStep
    dsimp only
    generalize hnow : (if w.rolling = true then _ else _ : List Nat) = now
    have hlt : ∀ k ∈ now, k < Config.nRegions := fun k hk => by
      rw [← hnow] at hk
      split_ifs at hk
      · exact hwaits w k (List.mem_of_mem_filter hk)
      · exact hwaits w k (List.mem_of_mem_filter hk)
      · cases hk
    split_ifs
    · rfl
    · exact (Dev.foldl_keeps (fun d k => hmixed d k _) ..).trans (hcopies now hlt d)
    · exact hcopies now hlt d
  exact Dev.foldl_keeps (fun d w => (hwt ..).trans (hstep d w)) _ d

end

section

variable (d : Dev) (r : Nat)

theorem Dev.fetchAhead_frame : ∃ host, d.fetchAhead r = { d with host := host } := by
  unfold Dev.fetchAhead
  dsimp only
  split_ifs
  · exact ⟨_, rfl⟩
  · exact ⟨_, rfl⟩

@[simp] theorem Dev.fetchAhead_ring (q : Nat) : (d.fetchAhead r).ring q = d.ring q := by
  obtain ⟨_, h⟩ := d.fetchAhead_frame r
  rw [h]
  rfl

@[simp] theorem Dev.fetchAhead_region (k : Nat) : (d.fetchAhead r).region k = d.region k := by
  obtain ⟨_, h⟩ := d.fetchAhead_frame r
  rw [h]
  rfl

@[simp] theorem Dev.fetchAhead_reg (a : Nat) : (d.fetchAhead r).reg a = d.reg a := by
  obtain ⟨_, h⟩ := d.fetchAhead_frame r
  rw [h]
  rfl

@[simp] theorem Dev.fetchAhead_out : (d.fetchAhead r).out = d.out := by
  obtain ⟨_, h⟩ := d.fetchAhead_frame r
  rw [h]

@[simp] theorem Dev.swapRun_ring (q : Nat) : d.swapRun.ring q = d.ring q := by
  refine Dev.swapRun_keeps (G := (Dev.ring · q)) ?_ ?_ ?_ d <;> intros <;> rfl

@[simp] theorem Dev.swapRun_out : d.swapRun.out = d.out := by
  refine Dev.swapRun_keeps (G := Dev.out) ?_ ?_ ?_ d <;> intros <;> rfl

end

end Sys2Proof.Machine

/-! ### Host rings (10 R242 to R244, 17 R391) -/

namespace Sys2Proof.Machine

open Sys2Proof Sys2Proof.Claims

theorem completes_onHostM {c : Instr} {s : State} {m op : Nat} {ok : Message → Bool} {f : Dev → Dev} {P : Dev → Prop} (h : HostReadyM s m op ok)
    (hx : exec c s = onHostM m op ok s f) (hP : P (f (s.dev.begin_ m))) : Completes c s P := by
  obtain ⟨⟨hm, hc⟩, hok⟩ := h
  refine ⟨f (s.dev.begin_ m), ?_, hP⟩
  rw [hx, onHostM_of_lt s f hm, if_pos (Dev.accepts_of_canBegin hc hok)]

section

variable {d : Dev} {pair : Nat} {g : RingDesc}

/-- The ring that RING_CONFIG puts in place: empty, of no kind when the descriptor is DISABLED. -/
def Ring.ofDesc (g : RingDesc) : Ring := { Ring.reset with d := if g.kind = 0 then ringDesc0 else g }

/-- A RING_CONFIG that passes the checks of R243. -/
theorem Dev.ringConfig_of_ok (hpair : pair < Config.nPairs) (hbad : RingDesc.bad g = false)
    (hother : g.kind ≠ 0 → ∀ p, d.pairOf g.region.toNat g.kind.toNat = some p → p = pair)
    (hserving : (d.ring pair).d.kind ≠ 0 → (d.region (d.ring pair).d.region.toNat).serving = false) (m : Nat) :
    d.ringConfig m pair g = (d.setRing pair (.ofDesc g)).reply m St.OK := by
  unfold Dev.ringConfig
  dsimp only
  rw [if_neg, if_neg]
  · rfl
  · rintro ⟨hk, hs⟩
    rw [hserving hk] at hs
    cases hs
  · rintro (hp | hb | ⟨hk, ho⟩)
    · omega
    · rw [hbad] at hb
      cases hb
    · split at ho
      case h_1 p hp => simp [hother hk p hp] at ho
      case h_2 => cases ho

variable (d) (p : Nat) (idx : W32)

theorem Dev.ring_ringDoorbell : (d.ringDoorbell p idx).ring = (d.setRing p { d.ring p with h2dProd := idx }).ring := by
  funext q
  unfold Dev.ringDoorbell
  dsimp only
  split_ifs
  · exact Dev.fetchAhead_ring ..
  · rfl

/-- Completions write entries and consume others; the host's indices and what they read them from stay with the ring. -/
theorem finishKeeps_d2hCons (r q : Nat) : FinishKeeps r fun d => (d.ring q).d2hCons where
  take d p n := by
    change ((d.setRing p _).ring q).d2hCons = _
    by_cases hq : q = p
    · rw [hq, Dev.ring_setRing_self]
    · rw [Dev.ring_setRing_ne _ _ _ hq]
  put d p bs := by
    have hput : ((d.d2hPut p bs).ring q).d2hCons = ((d.setRing p { d.ring p with d2hProd := (d.ring p).d2hProd + 1 }).ring q).d2hCons :=
      congrArg (fun i : W32 × W32 × W32 × W32 => i.2.2.2) (Dev.indices_ringIrq ..)
    rw [hput]
    by_cases hq : q = p
    · rw [hq, Dev.ring_setRing_self]
    · rw [Dev.ring_setRing_ne _ _ _ hq]
  reply d m st := by rw [Dev.reply_ring]
  report d id := by
    obtain ⟨_, _, _, h⟩ := d.barReport_frame r id
    rw [h]
    rfl
  hold d _ := rfl
  rest d l := rfl

theorem Dev.d2hCons_d2hConsumer : ((d.d2hConsumer p idx).ring p).d2hCons = idx := by
  unfold Dev.d2hConsumer
  dsimp only
  split_ifs
  · rw [Dev.fetchAhead_ring, Dev.swapRun_ring]
    exact ((finishKeeps_d2hCons _ p).runFins _).trans (by rw [Dev.ring_setRing_self])
  · rw [Dev.ring_setRing_self]

theorem Dev.ringModerate_of_early (h : d.elapsed < (d.ring p).irqAt) : d.ringModerate p = d := if_pos (.inr h)

theorem Dev.ringModerate_of_due (hn : (d.ring p).irq ≠ 0) (h : (d.ring p).irqAt ≤ d.elapsed) : d.ringModerate p = d.ringMessage p :=
  if_neg (by rintro (hc | hc) <;> omega)

end

/-- Settles O40: RING_CONFIG gives the pair `Ring.ofDesc`, the doorbell and the index word write one index, and a merged interrupt whose time has come
is `Dev.ringMessage`. -/
theorem hostRingsFollowTheirIndices : Obligations.HostRingsFollowTheirIndices := by
  refine ⟨fun s m pair g hready hpair hbad hother hserving => ?config, fun s pair idx hpair =>
    ⟨?doorbell, ?consumer, fun _ hearly => ?early, fun hn hdue hv hmask => ?due⟩⟩
  case config =>
    refine completes_onHostM (f := fun d => d.ringConfig m pair g) hready rfl ?_
    have hawaits : Awaits m s.dev ((s.dev.begin_ m).setRing pair (.ofDesc g)) := (awaits_of_ready hready.1).congr rfl rfl rfl
    rw [Dev.ringConfig_of_ok (d := s.dev.begin_ m) hpair hbad hother hserving]
    simp only [Dev.reply_ring, Dev.ring_setRing_self]
    refine ⟨hawaits.replied .., fun hk => if_neg hk, fun hk => ?_, rfl, rfl, rfl, rfl, fun p hp => Dev.ring_setRing_ne _ _ _ hp⟩
    rw [Ring.ofDesc, if_pos hk]
    rfl
  case doorbell =>
    refine completes_onUnit (f := fun d => d.ringDoorbell pair idx) hpair rfl ?_
    rw [Dev.ring_ringDoorbell]
    exact ⟨Dev.ring_setRing_self .., fun p hp => Dev.ring_setRing_ne _ _ _ hp⟩
  case consumer => exact completes_onUnit (f := fun d => d.d2hConsumer pair idx) hpair rfl (Dev.d2hCons_d2hConsumer ..)
  case early => exact completes_onUnit (f := fun d => d.ringModerate pair) hpair rfl (Dev.ringModerate_of_early _ _ hearly)
  case due =>
    refine completes_onUnit (f := fun d => d.ringModerate pair) hpair rfl ?_
    rw [Dev.ringModerate_of_due _ _ hn hdue, Dev.ring_ringMessage]
    exact ⟨rfl, Dev.out_ringMessage hv hmask⟩

end Sys2Proof.Machine

/-! ### A rerun whose reload fails

O41 says that STEP_RERUN_START runs an aborted step again. It reloads first the resident ranges that hold a failing word, and a reload that meets an
uncorrectable codeword ends the step with STEP_FAILED (07 R165); the premises do not exclude that. -/

namespace Sys2Proof.Machine

open Sys2Proof Sys2Proof.Claims

/-- The step in progress of a region: step 1, without entries. -/
def emptyAdm : Adm := ⟨⟨1, 0, 0, 0, 0, 0, false, 0, 0, [], [], []⟩, [], 0, 0, 0, false, false⟩

/-- Region 2 is tile 0, aborted for rerun. A word of its resident range failed parity, and the first codeword of slice 0, which the range comes from, has
25 wrong bits. -/
def lostReloadState : State :=
  ⟨{ Dev.reset.setReg (Reg.WT_XMAP + 8 * 2) 0 with
      wt := { WTier.reset with weak := [(0, 25)] }
      regions := [(2, { Region.reset with
        st := .running, h := 1, w := 1, residents := [⟨0, 0, 0, 1⟩], badWords := [(0, 0)], adm := some emptyAdm, phase := .aborted })] }, []⟩

/-- The step has ended. -/
theorem phase_of_exec_lostReload {d : Dev} (h : exec (.stepRerunStart 2) lostReloadState = .next ⟨d, lostReloadState.pending⟩) :
    (d.region 2).phase = .idle := by
  have hr : (match exec (.stepRerunStart 2) lostReloadState with | .next s => some (s.dev.region 2).phase | _ => none) = some .idle := by decide
  simpa only [h, Option.some.injEq] using hr

/-- Refutes O41 at `lostReloadState`: every premise of the clause on STEP_RERUN_START holds, and the region is IDLE where the statement says that its
step runs. -/
theorem not_stepIsFetchedAdmittedAndStarted : ¬ Obligations.StepIsFetchedAdmittedAndStarted := by
  intro h
  obtain ⟨-, -, hstart⟩ := h lostReloadState 2 (by decide)
  obtain ⟨-, hrerun⟩ := hstart emptyAdm rfl (by decide)
  obtain ⟨d, hexec, hrunning, -⟩ := hrerun rfl (by decide)
  rw [phase_of_exec_lostReload hexec] at hrunning
  cases hrunning

end Sys2Proof.Machine

/-! ### The end of a step (10 R257 to R263, 01 R18) -/

namespace Sys2Proof.Machine

open Sys2Proof Sys2Proof.Claims

/-! #### Where a region stands -/

/-- A region's step and token records, and its state with HELD taken as RUNNING: a completion may hold a running region. -/
def Region.standing (x : Region) : Option Adm × Phase × List Tok × RState := (x.adm, x.phase, x.toks, if x.st = .held then .running else x.st)

theorem Region.standing_eq {x y : Region} (h : x.standing = y.standing) : x.adm = y.adm ∧ x.phase = y.phase ∧ x.toks = y.toks ∧
    (y.st ≠ .held → y.st ≠ .running → x.st = y.st) := by
  simp only [Region.standing, Prod.mk.injEq] at h
  obtain ⟨hadm, hphase, htoks, hst⟩ := h
  refine ⟨hadm, hphase, htoks, fun hheld hrun => ?_⟩
  rw [if_neg hheld] at hst
  split_ifs at hst
  · exact absurd hst.symm hrun
  · exact hst

section

variable (d : Dev) (r k : Nat)

theorem Dev.standing_setRegion {y : Region} (hy : y.standing = (d.region r).standing) (k : Nat) :
    ((d.setRegion r y).region k).standing = (d.region k).standing := by
  by_cases hk : k = r
  · rw [hk, Dev.region_setRegion_self, hy]
  · rw [Dev.region_setRegion_ne _ _ _ hk]

theorem Dev.standing_modRegion {f : Region → Region} (hf : (f (d.region r)).standing = (d.region r).standing) (k : Nat) :
    ((d.modRegion r f).region k).standing = (d.region k).standing := d.standing_setRegion r hf k

theorem Dev.region_of_regions {d e : Dev} (h : e.regions = d.regions) (k : Nat) : e.region k = d.region k := by rw [Dev.region, h, Dev.region]

/-- Completions change no region but by holding it. -/
theorem finishKeeps_standing (r k : Nat) : FinishKeeps r fun d => (d.region k).standing where
  take d p n := rfl
  put d p bs := congrArg Region.standing (Dev.region_of_regions (Dev.d2hPut_regions ..) k)
  reply d m st := by rw [Dev.reply_region]
  report d id := by
    obtain ⟨_, _, _, h⟩ := d.barReport_frame r id
    rw [h]
    rfl
  hold d hst := by
    have hunfetch : ((d.unfetch r).region k).standing = (d.region k).standing := d.standing_modRegion (f := fun x => { x with fetched := none }) r rfl k
    refine (Dev.standing_modRegion _ _ ?_ k).trans hunfetch
    have hr : ((d.unfetch r).region r).st = .running := (congrArg Region.st (d.region_modRegion_self r fun x => { x with fetched := none })).trans hst
    simp [Region.standing, hr]
  rest d l := d.standing_setRegion r (y := { d.region r with fins := l }) rfl k

theorem Dev.standing_swapRun : (d.swapRun.region k).standing = (d.region k).standing :=
  Dev.swapRun_keeps (G := fun d => (d.region k).standing) (fun d j _ => (d.setReg _ _).standing_modRegion j rfl k)
    (fun d j _ => d.standing_modRegion j rfl k) (fun _ _ => rfl) d

/-- Completions and swaps write no register of the step sequencer. -/
theorem finishKeeps_reg {a : Nat} (ha : Reg.SRV_LAST ≤ a ∧ a < 0x500000) (r : Nat) : FinishKeeps r (Dev.reg · a) where
  take d p n := rfl
  put d p bs := Dev.d2hPut_reg ..
  reply d m st := Dev.reg_reply _ (by simp only [Reg.SRV_LAST, Reg.HIVE_MBOXST] at ha ⊢; omega) m st
  report d id := Dev.reg_barReport _ _ _ ha.2
  hold d _ := rfl
  rest d l := rfl

theorem Dev.reg_swapRun {a : Nat} (ha : Reg.SRV_LAST ≤ a) : d.swapRun.reg a = d.reg a := by
  refine Dev.swapRun_keeps (G := (Dev.reg · a)) (fun d j hj => Dev.reg_setReg_ne _ _ _ ?_) (fun _ _ _ => rfl) (fun _ _ => rfl) d
  have hj64 : j < 64 := hj
  simp only [Reg.SRV_LAST, Reg.WT_XMAP] at ha ⊢
  omega

end

/-! #### The boundary (10 R257, R258) -/

section

variable {d : Dev} {r : Nat} {a : Adm}

theorem Dev.energyBoundary_region (d : Dev) (r e₀ energy k : Nat) : (d.energyBoundary r e₀ energy).region k = d.region k := by
  unfold Dev.energyBoundary
  dsimp only
  split_ifs <;> rfl

theorem Dev.reg_energyBoundary (d : Dev) {r e₀ energy b : Nat} (hb : b ≠ Reg.PWR_OVERRUN + 8 * r) : (d.energyBoundary r e₀ energy).reg b = d.reg b := by
  unfold Dev.energyBoundary
  dsimp only
  split_ifs
  · exact Dev.reg_modReg_ne _ _ _ hb
  · rfl

/-- What a commit counts last: the number of the step, its energy over the bound and its time over STEPNS (R257). -/
def Dev.lastStep (d : Dev) (r e₀ energy startT : Nat) (step : W64) : Dev :=
  let d := (d.setReg (Reg.SRV_LAST + 8 * r) step).energyBoundary r e₀ energy
  if d.stepns r ≠ 0 ∧ d.now - startT > d.stepns r then d.count (Reg.SRV_OVERRUN + 8 * r) 0 64 1 else d

theorem Dev.lastStep_region (d : Dev) (r e₀ energy startT k : Nat) (step : W64) : (d.lastStep r e₀ energy startT step).region k = d.region k := by
  refine Eq.trans ?_ (Dev.energyBoundary_region (d.setReg (Reg.SRV_LAST + 8 * r) step) r e₀ energy k)
  unfold Dev.lastStep
  dsimp only
  split_ifs <;> rfl

theorem Dev.reg_lastStep (d : Dev) {r : Nat} (hr : r < Config.nRegions) (e₀ energy startT : Nat) (step : W64) :
    (d.lastStep r e₀ energy startT step).reg (Reg.SRV_LAST + 8 * r) = step := by
  have hr64 : r < 64 := hr
  have henergy : ((d.setReg (Reg.SRV_LAST + 8 * r) step).energyBoundary r e₀ energy).reg (Reg.SRV_LAST + 8 * r) = step :=
    (Dev.reg_energyBoundary _ (by simp only [Reg.SRV_LAST, Reg.PWR_OVERRUN]; omega)).trans (Dev.reg_setReg_self ..)
  unfold Dev.lastStep
  dsimp only
  split_ifs
  · exact (Dev.reg_modReg_ne _ _ _ (by simp only [Reg.SRV_LAST, Reg.SRV_OVERRUN]; omega)).trans henergy
  · exact henergy

/-- A commit ends with a write of its region, which keeps the region's state: STOPPED when it was STOPPING (R258 item 3, R265). -/
theorem Dev.commit_frame (d : Dev) (r : Nat) (a : Adm) : ∃ (e : Dev) (f : Region → Region),
    d.commit r a = ((if (d.region r).st = .stopping then e.stopped r else (e, [])).1.lastStep r (d.region r).e0 a.inp.energy.toNat (d.region r).startT
      a.inp.step).modRegion r f ∧
    ∀ x, (f x).adm = none ∧ (f x).phase = .idle ∧ (f x).st = x.st := by
  unfold Dev.commit Dev.lastStep
  dsimp only
  refine ⟨_, _, rfl, ?_⟩
  exact fun _ => ⟨rfl, rfl, rfl⟩

theorem Dev.region_commit (d : Dev) (r : Nat) (a : Adm) : ((d.commit r a).region r).adm = none ∧ ((d.commit r a).region r).phase = .idle ∧
    ((d.region r).st = .stopping → ((d.commit r a).region r).st = .stopped) := by
  obtain ⟨e, f, heq, hf⟩ := d.commit_frame r a
  rw [heq, Dev.region_modRegion_self, Dev.lastStep_region]
  obtain ⟨hadm, hphase, hst⟩ := hf ((if (d.region r).st = .stopping then e.stopped r else (e, [])).1.region r)
  refine ⟨hadm, hphase, fun hs => hst.trans ?_⟩
  rw [if_pos hs]
  exact congrArg Region.st (Dev.region_modRegion_self ..)

theorem Dev.reg_commit (d : Dev) {r : Nat} (hr : r < Config.nRegions) (a : Adm) : (d.commit r a).reg (Reg.SRV_LAST + 8 * r) = a.inp.step := by
  obtain ⟨e, f, heq, -⟩ := d.commit_frame r a
  rw [heq]
  exact Dev.reg_lastStep _ hr ..

/-- A boundary whose conditions hold (R257): the step commits, and completions, swaps and the fetch ahead follow. -/
theorem Dev.stepBoundary_of_done (ha : (d.region r).adm = some a) (hp : (d.region r).phase = .running) (hg : ParityGood d)
    (ht : ∀ t ∈ (d.region r).tileList, d.tileDone t = true ∧ (d.tile t).shadowDue = false) (hk : (d.region r).toks = []) :
    d.stepBoundary r = (((d.commit r a).runFins r).swapRun).fetchAhead r := by
  unfold Dev.stepBoundary
  dsimp only
  rw [ha]
  dsimp only
  rw [if_pos ⟨hp, List.all_eq_true.mpr fun t h => by simp [ht t h], hk⟩, Dev.spadChecks_of_good (parInv_of_parityGood hg)]

/-- The committed step is the last one; the region is without step, and STOPPED when it was STOPPING. -/
theorem Dev.stepBoundary_spec (hr : r < Config.nRegions) (ha : (d.region r).adm = some a) (hp : (d.region r).phase = .running) (hg : ParityGood d)
    (ht : ∀ t ∈ (d.region r).tileList, d.tileDone t = true ∧ (d.tile t).shadowDue = false) (hk : (d.region r).toks = []) :
    ((d.stepBoundary r).region r).adm = none ∧ ((d.stepBoundary r).region r).phase = .idle ∧ (d.stepBoundary r).reg (Reg.SRV_LAST + 8 * r) = a.inp.step ∧
    ((d.region r).st = .stopping → ((d.stepBoundary r).region r).st = .stopped) := by
  rw [Dev.stepBoundary_of_done ha hp hg ht hk, Dev.fetchAhead_region, Dev.fetchAhead_reg]
  obtain ⟨hadm, hphase, -, hst⟩ := Region.standing_eq ((Dev.standing_swapRun _ r).trans ((finishKeeps_standing r r).runFins (d.commit r a)))
  obtain ⟨hnone, hidle, hstop⟩ := d.region_commit r a
  have hr64 : r < 64 := hr
  have hlast : Reg.SRV_LAST ≤ Reg.SRV_LAST + 8 * r ∧ Reg.SRV_LAST + 8 * r < 0x500000 := by simp only [Reg.SRV_LAST]; omega
  refine ⟨hadm.trans hnone, hphase.trans hidle, ?_, fun hs => ?_⟩
  · rw [Dev.reg_swapRun _ hlast.1, (finishKeeps_reg hlast r).runFins]
    exact d.reg_commit hr a
  · have h := hstop hs
    exact (hst (by simp [h]) (by simp [h])).trans h

end

/-! #### Token records (10 R262, R263) -/

section

variable {d : Dev} {r p : Nat} {k : Tok} {rest : List Tok}

theorem Dev.fillBufs_of_empty (hk : k.payload = []) (bufs : List BufDesc) : d.fillBufs r p bufs k = (d, k) := by
  cases bufs with
  | nil => rfl
  | cons b bs => exact if_pos (.inl hk)

/-- A record without payload, and with room in its ring, is written. -/
theorem Dev.tokenWrite_of_room (hx : (d.region r).toks = k :: rest) (hp : d.pairOf r rkEGRESS = some p) (hf : (d.region r).fins = [])
    (hk : k.payload = []) (hr : (d.ring p).room = true) (bufs : List BufDesc) :
    d.tokenWrite r bufs = (((d.modRegion r fun x => { x with toks := rest }).d2hPut p k.bytes).swapRun).fetchAhead r := by
  have hfins : (((d.modRegion r fun x => { x with toks := rest }).d2hPut p k.bytes).region r).fins = [] := by
    rw [Dev.region_of_regions (Dev.d2hPut_regions ..), Dev.region_modRegion_self]
    exact hf
  unfold Dev.tokenWrite
  rw [hx, hp]
  dsimp only
  rw [Dev.fillBufs_of_empty hk]
  dsimp only
  rw [if_pos ⟨hk, hr⟩, Dev.runFins_of_nil hfins]

/-- The D2H entry that `d2hPut` writes, and the producer index after it (R244). -/
theorem Dev.d2hPut_spec (d : Dev) (p : Nat) (bs : List Byte) : ((d.d2hPut p bs).ring p).d2hProd = (d.ring p).d2hProd + 1 ∧
    .dmaWrite ((d.ring p).d.d2hBase.toNat + 32 * ((d.ring p).d2hProd.toNat % (d.ring p).d2hSize))
      (slice bs 0 31 ++ [BitVec.ofNat 8 (128 * (((d.ring p).d2hProd.toNat / (d.ring p).d2hSize + 1) % 2))]) ∈ (d.d2hPut p bs).out := by
  constructor
  · refine (congrArg (fun i : W32 × W32 × W32 × W32 => i.2.2.1) (Dev.indices_ringIrq ..) :).trans ?_
    exact congrArg Ring.d2hProd (Dev.ring_setRing_self ..)
  · refine Dev.out_subset_ringIrq _ _ ?_
    exact List.mem_append_left _ (List.mem_append_right _ (List.mem_singleton_self _))

theorem Dev.tokenWrite_spec (hx : (d.region r).toks = k :: rest) (hp : d.pairOf r rkEGRESS = some p) (hf : (d.region r).fins = [])
    (hk : k.payload = []) (hr : (d.ring p).room = true) (bufs : List BufDesc) :
    ((d.tokenWrite r bufs).region r).toks = rest ∧ ((d.tokenWrite r bufs).ring p).d2hProd = (d.ring p).d2hProd + 1 ∧
    .dmaWrite ((d.ring p).d.d2hBase.toNat + 32 * ((d.ring p).d2hProd.toNat % (d.ring p).d2hSize))
      (slice k.bytes 0 31 ++ [BitVec.ofNat 8 (128 * (((d.ring p).d2hProd.toNat / (d.ring p).d2hSize + 1) % 2))]) ∈ (d.tokenWrite r bufs).out := by
  rw [Dev.tokenWrite_of_room hx hp hf hk hr]
  obtain ⟨-, -, htoks, -⟩ := Region.standing_eq (Dev.standing_swapRun ((d.modRegion r fun x => { x with toks := rest }).d2hPut p k.bytes) r)
  rw [Dev.fetchAhead_region, Dev.fetchAhead_ring, Dev.fetchAhead_out, Dev.swapRun_ring, Dev.swapRun_out, htoks, Dev.region_of_regions (Dev.d2hPut_regions ..),
    Dev.region_modRegion_self]
  exact ⟨rfl, (d.modRegion r fun x => { x with toks := rest }).d2hPut_spec p k.bytes⟩

/-- Under TRUNCATE a payload that finds no buffer ends (R263). -/
theorem Dev.toks_rxExpiry (hx : (d.region r).toks = k :: rest) (hp : d.pairOf r rkEGRESS = some p) (hk : k.payload ≠ []) (hb : (d.ring p).posted = 0)
    (hw : (d.ring p).d.rxWait ≠ 0xFFFFFFFF) (hm : bit (d.ring p).d.flags 0 = false) :
    ((d.rxExpiry r).region r).toks = { k with payload := [], status := St.TRUNCATED } :: rest := by
  unfold Dev.rxExpiry
  rw [hx, hp]
  dsimp only
  rw [if_neg hw, if_neg (by simp [hm]), if_pos (by simp [hk, hb]), Dev.region_modRegion_self]

end

/-! #### The abort of tiles (04 R108) -/

/-- The mode of a tile's Scarab and its queues of work. -/
def Tile.work (x : Tile) : ScbMode × List AcwEntry × List VecEntry := (x.scb.mode, x.acwQ, x.vecQ)

/-- A tile without work, whose Scarab does not run. -/
def Tile.Idle (x : Tile) : Prop := x.scb.mode ≠ .run ∧ x.acwQ = [] ∧ x.vecQ = []

theorem Tile.Idle.congr {x y : Tile} (h : x.Idle) (hw : y.work = x.work) : y.Idle := by
  obtain ⟨hm, hq⟩ := Prod.mk.inj hw
  obtain ⟨ha, hv⟩ := Prod.mk.inj hq
  exact ⟨hm ▸ h.1, ha.trans h.2.1, hv.trans h.2.2⟩

theorem Tile.idle_coreAbort (x : Tile) (c : Nat) (region : Bool) : (x.coreAbort c region).Idle := by
  refine ⟨?_, rfl, rfl⟩
  rw [Tile.coreAbort_scb, Scarab.abort]
  dsimp only
  split_ifs <;> exact fun h => nomatch h

/-- What no round of a loop over a tile changes, the loop does not change. -/
theorem Tile.foldl_work {β : Type} {f : Tile → β → Tile} (hf : ∀ x b, (f x b).work = x.work) (l : List β) (x : Tile) : (l.foldl f x).work = x.work :=
  List.foldlRecOn (motive := fun y => y.work = x.work) l f rfl fun _ hy b _ => (hf _ b).trans hy

theorem Tile.work_queueRerun (x : Tile) : x.queueRerun.work = x.work := by
  have hput (x : Tile) (n : Nat) (q : QCtx) : (x.putQc n q).work = x.work := by
    unfold Tile.putQc
    dsimp only
    split_ifs <;> rfl
  exact Tile.foldl_work (fun x _ => hput x _ _) x.dropTx.qctx x.dropTx

theorem Tile.work_setQc (x : Tile) (n : Nat) (q : QCtx) : (x.setQc n q).work = x.work := by
  rw [Tile.work, Tile.setQc_scb, Tile.setQc_acwQ, Tile.setQc_vecQ, Tile.work]

theorem Tile.work_queueEmpty (x : Tile) : x.queueEmpty.work = x.work := by
  have hmod : (x.dropTx.modQctx QCtx.empty).work = x.dropTx.work := 
    Tile.foldl_work (fun y (e : Nat × QCtx) => y.work_setQc e.1 (y.qc e.1).empty) x.dropTx.qctx x.dropTx
  rw [Tile.queueEmpty]
  generalize x.dropTx.modQctx QCtx.empty = y at hmod ⊢
  exact hmod

theorem Tile.work_setPte (x : Tile) (slot n : Nat) (e : W32) : (x.setPte slot n e).work = x.work := rfl

theorem Tile.work_setFt (x : Tile) (f : Nat) (v : W32) : (x.setFt f v).work = x.work := rfl

theorem Tile.work_clearPending (x : Tile) (slot : Nat) : (x.clearPending slot).work = x.work := rfl

section

variable (d : Dev) (k : AbortKind) (t u r : Nat)

theorem Dev.work_undoPend (p : PendEnt) : ((d.undoPend t p).tile u).work = (d.tile u).work := by
  have pte : ((d.modTile t fun x => x.setPte p.slot p.page p.old).tile u).work = (d.tile u).work := d.modTile_keeps t (Tile.work_setPte ..) u
  have ft (e : Dev) (j f : Nat) (v : Tile → W32) : ((e.modTile j fun x => x.setFt f (v x)).tile u).work = (e.tile u).work :=
    e.modTile_keeps j (Tile.work_setFt ..) u
  unfold Dev.undoPend
  dsimp only
  cases p.alloc <;> cases p.cow
  case none.none => exact pte
  case none.some => exact (ft _ _ _ _).trans pte
  case some.none => exact (ft _ _ _ fun _ => 0).trans pte
  case some.some => exact (ft _ _ _ _).trans ((ft _ _ _ fun _ => 0).trans pte)

/-- Undoing what is pending leaves the work of every tile. -/
theorem Dev.work_wvlAbort : ((d.wvlAbort t).tile u).work = (d.tile u).work := by
  refine (Dev.modTile_keeps _ t ?_ u).trans (Dev.foldl_keeps (G := fun d => (d.tile u).work) (fun d p => d.work_undoPend t u p) _ d)
  exact Tile.foldl_work (fun x s => x.work_clearPending s) _ _

/-- A tile that is aborted has no work, and one that has none gets none. -/
theorem Dev.idle_abortTile (h : u = t ∨ (d.tile u).Idle) : ((d.abortTile k t).tile u).Idle := by
  have hcore : ((((d.modTile t fun x => x.coreAbort d.ctr (decide (k = .region))).drawn).wvlAbort t).tile u).Idle := by
    refine Tile.Idle.congr (?_ : ((d.modTile t fun x => x.coreAbort d.ctr (decide (k = .region))).tile u).Idle) (Dev.work_wvlAbort _ t u)
    by_cases hu : u = t
    · rw [hu, Dev.tile_modTile_self]
      exact Tile.idle_coreAbort ..
    · rw [Dev.tile_modTile_ne _ _ _ hu]
      exact h.resolve_left hu
  cases k
  case rerun => exact hcore.congr (Dev.modTile_keeps _ t (Tile.work_queueRerun _) u)
  case region => exact hcore.congr (Dev.modTile_keeps _ t (Tile.work_queueEmpty _) u)
  case plain => exact hcore

/-- Every tile of the region is without work after its abort. -/
theorem Dev.idle_abortTiles {u : Nat} (h : u ∈ (d.region r).tileList) : ((d.abortTiles k r).tile u).Idle := by
  unfold Dev.abortTiles
  generalize (d.region r).tileList = ts at h
  have key (ts : List Nat) (d : Dev) (h : u ∈ ts ∨ (d.tile u).Idle) : ((ts.foldl (fun d t => d.abortTile k t) d).tile u).Idle := by
    induction ts generalizing d with
    | nil => exact h.resolve_left List.not_mem_nil
    | cons t ts ih =>
      refine ih _ ?_
      obtain hm | hi := h
      · obtain rfl | hm := List.mem_cons.mp hm
        · exact .inr (d.idle_abortTile k _ _ (.inl rfl))
        · exact .inl hm
      · exact .inr (d.idle_abortTile k _ _ (.inr hi))
  exact key ts d (.inl h)

theorem Dev.abortTile_regions : (d.abortTile k t).regions = d.regions := by
  have hundo (d : Dev) (p : PendEnt) : (d.undoPend t p).regions = d.regions := by
    unfold Dev.undoPend
    dsimp only
    cases p.alloc <;> cases p.cow <;> rfl
  have hwvl (e : Dev) : (e.wvlAbort t).regions = e.regions := Dev.foldl_keeps (G := Dev.regions) hundo _ e
  unfold Dev.abortTile
  cases k <;> exact hwvl _

theorem Dev.abortTiles_region (j : Nat) : (d.abortTiles k r).region j = d.region j :=
  Dev.region_of_regions (Dev.foldl_keeps (G := Dev.regions) (fun d t => d.abortTile_regions k t) _ d) j

end

/-! #### The abort of a step (01 R18, 10 Table 10.1) -/

section

variable {d : Dev} {r : Nat} {a : Adm}

theorem Dev.decideCancels_region (d : Dev) (r : Nat) : (d.decideCancels r).1.region r = { d.region r with cancels := [] } := by
  have hslot (d : Dev) (k : Nat) : (d.cancelSlot k).1.regions = d.regions := by
    unfold Dev.cancelSlot
    dsimp only
    split_ifs <;> rfl
  rw [← d.region_modRegion_self r fun x => { x with cancels := [] }]
  unfold Dev.decideCancels
  exact List.foldlRecOn (motive := fun s : Dev × List (Nat × W16) => s.1.region r = (d.modRegion r fun x => { x with cancels := [] }).region r) _ _ rfl
    fun s hs c _ => (Dev.region_of_regions (hslot ..) r).trans hs

/-- A step that ends without commit leaves its region IDLE; the state of a region that neither runs nor is HELD stays. -/
theorem Dev.region_endStep (ha : (d.region r).adm = some a) (hheld : (d.region r).st ≠ .held) (hrun : (d.region r).st ≠ .running) (st : W16) :
    ((d.endStep r st).region r).adm = none ∧ ((d.endStep r st).region r).st = (d.region r).st := by
  have key (fins : List Finish) : (((((d.setRegion r { d.region r with adm := none, phase := .idle, rerun := 0, fins := fins }).decideCancels r).1.sendReplies
      ((d.setRegion r { d.region r with adm := none, phase := .idle, rerun := 0, fins := fins }).decideCancels r).2).runFins r).region r).standing =
      { d.region r with adm := none, phase := .idle }.standing := by
    refine ((finishKeeps_standing r r).runFins _).trans (((finishKeeps_standing r r).sendReplies _ _).trans ?_)
    rw [Dev.decideCancels_region, Dev.region_setRegion_self]
    rfl
  unfold Dev.endStep
  dsimp only
  rw [ha]
  dsimp only
  obtain ⟨hadm, -, -, hst⟩ := Region.standing_eq (key _)
  exact ⟨hadm, hst hheld hrun⟩

theorem Dev.toFault_region (d : Dev) (r : Nat) : ((d.toFault r).region r).st = .fault ∧ ((d.toFault r).region r).adm = (d.region r).adm := by
  have hfetch : (d.unfetch r).region r = { d.region r with fetched := none } :=
    d.region_modRegion_self r fun x => { x with fetched := none }
  have hfault : (d.toFault r).region r = { (d.unfetch r).region r with st := .fault } :=
    (d.unfetch r).region_modRegion_self r fun x => { x with st := .fault }
  rw [hfault, hfetch]
  exact ⟨rfl, rfl⟩

/-- The failure of a running step: its tiles are aborted, the region goes to FAULT and the step ends (Table 10.1). -/
theorem Dev.stepFail_of_running (hp : (d.region r).phase = .running) (ha : (d.region r).adm = some a) :
    d.stepFail r = ((d.abortTiles .plain r).toFault r).endStep r St.STEP_FAILED := by
  unfold Dev.stepFail
  dsimp only
  rw [ha, if_pos hp]
  rfl

/-- The abort of a running step without rerun: FAULT, no step, and no work in any tile of the region. -/
theorem Dev.stepFail_spec (hp : (d.region r).phase = .running) (ha : (d.region r).adm = some a) : ((d.stepFail r).region r).st = .fault ∧
    ((d.stepFail r).region r).adm = none ∧ ∀ t ∈ (d.region r).tileList, ((d.stepFail r).tile t).Idle := by
  obtain ⟨hst, hadm⟩ := (d.abortTiles .plain r).toFault_region r
  rw [Dev.abortTiles_region, ha] at hadm
  obtain ⟨hnone, hfault⟩ := Dev.region_endStep hadm (by simp [hst]) (by simp [hst]) St.STEP_FAILED
  rw [Dev.stepFail_of_running hp ha]
  refine ⟨hfault.trans hst, hnone, fun t ht => ?_⟩
  rw [Dev.tile, Dev.endStep_tiles, Dev.toFault_tiles]
  exact d.idle_abortTiles .plain r ht

/-- The abort of a running step for its rerun: ABORTED with its step, and no work in any tile of the region. -/
theorem Dev.stepRerun_spec (d : Dev) (r : Nat) : ((d.stepRerun r).region r).phase = .aborted ∧ ((d.stepRerun r).region r).adm = (d.region r).adm ∧
    ∀ t ∈ (d.region r).tileList, ((d.stepRerun r).tile t).Idle := by
  unfold Dev.stepRerun
  rw [Dev.region_modRegion_self, Dev.abortTiles_region]
  exact ⟨rfl, rfl, fun t ht => d.idle_abortTiles .rerun r ht⟩

end

/-- Settles O42: the boundary is `Dev.commit` and what follows it, a record is one `Dev.d2hPut`, and every abort begins with `Dev.abortTiles`. -/
theorem stepCommitsOrAborts : Obligations.StepCommitsOrAborts := by
  refine fun s r hr => ⟨fun a ha hp hg ht hk => ?boundary, fun k rest p bufs hx hpair hf =>
    ⟨fun hpay hroom => ?record, fun hpay hposted hwait hflag => ?expiry⟩, fun a hp ha => ⟨fun hre => ?rerun, ?fault⟩⟩
  case boundary => exact completes_onUnit (f := fun d => d.stepBoundary r) hr rfl (Dev.stepBoundary_spec hr ha hp hg ht hk)
  case record => exact completes_onUnit (f := fun d => d.tokenWrite r bufs) hr rfl (Dev.tokenWrite_spec hx hpair hf hpay hroom bufs)
  case expiry => exact completes_onUnit (f := fun d => d.rxExpiry r) hr rfl (Dev.toks_rxExpiry hx hpair hpay hposted hwait hflag)
  case rerun =>
    refine completes_onUnit (f := fun d => d.stepAbort r true) hr rfl ?_
    obtain ⟨hphase, hadm, hidle⟩ := s.dev.stepRerun_spec r
    rw [Dev.stepAbort, if_pos hp, if_pos rfl, Dev.stepTrouble, if_pos hp, if_pos hre]
    exact ⟨hphase, hadm.trans ha, hidle⟩
  case fault =>
    refine completes_onUnit (f := fun d => d.stepAbort r false) hr rfl ?_
    rw [Dev.stepAbort, if_pos hp, if_neg Bool.false_ne_true]
    exact Dev.stepFail_spec hp ha

end Sys2Proof.Machine
/-! ### A completion that answers the mailbox of the abort

O43 says that REGION_ABORT is answered with OK. The end of its step performs the completions that wait, and sends the replies that they hold (R258); a
reply they hold for the mailbox of REGION_ABORT itself comes before OK. The premises exclude held cancels and stops, not such a reply. -/

namespace Sys2Proof.Machine

open Sys2Proof Sys2Proof.Claims

/-- The West pair acts. REGION_ABORT of region 2, which is tile 0 and runs a step, waits in mailbox 0; an earlier completion of the region has not been
performed, and holds the reply REGION_STATE for mailbox 0. -/
def heldReplyState : State :=
  ⟨{ Dev.reset.setReg Reg.HIVE_MBOXST 2 with
      hive := { Hive.reset with run := true, mbox := [(2, 0x04), (3, 0x04), (12, 2)] }
      aon := { AlwaysOn.reset with owner := .west }
      regions := [(2, { Region.reset with
        st := .running, h := 1, w := 1, adm := some emptyAdm, phase := .running
        fins := [⟨[], true, [(0, St.REGION_STATE)], false, 0, false, 0, false⟩] })] }, []⟩

/-- The mailbox shows the reply that was held. -/
theorem status_of_exec_heldReply {d : Dev} (h : exec (.regionAbort 0 2) heldReplyState = .next ⟨d, heldReplyState.pending⟩) :
    d.mbNat 0 8 4 = St.REGION_STATE.toNat := by
  have hr : (match exec (.regionAbort 0 2) heldReplyState with | .next s => some (s.dev.mbNat 0 8 4) | _ => none) = some St.REGION_STATE.toNat := by
    decide
  simpa only [h, Option.some.injEq] using hr

/-- Refutes O43 at `heldReplyState`: every premise of the clause on REGION_ABORT holds, and the mailbox shows REGION_STATE where the statement says OK. -/
theorem not_regionCommandsMoveTheState : ¬ Obligations.RegionCommandsMoveTheState := by
  intro h
  obtain ⟨-, -, -, habort⟩ := h heldReplyState 0 2
  obtain ⟨d, hexec, ⟨-, hstatus, -⟩, -⟩ := habort (by unfold HostReadyR HostReady; decide) (by decide) rfl rfl
  rw [status_of_exec_heldReply hexec] at hstatus
  exact absurd hstatus (by decide)

end Sys2Proof.Machine

/-! ### Sequence slots and tenants (10 R250, R253, R254, R264, 15 R355) -/

namespace Sys2Proof.Machine

open Sys2Proof Sys2Proof.Claims

/-! #### What a reply leaves alone, and the data it shows -/

section

variable {m k : Nat} {d₀ d : Dev}

@[simp] theorem Dev.replyFull_slot (d : Dev) (m : Nat) (st : W16) (detail : W32) (w57 : List W32) (data : List Byte) (k : Nat) :
    (d.replyFull m st detail w57 data).slot k = d.slot k := by
  obtain ⟨_, _, _, _, h⟩ := d.replyFull_frame m st detail w57 data
  rw [h]
  rfl

@[simp] theorem Dev.reply_slot (d : Dev) (m : Nat) (st : W16) (k : Nat) : (d.reply m st).slot k = d.slot k := Dev.replyFull_slot ..

@[simp] theorem Dev.replyFull_tenant (d : Dev) (m : Nat) (st : W16) (detail : W32) (w57 : List W32) (data : List Byte) (k : Nat) :
    (d.replyFull m st detail w57 data).tenant k = d.tenant k := by
  obtain ⟨_, _, _, _, h⟩ := d.replyFull_frame m st detail w57 data
  rw [h]
  rfl

@[simp] theorem Dev.reply_tenant (d : Dev) (m : Nat) (st : W16) (k : Nat) : (d.reply m st).tenant k = d.tenant k := Dev.replyFull_tenant ..

theorem Awaits.setSlot (h : Awaits m d₀ d) (k : Nat) (x : Slot) : Awaits m d₀ (d.setSlot k x) := h.congr rfl rfl rfl
theorem Awaits.setTenant (h : Awaits m d₀ d) (k : Nat) (x : Tenant) : Awaits m d₀ (d.setTenant k x) := h.congr rfl rfl rfl

/-- The data of a reply that is awaited stand from byte 32 on (16 R375). -/
theorem Awaits.data_replied (h : Awaits m d₀ d) (st : W16) (detail : W32) (w57 : List W32) {bs cs : List Byte} (hl : (bs ++ cs).length ≤ 4064) :
    (d.replyFull m st detail w57 (bs ++ cs)).mbNat m 32 bs.length = leNat bs := by
  have harea : ∃ pre, pre.length = 24 ∧ (d.replyFull m st detail w57 (bs ++ cs)).hive.mbox =
      (Memory.clear d.hive.mbox (4096 * m + 8) 4088).writeN (4096 * m + 8) (pre ++ (bs ++ cs)) := by
    refine ⟨leBytes 4 st.toNat ++ leBytes 4 detail.toNat ++ leBytes 4 (bs ++ cs).length ++ leBytes 4 (w57.getD 0 0).toNat ++
      leBytes 4 (w57.getD 1 0).toNat ++ leBytes 4 (w57.getD 2 0).toNat, by simp, ?_⟩
    unfold Dev.replyFull
    rw [if_neg (by simp [h.authority]), if_neg (by simpa using h.wanted), if_pos h.running, List.take_of_length_le hl]
    split_ifs
    · rfl
    · exact congrArg Hive.mbox (Dev.irq_hive ..)
  obtain ⟨pre, hpre, hmbox⟩ := harea
  rw [Dev.mbNat, Memory.readNat, hmbox, Memory.writeN_append, hpre]
  exact congrArg leNat (Memory.readN_writeN_append ..)

end

/-! #### The commands -/

section

variable {d : Dev} {r k : Nat}

/-- A cancel of a slot that no step in progress names (10 R264, first case). -/
theorem Dev.seqCancel_of_free (hk : k ≠ 0xFFFF) (hn : (d.region r).namesSlot k = false) (hc : (d.slot k).st ≠ .complete) (m : Nat) :
    d.seqCancel m r k = (d.setSlot k { d.slot k with st := .cancelled }).reply m St.OK := by
  rw [Dev.seqCancel, if_neg hk, if_neg (by simp [hn]), Dev.cancelNow, Dev.cancelSlot]
  dsimp only
  rw [if_neg hc]

/-- A cancel of a slot that the step in progress names is held (10 R264). -/
theorem Dev.seqCancel_of_named (hk : k ≠ 0xFFFF) (hn : (d.region r).namesSlot k = true) (m : Nat) :
    d.seqCancel m r k = d.modRegion r fun x => { x with cancels := x.cancels ++ [(m, k)] } := by
  rw [Dev.seqCancel, if_neg hk, if_pos hn]

theorem Dev.seqReset_of_free (hk : k ≠ 0xFFFF) (hn : ∀ e ∈ d.regions, e.2.namesSlot k = false) (m : Nat) :
    d.seqReset m k = (d.setSlot k Slot.reset).reply m St.OK := by
  rw [Dev.seqReset, if_neg hk, if_neg (by simpa using hn)]

/-- CLEN lies before the entries. -/
theorem Tile.pte_setClen (x : Tile) (slot n p : Nat) : (x.setClen slot n).pte slot p = x.pte slot p :=
  congrArg (BitVec.ofNat 32) (Memory.readNat_writeN_outside (a := x.dirAddr slot + 16 + 4 * p) (.inr (by rw [length_leBytes]; omega)))

/-- A rollback changes tiles alone: the slot has the length asked for, and no page at or beyond its end is valid (15 R355). -/
theorem Dev.seqRollback_of_ok {slot n h : Nat} (hst : (d.region r).st = .stopped ∨ (d.region r).st = .fault) (hh : d.homeOf r slot = some h)
    (hn : n ≤ (d.tile h).clen slot) (m : Nat) : ∃ e, OnlyTiles d e ∧ d.seqRollback m r slot n = e.reply m St.OK ∧ (e.tile h).clen slot = n ∧
      ∀ p, cdiv n (d.tile h).kvPpp ≤ p → p < (d.tile h).dirLen → pteV ((e.tile h).pte slot p) = false := by
  have hlt : n < 2 ^ 32 := lt_of_le_of_lt hn (Memory.readNat_lt ..)
  unfold Dev.seqRollback
  dsimp only
  rw [if_neg (by tauto), hh]
  dsimp only
  rw [if_neg (by omega)]
  refine ⟨_, ((OnlyTiles.refl d).kvChange _ fun d => ((OnlyTiles.refl d).freeEntries ..).modTile ..).kvInv .., rfl, ?_, fun p hp hl => ?_⟩
  · rw [Tile.clen_congr (Dev.kvInv_directory ..), Tile.clen_congr (Dev.kvChange_directory ..), Dev.tile_modTile_self, Tile.clen_setClen, Nat.mod_eq_of_lt hlt]
  · rw [Tile.pte_congr (Dev.kvInv_directory ..), Tile.pte_congr (Dev.kvChange_directory ..), Dev.tile_modTile_self, Tile.pte_setClen]
    obtain ⟨i, rfl⟩ := Nat.exists_eq_add_of_le hp
    exact Dev.pteV_free_ptes (by omega) _ (Dev.shadowAside_directory ..)

end

/-- Settles O44, command by command: a rollback changes tiles alone, the others one slot, one region or one tenant. -/
theorem sequenceAndTenantCommands : Obligations.SequenceAndTenantCommands := by
  intro s m r
  have named {slot : BitVec 16} (h : slot ≠ 0xFFFF) : slot.toNat ≠ 0xFFFF := fun he => h (BitVec.eq_of_toNat_eq he)
  refine ⟨fun slot hready hslot => ⟨fun hn hc => ?cancel, fun hn => ?held⟩, fun slot hready hslot hn => ?reset, fun slot n h hready hst hh hn => ?rollback,
    fun k => ⟨fun balance pcost tcost hready => ?set, fun amount hready => ?credit, fun hready => ?query⟩⟩
  case cancel =>
    refine completes_onHostR (f := fun d => d.seqCancel m r slot.toNat) hready rfl ?_
    rw [Dev.seqCancel_of_free (d := s.dev.begin_ m) (named hslot) hn hc]
    simp only [Dev.reply_slot]
    exact ⟨((awaits_of_ready hready.1).setSlot ..).replied .., Dev.slot_setSlot_self .., fun k hk => Dev.slot_setSlot_ne _ _ _ hk⟩
  case held =>
    refine completes_onHostR (f := fun d => d.seqCancel m r slot.toNat) hready rfl ?_
    rw [Dev.seqCancel_of_named (d := s.dev.begin_ m) (named hslot) hn, Dev.region_modRegion_self]
    rfl
  case reset =>
    refine completes_onHost (f := fun d => d.seqReset m slot.toNat) hready rfl ?_
    rw [Dev.seqReset_of_free (d := s.dev.begin_ m) (named hslot) hn]
    simp only [Dev.reply_slot]
    exact ⟨((awaits_of_ready hready).setSlot ..).replied .., Dev.slot_setSlot_self .., fun k hk => Dev.slot_setSlot_ne _ _ _ hk⟩
  case rollback =>
    obtain ⟨e, ho, he, hlen, hpages⟩ := Dev.seqRollback_of_ok (d := s.dev.begin_ m) hst hh hn m
    refine completes_onHostR (f := fun d => d.seqRollback m r slot.toNat n) hready rfl ?_
    simp only [he, Dev.reply_tile]
    exact ⟨replied_onlyTiles hready.1 ho, hlen, hpages⟩
  case set =>
    refine completes_onHost (f := fun d => (d.setTenant k.toNat ⟨balance, pcost, tcost, []⟩).reply m St.OK) hready rfl ?_
    simp only [Dev.reply_tenant]
    exact ⟨((awaits_of_ready hready).setTenant ..).replied .., Dev.tenant_setTenant_self .., fun j hj => Dev.tenant_setTenant_ne _ _ _ hj⟩
  case credit =>
    refine completes_onHost (f := fun d => d.tenantCredit m k.toNat amount.toNat) hready rfl ?_
    simp only [Dev.tenantCredit, Dev.reply_tenant]
    exact ⟨((awaits_of_ready hready).setTenant ..).replied .., Dev.tenant_setTenant_self .., fun j hj => Dev.tenant_setTenant_ne _ _ _ hj⟩
  case query =>
    refine completes_onHost (f := fun d => d.tenantQuery m k.toNat) hready rfl ?_
    simp only [Dev.tenantQuery, Dev.replyFull_tenant, List.append_assoc]
    have hlt : (s.dev.tenant k.toNat).balance.toNat < 256 ^ 8 := lt_trans (BitVec.isLt _) (by decide)
    have hdata := (awaits_of_ready hready).data_replied St.OK 0 [] (bs := leBytes 8 (s.dev.tenant k.toNat).balance.toNat)
      (cs := [(s.dev.tenant k.toNat).pcost, (s.dev.tenant k.toNat).tcost] ++ (List.replicate 6 0 ++ leBytes 8 (s.dev.reserved k.toNat))) (by simp)
    rw [length_leBytes, leNat_leBytes, Nat.mod_eq_of_lt hlt] at hdata
    exact ⟨(awaits_of_ready hready).replied .., hdata, fun _ => rfl⟩

end Sys2Proof.Machine

/-! ## The queue and what a step runs -/

namespace Sys2Proof.Machine

open Sys2Proof Sys2Proof.Claims

/-- Settles O1: what an empty queue lets pass, one cycle of routers and ports, is log 20. -/
theorem stepRunsFrontOfQueue : Obligations.StepRunsFrontOfQueue := ⟨fun _ _ _ => rfl, fun _ => rfl⟩

/-- Settles O2: a command's outcome is `onUnits` of a function of the device (`exec_actsOn`), which puts the queue back as it was. -/
theorem commandsLeaveTheQueueAlone : Obligations.CommandsLeaveTheQueueAlone := by
  intro c d d' q q' h
  obtain ⟨f, hf⟩ := exec_actsOn c
  rw [hf, onUnits] at h
  split at h
  case isFalse => cases h
  case isTrue hu =>
    cases h
    exact ⟨rfl, fun p => (hf _).trans (if_pos hu)⟩

end Sys2Proof.Machine

/-! ## The always-on domain -/

/-! ### A record that was written is in force (17 R397) -/

namespace Sys2Proof.Machine

open Sys2Proof Sys2Proof.Claims

/-- Below the last SEQ the next one is one more. -/
theorem nextSeq_toNat {q : W32} (h : q.toNat < 2 ^ 32 - 2) : (nextSeq q).toNat = q.toNat + 1 := by
  rw [nextSeq, if_neg (by omega), BitVec.toNat_add]
  exact Nat.mod_eq_of_lt (by simpa using (by omega : q.toNat + 1 < 2 ^ 32))

/-- A written record has a higher SEQ than the one it follows, so it is the one in force. -/
theorem StoreItem.best_put {i : StoreItem} {f : List Byte} (hf : f.length = 20) (h : ∀ b, i.best = some b → (profSeq b).toNat < 2 ^ 32 - 2) :
    (i.put f).best = some (profCommit (profBody i.next f)) := by
  have hs : profSound (profCommit (profBody i.next f)) = true := profSound_commit _ _ hf
  have hseq : ∀ b, i.best = some b → (profSeq b).toNat < (profSeq (profCommit (profBody i.next f))).toNat := by
    intro b hb
    rw [profSeq_commit _ _ hf, StoreItem.next, hb, nextSeq_toNat (h b hb)]
    exact Nat.lt_succ_self _
  rw [StoreItem.put, StoreItem.older]
  cases hn : i.newer with
  | true =>
    have hlt := hseq i.b (by simp [StoreItem.best, hn])
    have hold : ¬ profSeq (profCommit (profBody i.next f)) < profSeq i.b := by bv_omega
    simp [StoreItem.best, StoreItem.newer, hs, hold]
  | false =>
    cases ha : profSound i.a with
    | false => simp [StoreItem.best, StoreItem.newer, hs, ha]
    | true =>
      have hlt := hseq i.a (by simp [StoreItem.best, hn, ha])
      have hnew : profSeq i.a < profSeq (profCommit (profBody i.next f)) := by bv_omega
      simp [StoreItem.best, StoreItem.newer, hs, hnew]

/-- The override that was written is the one in force (17 R399). -/
theorem Dev.override_setOverride {d : Dev} {sel : Byte} (hl : d.aon.store.length = 5)
    (h : ∀ b, (storeItem d.aon.store 4).best = some b → (profSeq b).toNat < 2 ^ 32 - 2) : (d.setOverride sel).override = some sel := by
  have hitem : storeItem (d.setOverride sel).aon.store 4 = (storeItem d.aon.store 4).put (leBytes 9 0 ++ [sel] ++ leBytes 10 0) :=
    storeItem_set_self (by omega) _
  rw [Dev.override, hitem, StoreItem.best_put (by simp) h, Option.map_some, profSel_commit]

end Sys2Proof.Machine

/-! ### Host reads of a scratchpad word (17 R386 to R388) -/

namespace Sys2Proof.Machine

open Sys2Proof Sys2Proof.Claims

section

variable {d : Dev} {t a : Nat}

/-- The BAR2 offset of byte `a` of the scratchpad of tile `t`. -/
def spadOff (t a : Nat) : Nat := t * 0x2000000 + a

theorem spadOff_tile (ha : a < Config.spadBytes) : spadOff t a / 0x2000000 = t := by
  unfold spadOff Config.spadBytes at *
  omega

theorem spadOff_byte (ha : a < Config.spadBytes) : spadOff t a % 0x2000000 = a := by
  unfold spadOff Config.spadBytes at *
  omega

/-- The scratchpads lie below the staging memory. -/
theorem spadOff_not_staging (ht : t < Config.nTiles) (ha : a < Config.spadBytes) : inWin (spadOff t a) stagingBase 0x100000 = false := by
  unfold Config.spadBytes at ha
  unfold Config.nTiles at ht
  rw [inWin, Bool.and_eq_false_iff, decide_eq_false_iff_not, spadOff, stagingBase]
  exact .inl (by omega)

theorem barRead32_spad (ht : t < Config.nTiles) (ha : a < Config.spadBytes) (hm : d.muxing (halfOf t) = false) :
    d.barRead32 2 (spadOff t a) = d.spadRead32 t a := by
  simp [Dev.barRead32, Dev.winRead32, spadOff_not_staging ht ha, spadOff_tile ha, spadOff_byte ha, ht, ha, hm]

/-- A read of one aligned word of a scratchpad returns it. -/
theorem barDo_spadRead (ht : t < Config.nTiles) (h4 : a % 4 = 0) (ha : a < Config.spadBytes) (hm : d.muxing (halfOf t) = false) :
    d.barDo ⟨2, spadOff t a, false, false, [], 1, false, none⟩ = ((d.spadRead32 t a).1, [BitVec.ofNat 64 (d.spadRead32 t a).2.toNat]) := by
  have halign : spadOff t a % 4 = 0 := by unfold spadOff; omega
  simp [Dev.barDo, Dev.flip, barAligned, Dev.barReads, halign, barRead32_spad ht ha hm]

/-- A word that passes parity is returned, and nothing changes. -/
theorem spadRead32_of_good (h : (d.tile t).badWord a 4 = none) : d.spadRead32 t a = (d, memWord (d.tile t).spad a) := by
  simp [Dev.spadRead32, h]

theorem toNat_memWord (m : Memory) (a : Nat) : (memWord m a).toNat = m.readNat a 4 :=
  (BitVec.toNat_ofNat ..).trans (Nat.mod_eq_of_lt (Memory.readNat_lt m a 4))

end

end Sys2Proof.Machine

/-! ### SMBus and TAP (17 R399 to R402, 18 R414) -/

namespace Sys2Proof.Machine

open Sys2Proof Sys2Proof.Claims

section

variable {d : Dev}

theorem Dev.onAux_of_aux (h : d.aon.aux = true) (f : Dev → Dev) : d.onAux f = f d := if_pos h

theorem Dev.smbRead_of_aux (h : d.aon.aux = true) (n v : Nat) : d.smbRead n v = d.emit (.smb (leBytes n v)) := if_pos h

/-- A command of the SMBus target on AUX power. -/
theorem completes_onAux {c : Instr} {s : State} {P : Dev → Prop} (f : Dev → Dev) (h : s.dev.aon.aux = true) (hx : exec c s = onDev s fun d => d.onAux f)
    (hP : P (f s.dev)) : Completes c s P :=
  completes_onDev hx (by rwa [Dev.onAux_of_aux h])

/-- An instruction of the TAP while VIN is present. -/
theorem completes_irIf {c : Instr} {s : State} {P : Dev → Prop} (ok : Dev → Bool) (ir : TapIr) (h : s.dev.aon.vin = true)
    (hx : exec c s = onDev s fun d => d.irIf (ok d) ir) (hP : P (s.dev.loadIr (if ok s.dev then ir else .bypass))) : Completes c s P :=
  completes_onDev hx (by rwa [Dev.irIf, if_pos h])

theorem execDbgAccess_of_locked {s : State} (h : s.dev.aon.vin = true) (hs : bit s.dev.hive.scope 1 = false) (q : BarReq) :
    execDbgAccess q s = .next ⟨s.dev.loadIr .bypass, s.pending⟩ := by
  simp [execDbgAccess, onDev, h, hs]

/-- An unlocked read of one word shifts it out. -/
theorem execDbgAccess_of_read {s : State} {q : BarReq} {e : Dev} {v : W64} (h : s.dev.aon.vin = true) (hs : bit s.dev.hive.scope 1 = true)
    (hbar : q.bar ≠ 4) (hw : q.write = false) (hwide : q.wide = false) (hq : (s.dev.loadIr .dbgAccess).barDo q = (e, [v])) :
    execDbgAccess q s = .next ⟨e.emit (.tap (tapBits 32 v.toNat)), s.pending⟩ := by
  simp [execDbgAccess, onDev, h, hs, hbar, hw, hwide, hq]

@[simp] theorem Dev.clocks_reg (stop : Bool) (a : Nat) : (d.clocks stop).reg a = d.reg a := by
  unfold Dev.clocks
  exact Dev.foldl_keeps (G := fun d => d.reg a) (fun _ _ => Dev.modTile_reg ..) _ _

/-- THERM_N and the clocks are no registers. -/
theorem Dev.reg_thermRelease (a : Nat) : d.thermRelease.reg a = d.reg a := by
  unfold Dev.thermRelease
  split
  · rw [Dev.clocks_reg]
    rfl
  · rfl

theorem Dev.trip_thermRelease : d.thermRelease.aon.trip = d.aon.trip := by
  unfold Dev.thermRelease
  split
  · rw [Dev.clocks_aon]
  · rfl

end

/-- Settles O58, command by command: on AUX power every read is `Dev.smbRead`, and while VIN is present every instruction but three is
`Dev.irIf`. The order of the serial number's bytes, the seven bits of the alert answer and SCANBIST that leaves the tile's state are log 56. -/
theorem smbusAndTap : Obligations.SmbusAndTap := by
  intro s
  refine ⟨fun haux => ⟨?status, ?reads, fun sel hsel hl hseq => ?override, ?trip, fun hal => ?alert⟩,
    fun hvin => ⟨?boundary, ?plain, ?idcode, fun cells => ?sample, fun q => ⟨fun hs => ?locked, fun t a hs ht h4 ha hm hb hq => ?dbg⟩,
      fun b col pass hb hc => ⟨fun hs hl => ?bist, fun hs => ?bistLocked⟩⟩⟩
  case status =>
    refine completes_onAux (fun d => { d.smbRead 2 d.smbWord with aon := { (d.smbRead 2 d.smbWord).aon with alertN := false } }) haux rfl ?_
    simp only [Dev.smbRead_of_aux haux]
    exact ⟨rfl, rfl⟩
  case reads =>
    intro c hc
    simp only [List.mem_cons, List.not_mem_nil, or_false] at hc
    obtain rfl | rfl | rfl | rfl | rfl | rfl := hc
    all_goals exact completes_onAux _ haux rfl rfl
  case override =>
    refine completes_onAux (fun d => if sel.toNat ≤ 3 ∨ sel = 0xFF then d.setOverride sel else d) haux rfl ?_
    rw [if_pos hsel]
    exact ⟨rfl, Dev.override_setOverride hl hseq⟩
  case trip =>
    refine completes_onAux (fun d => (({ d with aon := { d.aon with trip := false } } : Dev).modReg Reg.PWR_ERR fun e => clrBit e 4).thermRelease) haux rfl ?_
    simp only [Dev.trip_thermRelease, Dev.reg_thermRelease, Dev.reg_modReg_self]
    exact ⟨rfl, bit_clrBit_self .., fun a ha => Dev.reg_modReg_ne _ _ _ ha⟩
  case alert =>
    refine completes_onDev (f := fun d => if d.aon.alertN then d.smbRead 1 (0x58 + d.aon.smbAddr.toNat) else d) rfl ?_
    rw [if_pos hal, Dev.smbRead_of_aux haux]
  case boundary =>
    intro c hc
    simp only [List.mem_cons, List.not_mem_nil, or_false] at hc
    obtain rfl | rfl | rfl := hc
    all_goals exact completes_irIf (fun d => !d.aon.resetN) _ hvin rfl (by cases s.dev.aon.resetN <;> rfl)
  case plain =>
    intro c hc
    simp only [List.mem_cons, List.not_mem_nil, or_false] at hc
    obtain rfl | rfl := hc
    all_goals exact completes_irIf (fun _ => true) _ hvin rfl rfl
  case idcode =>
    refine completes_onDev (f := fun d => if d.aon.vin then (d.loadIr .idcode).emit (.tap (tapBits 32 idcodeWord)) else d) rfl ?_
    rw [if_pos hvin]
    exact ⟨rfl, rfl⟩
  case sample =>
    refine completes_onDev (f := fun d => if d.aon.vin then
      ({ d with tap := { d.tap with ir := .sample, cells := cells } }.emit (.tap (tapBits cells.length d.free))).drawn else d) rfl ?_
    rw [if_pos hvin]
    exact ⟨rfl, rfl, rfl⟩
  case locked => exact ⟨_, execDbgAccess_of_locked hvin hs q, rfl⟩
  case dbg =>
    subst hq
    have hread := barDo_spadRead (d := s.dev.loadIr .dbgAccess) ht h4 ha hm
    rw [spadRead32_of_good (d := s.dev.loadIr .dbgAccess) hb, toNat_memWord] at hread
    refine ⟨_, execDbgAccess_of_read hvin hs (show (2 : Nat) ≠ 4 by decide) rfl rfl hread, rfl, ?_⟩
    rw [BitVec.toNat_ofNat, Nat.mod_eq_of_lt (lt_trans (Memory.readNat_lt _ _ _) (by decide))]
    rfl
  case bist => exact completes_onUnit (f := fun d => d.scanBist b col pass) hb (if_pos hc) (by rw [Dev.scanBist, if_pos hvin, if_pos ⟨hs, hl⟩])
  case bistLocked => exact completes_onUnit (f := fun d => d.scanBist b col pass) hb (if_pos hc) (by rw [Dev.scanBist, if_pos hvin, if_neg (by simp [hs])]; rfl)

end Sys2Proof.Machine

/-! ### A read of a word that fails parity, and the log

O57 says that a host read of a word that fails parity lets one thing leave the device, the word. The failure is an error record too (06 R140, 15 R340),
and an error record is copied to the log, whose ring in host memory is written at once when there is one (16 R382, R383). -/

namespace Sys2Proof.Machine

open Sys2Proof Sys2Proof.Claims

/-- The link is up, the West pair acts, a log ring of 64 records lies in host memory, and word 0 of the scratchpad of tile 0 fails parity. -/
def loggedReadState : State :=
  ⟨{ Dev.reset.setReg Reg.HOST_STATUS 1 with
      hive := { Hive.reset with run := true, logRing := some ⟨⟨0x1000, 0x2000, 6, 0⟩, 0, 0⟩ }
      aon := { AlwaysOn.reset with owner := .west }
      host := { HostIf.reset with perst := false }
      tiles := [(0, { Tile.reset with parInv := [0] })] }, []⟩

/-- The read of word 0 of tile 0. -/
def loggedRead : BarReq := ⟨2, 0, false, false, [], 1, false, none⟩

/-- The log record and the producer index of its ring leave the device before the word. -/
theorem out_length_of_exec_loggedRead {d : Dev} (h : exec (.barAccess loggedRead) loggedReadState = .next ⟨d, loggedReadState.pending⟩) :
    d.out.length = 3 := by
  have hr : (match exec (.barAccess loggedRead) loggedReadState with | .next s => some s.dev.out.length | _ => none) = some 3 := by decide +kernel
  simpa only [h, Option.some.injEq] using hr

/-- Refutes O57 at `loggedReadState`: every premise of the clause on a failing read holds, and more than the word leaves the device. -/
theorem not_hostAccessResetsAndBoot : ¬ Obligations.HostAccessResetsAndBoot := by
  intro h
  obtain ⟨hword, -⟩ := h loggedReadState
  obtain ⟨-, -, -, hbad⟩ := hword 0 0 0 (by decide) (by decide) (by decide) (by decide) (by decide)
  obtain ⟨d, hexec, hout, -⟩ := hbad 0 (by decide)
  have hlen := out_length_of_exec_loggedRead hexec
  rw [hout] at hlen
  exact absurd hlen (by decide)

end Sys2Proof.Machine

/-! ## A posted message behind a command that a host reset met

O56 says that the authority takes the first posted message when no mailbox is RUNNING. A command that a host reset met before it began runs without a
mailbox (17 R395), and a message that conflicts with it waits as well (16 R376). -/

namespace Sys2Proof.Machine

open Sys2Proof Sys2Proof.Claims

/-- The West pair acts, a message without an opcode stands POSTED in mailbox 0, and a HELLO that a host reset met has still to run. -/
def lateCommandState : State :=
  ⟨{ Dev.reset.setMbState 0 1 with
      hive := { Hive.reset with run := true, order := [0], late := [(1, ⟨0x0100, 0xFF, 0, []⟩)] }
      aon := { AlwaysOn.reset with owner := .west } }, []⟩

/-- The message stays in the order: the HELLO stands in its way. -/
theorem order_of_exec_mailboxTake {d : Dev} (h : exec .mailboxTake lateCommandState = .next ⟨d, lateCommandState.pending⟩) : d.hive.order = [0] := by
  have hr : (match exec .mailboxTake lateCommandState with | .next s => some s.dev.hive.order | _ => none) = some [0] := by decide +kernel
  simpa only [h, Option.some.injEq] using hr

/-- Refutes O56 at `lateCommandState`: every premise of the clause on a failing check holds, and the message is not taken. -/
theorem not_locksMailboxesAndNegotiation : ¬ Obligations.LocksMailboxesAndNegotiation := by
  intro h
  obtain ⟨-, hbox, -⟩ := h lateCommandState
  obtain ⟨-, -, htake⟩ := hbox 0 (by decide)
  obtain ⟨-, hbad⟩ := htake [] (by decide) (by decide +kernel) (by decide) (by decide +kernel)
  obtain ⟨d, hexec, -, horder⟩ := hbad (by decide +kernel)
  rw [order_of_exec_mailboxTake hexec] at horder
  exact absurd horder (by decide)

end Sys2Proof.Machine

/-! ## Slots of the mesh and gateways -/

namespace Sys2Proof.Machine

open Sys2Proof Sys2Proof.Claims

/-- Settles O29. The packet that comes up next is the head of `ingressNext`, whose order among those that wait is log 113; a gateway that is shut
(log 104) is outside the clause. -/
theorem slotsAndGateways : Obligations.SlotsAndGateways := by
  refine ⟨?_, ?_⟩
  · intro s t out inp slot q h ht x hs hon hout hnow hentry hfind hidle
    have hquiet : hs.any (fun g => g.2.2.go) = false := by simpa using hidle
    refine completes_of_tile (d' := { s.dev with flying := s.dev.flying.modify h.1 fun f => f.modCopy out.code fun c => { c with go := true } }) ht rfl ?_ rfl
    dsimp only [x, hs] at *
    rw [if_neg (by simp [hon, hout, hnow]), hentry]
    dsimp only
    rw [hfind]
    dsimp only
    rw [hquiet, if_neg Bool.false_ne_true]
  · intro s g k hg hnext r
    refine ⟨fun hr hshut => completes_onUnit hg rfl ?_, fun hr => completes_onUnit hg rfl ?_⟩
    all_goals
      rw [if_neg (by simp [hnext])]
      dsimp only
      split
    case _ hdrop => exact absurd hdrop (not_or.mpr ⟨hr, ne_true_of_eq_false hshut⟩)
    case _ => exact ⟨rfl, rfl, rfl⟩
    case _ => exact ⟨rfl, Dev.reg_modReg_self ..⟩
    case _ hopen => exact absurd (Or.inl hr) hopen

end Sys2Proof.Machine

/-! ## What records, the log and ring frames leave as it was -/

namespace Sys2Proof.Machine

open Sys2Proof Sys2Proof.Claims

/-- A device without what a report writes: error records, the log, interrupts, frames of the ring and which were seen, free values, and the
registers. -/
def Dev.unreported (d : Dev) : Dev :=
  { d with
    regs := []
    out := []
    ctr := 0
    host := { d.host with msix := [] }
    hive := { d.hive with logSeq := 0, logBuf := [], logRing := none }
    flt := { d.flt with recs := [], rseq := 0 }
    cic := { d.cic with fid := 0, copies := [], seen := [] } }

/-- Between two devices lie only reports; HIVE_CNT, which counts overwritten log records, is the one register they write. -/
structure Reports (d e : Dev) : Prop where
  rest : e.unreported = d.unreported
  reg : ∀ a, a ≠ Reg.HIVE_CNT → e.reg a = d.reg a

namespace Reports

variable {d e f : Dev}

theorem refl (d : Dev) : Reports d d := ⟨rfl, fun _ _ => rfl⟩

theorem trans (h : Reports d e) (g : Reports e f) : Reports d f := ⟨g.rest.trans h.rest, fun a ha => (g.reg a ha).trans (h.reg a ha)⟩

/-- A change that writes no register and is hidden by `unreported`. -/
theorem of_regs (hr : e.regs = d.regs) (h : e.unreported = d.unreported) : Reports d e := ⟨h, fun a _ => by rw [Dev.reg, Dev.reg, hr]⟩

/-- Anything that `unreported` keeps is as it was. -/
theorem keeps {α : Type} (h : Reports d e) (f : Dev → α) : f e.unreported = f d.unreported := congrArg f h.rest

theorem tile (h : Reports d e) (t : Nat) : e.tile t = d.tile t := h.keeps (Dev.tile · t)
theorem region (h : Reports d e) (r : Nat) : e.region r = d.region r := h.keeps (Dev.region · r)
theorem port (h : Reports d e) (p : Nat) : e.port p = d.port p := h.keeps (Dev.port · p)
theorem aon (h : Reports d e) : e.aon = d.aon := h.keeps Dev.aon
theorem tW (h : Reports d e) : e.cic.tW = d.cic.tW := h.keeps (·.cic.tW)
theorem quiet (h : Reports d e) : e.cic.quiet = d.cic.quiet := h.keeps (·.cic.quiet)
theorem fsw (h : Reports d e) : e.cic.fsw = d.cic.fsw := h.keeps (·.cic.fsw)
theorem elapsed (h : Reports d e) : e.elapsed = d.elapsed := h.keeps (·.cic.ns)

theorem now (h : Reports d e) : e.now = d.now := congrArg BitVec.toNat (h.reg _ (by decide))
theorem cicBit (h : Reports d e) (i : Nat) : e.cicBit i = d.cicBit i := congrArg (bit · i) (h.reg _ (by decide))

end Reports

namespace Dev

variable (d : Dev)

theorem reports_emit (o : Output) : Reports d (d.emit o) := .of_regs rfl rfl

theorem reports_irq (v : Nat) : Reports d (d.irq v) := by
  obtain ⟨h, o, he⟩ := d.irq_frame v
  exact he ▸ .of_regs rfl rfl

theorem reports_logMove (n : Nat) (d : Dev) : Reports d (logMove n d) := by
  induction n generalizing d with
  | zero => exact .refl d
  | succ n ih =>
    unfold logMove
    split
    · split
      · refine .trans ?_ (ih _)
        exact .of_regs rfl rfl
      · exact .refl d
    · exact .refl d

theorem reports_logFlush : Reports d d.logFlush := by
  have hmove : Reports d (if d.authority then d.logMove d.hive.logBuf.length else d) := by
    split
    · exact reports_logMove ..
    · exact .refl d
  unfold logFlush
  dsimp only
  generalize (if d.authority then d.logMove d.hive.logBuf.length else d) = e at hmove
  split
  · split
    · exact hmove.trans ((reports_emit ..).trans (reports_irq ..))
    · exact hmove
  · exact hmove

theorem reports_log (kind level : Nat) (body : List Byte) : Reports d (d.log kind level body) := by
  have hcount : Reports d (if d.hive.logBuf.length ≥ 4096 then d.drawn.count Reg.HIVE_CNT 16 16 1 else d.drawn) := by
    split
    · exact ⟨rfl, fun a ha => reg_modReg_ne _ _ _ ha⟩
    · exact .of_regs rfl rfl
  refine hcount.trans (.trans ?_ (reports_logFlush _))
  simp only [decide_eq_true_eq]
  exact .of_regs rfl rfl

theorem reports_record (r : ErrRec) : Reports d (d.record r) := by
  unfold record
  refine .trans ?_ (reports_log _ _ _ _)
  exact .of_regs rfl (by simp only [unreported])

theorem reports_recordTile (t cls unit : Nat) (status : W16) (action detail : Nat) : Reports d (d.recordTile t cls unit status action detail) :=
  reports_record ..

theorem irq_flt (v : Nat) : (d.irq v).flt = d.flt := by
  obtain ⟨_, _, he⟩ := d.irq_frame v
  rw [he]

theorem logMove_flt (n : Nat) (d : Dev) : (logMove n d).flt = d.flt := by
  induction n generalizing d with
  | zero => rfl
  | succ n ih =>
    unfold logMove
    split
    · split
      · exact ih _
      · rfl
    · rfl

theorem log_flt (kind level : Nat) (body : List Byte) : (d.log kind level body).flt = d.flt := by
  have hmove : ∀ d : Dev, (if d.authority then d.logMove d.hive.logBuf.length else d).flt = d.flt := fun d => by
    split
    · exact logMove_flt ..
    · rfl
  have hflush : ∀ d : Dev, d.logFlush.flt = d.flt := fun d => by
    have h := hmove d
    unfold logFlush
    dsimp only
    generalize (if d.authority then d.logMove d.hive.logBuf.length else d) = e at h
    split
    · split
      · exact (irq_flt ..).trans h
      · exact h
    · exact h
  unfold log
  dsimp only
  rw [hflush]
  dsimp only
  split <;> rfl

/-- A record takes the next RSEQ. -/
theorem record_rseq (r : ErrRec) : (d.record r).flt.rseq = d.flt.rseq + 1 := by rw [record, log_flt]

/-- The newest record is kept. -/
theorem mem_recs_record (r : ErrRec) : { r with rseq := d.flt.rseq, time := BitVec.ofNat 64 d.now } ∈ (d.record r).flt.recs := by
  rw [record, log_flt]
  dsimp only
  rw [List.drop_append_of_le_length (by omega)]
  simp

end Dev

end Sys2Proof.Machine

namespace Sys2Proof.Machine

open Sys2Proof Sys2Proof.Claims

namespace Dev

variable (d : Dev)

theorem reports_transmit (fr : RingFrame) : Reports d (d.transmit fr) := by
  unfold transmit
  split
  · exact reports_emit ..
  · exact .refl d

theorem reports_sendFrame (type : Byte) (payload : List Byte) : Reports d (d.sendFrame type payload) := by
  have hsent : Reports d (if d.ringQuiet then d else d.transmit (ringFrame type d.id d.cic.fid payload)) := by
    split
    · exact .refl d
    · exact reports_transmit ..
  exact hsent.trans (.of_regs rfl rfl)

theorem reports_ringNotice (subject : BitVec 12) (recid : W32) : Reports d (d.ringNotice subject recid) := reports_sendFrame ..

theorem reports_forward (fr : RingFrame) (payload : List Byte) : Reports d (d.forward fr payload) := by
  unfold forward
  dsimp only
  split
  · split
    · exact .of_regs rfl rfl
    · exact reports_transmit ..
  · exact .refl d

end Dev

/-! ### Registers -/

/-- A command that changes one register. -/
theorem onlyReg_modReg (d : Dev) (a : Nat) (f : W64 → W64) : OnlyReg a d (d.modReg a f) := ⟨rfl, fun _ hb => Dev.reg_modReg_ne _ _ _ hb⟩

/-- A counter field counts one event. -/
theorem counts_count (d : Dev) (a : Nat) {lo len : Nat} (h : lo + len ≤ 64) : Counts a lo len d (d.count a lo len 1) := by
  rw [Counts, Dev.count, Dev.reg_modReg_self, fld_addCnt_self _ _ h]

end Sys2Proof.Machine

/-! ## Cicada time and frequency (13) -/

namespace Sys2Proof.Machine

open Sys2Proof Sys2Proof.Claims

/-! ### The counter and its views -/

/-- What a half-bench reads as Cicada time. -/
def Dev.viewOf (d : Dev) (n : Nat) : Nat := SMap.get (fun _ => 0) d.cic.views n

/-- The counter and the times of the ring are as they were, and no view decreases: what a move of the views does. -/
def ViewsMove (d e : Dev) : Prop := e.regs = d.regs ∧ e.cic.frac = d.cic.frac ∧ e.aon = d.aon ∧ ∀ n, d.viewOf n ≤ e.viewOf n

theorem ViewsMove.refl (d : Dev) : ViewsMove d d := ⟨rfl, rfl, rfl, fun _ => le_rfl⟩

theorem ViewsMove.trans {d e f : Dev} (h : ViewsMove d e) (g : ViewsMove e f) : ViewsMove d f := by
  obtain ⟨hregs, hfrac, haon, hview⟩ := h
  obtain ⟨gregs, gfrac, gaon, gview⟩ := g
  exact ⟨gregs.trans hregs, gfrac.trans hfrac, gaon.trans haon, fun n => (hview n).trans (gview n)⟩

theorem viewsMove_foldl {α : Type} {f : Dev → α → Dev} (hf : ∀ d x, ViewsMove d (f d x)) (l : List α) (d : Dev) : ViewsMove d (l.foldl f d) := by
  induction l generalizing d with
  | nil => exact .refl d
  | cons x l ih => exact (hf d x).trans (ih _)

theorem Dev.viewsMove_viewNear (d : Dev) (n acc : Nat) : ViewsMove d (d.viewNear n acc) := by
  unfold Dev.viewNear
  dsimp only
  split
  · exact .refl d
  · refine ⟨rfl, rfl, rfl, fun k => ?_⟩
    simp only [Dev.viewOf, SMap.get_set]
    split
    · next hk => exact hk ▸ le_max_left ..
    · exact le_rfl

theorem Dev.viewsMove_viewsRun (d : Dev) : ViewsMove d d.viewsRun := by
  unfold Dev.viewsRun
  extract_lets acc
  have hfold := viewsMove_foldl (fun d n => d.viewsMove_viewNear n acc) (List.range Config.nHalfBenches) d
  generalize (List.range Config.nHalfBenches).foldl _ d = e at hfold ⊢
  exact hfold

theorem Dev.viewsMove_joinMissed (d : Dev) : ViewsMove d d.joinMissed := by
  unfold Dev.joinMissed
  split
  · split
    · exact ⟨rfl, rfl, rfl, fun _ => le_rfl⟩
    · exact .refl d
  · exact .refl d

/-- The rails move registers of the power unit alone. -/
theorem Dev.reg_railsRun (d : Dev) {a : Nat} (ha : a < Reg.PWR_VCORE) : d.railsRun.reg a = d.reg a := by
  unfold Dev.railsRun
  extract_lets goal
  split
  · rfl
  · exact Dev.foldl_keeps (G := (Dev.reg · a)) (fun d e => Dev.reg_modReg_ne _ _ _ (by omega)) _ d

theorem Dev.cic_railsRun (d : Dev) : d.railsRun.cic = d.cic := by
  unfold Dev.railsRun
  extract_lets goal
  split
  · rfl
  · refine Dev.foldl_keeps (G := Dev.cic) ?_ _ d
    exact fun _ _ => rfl

/-- A rail run leaves the counter, its views and the always-on domain. -/
theorem Dev.viewsMove_railsRun (d : Dev) : d.railsRun.now = d.now ∧ d.railsRun.cic = d.cic ∧ d.railsRun.aon = d.aon :=
  ⟨congrArg BitVec.toNat (d.reg_railsRun (by decide)), d.cic_railsRun, d.railsRun_aon⟩

/-- A counter that no slew moves goes on by one ns. -/
theorem Dev.setCount_next {d : Dev} (hfrac : d.cic.frac < 64) :
    (d.setCount (d.count64 + 64)).now = (d.now + 1) % 2 ^ 64 ∧ (d.setCount (d.count64 + 64)).cic.frac = d.cic.frac := by
  have hdiv : (d.count64 + 64) / 64 = d.now + 1 := by rw [Dev.count64]; omega
  have hmod : (d.count64 + 64) % 64 = d.cic.frac := by rw [Dev.count64]; omega
  rw [Dev.setCount, hdiv, hmod]
  refine ⟨?_, rfl⟩
  rw [Dev.now, Dev.reg_setReg_self, BitVec.toNat_ofNat]

/-! ### Views that reload -/

theorem Dev.regs_viewLoad (d : Dev) (n : Nat) : (d.viewLoad n).regs = d.regs := by
  unfold Dev.viewLoad
  dsimp only
  split <;> rfl

theorem Dev.viewOf_viewLoad (d : Dev) (n k : Nat) : (d.viewLoad n).viewOf k = if k = n then max (d.viewOf k) d.now else d.viewOf k := by
  unfold Dev.viewLoad
  dsimp only
  split
  · next hahead =>
    change d.viewOf k = _
    split
    · next hk => exact (max_eq_left (hk ▸ hahead.le)).symm
    · rfl
  · next hbehind =>
    simp only [Dev.viewOf, SMap.get_set]
    split
    · next hk => exact (max_eq_right (hk ▸ not_lt.mp hbehind)).symm
    · rfl

/-- A view that is ahead holds, and one that held goes on to hold. -/
theorem Dev.mem_viewHold_viewLoad (d : Dev) (n k : Nat) (h : k ∈ d.cic.viewHold ∨ k = n ∧ d.now < d.viewOf k) : k ∈ (d.viewLoad n).cic.viewHold := by
  unfold Dev.viewLoad
  dsimp only
  split
  · simp only [addNew, List.mem_append, List.mem_filter, List.mem_singleton, Bool.not_eq_true', List.contains_eq_mem, decide_eq_false_iff_not]
    by_cases hk : k ∈ d.cic.viewHold
    · exact .inl hk
    · obtain ⟨rfl, -⟩ := h.resolve_left hk
      exact .inr ⟨rfl, hk⟩
  · next hbehind =>
    rcases h with hk | ⟨rfl, hahead⟩
    · exact hk
    · exact absurd hahead hbehind

/-- The reload of a list of views: each takes the counter unless it is ahead, and one that is ahead holds. -/
theorem Dev.viewLoads (l : List Nat) (d : Dev) {k : Nat} : (l.foldl Dev.viewLoad d).viewOf k = (if k ∈ l then max (d.viewOf k) d.now else d.viewOf k) ∧
    (k ∈ d.cic.viewHold ∨ k ∈ l ∧ d.now < d.viewOf k → k ∈ (l.foldl Dev.viewLoad d).cic.viewHold) := by
  induction l generalizing d with
  | nil => simp
  | cons n l ih =>
    obtain ⟨hview, hhold⟩ := ih (d.viewLoad n)
    have hnow : (d.viewLoad n).now = d.now := by rw [Dev.now, Dev.reg, d.regs_viewLoad n, ← Dev.reg, ← Dev.now]
    rw [hnow, d.viewOf_viewLoad] at hview hhold
    rw [List.foldl_cons]
    constructor
    · rw [hview]
      by_cases hk : k = n <;> by_cases hl : k ∈ l <;> simp [hk, hl]
    · rintro (hk | ⟨hmem, hahead⟩)
      · exact hhold (.inl (d.mem_viewHold_viewLoad n k (.inl hk)))
      · rcases List.mem_cons.mp hmem with hn | hl
        · exact hhold (.inl (d.mem_viewHold_viewLoad n k (.inr ⟨hn, hahead⟩)))
        · refine hhold (.inr ⟨hl, ?_⟩)
          split
          · exact lt_max_of_lt_left hahead
          · exact hahead

end Sys2Proof.Machine

namespace Sys2Proof.Machine

open Sys2Proof Sys2Proof.Claims

/-! ### What each command does -/

/-- The units that follow the counter leave it, and let no view decrease. -/
theorem Dev.runs_spec (d : Dev) : let e := d.viewsRun.joinMissed.railsRun
    e.now = d.now ∧ e.cic.frac = d.cic.frac ∧ e.aon = d.aon ∧ ∀ n, d.viewOf n ≤ e.viewOf n := by
  obtain ⟨hregs, hfrac, haon, hview⟩ := d.viewsMove_viewsRun.trans d.viewsRun.viewsMove_joinMissed
  obtain ⟨rnow, rcic, raon⟩ := d.viewsRun.joinMissed.viewsMove_railsRun
  refine ⟨?_, by rw [rcic, hfrac], by rw [raon, haon], fun n => ?_⟩
  · rw [rnow, Dev.now, Dev.reg, hregs, ← Dev.reg, ← Dev.now]
  · exact (hview n).trans (by rw [Dev.viewOf, Dev.viewOf, rcic])

/-- A tick without a slew. -/
theorem Dev.tick_spec {d : Dev} (hslew : d.cic.slew = 0) (hfrac : d.cic.frac < 64) :
    d.tick.now = (d.now + 1) % 2 ^ 64 ∧ d.tick.cic.frac = d.cic.frac ∧ d.tick.aon.since = d.aon.since + 1 ∧ ∀ n, d.viewOf n ≤ d.tick.viewOf n := by
  unfold Dev.tick
  extract_lets may c u cic e old e1 aon hive e2
  have hu : u = e.count64 + 64 := by
    simp only [u, c, may, hslew, ne_eq, not_true_eq_false, decide_false, Bool.false_and, Bool.false_eq_true, if_false]
    change _ = d.count64 + 64
    omega
  obtain ⟨cnow, cfrac⟩ := Dev.setCount_next (d := e) hfrac
  rw [← hu] at cnow cfrac
  have hruns : e1 = (e.setCount u).viewsRun.joinMissed.railsRun := rfl
  obtain ⟨rnow, rfrac, raon, rview⟩ := (e.setCount u).runs_spec
  rw [← hruns] at rnow rfrac raon rview
  clear_value u e1
  have htiles {α : Type} (G : Dev → α) (hG : ∀ (x : Dev) t f, G (x.modTile t f) = G x) :
      G (e2.tiles.foldl (fun d y => d.modTile y.1 fun x => x.wdogTick (d.view y.1 - old y.1)) e2) = G e2 :=
    Dev.foldl_keeps (fun _ _ => hG ..) _ e2
  refine ⟨?_, ?_, ?_, fun n => ?_⟩
  · exact (htiles Dev.now fun _ _ _ => rfl).trans (rnow.trans cnow)
  · exact (htiles (·.cic.frac) fun _ _ _ => rfl).trans (rfrac.trans cfrac)
  · exact (htiles (·.aon.since) fun _ _ _ => rfl).trans (congrArg (·.since + 1) raon)
  · exact (rview n).trans (htiles (·.viewOf n) fun _ _ _ => rfl).ge

theorem Dev.cicSet_spec {d : Dev} (v : W64) (hjoined : d.cicBit 0 = false) (hloaded : d.loaded = []) :
    d.cicSet v = ({ d with cic := { d.cic with frac := 0 } } : Dev).setReg Reg.CIC_TIME v := by
  have hv : BitVec.ofNat 64 (64 * v.toNat / 64) = v := by rw [Nat.mul_div_cancel_left _ (by decide), BitVec.ofNat_toNat, BitVec.setWidth_eq]
  rw [Dev.cicSet, if_neg (by simp [hjoined, hloaded]), Dev.setCount, hv, Nat.mul_mod_right]

/-- An armed switch. -/
theorem Dev.armFsw_spec (d : Dev) (t code : Nat) (b : FswBy) : (d.armFsw t code b).cic.fsw = some (t, code) ∧
    (d.armFsw t code b).reg Reg.CIC_FSW = setBit (d.reg Reg.CIC_FSW) 7 ∧
    ∀ a, a ≠ Reg.CIC_FSW → a ≠ Reg.PWR_STATUS → (d.armFsw t code b).reg a = d.reg a := by
  refine ⟨rfl, ?_, fun a hf hp => ?_⟩
  · rw [Dev.armFsw, Dev.reg_modReg_ne _ _ _ (by decide), Dev.reg_modReg_self]
    rfl
  · rw [Dev.armFsw, Dev.reg_modReg_ne _ _ _ hp, Dev.reg_modReg_ne _ _ _ hf]
    rfl

theorem Dev.cicFsw_spec {d : Dev} {code : BitVec 6} {scope : Bool} (hcode : code.toNat ≤ 28)
    (hlead : d.now + (if scope then 50000 else 20000) ≤ (d.reg Reg.CIC_FSW_TIME).toNat) :
    (d.cicFsw code scope).cic.fsw = some ((d.reg Reg.CIC_FSW_TIME).toNat, code.toNat) ∧ bit ((d.cicFsw code scope).reg Reg.CIC_FSW) 7 = true ∧
      fld ((d.cicFsw code scope).reg Reg.CIC_FSW) 0 6 = code.toNat ∧ (d.cicFsw code scope).freqCode = d.freqCode := by
  let e := (d.modReg Reg.CIC_FSW fun v => putBit (setFld v 0 6 code.toNat) 6 scope).armFsw (d.reg Reg.CIC_FSW_TIME).toNat code.toNat .host
  obtain ⟨hfsw, hreg, hother⟩ := Dev.armFsw_spec (d.modReg Reg.CIC_FSW fun v => putBit (setFld v 0 6 code.toNat) 6 scope) (d.reg Reg.CIC_FSW_TIME).toNat code.toNat .host
  have hsent : Reports e (d.cicFsw code scope) := by
    rw [Dev.cicFsw, if_neg (by omega), if_neg (by omega)]
    split
    · exact Dev.reports_sendFrame ..
    · exact .refl e
  refine ⟨hsent.fsw.trans hfsw, ?_, ?_, ?_⟩
  · rw [hsent.reg _ (by decide), hreg, bit_setBit_self _ _ (by decide)]
  · rw [hsent.reg _ (by decide), hreg, fld_setBit_other _ _ _ _ (by decide), Dev.reg_modReg_self]
    have hput : fld (putBit (setFld (d.reg Reg.CIC_FSW) 0 6 code.toNat) 6 scope) 0 6 = fld (setFld (d.reg Reg.CIC_FSW) 0 6 code.toNat) 0 6 := by
      unfold putBit
      split
      · exact fld_setBit_other _ _ _ _ (by decide)
      · exact fld_clrBit_other _ _ _ _ (by decide)
    rw [hput, fld_setFld_self _ _ _ _ (by decide)]
    exact Nat.mod_eq_of_lt code.isLt
  · rw [Dev.freqCode, hsent.reg _ (by decide), hother _ (by decide) (by decide), Dev.reg_modReg_ne _ _ _ (by decide), Dev.freqCode]

theorem Dev.freqSwitch_spec {d : Dev} {t code : Nat} (hfsw : d.cic.fsw = some (t, code)) (ht : t ≤ d.now) (hcode : code < 64) :
    d.freqSwitch.freqCode = code ∧ d.freqSwitch.cic.fsw = none ∧ bit (d.freqSwitch.reg Reg.CIC_FSW) 7 = false := by
  unfold Dev.freqSwitch
  rw [hfsw]
  dsimp only
  rw [if_neg (by omega)]
  refine ⟨?_, rfl, ?_⟩
  · rw [Dev.freqCode, Dev.reg_modReg_ne _ _ _ (by decide), Dev.reg_modReg_ne _ _ _ (by decide), Dev.reg_modReg_self, fld_setFld_self _ _ _ _ (by decide)]
    exact Nat.mod_eq_of_lt hcode
  · rw [Dev.reg_modReg_ne _ _ _ (by decide), Dev.reg_modReg_self, bit_clrBit_self]

/-- Four slacks lower the four least slacks. -/
theorem fld_lowered (v : W64) (slack : W32) (l : List Nat) (hl : l.Nodup) (hlt : ∀ m ∈ l, m < 4) {m : Nat} (hm : m < 4) :
    fld (l.foldl (fun v m => setFld v (8 * m) 8 (min (fld v (8 * m) 8) (fld slack (8 * m) 8))) v) (8 * m) 8 =
      if m ∈ l then min (fld v (8 * m) 8) (fld slack (8 * m) 8) else fld v (8 * m) 8 := by
  induction l generalizing v with
  | nil => rfl
  | cons n l ih =>
    obtain ⟨hn, hl⟩ := List.nodup_cons.mp hl
    obtain ⟨hn4, hlt⟩ := List.forall_mem_cons.mp hlt
    rw [List.foldl_cons, ih _ hl hlt]
    by_cases hmn : m = n
    · subst hmn
      rw [if_neg hn, if_pos List.mem_cons_self, fld_setFld_self _ _ _ _ (by omega)]
      have := fld_lt v (8 * m) 8
      exact Nat.mod_eq_of_lt (by omega)
    · rw [fld_setFld_other _ _ _ _ _ _ (by omega) (by omega)]
      simp only [List.mem_cons, hmn, false_or]

/-- Settles O48: the moves of the views are free values (log 15), and what a tick does to the rails, the watchdogs and the Hive stands beside it. -/
theorem cicadaTimeAndFrequency : Obligations.CicadaTimeAndFrequency := by
  intro s
  refine ⟨?_, ?_, ?_, ?_, ?_, ?_, fun n hn => ⟨?_, fun slack => ?_⟩⟩
  · exact fun hslew hfrac => completes_onDev (f := Dev.tick) rfl (Dev.tick_spec hslew hfrac)
  · intro hmode hnow
    refine completes_onDev rfl fun n hn => ?_
    obtain ⟨hview, hhold⟩ := s.dev.viewLoads (List.range Config.nHalfBenches) (k := n)
    rw [if_pos ⟨hmode, hnow⟩]
    refine ⟨hview.trans (if_pos (List.mem_range.mpr hn)), fun hahead => ?_⟩
    exact List.contains_iff_mem.mpr (hhold (.inr ⟨List.mem_range.mpr hn, hahead⟩))
  · intro v hjoined hloaded
    refine completes_onDev (f := fun d => d.cicSet v) rfl ?_
    rw [Dev.cicSet_spec v hjoined hloaded]
    exact ⟨Dev.reg_setReg_self .., rfl, fun a ha => Dev.reg_setReg_ne _ _ _ ha⟩
  · exact fun code scope hcode hlead => completes_onDev (f := fun d => d.cicFsw code scope) rfl (Dev.cicFsw_spec hcode hlead)
  · intro code scope hbad
    refine completes_onDev (f := fun d => d.cicFsw code scope) rfl ?_
    have hrefused : s.dev.cicFsw code scope = s.dev.cicErr (if 28 < code.toNat then 4 else 3) := by
      unfold Dev.cicFsw
      dsimp only
      by_cases hcode : 28 < code.toNat
      · rw [if_pos hcode, if_pos hcode]
      · rw [if_neg hcode, if_neg hcode, if_pos (hbad.resolve_left hcode)]
    rw [hrefused]
    refine ⟨rfl, ?_, fun a ha => Dev.reg_modReg_ne _ _ _ ha⟩
    rw [Dev.cicErr, Dev.reg_modReg_self]
    exact bit_setBit_self _ _ (by split <;> decide)
  · exact fun t code hfsw ht hcode => completes_onDev (f := Dev.freqSwitch) rfl (Dev.freqSwitch_spec hfsw ht hcode)
  · intro e h1 h3
    refine completes_onUnit hn rfl ?_
    rw [if_neg (by omega)]
    exact ⟨onlyReg_modReg .., counts_count _ _ (by omega)⟩
  · refine completes_onUnit hn rfl ⟨onlyReg_modReg .., fun m hm => ?_⟩
    rw [Dev.reg_modReg_self, fld_lowered _ _ _ List.nodup_range (fun k hk => List.mem_range.mp hk) hm, if_pos (List.mem_range.mpr hm)]

end Sys2Proof.Machine

/-! ## Ring frames (13 R313 to R322) -/

namespace Sys2Proof.Machine

open Sys2Proof Sys2Proof.Claims

theorem Dev.forward_seen (d : Dev) (fr : RingFrame) (payload : List Byte) : (d.forward fr payload).cic.seen = d.cic.seen := by
  unfold Dev.forward Dev.transmit
  dsimp only
  (repeat' split) <;> rfl

/-- The copies seen within 1 ms. -/
def Dev.freshSeen (d : Dev) : List (Nat × Nat × Nat) := d.cic.seen.filter fun e => decide (d.elapsed < e.2.2 + 1000000)

/-- The device has seen a copy of a frame now. -/
def Dev.remember (d : Dev) (fr : RingFrame) : Dev :=
  { d with cic := { d.cic with seen := d.freshSeen ++ [(fr.src.toNat, fr.fid.toNat, d.elapsed)] } }

theorem Dev.reports_remember (d : Dev) (fr : RingFrame) : Reports d (d.remember fr) := .of_regs rfl rfl

/-- No handover to a device that the master outranks (13 R318). -/
theorem Dev.handOver_of_not_outranks {d : Dev} {dev : BitVec 12} (h : d.cicBit 2 = false ∨ d.outranks dev d.id = false) : d.handOver dev = d := by
  rw [Dev.handOver, if_neg]
  rcases h with h | h <;> simp [h]

theorem Reports.id {d e : Dev} (h : Reports d e) : e.id = d.id := by simp only [Dev.id, h.reg Reg.PORT_DEVID (by decide)]

theorem Reports.frac {d e : Dev} (h : Reports d e) : e.cic.frac = d.cic.frac := h.keeps (·.cic.frac)
theorem Reports.good {d e : Dev} (h : Reports d e) : e.cic.good = d.cic.good := h.keeps (·.cic.good)

theorem Reports.outranks {d e : Dev} (h : Reports d e) (a b : BitVec 12) : e.outranks a b = d.outranks a b := by
  have hprefs : e.cic.prefs = d.cic.prefs := h.keeps (·.cic.prefs)
  have hpref (x : BitVec 12) : e.masterPref x = d.masterPref x := by simp only [Dev.masterPref, h.id, h.reg Reg.CIC_CTL (by decide), hprefs]
  unfold Dev.outranks
  rw [hpref, hpref]

/-- The first good copy of a frame does what its row says, to a device that has forwarded it and remembers it. -/
theorem Dev.ringIn_of_firstCopy {d : Dev} {ty : Byte} {fr : RingFrame} (h : FirstCopy ty fr d) (payload : List Byte) (act : Dev → Dev) :
    d.ringIn ty fr payload act = act ((d.forward fr payload).remember fr) := by
  obtain ⟨htype, hcrc, hsrc, hmaster, hseen⟩ := h
  have hforward := d.reports_forward fr payload
  have hreports := hforward.trans (Dev.reports_remember _ fr)
  have hnew : (d.forward fr payload).freshSeen.any (fun e => decide (e.1 = fr.src.toNat) && decide (e.2.1 = fr.fid.toNat)) = false := by
    simp only [Dev.freshSeen, d.forward_seen, hforward.elapsed, List.any_eq_false, List.mem_filter, decide_eq_true_eq, Bool.and_eq_true, not_and]
    exact fun e he hsrc hfid => absurd he.2 (not_lt.mpr (hseen e he.1 hsrc hfid))
  have hkept : ((d.forward fr payload).remember fr).handOver fr.src = (d.forward fr payload).remember fr := by
    apply Dev.handOver_of_not_outranks
    rwa [hreports.cicBit, hreports.id, hreports.outranks]
  unfold Dev.ringIn
  rw [if_neg (by simp [htype]), if_pos htype]
  dsimp only
  rw [if_neg (by simp [hcrc]), if_neg (by simp [htype, hforward.id, hsrc])]
  refine (if_neg (ne_true_of_eq_false hnew)).trans (congrArg act ?_)
  split
  · rfl
  · exact hkept

/-- What the first good copy of a frame does, in terms of a device that differs from the one it reached by reports alone. -/
theorem completes_ringIn {c : Instr} {s : State} {ty : Byte} {fr : RingFrame} {payload : Dev → List Byte} {act : Dev → Dev} {P : Dev → Prop}
    (h : FirstCopy ty fr s.dev) (hx : exec c s = onDev s fun d => d.ringIn ty fr (payload d) act) (hP : ∀ e, Reports s.dev e → P (act e)) : Completes c s P := by
  refine completes_onDev hx ?_
  rw [Dev.ringIn_of_firstCopy h]
  exact hP _ ((s.dev.reports_forward ..).trans (Dev.reports_remember ..))

/-! ### Marks -/

/-- A correction writes neither the offset nor the master, and slews a locked counter. -/
theorem Dev.correct_of_locked {d : Dev} (h : d.cicBit 1 = true) (off : Int) : d.correct off = { d with cic := { d.cic with slew := off } } := by
  rw [Dev.correct, if_neg (by simp [h])]

theorem Dev.cicBit_setCicBit_ne (d : Dev) {i j : Nat} (b : Bool) (h : i ≠ j) : (d.setCicBit i b).cicBit j = d.cicBit j := by
  rw [Dev.cicBit, Dev.setCicBit, Dev.reg_modReg_self, bit_putBit_ne _ _ h, Dev.cicBit]

theorem Dev.cicBit_setCicBit_self (d : Dev) {i : Nat} (b : Bool) (h : i < 64) : (d.setCicBit i b).cicBit i = b := by
  rw [Dev.cicBit, Dev.setCicBit, Dev.reg_modReg_self, bit_putBit_self _ _ _ h]

theorem Dev.masterId_setCicBit (d : Dev) {i : Nat} (b : Bool) (h : i < 16) : (d.setCicBit i b).masterId = d.masterId := by
  rw [Dev.masterId, Dev.setCicBit, Dev.reg_modReg_self, Dev.masterId]
  congr 1
  unfold putBit
  split
  · exact fld_setBit_other _ _ _ _ (by omega)
  · exact fld_clrBit_other _ _ _ _ (by omega)

theorem Dev.masterId_count_ringcnt (d : Dev) (lo len n : Nat) : (d.count Reg.CIC_RINGCNT lo len n).masterId = d.masterId := by
  rw [Dev.masterId, Dev.count, Dev.reg_modReg_ne _ _ _ (by decide), Dev.masterId]

theorem Dev.cicBit_count_ringcnt (d : Dev) (lo len n i : Nat) : (d.count Reg.CIC_RINGCNT lo len n).cicBit i = d.cicBit i := by
  rw [Dev.cicBit, Dev.count, Dev.reg_modReg_ne _ _ _ (by decide), Dev.cicBit]

/-- A mark that is taken is applied: HOLDOVER is over, and nothing else of CIC_STATUS changes. -/
theorem Dev.markTaken_spec (d : Dev) : d.markTaken.masterId = d.masterId ∧ (∀ i, i ≠ 3 → d.markTaken.cicBit i = d.cicBit i) ∧
    d.markTaken.cic.good = d.cic.good ∧ d.markTaken.reg Reg.CIC_OFFSET = d.reg Reg.CIC_OFFSET := by
  unfold Dev.markTaken
  refine ⟨?_, fun i hi => ?_, rfl, ?_⟩
  · rw [Dev.masterId_count_ringcnt]
    exact d.masterId_setCicBit false (by decide)
  · rw [Dev.cicBit_count_ringcnt]
    exact d.cicBit_setCicBit_ne false (Ne.symm hi)
  · rw [Dev.count, Dev.reg_modReg_ne _ _ _ (by decide)]
    change (d.setCicBit 3 false).reg Reg.CIC_OFFSET = _
    rw [Dev.setCicBit, Dev.reg_modReg_ne _ _ _ (by decide)]

/-- The registers that a good mark writes before it is judged: its offset and its SRC as MASTERID. -/
def Dev.markNoted (d : Dev) (src : BitVec 12) (off : Int) : Dev :=
  (d.setReg Reg.CIC_OFFSET (BitVec.ofNat 64 (BitVec.ofInt 32 off).toNat)).modReg Reg.CIC_STATUS fun v => setFld v 16 12 src.toNat

theorem Dev.markNoted_spec (d : Dev) (src : BitVec 12) (off : Int) : (d.markNoted src off).masterId = src ∧
    (∀ i, i < 16 → (d.markNoted src off).cicBit i = d.cicBit i) ∧
    (d.markNoted src off).reg Reg.CIC_OFFSET = BitVec.ofNat 64 (BitVec.ofInt 32 off).toNat := by
  unfold Dev.markNoted
  refine ⟨?_, fun i hi => ?_, ?_⟩
  · rw [Dev.masterId, Dev.reg_modReg_self, fld_setFld_self _ _ _ _ (by decide), Nat.mod_eq_of_lt src.isLt, BitVec.ofNat_toNat, BitVec.setWidth_eq]
  · rw [Dev.cicBit, Dev.reg_modReg_self, bit_setFld_other _ _ _ _ _ (by decide) (.inl hi), Dev.reg_setReg_ne _ _ _ (by decide), Dev.cicBit]
  · rw [Dev.reg_modReg_ne _ _ _ (by decide), Dev.reg_setReg_self]

/-- A mark within 16 ns at a device whose time is locked is followed by a slew. -/
theorem Dev.markGood_of_locked {d : Dev} (src : BitVec 12) {off : Int} (hhold : d.cicBit 3 = false) (hlock : d.cicBit 1 = true) (hoff : off.natAbs ≤ 1024) :
    (d.markGood src off).cic.slew = off ∧ (d.markGood src off).reg Reg.CIC_OFFSET = BitVec.ofNat 64 (BitVec.ofInt 32 off).toNat ∧
      (d.markGood src off).masterId = src := by
  obtain ⟨nmaster, nbit, noff⟩ := d.markNoted_spec src off
  obtain ⟨tmaster, tbit, -, toff⟩ := (d.markNoted src off).markTaken_spec
  have htaken : d.markGood src off = ((d.markNoted src off).markTaken.markCounts (d.markNoted src off).markTaken.cic.good 0).correct off := by
    simp only [Dev.markGood, hhold, hlock, Bool.false_and, Bool.false_eq_true, if_false, if_true, Dev.markLocked, hoff]
    rfl
  have hlocked : ((d.markNoted src off).markTaken.markCounts (d.markNoted src off).markTaken.cic.good 0).cicBit 1 = true := by
    exact (tbit 1 (by decide)).trans ((nbit 1 (by decide)).trans hlock)
  rw [htaken, Dev.correct_of_locked hlocked]
  exact ⟨rfl, toff.trans noff, tmaster.trans nmaster⟩

/-- The third mark in a row within 2 ns locks the time. -/
theorem Dev.markGood_locks {d : Dev} (src : BitVec 12) {off : Int} (hhold : d.cicBit 3 = false) (hlock : d.cicBit 1 = false) (hoff : off.natAbs ≤ 128)
    (hgood : d.cic.good = 2) : (d.markGood src off).cicBit 1 = true := by
  have htaken : d.markGood src off = (d.markNoted src off).markTaken.markUnlocked off := by
    simp only [Dev.markGood, hhold, hlock, Bool.false_and, Bool.false_eq_true, if_false]
    rfl
  obtain ⟨-, -, tgood, -⟩ := (d.markNoted src off).markTaken_spec
  have h3 : (d.markNoted src off).markTaken.cic.good + 1 ≥ 3 := by
    rw [tgood]
    exact le_of_eq (congrArg (· + 1) hgood.symm)
  rw [htaken, Dev.markUnlocked, if_pos hoff, if_pos h3, Dev.cicBit_setCicBit_self _ _ (by decide)]

/-! ### Quiet intervals and the master's name -/

theorem Dev.mem_quiet_addQuiet (d : Dev) (a b : Nat) : (a, b) ∈ (d.addQuiet a b).cic.quiet := List.mem_append_right _ (List.mem_singleton_self _)

theorem Dev.setMaster_spec (d : Dev) (m : BitVec 12) : (d.setMaster m).masterId = m ∧ (d.setMaster m).cicBit 2 = decide (m = d.id) ∧
    ∀ i, i < 16 → i ≠ 2 → (d.setMaster m).cicBit i = d.cicBit i := by
  have hid : (d.modReg Reg.CIC_STATUS fun v => setFld v 16 12 m.toNat).id = d.id := by
    rw [Dev.id, Dev.reg_modReg_ne _ _ _ (by decide), Dev.id]
  unfold Dev.setMaster
  refine ⟨?_, ?_, fun i hi h2 => ?_⟩
  · rw [Dev.masterId_setCicBit _ _ (by decide), Dev.masterId, Dev.reg_modReg_self, fld_setFld_self _ _ _ _ (by decide), Nat.mod_eq_of_lt m.isLt,
      BitVec.ofNat_toNat, BitVec.setWidth_eq]
  · exact Dev.cicBit_setCicBit_self _ _ (by decide)
  · rw [Dev.cicBit_setCicBit_ne _ _ (Ne.symm h2), Dev.cicBit, Dev.reg_modReg_self, bit_setFld_other _ _ _ _ _ (by decide) (.inl hi), Dev.cicBit]

theorem Dev.barEntry_congr {d e : Dev} (h : ∀ a, a ≠ Reg.HIVE_CNT → e.reg a = d.reg a) (id : Nat) : e.barEntry id = d.barEntry id := by
  unfold Dev.barEntry
  congr 1
  funext k
  rw [h _ (by simp only [Reg.CIC_BAR, Reg.HIVE_CNT]; omega)]

theorem Dev.sendFrame_flt (d : Dev) (type : Byte) (payload : List Byte) : (d.sendFrame type payload).flt = d.flt := by
  unfold Dev.sendFrame Dev.transmit
  dsimp only
  (repeat' split) <;> rfl

/-- Error records and windows that a ring fault brings leave the registers of the unit and the armed switch. -/
theorem Dev.ringFault_spec (d : Dev) : d.ringFault.cic.fsw = d.cic.fsw ∧ d.ringFault.flt.rseq = d.flt.rseq + 1 ∧
    ∀ a, a ≠ Reg.HIVE_CNT → d.ringFault.reg a = d.reg a := by
  have hrec := d.reports_record (errBase 7 8 St.RING_FAULT)
  have hseq := d.record_rseq (errBase 7 8 St.RING_FAULT)
  unfold Dev.ringFault
  generalize d.record (errBase 7 8 St.RING_FAULT) = e at hrec hseq
  dsimp only
  split
  · have hsent := e.reports_sendFrame ftMEASURE_AT (leBytes 8 e.lead20)
    exact ⟨hsent.fsw.trans hrec.fsw, (congrArg FltMgr.rseq (e.sendFrame_flt _ _)).trans hseq, fun a ha => (hsent.reg a ha).trans (hrec.reg a ha)⟩
  · have hsent := e.reports_ringNotice e.id 0
    exact ⟨hsent.fsw.trans hrec.fsw, (congrArg FltMgr.rseq (e.sendFrame_flt _ _)).trans hseq, fun a ha => (hsent.reg a ha).trans (hrec.reg a ha)⟩

/-- A frame whose CRC fails has no effect: it is counted. -/
theorem Dev.ringIn_of_bad {d : Dev} {ty : Byte} {fr : RingFrame} (htype : fr.type = ty) (hcrc : fr.crcOk = false) (payload : List Byte) (act : Dev → Dev) :
    d.ringIn ty fr payload act = (((d.forward fr payload).cicErr 0).count Reg.CIC_RINGCNT 32 32 1).ringFault := by
  unfold Dev.ringIn
  rw [if_neg (by simp [htype]), if_pos htype]
  dsimp only
  rw [if_pos hcrc]

/-- Settles O49. The CRC of a frame is that of log 103. -/
theorem ringFramesTakeEffectOnce : Obligations.RingFramesTakeEffectOnce := by
  intro s fr
  refine ⟨?_, ?_, ?_, ?_, ?_, ?_, ?_, ?_⟩
  · intro hfirst hjoined hmaster hhold arr dwell off
    have hmark {P : Dev → Prop} (hP : ∀ e, Reports s.dev e → P (e.markGood fr.src off)) : Completes (.mark fr arr dwell) s P := by
      have hx : exec (.mark fr arr dwell) s = onDev s fun d =>
          d.ringIn ftMARK fr (fr.payload.take 8 ++ leBytes 4 (rdNat fr.payload 8 4 + dwell + d.outDly) ++ fr.payload.drop 12) fun d =>
            if d.cicBit 0 = true ∧ d.cicBit 2 = false then
              d.markGood fr.src (countDiff (64 * ringU64 fr 0 + rdNat fr.payload 8 4) (d.count64 + arr % 64)) else d := rfl
      refine completes_ringIn hfirst hx fun e he => ?_
      have hcount : e.count64 = s.dev.count64 := by rw [Dev.count64, Dev.count64, he.now, he.frac]
      rw [he.cicBit, he.cicBit, if_pos ⟨hjoined, hmaster⟩, hcount]
      exact hP e he
    refine ⟨fun hlock hoff => hmark fun e he => ?_, fun hlock hoff hgood => hmark fun e he => ?_⟩
    · exact Dev.markGood_of_locked fr.src ((he.cicBit 3).trans hhold) ((he.cicBit 1).trans hlock) hoff
    · exact Dev.markGood_locks fr.src ((he.cicBit 3).trans hhold) ((he.cicBit 1).trans hlock) hoff (he.good.trans hgood)
  · intro hfirst hcode hlead
    refine completes_ringIn hfirst (show execFreq fr s = _ from rfl) fun e he => ?_
    obtain ⟨hfsw, hreg, -⟩ := e.armFsw_spec (ringU64 fr 0) (rdNat fr.payload 8 1 % 64) .host
    dsimp only
    rw [if_neg (by omega), if_neg (by rw [he.now]; omega)]
    exact ⟨hfsw, by rw [hreg, bit_setBit_self _ _ (by decide)]⟩
  · intro k hfirst hid hentry
    refine completes_ringIn hfirst (show execBarrier fr s = _ from rfl) fun e he => ?_
    have hreg : e.reg (Reg.CIC_BAR + 8 * k) = s.dev.reg (Reg.CIC_BAR + 8 * k) := he.reg _ (by simp only [Reg.CIC_BAR, Reg.HIVE_CNT]; omega)
    rw [Dev.barArrive, if_neg hid, Dev.barEntry_congr he.reg, hentry, Counts]
    dsimp only
    rw [Dev.reg_modReg_self, fld_addCnt_self _ _ (by decide), fld_addCnt_other _ _ (by decide) (.inr (by decide)), hreg]
    exact ⟨rfl, rfl⟩
  · intro hfirst hdev
    refine completes_ringIn hfirst (show execJoinAt fr s = _ from rfl) fun e he => ?_
    dsimp only
    rw [if_pos (by rw [hdev, ← he.id]; rfl)]
    exact ⟨rfl, e.mem_quiet_addQuiet ..⟩
  · intro hfirst hdev
    refine completes_ringIn hfirst (show execLeaveAt (.frame fr) s = _ from rfl) fun e he => ?_
    dsimp only
    rw [if_pos (by rw [hdev, ← he.id]; rfl)]
    exact ⟨rfl, e.mem_quiet_addQuiet ..⟩
  · intro hfirst
    refine completes_ringIn hfirst (show execMeasureAt fr s = _ from rfl) fun e he => ?_
    exact ⟨rfl, Dev.mem_quiet_addQuiet ..⟩
  · intro hfirst
    refine completes_ringIn hfirst (show execMaster (.frame fr) s = _ from rfl) fun e he => ?_
    obtain ⟨hid, hbit, -⟩ := e.setMaster_spec (BitVec.ofNat 12 (rdNat fr.payload 0 2))
    exact ⟨hid, hbit.trans (by rw [he.id])⟩
  · intro htype hcrc
    refine completes_onDev (show execFreq fr s = _ from rfl) ?_
    have he := s.dev.reports_forward fr fr.payload
    obtain ⟨hfsw, -, hreg⟩ := (((s.dev.forward fr fr.payload).cicErr 0).count Reg.CIC_RINGCNT 32 32 1).ringFault_spec
    rw [Dev.ringIn_of_bad htype hcrc]
    refine ⟨hfsw.trans he.fsw, ?_, ?_⟩
    · rw [hreg _ (by decide), Dev.count, Dev.reg_modReg_ne _ _ _ (by decide), Dev.cicErr, Dev.reg_modReg_self, bit_setBit_self _ _ (by decide)]
    · rw [hreg _ (by decide), Dev.count, Dev.reg_modReg_self, fld_addCnt_self _ _ (by decide), Dev.cicErr, Dev.reg_modReg_ne _ _ _ (by decide),
        he.reg _ (by decide)]

end Sys2Proof.Machine

/-! ## Membership of the ring (13 R311 to R318) -/

namespace Sys2Proof.Machine

open Sys2Proof Sys2Proof.Claims

/-- A joined device that is the authority puts a frame on the ring. -/
theorem Dev.transmit_of_open {d : Dev} (hjoined : d.cicBit 0 = true) (hauth : d.authority = true) (fr : RingFrame) :
    d.transmit fr = d.emit (.ring fr) := by rw [Dev.transmit, if_pos (by simp [hjoined, hauth])]

theorem Dev.barArrive_frame (d : Dev) (id : Nat) : (d.barArrive id).out = d.out ∧ (d.barArrive id).cic = d.cic := by
  unfold Dev.barArrive
  split
  · exact ⟨rfl, rfl⟩
  · split
    · exact ⟨Dev.modReg_out .., Dev.modReg_cic ..⟩
    · split
      · exact ⟨Dev.setReg_out .., Dev.setReg_cic ..⟩
      · exact ⟨Dev.modReg_out .., Dev.modReg_cic ..⟩

theorem Dev.closeBypass_spec (d : Dev) : d.closeBypass.aon.bypass = true ∧ d.closeBypass.cicBit 0 = false ∧ d.closeBypass.cicBit 2 = false ∧
    d.closeBypass.cic = d.cic := by
  unfold Dev.closeBypass
  refine ⟨rfl, ?_, Dev.cicBit_setCicBit_self _ _ (by decide), rfl⟩
  rw [Dev.cicBit_setCicBit_ne _ _ (by decide), Dev.cicBit_setCicBit_self _ _ (by decide)]

/-- Entering HOLDOVER sets its bit and that of its cause. -/
theorem Dev.enterHoldover_spec (d : Dev) {err : Nat} (h : err < 64) :
    (d.enterHoldover err).cicBit 3 = true ∧ bit ((d.enterHoldover err).reg Reg.CIC_ERR) err = true := by
  let e := (d.cicErr err).setCicBit 3 true
  let f : Dev := { e with cic := { e.cic with measured := false, good := 0, badm := 0 } }
  have hsaid : Reports f (d.enterHoldover err) := (f.reports_record _).trans (Dev.reports_ringNotice ..)
  refine ⟨?_, ?_⟩
  · rw [hsaid.cicBit]
    exact Dev.cicBit_setCicBit_self _ _ (by decide)
  · rw [hsaid.reg _ (by decide)]
    change bit (((d.cicErr err).setCicBit 3 true).reg Reg.CIC_ERR) err = true
    rw [Dev.setCicBit, Dev.reg_modReg_ne _ _ _ (by decide), Dev.cicErr, Dev.reg_modReg_self, bit_setBit_self _ _ h]

theorem Dev.reg_askWindow (d : Dev) (t : Nat) {a : Nat} (ha : a ≠ Reg.HIVE_CNT) : (d.askWindow t).reg a = d.reg a :=
  (d.reports_sendFrame ftMEASURE_AT (leBytes 8 t)).reg a ha

theorem Dev.tW_askWindow (d : Dev) (t : Nat) : (d.askWindow t).cic.tW = some t := rfl

/-- A quiet interval that is not over stays. -/
theorem Dev.mem_quiet_askWindow (d : Dev) {t : Nat} {q : Nat × Nat} (hq : q ∈ d.cic.quiet) (hnow : d.now < q.2) : q ∈ (d.askWindow t).cic.quiet := by
  have hsent := d.reports_sendFrame ftMEASURE_AT (leBytes 8 t)
  rw [Dev.askWindow]
  generalize d.sendFrame ftMEASURE_AT (leBytes 8 t) = e at hsent
  refine List.mem_append_left _ (List.mem_filter.mpr ⟨hsent.quiet ▸ hq, decide_eq_true ?_⟩)
  exact hsent.now.symm ▸ hnow

/-- The master lets a device join or leave 20 µs ahead: the ring is quiet around that time, and a window follows it. -/
theorem Dev.sendJoin_spec (d : Dev) (ty : Byte) (dev : BitVec 12) : (d.sendJoin ty dev).cic.tW = some (d.now + 21000) ∧
    (d.now + 19000, d.now + 25000) ∈ (d.sendJoin ty dev).cic.quiet := by
  let e := (d.sendFrame ty (leBytes 8 d.lead20 ++ leBytes 2 dev.toNat)).joinQuiet d.lead20
  have hnow : e.now = d.now := (d.reports_sendFrame ty _).now
  have hafter : d.lead20 + 1000 = d.now + 21000 := Nat.add_assoc ..
  have hbefore : d.lead20 - 1000 = d.now + 19000 := Nat.add_sub_assoc (by decide) _
  have hend : d.lead20 + 5000 = d.now + 25000 := Nat.add_assoc ..
  have hquiet : (d.now + 19000, d.now + 25000) ∈ e.cic.quiet := by
    rw [← hbefore, ← hend]
    exact Dev.mem_quiet_addQuiet ..
  have hx : d.sendJoin ty dev = e.askWindow (d.now + 21000) := by rw [Dev.sendJoin, hafter]
  rw [hx]
  exact ⟨e.tW_askWindow _, e.mem_quiet_askWindow hquiet (by rw [hnow]; dsimp only; omega)⟩

theorem Dev.reg_sendJoin (d : Dev) (ty : Byte) (dev : BitVec 12) {a : Nat} (ha : a ≠ Reg.HIVE_CNT) : (d.sendJoin ty dev).reg a = d.reg a := by
  rw [Dev.sendJoin, Dev.reg_askWindow _ _ ha]
  exact (d.reports_sendFrame ..).reg a ha

theorem Dev.joinClear_spec (d : Dev) : bit (d.joinClear.reg Reg.CIC_CTL) 1 = false ∧
    (d.cicBit 0 = true → d.cicBit 2 = false → d.joinClear.cic.wantLeave = true ∧ d.joinClear.out = d.out ++ [.askLeave d.masterId]) ∧
    (d.cicBit 0 = true → d.cicBit 2 = true → d.joinClear.cic.tL = some (d.now + 20000)) := by
  let e := d.modReg Reg.CIC_CTL fun v => clrBit v 1
  have hctl : bit (e.reg Reg.CIC_CTL) 1 = false := by rw [Dev.reg_modReg_self, bit_clrBit_self]
  have hstat : e.reg Reg.CIC_STATUS = d.reg Reg.CIC_STATUS := Dev.reg_modReg_ne _ _ _ (by decide)
  have hbit (i : Nat) : e.cicBit i = d.cicBit i := congrArg (bit · i) hstat
  have hmaster : e.masterId = d.masterId := by rw [Dev.masterId, hstat, Dev.masterId]
  have hnow : e.now = d.now := by rw [Dev.now, Dev.reg_modReg_ne _ _ _ (by decide), Dev.now]
  have hctl' : bit ((e.sendJoin ftLEAVE_AT e.id).reg Reg.CIC_CTL) 1 = false := by rw [Dev.reg_sendJoin _ _ _ (by decide), hctl]
  have hx : d.joinClear = if e.cicBit 0 = false then e else if e.cicBit 2 then
      { e.sendJoin ftLEAVE_AT e.id with cic := { (e.sendJoin ftLEAVE_AT e.id).cic with tL := some e.lead20 } }
      else ({ e with cic := { e.cic with wantLeave := true } } : Dev).emit (.askLeave e.masterId) := rfl
  have hout : e.out = d.out := rfl
  clear_value e
  rw [hx, hbit, hbit, hmaster]
  by_cases hjoined : d.cicBit 0 = true
  · rw [if_neg (by simp [hjoined])]
    by_cases hm : d.cicBit 2 = true
    · rw [if_pos hm]
      exact ⟨hctl', fun _ h => absurd h (by simp [hm]), fun _ _ => congrArg some (congrArg (· + 20000) hnow)⟩
    · rw [if_neg hm]
      exact ⟨hctl, fun _ _ => ⟨rfl, congrArg (· ++ [_]) hout⟩, fun _ h => absurd h hm⟩
  · rw [if_pos (by simp [hjoined])]
    exact ⟨hctl, fun h => absurd h hjoined, fun h => absurd h hjoined⟩

/-- A command goes on to await its reply while what the reply rests on stays. -/
theorem Awaits.of_keeps {m : Nat} {d₀ d e : Dev} (h : Awaits m d₀ d) (hmb : e.reg Reg.HIVE_MBOXST = d.reg Reg.HIVE_MBOXST)
    (hst : e.reg Reg.HIVE_STATUS = d.reg Reg.HIVE_STATUS) (howner : e.aon.owner = d.aon.owner) (hrun : e.hive.run = d.hive.run)
    (hdemoted : e.hive.demoted = d.hive.demoted) (hwanted : e.hive.noReply = d.hive.noReply) (hbox : e.hive.mbox = d.hive.mbox) : Awaits m d₀ e := by
  refine ⟨h.lt, ?_, ?_, hwanted ▸ h.wanted, ?_⟩
  · rw [← h.authority]
    simp only [Dev.authority, Dev.seamF, howner, hrun, hdemoted, hst]
  · rw [← h.running, Dev.mbState, hmb, Dev.mbState]
  · rw [← h.words, Dev.mbNat, hbox, Dev.mbNat]

theorem Awaits.reports {m : Nat} {d₀ d e : Dev} (h : Awaits m d₀ d) (g : Reports d e) : Awaits m d₀ e :=
  h.of_keeps (g.reg _ (by decide)) (g.reg _ (by decide)) (congrArg AlwaysOn.owner g.aon) (g.keeps (·.hive.run)) (g.keeps (·.hive.demoted))
    (g.keeps (·.hive.noReply)) (g.keeps (·.hive.mbox))

theorem Awaits.sendFrame {m : Nat} {d₀ d : Dev} (h : Awaits m d₀ d) (type : Byte) (payload : List Byte) : Awaits m d₀ (d.sendFrame type payload) :=
  h.reports (d.reports_sendFrame ..)

theorem Awaits.addQuiet {m : Nat} {d₀ d : Dev} (h : Awaits m d₀ d) (a b : Nat) : Awaits m d₀ (d.addQuiet a b) := h.congr rfl rfl rfl

theorem Awaits.planWindow {m : Nat} {d₀ d : Dev} (h : Awaits m d₀ d) (t : Nat) : Awaits m d₀ (d.planWindow t) := h.congr rfl rfl rfl

theorem Awaits.sendJoin {m : Nat} {d₀ d : Dev} (h : Awaits m d₀ d) (ty : Byte) (dev : BitVec 12) : Awaits m d₀ (d.sendJoin ty dev) := by
  unfold Dev.sendJoin Dev.askWindow Dev.joinQuiet
  exact (((h.sendFrame _ _).addQuiet _ _).sendFrame _ _).planWindow _

theorem Dev.cic_reply (d : Dev) (m : Nat) (st : W16) : (d.reply m st).cic = d.cic := by
  obtain ⟨_, _, _, _, h⟩ := d.replyFull_frame m st 0 [] []
  rw [Dev.reply, h]

/-- A device that is asked to prefer a master above itself hands over to it. -/
theorem Dev.handOver_of_outranks {d : Dev} {dev : BitVec 12} (hjoined : d.cicBit 0 = true) (hmaster : d.cicBit 2 = true)
    (h : d.outranks dev d.id = true) (hother : dev ≠ d.id) : (d.handOver dev).masterId = dev ∧ (d.handOver dev).cicBit 2 = false := by
  have hsent := d.reports_sendFrame ftMASTER (leBytes 2 dev.toNat)
  obtain ⟨hid, hbit, -⟩ := (d.sendFrame ftMASTER (leBytes 2 dev.toNat)).setMaster_spec dev
  rw [Dev.handOver, if_pos (by simp [hjoined, hmaster, h])]
  exact ⟨hid, hbit.trans (by rw [hsent.id, decide_eq_false hother])⟩

/-- A named device ranks above one that is not. -/
theorem Dev.outranks_of_pref {d : Dev} {a b : BitVec 12} (ha : d.masterPref a = true) (hb : d.masterPref b = false) : d.outranks a b = true := by
  rw [Dev.outranks, ha, hb, if_neg (by decide)]

/-- Settles O50. The requests for LEAVE_AT and the naming of a device as preferred master, which the manual gives no frame for, are log 100's choice. -/
theorem ringMembershipChanges : Obligations.RingMembershipChanges := by
  intro s
  refine ⟨?_, ?_, ?_, ?_, ?_, ?_, ?_, ?_, ?_, ?_, ?_, ?_⟩
  · intro hjoined hmaster hauth hquiet
    refine completes_onDev (show execMarkSend s = _ from rfl) ?_
    rw [if_pos ⟨hmaster, hquiet⟩]
    dsimp only
    rw [Dev.transmit_of_open (d := { s.dev with cic := { s.dev.cic with fid := s.dev.cic.fid + 1 } }) hjoined hauth]
    exact ⟨rfl, rfl⟩
  · intro fr n rest hcopies hjoined hauth hquiet
    refine completes_onDev (show execFrameCopySend s = _ from rfl) ?_
    rw [hcopies]
    dsimp only
    rw [if_neg (by simp [hquiet]),
      Dev.transmit_of_open (d := { s.dev with cic := { s.dev.cic with copies := if n ≤ 1 then rest else rest ++ [(fr, n - 1)] } }) hjoined hauth]
    split
    · next hn =>
      obtain ⟨hout, hcic⟩ := Dev.barArrive_frame (({ s.dev with cic := { s.dev.cic with copies := if n ≤ 1 then rest else rest ++ [(fr, n - 1)] } } : Dev).emit (.ring fr))
        (rdNat fr.payload 0 4)
      exact ⟨hout, fun h => absurd (h.symm.trans hn.1) (by decide)⟩
    · exact ⟨rfl, fun h => if_pos h.le⟩
  · intro t half hwindow hjoined hnow
    refine completes_onDev (show execMeasurementWindow half s = _ from rfl) ?_
    rw [hwindow]
    dsimp only
    rw [if_pos ⟨hjoined, hnow⟩]
    refine ⟨rfl, rfl, ?_⟩
    rw [Dev.outDly, Dev.reg_setReg_self, fld_zero_eq, BitVec.toNat_ofNat]
    omega
  · intro t hjoin hnow hctl
    refine completes_onDev (show execBypassOpen s = _ from rfl) ?_
    rw [hjoin]
    dsimp only
    rw [if_neg (by omega), if_pos hctl]
    exact ⟨rfl, Dev.cicBit_setCicBit_self _ _ (by decide), rfl⟩
  · intro t hjoin hnow hctl
    refine completes_onDev (show execBypassOpen s = _ from rfl) ?_
    have hmissed : s.dev.joinMissed = { s.dev with cic := { s.dev.cic with tJ := none } } := by
      rw [Dev.joinMissed, hjoin]
      exact if_pos ⟨hnow, hctl⟩
    rw [hjoin]
    dsimp only
    rw [if_neg (by omega), hctl, if_neg Bool.false_ne_true, hmissed]
    exact ⟨rfl, rfl, rfl⟩
  · intro t hleave hnow
    refine completes_onDev (show execBypassClose s = _ from rfl) ?_
    rw [hleave]
    dsimp only
    rw [if_pos hnow]
    obtain ⟨hbypass, hjoined, hmaster, hcic⟩ := ({ s.dev with cic := { s.dev.cic with tL := none } } : Dev).closeBypass_spec
    exact ⟨hbypass, hjoined, hmaster, by rw [hcic]⟩
  · intro highest
    refine ⟨fun hout hctl => ?_, fun hjoined hmaster => ⟨fun hhigh hlock => ?_, fun hlow => ?_⟩⟩
    · refine completes_onDev (f := fun d => d.markTimeout highest) rfl ?_
      obtain ⟨hid, hbit, hother⟩ := (({ s.dev with aon := { s.dev.aon with bypass := false } } : Dev).setCicBit 0 true).setMaster_spec s.dev.id
      have hself : (({ s.dev with aon := { s.dev.aon with bypass := false } } : Dev).setCicBit 0 true).id = s.dev.id := by
        rw [Dev.id, Dev.setCicBit, Dev.reg_modReg_ne _ _ _ (by decide)]
        rfl
      rw [Dev.markTimeout, if_pos hout, if_pos hctl]
      refine ⟨rfl, ?_, hid, hbit.trans (by rw [hself, decide_eq_true rfl])⟩
      rw [hother 0 (by decide) (by decide), Dev.cicBit_setCicBit_self _ _ (by decide)]
    · refine completes_onDev (f := fun d => d.markTimeout highest) rfl ?_
      have hsent := s.dev.reports_sendFrame ftMASTER (leBytes 2 s.dev.id.toNat)
      obtain ⟨hid, hbit, -⟩ := (s.dev.sendFrame ftMASTER (leBytes 2 s.dev.id.toNat)).setMaster_spec s.dev.id
      rw [Dev.markTimeout, if_neg (by simp [hjoined]), if_neg (by simp [hmaster]), if_pos ⟨hhigh, hlock⟩]
      exact ⟨hid, hbit.trans (by rw [hsent.id, decide_eq_true rfl])⟩
    · refine completes_onDev (f := fun d => d.markTimeout highest) rfl ?_
      obtain ⟨-, hseq, hreg⟩ := (s.dev.cicErr 7).ringFault_spec
      rw [Dev.markTimeout, if_neg (by simp [hjoined]), if_neg (by simp [hmaster]), if_neg (by simp [hlow])]
      refine ⟨?_, hseq⟩
      rw [hreg _ (by decide), Dev.cicErr, Dev.reg_modReg_self, bit_setBit_self _ _ (by decide)]
  · intro hjoined hhold
    refine completes_onDev (show execSyncInLos s = _ from rfl) ?_
    rw [if_neg (by simp [hjoined, hhold])]
    exact s.dev.enterHoldover_spec (by decide)
  · exact completes_onDev (f := Dev.joinClear) rfl s.dev.joinClear_spec
  · intro dev hjoined hmaster
    refine completes_onDev (show execLeaveAt (.ask dev) s = _ from rfl) ?_
    dsimp only
    rw [if_pos ⟨hjoined, hmaster⟩]
    exact s.dev.sendJoin_spec ..
  · intro dev hjoined hmaster hother hctl
    refine completes_onDev (show execMaster (.pref dev true) s = _ from rfl) ?_
    dsimp only
    refine Dev.handOver_of_outranks hjoined hmaster (Dev.outranks_of_pref ?_ ?_) hother
    · exact (if_neg hother).trans (by simp)
    · exact (if_pos rfl).trans hctl
  · intro m dev hready hjoined hmaster
    refine completes_onHost hready (show execRingAdmit m dev s = _ from rfl) ?_
    rw [if_neg (not_or.mpr ⟨ne_false_of_eq_true (show (s.dev.begin_ m).cicBit 0 = true from hjoined),
      ne_false_of_eq_true (show (s.dev.begin_ m).cicBit 2 = true from hmaster)⟩)]
    refine ⟨((awaits_of_ready hready).sendJoin ftJOIN_AT dev).replied .., ?_⟩
    rw [Dev.cic_reply]
    have hnow : s.dev.now = (s.dev.begin_ m).now := rfl
    rw [hnow]
    exact (s.dev.begin_ m).sendJoin_spec ftJOIN_AT dev

end Sys2Proof.Machine

/-! ## The voltage loop and the energy ledger (14 R325 to R332) -/

namespace Sys2Proof.Machine

open Sys2Proof Sys2Proof.Claims

/-! ### The voltage loop -/

section

variable {d : Dev} {n slack : Nat}

theorem not_slewing (hfree : ∀ e ∈ d.pwr.slewTo, e.1 ≠ n) : ¬(d.pwr.slewTo.any fun e => decide (e.1 = n)) = true := by
  simp only [List.any_eq_true, decide_eq_true_eq, not_exists, not_and]
  exact hfree

theorem Dev.reg_avsLoop_up (hfree : ∀ e ∈ d.pwr.slewTo, e.1 ≠ n) (hslack : slack < fld (d.reg Reg.PWR_AVS) 0 8)
    (hv : fld (d.reg (Reg.PWR_VCORE + 8 * n)) 0 8 < 140) :
    (d.avsLoop n slack).reg (Reg.PWR_VCORE + 8 * n) = BitVec.ofNat 64 (fld (d.reg (Reg.PWR_VCORE + 8 * n)) 0 8 + 1) := by
  rw [Dev.avsLoop, if_neg (not_slewing hfree)]
  dsimp only
  rw [if_pos hslack, if_pos hv, Dev.reg_setReg_self]

theorem Dev.reg_avsLoop_down (hfree : ∀ e ∈ d.pwr.slewTo, e.1 ≠ n) (hslack : fld (d.reg Reg.PWR_AVS) 0 8 + fld (d.reg Reg.PWR_AVS) 8 8 < slack)
    (hv : 0 < fld (d.reg (Reg.PWR_VCORE + 8 * n)) 0 8) :
    (d.avsLoop n slack).reg (Reg.PWR_VCORE + 8 * n) = BitVec.ofNat 64 (fld (d.reg (Reg.PWR_VCORE + 8 * n)) 0 8 - 1) := by
  rw [Dev.avsLoop, if_neg (not_slewing hfree)]
  dsimp only
  rw [if_neg (by omega), if_pos ⟨hslack, hv⟩, Dev.reg_setReg_self]

/-- A rail that has been at its limit with too little slack for 1 ms is reported. -/
theorem Dev.avsLoop_limit (hfree : ∀ e ∈ d.pwr.slewTo, e.1 ≠ n) (hslack : slack < fld (d.reg Reg.PWR_AVS) 0 8)
    (hv : 140 ≤ fld (d.reg (Reg.PWR_VCORE + 8 * n)) 0 8) (hlow : 990 ≤ SMap.get (fun _ => (0 : Nat)) d.pwr.lowUs n) :
    bit ((d.avsLoop n slack).reg Reg.PWR_ERR) 2 = true ∧ (d.avsLoop n slack).reg (Reg.PWR_VCORE + 8 * n) = d.reg (Reg.PWR_VCORE + 8 * n) ∧
      (d.avsLoop n slack).flt.rseq = d.flt.rseq + 1 := by
  have key : ∀ e : Dev, e.regs = d.regs → e.flt = d.flt → ∀ f, f = (e.modReg Reg.PWR_ERR fun v => setBit v 2).record { errBase 8 9 St.AVS_LIMIT with detail := n } →
      bit (f.reg Reg.PWR_ERR) 2 = true ∧ f.reg (Reg.PWR_VCORE + 8 * n) = d.reg (Reg.PWR_VCORE + 8 * n) ∧ f.flt.rseq = d.flt.rseq + 1 := by
    rintro e hregs hflt f rfl
    have hrec := (e.modReg Reg.PWR_ERR fun v => setBit v 2).reports_record { errBase 8 9 St.AVS_LIMIT with detail := n }
    refine ⟨?_, ?_, ?_⟩
    · rw [hrec.reg _ (by decide), Dev.reg_modReg_self, bit_setBit_self _ _ (by decide)]
    · rw [hrec.reg _ (by simp only [Reg.PWR_VCORE, Reg.HIVE_CNT]; omega), Dev.reg_modReg_ne _ _ _ (by simp only [Reg.PWR_VCORE, Reg.PWR_ERR]; omega),
        Dev.reg, hregs, Dev.reg]
    · rw [Dev.record_rseq]
      exact congrArg (·.rseq + 1) hflt
  unfold Dev.avsLoop
  rw [if_neg (not_slewing hfree)]
  extract_lets a v target hyst low held pwr put keep
  refine key (keep 0) ?_ ?_ _ ((if_pos hslack).trans ((if_neg (not_lt.mpr hv)).trans (if_pos (show low + 10 ≥ 1000 by omega))))
  · simp only [keep, put]
    split <;> rfl
  · simp only [keep, put]
    split <;> rfl

end

/-! ### Energy -/

section

variable {A : Nat → Nat} {F : Nat → W64 → W64}

/-- A run of changes to registers leaves the others. -/
theorem Dev.reg_foldl_modReg_of_notMem {l : List Nat} {a : Nat} (ha : ∀ k ∈ l, a ≠ A k) (d : Dev) : (l.foldl (fun d k => d.modReg (A k) (F k)) d).reg a = d.reg a := by
  induction l generalizing d with
  | nil => rfl
  | cons n l ih =>
    obtain ⟨hn, hl⟩ := List.forall_mem_cons.mp ha
    exact (ih hl _).trans (Dev.reg_modReg_ne _ _ _ hn)

/-- A run of changes to registers changes each once. -/
theorem Dev.reg_foldl_modReg (hA : A.Injective) {l : List Nat} (hl : l.Nodup) {k : Nat} (hk : k ∈ l) (d : Dev) :
    (l.foldl (fun d k => d.modReg (A k) (F k)) d).reg (A k) = F k (d.reg (A k)) := by
  induction l generalizing d with
  | nil => exact absurd hk List.not_mem_nil
  | cons n l ih =>
    obtain ⟨hn, hl⟩ := List.nodup_cons.mp hl
    rcases List.mem_cons.mp hk with rfl | hk
    · exact (Dev.reg_foldl_modReg_of_notMem (fun j hj h => hn ((hA h : k = j) ▸ hj)) _).trans (Dev.reg_modReg_self ..)
    · exact (ih hl hk _).trans (congrArg (F k) (Dev.reg_modReg_ne _ _ _ fun h => hn ((hA h : k = n) ▸ hk)))

end

/-- The energy of a sample goes to the counters of the loaded regions, which lie above those of the rails. -/
def Dev.chargeRegions (d : Dev) (n : Dev → Nat → Nat) : Dev :=
  d.loaded.foldl (fun d r =>
    ({ d with pwr := { d.pwr with uReg := SMap.set (fun _ => 0) d.pwr.uReg r (SMap.get (fun _ => (0 : Nat)) d.pwr.uReg r + n d r) } } : Dev).drawn.addMicro
      (Reg.PWR_REGE + 8 * r) (n d r)) d

theorem Dev.chargeRegions_frame (d : Dev) (n : Dev → Nat → Nat) : (d.chargeRegions n).pwr.uDev = d.pwr.uDev ∧
    ∀ a, a < Reg.PWR_REGE → (d.chargeRegions n).reg a = d.reg a := by
  refine ⟨?_, fun a ha => ?_⟩
  · refine Dev.foldl_keeps (G := (·.pwr.uDev)) ?_ _ d
    exact fun _ _ => rfl
  · refine Dev.foldl_keeps (G := (Dev.reg · a)) ?_ _ d
    exact fun d r => Dev.reg_modReg_ne _ _ _ (by omega)

/-- A sample is added to the counter of the device and to those of the rails. -/
theorem Dev.energyUpdate_spec (d : Dev) (e : EnergySample) : (d.energyUpdate e).reg Reg.PWR_DEVE = addCnt (d.reg Reg.PWR_DEVE) 0 64 e.vin ∧
    (d.energyUpdate e).pwr.uDev = d.pwr.uDev + e.vin ∧
    ∀ k, k < 54 → (d.energyUpdate e).reg (Reg.PWR_RAILE + 8 * k) = addCnt (d.reg (Reg.PWR_RAILE + 8 * k)) 0 64 (e.rails.getD k 0) := by
  let total : Dev := { d.addMicro Reg.PWR_DEVE e.vin with pwr := { d.pwr with uDev := d.pwr.uDev + e.vin } }
  let rails := (List.range 54).foldl (fun d k => d.modReg (Reg.PWR_RAILE + 8 * k) fun v => addCnt v 0 64 (e.rails.getD k 0)) total
  have hinj : Function.Injective fun k => Reg.PWR_RAILE + 8 * k := fun i j h => by
    simp only at h
    omega
  have hpwr : rails.pwr = total.pwr := by
    refine Dev.foldl_keeps (G := Dev.pwr) ?_ _ total
    exact fun _ _ => rfl
  obtain ⟨n, hn⟩ : ∃ n, d.energyUpdate e = rails.chargeRegions n := ⟨_, rfl⟩
  obtain ⟨huse, hreg⟩ := rails.chargeRegions_frame n
  rw [hn]
  refine ⟨?_, huse.trans (by rw [hpwr]), fun k hk => ?_⟩
  · rw [hreg _ (by decide)]
    exact (Dev.reg_foldl_modReg_of_notMem (fun k _ => by simp only [Reg.PWR_DEVE, Reg.PWR_RAILE]; omega) total).trans
      (d.reg_modReg_self Reg.PWR_DEVE fun v => addCnt v 0 64 e.vin)
  · rw [hreg _ (by change 0x600400 + 8 * k < 0x600a00; omega)]
    refine (Dev.reg_foldl_modReg hinj List.nodup_range (List.mem_range.mpr hk) total).trans (congrArg (addCnt · 0 64 _) ?_)
    exact d.reg_modReg_ne Reg.PWR_DEVE (fun v => addCnt v 0 64 e.vin) (by change 0x600400 + 8 * k ≠ 0x600040; omega)

/-! ### Windows -/

theorem onlyTiles_modTiles (d : Dev) (ts : List Nat) (f : Tile → Tile) : OnlyTiles d (d.modTiles ts f) := OnlyTiles.modTiles (.refl d) ts f

/-- An admission reaches the region and its tiles alone. -/
theorem Dev.admitDone_frame (d : Dev) (r : Nat) : ∃ regions tiles, d.admitDone r = { d with regions := regions, tiles := tiles } := by
  unfold Dev.admitDone
  dsimp only
  split
  · exact ⟨d.regions, d.tiles, rfl⟩
  · next a _ =>
    obtain ⟨ts, hts⟩ := onlyTiles_modTiles (d.setRegion r { d.region r with adm := some { a with waiting := false }, phase := .admitted }) (d.region r).tileList
      fun t => t.spadWrite (64 * d.rtline r) (a.inp.rag.flatMap fun e => leBytes 16 e.toNat)
    exact ⟨_, ts, hts⟩

/-- What the check of a waiting step leaves as it was: the ledger, and every register but the count of waits. -/
def waitCount (d : Dev) : Power × (Nat → W64) × Nat :=
  (d.pwr, fun a => if a = Reg.PWR_CNT then 0 else d.reg a, fld (d.reg Reg.PWR_CNT) 32 16)

theorem waitCount_recheck (d : Dev) (r : Nat) : waitCount (d.recheck r) = waitCount d := by
  have hcount : waitCount (d.count Reg.PWR_CNT 16 16 1) = waitCount d := by
    unfold waitCount Dev.count
    rw [Dev.reg_modReg_self, fld_addCnt_other _ _ (by decide) (.inl (by decide))]
    refine Prod.ext rfl (Prod.ext (funext fun a => ?_) rfl)
    dsimp only
    split
    · rfl
    · next ha => exact Dev.reg_modReg_ne _ _ _ ha
  unfold Dev.recheck
  dsimp only
  split
  · split
    · split
      · obtain ⟨rs, ts, h⟩ := Dev.admitDone_frame ((d.count Reg.PWR_CNT 16 16 1).setRegion r _) r
        rw [h]
        exact hcount
      · exact hcount
    · rfl
  · rfl

/-- The steps that wait are checked once: nothing else of the ledger changes. -/
theorem Dev.recheckAll_spec (d : Dev) : d.recheckAll.pwr = { d.pwr with recheck := false, waitQ := d.recheckAll.pwr.waitQ } ∧
    (∀ a, a ≠ Reg.PWR_CNT → d.recheckAll.reg a = d.reg a) ∧ fld (d.recheckAll.reg Reg.PWR_CNT) 32 16 = fld (d.reg Reg.PWR_CNT) 32 16 := by
  have hfold := Dev.foldl_keeps (G := waitCount) waitCount_recheck d.pwr.waitQ { d with pwr := { d.pwr with recheck := false } }
  unfold Dev.recheckAll
  dsimp only
  generalize d.pwr.waitQ.foldl Dev.recheck { d with pwr := { d.pwr with recheck := false } } = e at hfold
  obtain ⟨hpwr, hrest⟩ := Prod.ext_iff.mp hfold
  obtain ⟨hreg, hcnt⟩ := Prod.ext_iff.mp hrest
  refine ⟨?_, fun a ha => ?_, hcnt⟩
  · have hkept : e.pwr = { d.pwr with recheck := false } := hpwr
    rw [hkept]
  · exact (if_neg ha).symm.trans ((congrFun hreg a).trans (if_neg ha))

/-- A window that ends leaves its overrun counted and the usage at zero. -/
theorem Dev.rollWindow_spec (d : Dev) (b t : Nat) : (d.rollWindow b t).pwr = { d.pwr with uDev := 0, uReg := [], slowUsed := false, winAt := t, recheck := true } ∧
    (∀ a, a ∉ [Reg.PWR_CNT, Reg.CIC_FSW, Reg.PWR_STATUS] → (d.rollWindow b t).reg a = d.reg a) ∧
    (b < d.pwr.uDev → fld ((d.rollWindow b t).reg Reg.PWR_CNT) 32 16 = min (fld (d.reg Reg.PWR_CNT) 32 16 + 1) (2 ^ 16 - 1)) := by
  unfold Dev.rollWindow
  extract_lets spent back slowed
  have hpwr : spent.pwr = d.pwr := by
    simp only [spent]
    split <;> rfl
  have hspent (a : Nat) (ha : a ≠ Reg.PWR_CNT) : spent.reg a = d.reg a := by
    simp only [spent]
    split
    · exact Dev.reg_modReg_ne _ _ _ ha
    · rfl
  have hcnt (h : b < d.pwr.uDev) : fld (spent.reg Reg.PWR_CNT) 32 16 = min (fld (d.reg Reg.PWR_CNT) 32 16 + 1) (2 ^ 16 - 1) := by
    simp only [spent, if_pos h]
    exact counts_count d _ (by decide)
  have hslowed : slowed.pwr = spent.pwr ∧ ∀ a, a ≠ Reg.CIC_FSW → a ≠ Reg.PWR_STATUS → slowed.reg a = spent.reg a := by
    simp only [slowed]
    split
    · exact ⟨rfl, (spent.armFsw_spec spent.nextSync spent.profCode .power).2.2⟩
    · exact ⟨rfl, fun _ _ _ => rfl⟩
  obtain ⟨hnpwr, hnreg⟩ := hslowed
  clear_value slowed spent
  refine ⟨?_, fun a ha => ?_, fun h => ?_⟩
  · exact congrArg (fun p : Power => { p with uDev := 0, uReg := [], slowUsed := false, winAt := t, recheck := true }) (hnpwr.trans hpwr)
  · simp only [List.mem_cons, List.not_mem_nil, or_false, not_or] at ha
    obtain ⟨hc, hf, hs⟩ := ha
    exact (hnreg a hf hs).trans (hspent a hc)
  · exact (congrArg (fld · 32 16) (hnreg Reg.PWR_CNT (by decide) (by decide))).trans (hcnt h)

/-- A window whose end has come is over, and the steps that wait have been checked against the one that began. -/
theorem Dev.windowBoundary_spec {d : Dev} (h : d.winStart ≠ d.pwr.winAt) : d.windowBoundary.pwr.uDev = 0 ∧ d.windowBoundary.pwr.uReg = [] ∧
    d.windowBoundary.pwr.winAt = d.winStart ∧ d.windowBoundary.pwr.recheck = false ∧
    (d.limitW * d.winUs < d.pwr.uDev → Counts Reg.PWR_CNT 32 16 d d.windowBoundary) := by
  obtain ⟨hpwr, -, hcnt⟩ := d.rollWindow_spec (d.limitW * d.winUs) d.winStart
  have hx : d.windowBoundary = (d.rollWindow (d.limitW * d.winUs) d.winStart).recheckAll := by
    unfold Dev.windowBoundary Dev.windowNow
    rw [if_neg h]
    exact if_pos (by rw [hpwr])
  rw [hx]
  generalize d.rollWindow (d.limitW * d.winUs) d.winStart = e at hpwr hcnt
  obtain ⟨hchecked, -, hcounted⟩ := e.recheckAll_spec
  rw [hpwr] at hchecked
  refine ⟨by rw [hchecked], by rw [hchecked], by rw [hchecked], by rw [hchecked], fun hover => ?_⟩
  rw [Counts, hcounted]
  exact hcnt hover

/-! ### Synchronised counts -/

/-- The length of the window, the time it counts from, and the length that waits. -/
def window (d : Dev) : W64 × W64 × Option (Nat × Nat) := (d.reg Reg.PWR_WIN, d.reg Reg.PWR_WINBASE, d.pwr.pend.win)

theorem window_modReg (d : Dev) {a : Nat} (ha : a ≠ Reg.PWR_WIN ∧ a ≠ Reg.PWR_WINBASE) (f : W64 → W64) : window (d.modReg a f) = window d := by
  simp only [window, Dev.reg_modReg_ne _ _ _ ha.1.symm, Dev.reg_modReg_ne _ _ _ ha.2.symm, Dev.modReg_pwr]

theorem window_pend (d : Dev) {p : Power} (hp : p.pend.win = d.pwr.pend.win) : window { d with pwr := p } = window d :=
  Prod.ext rfl (Prod.ext rfl hp)

theorem window_applyLimit (d : Dev) (l : Nat) : window (d.applyLimit l) = window d :=
  (window_modReg _ (by decide) _).trans (window_pend _ rfl)

theorem window_applyProfile (d : Dev) (p : Nat) : window (d.applyProfile p) = window d := by
  unfold Dev.applyProfile
  extract_lets pwr pend cleared shown
  have hshown : window shown = window d := (window_modReg _ (by decide) _).trans (window_pend _ rfl)
  split
  · exact (window_modReg _ (by decide) _).trans ((window_modReg _ (by decide) _).trans ((window_pend _ rfl).trans hshown))
  · exact hshown

theorem window_applyBurstOff (d : Dev) : window d.applyBurstOff = window d :=
  (window_modReg _ (by decide) _).trans ((window_modReg _ (by decide) _).trans (window_pend _ rfl))

theorem window_applyBurstOn (d : Dev) : window d.applyBurstOn = window d :=
  (window_modReg _ (by decide) _).trans ((window_modReg _ (by decide) _).trans (window_pend _ rfl))

theorem window_applyWin (d : Dev) (w t : Nat) : window (d.applyWin w t) = (BitVec.ofNat 64 w, BitVec.ofNat 64 t, none) := by
  unfold Dev.applyWin
  extract_lets b ends pwr pend cleared set
  have hset : window set = (BitVec.ofNat 64 w, BitVec.ofNat 64 t, none) := by
    refine Prod.ext ?_ (Prod.ext (Dev.reg_setReg_self ..) rfl)
    exact (Dev.reg_setReg_ne _ _ _ (by decide)).trans (Dev.reg_setReg_self ..)
  split
  · obtain ⟨rpwr, rreg, -⟩ := set.rollWindow_spec b t
    obtain ⟨cpwr, creg, -⟩ := (set.rollWindow b t).recheckAll_spec
    rw [← hset]
    refine Prod.ext ?_ (Prod.ext ?_ ?_)
    · exact (creg _ (by decide)).trans (rreg _ (by decide))
    · exact (creg _ (by decide)).trans (rreg _ (by decide))
    · exact (congrArg (·.pend.win) cpwr).trans (congrArg (·.pend.win) rpwr)
  · exact hset

/-- The changes that come after that of the window length leave it. -/
theorem window_syncCount (d : Dev) : window d.syncCount = window (match due d.now d.pwr.pend.win with | some w => d.applyWin w.1 w.2 | none => d) := by
  unfold Dev.syncCount
  extract_lets p cut limited selected off
  have hlimited : window limited = window cut := by
    simp only [limited]
    split
    · exact window_applyLimit ..
    · rfl
  have hselected : window selected = window limited := by
    simp only [selected]
    split
    · exact window_applyProfile ..
    · rfl
  have hoff : window off = window selected := by
    simp only [off]
    split
    · split
      · exact window_applyBurstOff _
      · rfl
    · rfl
  refine Eq.trans ?_ (hoff.trans (hselected.trans hlimited))
  split
  · split
    · exact window_applyBurstOn _
    · rfl
  · rfl

theorem Dev.syncCount_win {d : Dev} {w t : Nat} (hwin : d.pwr.pend.win = some (w, t)) (ht : t ≤ d.now) :
    window d.syncCount = (BitVec.ofNat 64 w, BitVec.ofNat 64 t, none) := by
  have hdue : due d.now d.pwr.pend.win = some (w, t) := by
    rw [hwin]
    exact if_pos ht
  rw [window_syncCount, hdue]
  exact window_applyWin ..

theorem Dev.syncCount_limit {d : Dev} {l t : Nat} (hpend : d.pwr.pend = ⟨none, some (l, t), none, none, none⟩) (ht : t ≤ d.now) :
    d.syncCount = d.applyLimit l := by
  have hburst : (d.applyLimit l).pwr.pend.burstOff = none ∧ (d.applyLimit l).pwr.pend.burstOn = none := by
    change d.pwr.pend.burstOff = none ∧ d.pwr.pend.burstOn = none
    rw [hpend]
    exact ⟨rfl, rfl⟩
  unfold Dev.syncCount
  rw [hpend]
  simp only [due, ht, if_true, hburst.1, hburst.2]

/-- Settles O51. A fraction of a µJ in the regions' shares is a free value (log 48). -/
theorem voltageLoopAndEnergyLedger : Obligations.VoltageLoopAndEnergyLedger := by
  intro s
  refine ⟨?_, ?_, ?_, ?_, ⟨?_, ?_⟩, ?_, ?_⟩
  · intro n slack hn hfree v target
    have hrail {P : Dev → Prop} (hP : P (s.dev.avsLoop n slack)) : Completes (.avsLoop n slack) s P :=
      completes_onUnit (f := fun d => d.avsLoop n slack) hn rfl hP
    exact ⟨fun hslack hv => hrail (Dev.reg_avsLoop_up hfree hslack hv), fun hslack hv => hrail (Dev.reg_avsLoop_down hfree hslack hv),
      fun hslack hv hlow => hrail (Dev.avsLoop_limit hfree hslack hv hlow)⟩
  · exact fun e => completes_onDev (f := fun d => d.energyUpdate e) rfl (s.dev.energyUpdate_spec e)
  · exact fun h => completes_onDev (f := Dev.windowBoundary) rfl (Dev.windowBoundary_spec h)
  · refine fun v => ⟨fun hlegal => ?_, fun hpos hbad => ?_⟩
    · exact completes_onDev (f := fun d => d.pwrWinWrite v) rfl (if_pos hlegal)
    · exact completes_onDev (f := fun d => d.pwrWinWrite v) rfl (if_neg (by omega))
  · intro w t hwin ht
    refine completes_onDev (f := Dev.syncCount) rfl ?_
    obtain ⟨hlen, hrest⟩ := Prod.ext_iff.mp (Dev.syncCount_win hwin ht)
    obtain ⟨hbase, hnone⟩ := Prod.ext_iff.mp hrest
    exact ⟨hlen, hbase, hnone⟩
  · intro l t hpend ht hl
    refine completes_onDev (f := Dev.syncCount) rfl ?_
    rw [Dev.syncCount_limit hpend ht]
    refine ⟨?_, ?_⟩
    · rw [Dev.limitW, Dev.applyLimit, Dev.reg_modReg_self, fld_setFld_self _ _ _ _ (by decide)]
      exact Nat.mod_eq_of_lt hl
    · change { s.dev.pwr.pend with limit := none } = PwrPend.reset
      rw [hpend]
      rfl
  · intro v hpos hcap hslow hsum
    refine completes_onDev (f := fun d => d.pwrBudgetWrite Reg.PWR_LIMIT v) rfl ?_
    rw [Dev.pwrBudgetWrite, if_pos rfl]
    dsimp only
    rw [if_neg (by omega), if_neg (by omega)]
    refine ⟨rfl, ?_, ?_⟩
    · rw [Dev.reg_modReg_self, fld_setFld_self _ _ _ _ (by decide)]
      exact Nat.mod_eq_of_lt (fld_lt ..)
    · rw [Dev.limitW, Dev.reg_modReg_self, fld_setFld_other _ _ _ _ _ _ (by decide) (.inr (by decide))]
      rfl
  · intro r v hr hsum
    refine completes_onDev (f := fun d => d.pwrBudgetWrite (Reg.PWR_REGCFG + 8 * r) v) rfl ?_
    have hr64 : r < 64 := hr
    have hindex : (Reg.PWR_REGCFG + 8 * r - Reg.PWR_REGCFG) / 8 = r := by omega
    rw [Dev.pwrBudgetWrite, if_neg (by change 0x600800 + 8 * r ≠ 0x600000; omega),
      if_pos ⟨by omega, by change 0x600800 + 8 * r < 0x600800 + 8 * Config.nRegions; omega, by change (0x600800 + 8 * r) % 8 = 0; omega⟩]
    dsimp only
    rw [hindex, if_neg (by omega)]

end Sys2Proof.Machine

/-! ## Regions that go to FAULT (10 Table 10.1) -/

namespace Sys2Proof.Machine

open Sys2Proof Sys2Proof.Claims

/-- The abort of tiles reaches tiles and the free values alone. -/
def OnlyTilesCtr (d e : Dev) : Prop := ∃ tiles ctr, e = { d with tiles := tiles, ctr := ctr }

theorem OnlyTilesCtr.refl (d : Dev) : OnlyTilesCtr d d := ⟨d.tiles, d.ctr, rfl⟩

theorem OnlyTilesCtr.trans {d e f : Dev} (h : OnlyTilesCtr d e) (g : OnlyTilesCtr e f) : OnlyTilesCtr d f := by
  obtain ⟨_, _, rfl⟩ := h
  obtain ⟨_, _, rfl⟩ := g
  exact ⟨_, _, rfl⟩

theorem onlyTilesCtr_modTile (d : Dev) (t : Nat) (f : Tile → Tile) : OnlyTilesCtr d (d.modTile t f) := ⟨_, d.ctr, rfl⟩

theorem onlyTilesCtr_foldl {α : Type} {f : Dev → α → Dev} (hf : ∀ d x, OnlyTilesCtr d (f d x)) (l : List α) (d : Dev) : OnlyTilesCtr d (l.foldl f d) :=
  List.foldlRecOn (motive := fun e => OnlyTilesCtr d e) l f (.refl d) fun _ he x _ => he.trans (hf _ x)

theorem onlyTilesCtr_wvlAbort (d : Dev) (t : Nat) : OnlyTilesCtr d (d.wvlAbort t) := by
  have hmod := onlyTilesCtr_modTile
  have hundo (d : Dev) (p : PendEnt) : OnlyTilesCtr d (d.undoPend t p) := by
    unfold Dev.undoPend
    dsimp only
    cases p.alloc <;> cases p.cow
    case none.none => exact hmod ..
    case none.some => exact (hmod ..).trans (hmod ..)
    case some.none => exact (hmod ..).trans (hmod ..)
    case some.some => exact (hmod ..).trans ((hmod ..).trans (hmod ..))
  unfold Dev.wvlAbort
  extract_lets e
  exact (onlyTilesCtr_foldl hundo _ d : OnlyTilesCtr d e).trans (hmod ..)

theorem onlyTilesCtr_abortTile (d : Dev) (k : AbortKind) (t : Nat) : OnlyTilesCtr d (d.abortTile k t) := by
  have hcore : OnlyTilesCtr d (((d.modTile t fun x => x.coreAbort d.ctr (decide (k = .region))).drawn).wvlAbort t) :=
    .trans ⟨_, _, rfl⟩ (onlyTilesCtr_wvlAbort _ t)
  unfold Dev.abortTile
  cases k
  case rerun => exact hcore.trans (onlyTilesCtr_modTile ..)
  case region => exact hcore.trans (onlyTilesCtr_modTile ..)
  case plain => exact hcore

theorem onlyTilesCtr_abortTiles (d : Dev) (k : AbortKind) (r : Nat) : OnlyTilesCtr d (d.abortTiles k r) :=
  onlyTilesCtr_foldl (fun d t => onlyTilesCtr_abortTile d k t) _ d

section

variable {α : Type} {r : Nat} {G : Dev → α}

/-- Nothing that ends a step of region `r` without commit, or takes the region to FAULT, changes `G`. -/
structure EndKeeps (r : Nat) (G : Dev → α) : Prop extends FinishKeeps r G where
  region : ∀ d x, G (d.setRegion r x) = G d
  slot : ∀ d k x, G (d.setSlot k x) = G d
  host : ∀ (d : Dev) h, G { d with host := h } = G d
  swaps : ∀ (d : Dev) w, G { d with wt := w } = G d
  tiles : ∀ (d : Dev) ts c, G { d with tiles := ts, ctr := c } = G d

namespace EndKeeps

variable (h : EndKeeps r G) (d : Dev)

include h

theorem abortTiles (k : AbortKind) (j : Nat) : G (d.abortTiles k j) = G d := by
  obtain ⟨ts, c, he⟩ := onlyTilesCtr_abortTiles d k j
  rw [he, h.tiles]

theorem unfetch : G (d.unfetch r) = G d := (h.host _ _).trans (h.region d _)

theorem toFault : G (d.toFault r) = G d := (h.swaps _ _).trans ((h.region _ _).trans (h.unfetch d))

theorem decideCancels : G (d.decideCancels r).1 = G d := by
  have hslot (e : Dev) (k : Nat) : G (e.cancelSlot k).1 = G e := by
    unfold Dev.cancelSlot
    dsimp only
    split
    · rfl
    · exact h.slot ..
  refine Eq.trans ?_ (h.region d { d.region r with cancels := [] })
  unfold Dev.decideCancels
  exact List.foldlRecOn (motive := fun s : Dev × List (Nat × W16) => G s.1 = G (d.modRegion r fun x => { x with cancels := [] })) _ _ rfl
    fun s hs c _ => (hslot ..).trans hs

theorem endStep (st : W16) : G (d.endStep r st) = G d := by
  unfold Dev.endStep
  dsimp only
  split
  · rfl
  · exact (h.runFins _).trans ((h.sendReplies _ _).trans ((h.decideCancels _).trans (h.region d _)))

theorem stepFail : G (d.stepFail r) = G d := by
  unfold Dev.stepFail
  dsimp only
  split
  · rfl
  · refine (h.endStep _ _).trans ((h.toFault _).trans ?_)
    split
    · exact h.abortTiles ..
    · rfl

theorem tripRegion : G (d.tripRegion r) = G d := by
  unfold Dev.tripRegion
  split
  · exact h.stepFail d
  · exact h.toFault d

end EndKeeps

end

/-! ### What a region that goes to FAULT leaves as it was -/

/-- The end of a step leaves where the other regions stand. -/
theorem endKeeps_standing {r k : Nat} (hk : k ≠ r) : EndKeeps r fun d => (d.region k).standing where
  toFinishKeeps := finishKeeps_standing r k
  region _ _ := congrArg Region.standing (Dev.region_setRegion_ne _ _ _ hk)
  slot _ _ _ := rfl
  host _ _ := rfl
  swaps _ _ := rfl
  tiles _ _ _ := rfl

/-- The registers that a completion writes: the states of the mailboxes, and the barriers of the ring. -/
def finishRegs (a : Nat) : Prop := a = Reg.HIVE_MBOXST ∨ a = Reg.CIC_ERR ∨ ∃ k, a = Reg.CIC_BAR + 8 * k ∧ k < 16

theorem Dev.barEntry_lt {d : Dev} {id k : Nat} (h : d.barEntry id = some k) : k < 16 := List.mem_range.mp (List.mem_of_find?_eq_some h)

theorem Dev.reg_barReport_of_not_finishRegs (d : Dev) (r : Nat) (id : W32) {a : Nat} (ha : ¬finishRegs a) : (d.barReport id r).reg a = d.reg a := by
  simp only [finishRegs, not_or, not_exists, not_and] at ha
  obtain ⟨-, herr, hbar⟩ := ha
  have hentry {k : Nat} (hk : k < 16) : a ≠ Reg.CIC_BAR + 8 * k := fun h => hbar k h hk
  have harrive (e : Dev) : (e.barArrive id.toNat).reg a = e.reg a := by
    unfold Dev.barArrive
    split
    · rfl
    · split
      · next h => exact Dev.reg_modReg_ne _ _ _ (hentry (Dev.barEntry_lt h))
      · split
        · next h => exact Dev.reg_setReg_ne _ _ _ (hentry (Dev.barEntry_lt h))
        · exact Dev.reg_modReg_ne _ _ _ herr
  have hsend : (d.sendFrame ftBARRIER (leBytes 4 id.toNat ++ leBytes 1 r)).reg a = d.reg a := by
    unfold Dev.sendFrame Dev.transmit
    dsimp only
    split_ifs <;> rfl
  unfold Dev.barReport
  dsimp only
  split_ifs
  · exact hsend
  · rw [harrive, hsend]

theorem endKeeps_reg {a : Nat} (ha : ¬finishRegs a) (r : Nat) : EndKeeps r (Dev.reg · a) where
  take _ _ _ := rfl
  put _ _ _ := Dev.d2hPut_reg ..
  reply _ m st := Dev.reg_reply _ (fun h => ha (.inl h)) m st
  report _ _ := Dev.reg_barReport_of_not_finishRegs _ _ _ ha
  hold _ _ := rfl
  rest _ _ := rfl
  region _ _ := rfl
  slot _ _ _ := rfl
  host _ _ := rfl
  swaps _ _ := rfl
  tiles _ _ _ := rfl

/-- A register above those of the ring's barriers, or one of the Hive but the states of the mailboxes. -/
theorem not_finishRegs {a : Nat} (h : Reg.CIC_BAR + 128 ≤ a ∨ a < Reg.CIC_ERR ∧ a ≠ Reg.HIVE_MBOXST) : ¬finishRegs a := by
  simp only [Reg.CIC_BAR, Reg.CIC_ERR, Reg.HIVE_MBOXST] at h
  rintro (rfl | rfl | ⟨k, rfl, hk⟩) <;> simp only [Reg.CIC_BAR, Reg.CIC_ERR, Reg.HIVE_MBOXST] at h <;> omega

/-! ### The region itself -/

/-- A step that ends by a failure leaves its region in FAULT, whatever its phase. -/
theorem Dev.region_stepFail {d : Dev} {r : Nat} {a : Adm} (ha : (d.region r).adm = some a) :
    ((d.stepFail r).region r).st = .fault ∧ ((d.stepFail r).region r).adm = none := by
  have key (e : Dev) (he : e.region r = d.region r) : (((e.toFault r).endStep r St.STEP_FAILED).region r).st = .fault ∧
      (((e.toFault r).endStep r St.STEP_FAILED).region r).adm = none := by
    obtain ⟨hst, hadm⟩ := e.toFault_region r
    obtain ⟨hnone, hfault⟩ := Dev.region_endStep (hadm.trans ((congrArg Region.adm he).trans ha)) (by simp [hst]) (by simp [hst]) St.STEP_FAILED
    exact ⟨hfault.trans hst, hnone⟩
  unfold Dev.stepFail
  dsimp only
  rw [if_neg (by simp [ha])]
  split
  · exact key _ (d.abortTiles_region ..)
  · exact key d rfl

theorem Dev.region_tripRegion (d : Dev) (r : Nat) : ((d.tripRegion r).region r).st = .fault ∧ ((d.tripRegion r).region r).adm = none := by
  unfold Dev.tripRegion
  split
  · next h =>
    obtain ⟨a, ha⟩ := Option.isSome_iff_exists.mp h
    exact Dev.region_stepFail ha
  · next h =>
    obtain ⟨hst, hadm⟩ := d.toFault_region r
    exact ⟨hst, hadm.trans (by simpa using h)⟩

/-- A region in FAULT stays there while others go to FAULT. -/
theorem Dev.fault_tripRegion {d : Dev} {k : Nat} (r : Nat) (h : (d.region k).st = .fault) : ((d.tripRegion r).region k).st = .fault := by
  by_cases hk : k = r
  · exact hk ▸ (d.region_tripRegion r).1
  · obtain ⟨-, -, -, hst⟩ := Region.standing_eq ((endKeeps_standing hk).tripRegion d)
    exact (hst (by simp [h]) (by simp [h])).trans h

theorem Dev.fault_foldl_tripRegion {k : Nat} (l : List Nat) (d : Dev) (h : k ∈ l ∨ (d.region k).st = .fault) :
    ((l.foldl Dev.tripRegion d).region k).st = .fault := by
  induction l generalizing d with
  | nil => exact h.resolve_left List.not_mem_nil
  | cons r l ih =>
    refine ih _ ?_
    rcases h with h | h
    · rcases List.mem_cons.mp h with rfl | h
      · exact .inr (d.region_tripRegion _).1
      · exact .inl h
    · exact .inr (Dev.fault_tripRegion r h)

theorem Dev.reg_foldl_tripRegion (l : List Nat) (d : Dev) {a : Nat} (ha : ¬finishRegs a) : (l.foldl Dev.tripRegion d).reg a = d.reg a :=
  Dev.foldl_keeps (G := (Dev.reg · a)) (fun d r => (endKeeps_reg ha r).tripRegion d) l d

theorem Dev.aon_foldl_tripRegion (l : List Nat) (d : Dev) : (l.foldl Dev.tripRegion d).aon = d.aon :=
  Dev.foldl_keeps (G := Dev.aon) (fun d r => d.tripRegion_aon r) l d

end Sys2Proof.Machine

/-! ## Capping, the thermal trip and the profiles (14 R333 to R337, 17 R396 to R399) -/

namespace Sys2Proof.Machine

open Sys2Proof Sys2Proof.Claims

/-! ### The power guard -/

theorem Dev.powerGuard_over {d : Dev} {avg : Nat} (h : fld (d.reg Reg.PWR_LIMIT) 16 12 < avg) :
    bit ((d.powerGuard avg).reg Reg.PWR_STATUS) 2 = true ∧
    (bit (d.reg Reg.PWR_STATUS) 2 = true → Counts Reg.PWR_CNT 48 16 d (d.powerGuard avg)) ∧
    (bit (d.reg Reg.PWR_STATUS) 2 = false → (d.powerGuard avg).reg Reg.PWR_CNT = d.reg Reg.PWR_CNT) := by
  unfold Dev.powerGuard
  extract_lets cap capping on counted quiet stop pwr aon noted
  have hstop : stop = false := by
    have hquiet : quiet = 0 := if_neg (by simp only [Bool.and_eq_true, decide_eq_true_eq, not_and]; omega)
    simp only [stop, hquiet]
    decide
  have hon : (on && !stop) = true := by simp [on, hstop, cap, h]
  refine ⟨?_, fun hcap => ?_, fun hcap => ?_⟩
  · rw [Dev.reg_modReg_self, hon, bit_putBit_self _ _ _ (by decide)]
  · rw [Counts, Dev.reg_modReg_ne _ _ _ (by decide)]
    have hcounted : counted = d.count Reg.PWR_CNT 48 16 1 := if_pos hcap
    exact (congrArg (fun e : Dev => fld (e.reg Reg.PWR_CNT) 48 16) hcounted).trans (counts_count d _ (by decide))
  · rw [Dev.reg_modReg_ne _ _ _ (by decide)]
    have hcounted : counted = d := if_neg (by simp [capping, hcap])
    exact (congrArg (fun e : Dev => e.reg Reg.PWR_CNT) hcounted : counted.reg Reg.PWR_CNT = d.reg Reg.PWR_CNT)

/-! ### Temperatures -/

theorem foldl_max_lt_iff {n : Nat} (l : List Nat) (a : Nat) : l.foldl max a < n ↔ a < n ∧ ∀ x ∈ l, x < n := by
  induction l generalizing a with
  | nil => simp
  | cons x l ih => rw [List.foldl_cons, ih, List.forall_mem_cons, max_lt_iff, and_assoc]

/-- What a warning leaves: the always-on domain but for ALERT_N, the regions, and every register but PWR_ERR. -/
def warnKeeps (d : Dev) : AlwaysOn × SMap Region × (Nat → W64) :=
  ({ d.aon with alertN := false }, d.regions, fun a => if a = Reg.PWR_ERR then 0 else d.reg a)

theorem warnKeeps_thermWarn (d : Dev) (n tj : Nat) : warnKeeps (d.thermWarn n tj) = warnKeeps d := by
  have halert : warnKeeps (if bit (d.reg Reg.PWR_ERR) 3 then d else d.alert) = warnKeeps d := by
    split <;> rfl
  unfold Dev.thermWarn
  dsimp only
  split
  · refine Eq.trans ?_ halert
    refine Prod.ext rfl (Prod.ext rfl (funext fun a => ?_))
    simp only [warnKeeps]
    split
    · rfl
    · next ha => exact Dev.reg_modReg_ne _ _ _ ha
  · split <;> rfl

/-- The device once the monitor has noted the temperatures. -/
def Dev.sensed (d : Dev) (tj : List Nat) (tcase : Nat) : Dev :=
  ({ d with aon := { d.aon with tj := tj, tcase := tcase } } : Dev).modReg Reg.PWR_STATUS fun v => setFld (setFld v 16 8 (tj.foldl max 0)) 24 8 tcase

/-- The device that the monitor's warnings leave. -/
def Dev.warned (d : Dev) (tj : List Nat) (tcase : Nat) : Dev := (tj.zipIdx).foldl (fun d e => d.thermWarn e.2 e.1) (d.sensed tj tcase)

theorem Dev.thermal_eq (d : Dev) (tj : List Nat) (tcase : Nat) : d.thermal tj tcase =
    (if tj.foldl max 0 ≥ 110 then (d.warned tj tcase).thermTrip else (d.warned tj tcase).thermRelease).burst tcase := rfl

theorem warnKeeps_warned (d : Dev) (tj : List Nat) (tcase : Nat) : warnKeeps (d.warned tj tcase) = warnKeeps (d.sensed tj tcase) := by
  refine Dev.foldl_keeps (G := warnKeeps) ?_ tj.zipIdx (d.sensed tj tcase)
  exact fun d e => warnKeeps_thermWarn d e.2 e.1

theorem Dev.warned_spec (d : Dev) (tj : List Nat) (tcase : Nat) : (d.warned tj tcase).aon.tj = tj ∧ (d.warned tj tcase).aon.tcase = tcase ∧
    (d.warned tj tcase).aon.trip = d.aon.trip ∧ (d.warned tj tcase).regions = d.regions ∧
    fld ((d.warned tj tcase).reg Reg.PWR_STATUS) 24 8 = tcase % 256 := by
  have hkeeps := warnKeeps_warned d tj tcase
  generalize d.warned tj tcase = e at hkeeps
  obtain ⟨haon, hrest⟩ := Prod.ext_iff.mp hkeeps
  obtain ⟨hregions, hreg⟩ := Prod.ext_iff.mp hrest
  refine ⟨(congrArg (·.tj) haon :), (congrArg (·.tcase) haon :), (congrArg (·.trip) haon :), hregions, ?_⟩
  have hstatus : e.reg Reg.PWR_STATUS = setFld (setFld (d.reg Reg.PWR_STATUS) 16 8 (tj.foldl max 0)) 24 8 tcase :=
    (congrFun hreg Reg.PWR_STATUS).trans (Dev.reg_modReg_self ..)
  exact (congrArg (fld · 24 8) hstatus).trans (fld_setFld_self _ _ _ _ (by decide))

/-- Burst-off reaches the ledger, the armed switch and the registers of both. -/
theorem Dev.burst_spec (d : Dev) (tcase : Nat) : (d.burst tcase).tiles = d.tiles ∧ (d.burst tcase).regions = d.regions ∧
    (∀ a, a ≠ Reg.CIC_FSW → a ≠ Reg.PWR_STATUS → (d.burst tcase).reg a = d.reg a) ∧
    fld ((d.burst tcase).reg Reg.PWR_STATUS) 24 8 = fld (d.reg Reg.PWR_STATUS) 24 8 := by
  have harm (p : Power) (t code : Nat) : let e := ({ d with pwr := p } : Dev).armFsw t code .power
      e.tiles = d.tiles ∧ e.regions = d.regions ∧ (∀ a, a ≠ Reg.CIC_FSW → a ≠ Reg.PWR_STATUS → e.reg a = d.reg a) ∧
      fld (e.reg Reg.PWR_STATUS) 24 8 = fld (d.reg Reg.PWR_STATUS) 24 8 := by
    obtain ⟨-, -, hreg⟩ := ({ d with pwr := p } : Dev).armFsw_spec t code .power
    refine ⟨rfl, rfl, hreg, ?_⟩
    rw [Dev.armFsw, Dev.reg_modReg_self, Dev.reg_modReg_ne _ _ _ (by decide), putBit]
    split
    · exact fld_setBit_other _ _ _ _ (by decide)
    · exact fld_clrBit_other _ _ _ _ (by decide)
  have hsame (p : Power) : let e : Dev := { d with pwr := p }
      e.tiles = d.tiles ∧ e.regions = d.regions ∧ (∀ a, a ≠ Reg.CIC_FSW → a ≠ Reg.PWR_STATUS → e.reg a = d.reg a) ∧
      fld (e.reg Reg.PWR_STATUS) 24 8 = fld (d.reg Reg.PWR_STATUS) 24 8 := ⟨rfl, rfl, fun _ _ _ => rfl, rfl⟩
  unfold Dev.burst
  extract_lets st q cool pwr1 e1
  split
  · split
    · exact harm ..
    · exact hsame ..
  · split
    · exact harm ..
    · exact hsame ..

/-- The clocks of every tile stop. -/
theorem Dev.stopped_clocks (d : Dev) {t : Nat} (ht : t < Config.nTiles) : ((d.clocks true).tile t).stopped = true := by
  have key (l : List Nat) (d : Dev) (h : t ∈ l ∨ (d.tile t).stopped = true) :
      ((l.foldl (fun d t => d.modTile t fun x => { x with stopped := true || d.seamF (eastTile t) }) d).tile t).stopped = true := by
    induction l generalizing d with
    | nil => exact h.resolve_left List.not_mem_nil
    | cons u l ih =>
      refine ih _ ?_
      by_cases hu : t = u
      · rw [hu, Dev.tile_modTile_self]
        exact .inr rfl
      · rw [Dev.tile_modTile_ne _ _ _ hu]
        exact h.imp_left fun h => (List.mem_cons.mp h).resolve_left hu
  exact key _ d (.inl (List.mem_range.mpr ht))

theorem Dev.loaded_of_regions {d e : Dev} (h : e.regions = d.regions) : e.loaded = d.loaded := by
  unfold Dev.loaded
  congr 1
  funext r
  rw [Dev.region_of_regions h]

theorem Dev.clocks_region (d : Dev) (stop : Bool) (r : Nat) : (d.clocks stop).region r = d.region r := by
  refine Dev.foldl_keeps (G := (Dev.region · r)) ?_ _ d
  exact fun _ _ => rfl

/-- The trip at 110 °C, from a device that is not tripped. -/
theorem Dev.thermTrip_spec {d : Dev} (h : d.aon.trip = false) : d.thermTrip.aon.trip = true ∧ d.thermTrip.aon.thermN = true ∧ d.thermTrip.aon.alertN = true ∧
    bit (d.thermTrip.reg Reg.PWR_ERR) 4 = true ∧ (∀ r ∈ d.loaded, (d.thermTrip.region r).st = .fault) ∧
    ∀ t, t < Config.nTiles → (d.thermTrip.tile t).stopped = true := by
  obtain ⟨hot, hhot⟩ : ∃ x, x = ({ d with aon := { d.aon with thermN := true, trip := true } } : Dev).modReg Reg.PWR_ERR fun e => setBit e 4 := ⟨_, rfl⟩
  obtain ⟨faulted, hfaulted⟩ : ∃ x, x = hot.loaded.foldl Dev.tripRegion hot := ⟨_, rfl⟩
  obtain ⟨noted, hnoted⟩ : ∃ x, x = faulted.record { errBase 2 9 St.THERMAL_TRIP with action := 2 } := ⟨_, rfl⟩
  obtain ⟨halted, hhalted⟩ : ∃ x, x = noted.clocks true := ⟨_, rfl⟩
  have hx : d.thermTrip = halted.alert := by
    rw [hhalted, hnoted, hfaulted, hhot]
    exact if_neg (by simp [h])
  have hrec : Reports faulted noted := hnoted ▸ Dev.reports_record ..
  have haon : halted.aon = hot.aon := by rw [hhalted, Dev.clocks_aon, hrec.aon, hfaulted, Dev.aon_foldl_tripRegion]
  have htrip : hot.aon.trip = true := by rw [hhot]; rfl
  have hthermN : hot.aon.thermN = true := by rw [hhot]; rfl
  have hloaded : hot.loaded = d.loaded := Dev.loaded_of_regions (by rw [hhot]; rfl)
  rw [hx]
  refine ⟨?_, ?_, rfl, ?_, fun r hr => ?_, fun t ht => ?_⟩
  · change halted.aon.trip = true
    rw [haon, htrip]
  · change halted.aon.thermN = true
    rw [haon, hthermN]
  · change bit (halted.reg Reg.PWR_ERR) 4 = true
    rw [hhalted, Dev.clocks_reg, hrec.reg _ (by decide), hfaulted, Dev.reg_foldl_tripRegion _ _ (not_finishRegs (.inl (by decide))), hhot,
      Dev.reg_modReg_self, bit_setBit_self _ _ (by decide)]
  · change (halted.region r).st = .fault
    rw [hhalted, Dev.clocks_region, hrec.region, hfaulted]
    exact Dev.fault_foldl_tripRegion _ _ (.inl (hloaded ▸ hr))
  · change (halted.tile t).stopped = true
    rw [hhalted]
    exact Dev.stopped_clocks noted ht

theorem Dev.thermal_hot {d : Dev} {tj : List Nat} (tcase : Nat) (hhot : ∃ t ∈ tj, 110 ≤ t) (htrip : d.aon.trip = false) :
    (d.thermal tj tcase).aon.trip = true ∧ (d.thermal tj tcase).aon.thermN = true ∧ (d.thermal tj tcase).aon.alertN = true ∧
    bit ((d.thermal tj tcase).reg Reg.PWR_ERR) 4 = true ∧ (∀ r ∈ d.loaded, ((d.thermal tj tcase).region r).st = .fault) ∧
    ∀ t, t < Config.nTiles → ((d.thermal tj tcase).tile t).stopped = true := by
  obtain ⟨-, -, htrip', hregions, -⟩ := d.warned_spec tj tcase
  obtain ⟨ttrip, tthermN, talert, terr, tfault, tstop⟩ := Dev.thermTrip_spec (htrip'.trans htrip)
  obtain ⟨btiles, bregions, breg, -⟩ := (d.warned tj tcase).thermTrip.burst_spec tcase
  have hmax : tj.foldl max 0 ≥ 110 := by
    refine not_lt.mp fun hlt => ?_
    obtain ⟨t, ht, h110⟩ := hhot
    exact absurd (((foldl_max_lt_iff tj 0).mp hlt).2 t ht) (not_lt.mpr h110)
  have hloaded := Dev.loaded_of_regions hregions
  rw [Dev.thermal_eq, if_pos hmax, Dev.burst_aon, breg _ (by decide) (by decide)]
  refine ⟨ttrip, tthermN, talert, terr, fun r hr => ?_, fun t ht => ?_⟩
  · rw [Dev.region_of_regions bregions]
    exact tfault r (hloaded ▸ hr)
  · rw [Dev.tile, btiles]
    exact tstop t ht

theorem Dev.thermal_cool {d : Dev} {tj : List Nat} (tcase : Nat) (hcool : ∀ t ∈ tj, t < 110) : (d.thermal tj tcase).aon.tj = tj ∧
    (d.thermal tj tcase).aon.tcase = tcase ∧ fld ((d.thermal tj tcase).reg Reg.PWR_STATUS) 24 8 = tcase % 256 ∧
    (d.thermal tj tcase).aon.trip = d.aon.trip := by
  obtain ⟨wtj, wtcase, wtrip, -, wstatus⟩ := d.warned_spec tj tcase
  obtain ⟨-, -, -, bstatus⟩ := (d.warned tj tcase).thermRelease.burst_spec tcase
  have haon : { (d.warned tj tcase).thermRelease.aon with thermN := false } = { (d.warned tj tcase).aon with thermN := false } := by
    unfold Dev.thermRelease
    split
    · rw [Dev.clocks_aon]
    · rfl
  have hmax : ¬tj.foldl max 0 ≥ 110 := not_le.mpr ((foldl_max_lt_iff tj 0).mpr ⟨by decide, hcool⟩)
  rw [Dev.thermal_eq, if_neg hmax, Dev.burst_aon, bstatus, Dev.reg_thermRelease]
  exact ⟨(congrArg (·.tj) haon :).trans wtj, (congrArg (·.tcase) haon :).trans wtcase, wstatus, (congrArg (·.trip) haon :).trans wtrip⟩

/-! ### The profile store -/

section

variable {m : Nat} {d₀ d : Dev}

theorem Awaits.setStore (h : Awaits m d₀ d) (l : List StoreItem) : Awaits m d₀ { d with aon := { d.aon with store := l } } :=
  h.of_keeps rfl rfl rfl rfl rfl rfl rfl

theorem Awaits.setPwr (h : Awaits m d₀ d) (p : Power) : Awaits m d₀ { d with pwr := p } := h.congr rfl rfl rfl

theorem Awaits.armFsw (h : Awaits m d₀ d) (t code : Nat) (b : FswBy) : Awaits m d₀ (d.armFsw t code b) := by
  obtain ⟨-, -, hreg⟩ := d.armFsw_spec t code b
  exact h.of_keeps (hreg _ (by decide) (by decide)) (hreg _ (by decide) (by decide)) rfl rfl rfl rfl rfl

theorem Dev.pwr_reply (d : Dev) (m : Nat) (st : W16) : (d.reply m st).pwr = d.pwr := by
  obtain ⟨_, _, _, _, h⟩ := d.replyFull_frame m st 0 [] []
  rw [Dev.reply, h]

theorem Dev.profile_of_aon {d e : Dev} (h : e.aon = d.aon) : e.profile = d.profile := by
  funext p
  rw [Dev.profile, h, Dev.profile]

theorem Dev.override_of_aon {d e : Dev} (h : e.aon = d.aon) : e.override = d.override := by rw [Dev.override, h, Dev.override]

/-- A profile that is written is in force at once; the others and the override stay. -/
theorem Dev.profile_storePut {d : Dev} {p : Nat} {q : ProfRec} (hp : p < 4) (hlen : d.aon.store.length = 5) (hq : profOk q = true)
    (hseq : ∀ b, (storeItem d.aon.store p).best = some b → (profSeq b).toNat < 2 ^ 32 - 2) :
    let e : Dev := { d with aon := { d.aon with store := storePut d.aon.store p (ProfRec.fields q 0) } }
    e.profile p = some q ∧ e.override = d.override ∧ ∀ k, k ≠ p → e.profile k = d.profile k := by
  intro e
  have hself : storeItem e.aon.store p = (storeItem d.aon.store p).put (ProfRec.fields q 0) := storeItem_set_self (by omega) _
  have hother {k : Nat} (hk : k ≠ p) : storeItem e.aon.store k = storeItem d.aon.store k := storeItem_set_ne _ hk _
  refine ⟨?_, ?_, fun k hk => ?_⟩
  · rw [Dev.profile, if_pos hp, hself, StoreItem.best_put (length_fields q 0) hseq, Option.map_some, ofRec_commit _ _ _ hq]
  · rw [Dev.override, hother (by omega), Dev.override]
  · rw [Dev.profile, Dev.profile, hother hk]

theorem Dev.profile_setOverride (d : Dev) (sel : Byte) (p : Nat) : (d.setOverride sel).profile p = d.profile p := by
  unfold Dev.profile
  split
  · next hp => exact congrArg (fun i : StoreItem => i.best.map ProfRec.ofRec) (storeItem_set_ne _ (by omega) _)
  · rfl

/-- A profile that is selected waits for the next synchronised count. -/
theorem Dev.selectProfile_spec (d : Dev) (p : Nat) : (d.selectProfile p).pwr.pend.prof = some (p, d.nextSync) ∧ (d.selectProfile p).aon = d.aon ∧
    (Awaits m d₀ d → Awaits m d₀ (d.selectProfile p)) := by
  unfold Dev.selectProfile
  dsimp only
  split
  · split
    · exact ⟨rfl, rfl, fun h => h.setPwr _⟩
    · exact ⟨rfl, rfl, fun h => (h.setPwr _).armFsw _ _ _⟩
  · exact ⟨rfl, rfl, fun h => h.setPwr _⟩

/-- Bytes within the data of a reply that is awaited (16 R375). -/
theorem Awaits.data_replied_at (h : Awaits m d₀ d) {as bs cs : List Byte} {off n : Nat} (hoff : as.length = off) (hn : bs.length = n) (st : W16)
    (detail : W32) (w57 : List W32) (hl : (as ++ (bs ++ cs)).length ≤ 4064) :
    (d.replyFull m st detail w57 (as ++ (bs ++ cs))).mbNat m (32 + off) n = leNat bs := by
  subst hoff hn
  have harea : ∃ pre, pre.length = 24 ∧ (d.replyFull m st detail w57 (as ++ (bs ++ cs))).hive.mbox =
      (Memory.clear d.hive.mbox (4096 * m + 8) 4088).writeN (4096 * m + 8) (pre ++ (as ++ (bs ++ cs))) := by
    refine ⟨leBytes 4 st.toNat ++ leBytes 4 detail.toNat ++ leBytes 4 (as ++ (bs ++ cs)).length ++ leBytes 4 (w57.getD 0 0).toNat ++
      leBytes 4 (w57.getD 1 0).toNat ++ leBytes 4 (w57.getD 2 0).toNat, by simp, ?_⟩
    unfold Dev.replyFull
    rw [if_neg (by simp [h.authority]), if_neg (by simpa using h.wanted), if_pos h.running, List.take_of_length_le hl]
    split_ifs
    · rfl
    · exact congrArg Hive.mbox (Dev.irq_hive ..)
  obtain ⟨pre, hpre, hmbox⟩ := harea
  have hat : 4096 * m + (32 + as.length) = 4096 * m + 8 + pre.length + as.length := by omega
  rw [Dev.mbNat, Memory.readNat, hmbox, Memory.writeN_append, Memory.writeN_append, hat]
  exact congrArg leNat (Memory.readN_writeN_append ..)

end

/-- A byte of a slice. -/
theorem getD_slice (l : List Byte) (off n : Nat) {i : Nat} (hi : i < n) : (slice l off n).getD i 0 = l.getD (off + i) 0 := by
  unfold slice
  grind

theorem slice_add (l : List Byte) (off n k : Nat) : slice l off (n + k) = slice l off n ++ slice l (off + n) k := by
  refine List.ext_getElem (by simp) fun i hi hj => ?_
  rw [← List.getD_eq_getElem _ 0 hi, ← List.getD_eq_getElem _ 0 hj, getD_slice _ _ _ (by simpa using hi)]
  by_cases hn : i < n
  · rw [List.getD_append _ _ _ _ (by simpa using hn), getD_slice _ _ _ hn]
  · have hk : i - n < k := by
      rw [length_slice] at hi
      omega
    rw [List.getD_append_right _ _ _ _ (by simpa using hn), length_slice, getD_slice _ _ _ hk, Nat.add_assoc, Nat.add_sub_cancel' (by omega)]

/-- Settles O52. The places of the fields in the reply of PROFILE_QUERY are log 30's choice, and SELECT with 0xFF, which takes the override away, is
log 77's. -/
theorem cappingTripAndProfiles : Obligations.CappingTripAndProfiles := by
  intro s
  refine ⟨fun avg havg => ?_, fun tj tcase hhot htrip => ?_, fun tj tcase hcool => ?_, fun m q hready hq hok hlen => ⟨fun hw hs hseq => ?_, fun hw hs hsel hseq => ?_⟩,
    fun i f hf => ⟨StoreItem.best_torn _ _ (profSound_body _ _ hf), StoreItem.best_put hf⟩, fun m b hready hb => ?_⟩
  · exact completes_onDev (f := fun d => d.powerGuard avg) rfl (Dev.powerGuard_over havg)
  · exact completes_onDev (f := fun d => d.thermal tj tcase) rfl (Dev.thermal_hot tcase hhot htrip)
  · exact completes_onDev (f := fun d => d.thermal tj tcase) rfl (Dev.thermal_cool tcase hcool)
  · refine completes_onHostM (f := fun d => d.setProfile m q) hready rfl ?_
    obtain ⟨hself, hover, hother⟩ := Dev.profile_storePut (d := s.dev.begin_ m) (p := q.profile.toNat) (by omega) hlen hok hseq
    have hx : (s.dev.begin_ m).setProfile m q = Dev.reply { s.dev.begin_ m with
        aon := { (s.dev.begin_ m).aon with store := storePut s.dev.aon.store q.profile.toNat (ProfRec.fields q.prof 0) } } m St.OK := by
      rw [Dev.setProfile]
      dsimp only
      rw [if_neg (by simp [hw, hs, hok]; omega), if_pos hw, if_neg (by simp [hs])]
      rfl
    rw [hx]
    refine ⟨((awaits_of_ready hready.1).setStore _).replied .., ?_, ?_, fun p hp => ?_⟩
    · rw [Dev.profile_of_aon (Dev.reply_aon ..)]
      exact hself
    · rw [Dev.override_of_aon (Dev.reply_aon ..)]
      exact hover
    · rw [Dev.profile_of_aon (Dev.reply_aon ..)]
      exact hother p hp
  · refine completes_onHostM (f := fun d => d.setProfile m q) hready rfl ?_
    have hx : (s.dev.begin_ m).setProfile m q = (((s.dev.begin_ m).setOverride 0xFF).selectProfile q.profile.toNat).reply m St.OK := by
      rw [Dev.setProfile]
      dsimp only
      rw [if_neg (by simp [hw, hsel]; omega), if_pos hs, if_neg (by simp [hw] : ¬q.write = true), hsel]
    obtain ⟨hpend, haon, hawaits⟩ := ((s.dev.begin_ m).setOverride 0xFF).selectProfile_spec (m := m) (d₀ := s.dev) q.profile.toNat
    rw [hx]
    refine ⟨(hawaits ((awaits_of_ready hready.1).setStore _)).replied .., ?_, fun p => ?_, ?_⟩
    · rw [Dev.pwr_reply]
      exact hpend
    · rw [Dev.profile_of_aon ((Dev.reply_aon ..).trans haon)]
      exact Dev.profile_setOverride ..
    · rw [Dev.override_of_aon ((Dev.reply_aon ..).trans haon)]
      exact Dev.override_setOverride (d := s.dev.begin_ m) hlen hseq
  · refine completes_onHost hready (show execProfileQuery m s = _ from rfl) ?_
    dsimp only
    have hawaits := awaits_of_ready hready
    have hseq : (profSeq b).toNat = leNat (slice b 0 4) :=
      (BitVec.toNat_ofNat ..).trans (Nat.mod_eq_of_lt (leNat_slice_lt b 0 4))
    have hfields : slice b 0 14 = slice b 0 4 ++ (slice b 4 2 ++ slice b 6 8) := by rw [← slice_add, ← slice_add]
    have hbest : (storeItem (s.dev.begin_ m).aon.store 0).best.getD profBlank = b := congrArg (·.getD profBlank) hb
    have hrange : List.range 4 = [0, 1, 2, 3] := rfl
    refine ⟨hawaits.replied .., ?_, ?_, Dev.replyFull_aon ..⟩
    · rw [hseq, hrange, List.flatMap_cons, hbest, hfields]
      simp only [List.append_assoc]
      simpa only [length_slice] using hawaits.data_replied (bs := slice b 0 4) _ _ _ (by simp)
    · rw [hrange, List.flatMap_cons, hbest, hfields]
      simp only [List.append_assoc]
      refine hawaits.data_replied_at (off := 4) (length_slice b 0 4) (length_slice b 4 2) _ _ _ ?_
      simp

end Sys2Proof.Machine

/-! ## What the relay crossbar leaves as it was (12 R291 to R294) -/

namespace Sys2Proof.Machine

open Sys2Proof Sys2Proof.Claims

/-- A device without what the relay writes: the registers, the packets on their way, and where those that arrive wait. -/
def Dev.unrelayed (d : Dev) : Dev := { d with regs := [], flying := [], unitIn := [], gwIn := [], rxIn := [] }

/-- The registers in which the relay counts: WT_HAUL_BAD, PORT_DROPCNT, and PORT_CNT and PORT_SLOT_LATE of a port. -/
def relayReg (a : Nat) : Prop :=
  a = Reg.WT_HAUL_BAD ∨ a = Reg.PORT_DROPCNT ∨ Reg.PORT_CTL ≤ a ∧ a < Reg.PORT_DEVID ∧ (a % 0x200 = 0x18 ∨ a % 0x200 = 0x20)

/-- Between two devices lies only what the relay does; of PORT_CNT it counts the packets that a port discards. -/
structure Relays (d e : Dev) : Prop where
  rest : e.unrelayed = d.unrelayed
  reg : ∀ a, ¬relayReg a → e.reg a = d.reg a
  drops : ∀ p, p < Config.nPorts → fld (e.reg (Reg.PORT_CNT + 0x200 * p)) 0 32 = fld (d.reg (Reg.PORT_CNT + 0x200 * p)) 0 32

theorem not_relayReg_of_lt {a : Nat} (h : a < Reg.WT_HAUL_BAD) : ¬relayReg a := by
  simp only [relayReg, Reg.WT_HAUL_BAD, Reg.PORT_DROPCNT, Reg.PORT_CTL] at h ⊢
  omega

namespace Relays

variable {d e f : Dev}

theorem refl (d : Dev) : Relays d d := ⟨rfl, fun _ _ => rfl, fun _ _ => rfl⟩

theorem trans (h : Relays d e) (g : Relays e f) : Relays d f :=
  ⟨g.rest.trans h.rest, fun a ha => (g.reg a ha).trans (h.reg a ha), fun p hp => (g.drops p hp).trans (h.drops p hp)⟩

/-- A change that writes no register and is hidden by `unrelayed`. -/
theorem of_regs (hr : e.regs = d.regs) (h : e.unrelayed = d.unrelayed) : Relays d e := by
  have hreg (a : Nat) : e.reg a = d.reg a := by rw [Dev.reg, Dev.reg, hr]
  exact ⟨h, fun a _ => hreg a, fun p _ => by rw [hreg]⟩

/-- Anything that `unrelayed` keeps is as it was. -/
theorem keeps {α : Type} (h : Relays d e) (f : Dev → α) : f e.unrelayed = f d.unrelayed := congrArg f h.rest

theorem tile (h : Relays d e) (t : Nat) : e.tile t = d.tile t := h.keeps (Dev.tile · t)
theorem region (h : Relays d e) (r : Nat) : e.region r = d.region r := h.keeps (Dev.region · r)
theorem port (h : Relays d e) (p : Nat) : e.port p = d.port p := h.keeps (Dev.port · p)
theorem hive (h : Relays d e) : e.hive = d.hive := h.keeps Dev.hive
theorem aon (h : Relays d e) : e.aon = d.aon := h.keeps Dev.aon
theorem flt (h : Relays d e) : e.flt = d.flt := h.keeps Dev.flt

theorem foldl {α : Type} {g : Dev → α → Dev} (l : List α) (hg : ∀ d, ∀ x ∈ l, Relays d (g d x)) (d : Dev) : Relays d (l.foldl g d) :=
  List.foldlRecOn (motive := fun e => Relays d e) l g (.refl d) fun e he x hx => he.trans (hg e x hx)

end Relays

namespace Dev

variable (d : Dev) {p : Nat}

/-- A counter of the relay that is not the low half of PORT_CNT. -/
theorem relays_count {a lo len : Nat} (n : Nat) (ha : relayReg a) (hlo : a % 0x200 = 0x18 → 32 ≤ lo) (hlen : lo + len ≤ 64) : Relays d (d.count a lo len n) := by
  refine ⟨rfl, fun b hb => reg_modReg_ne _ _ _ fun h => hb (h ▸ ha), fun p _ => ?_⟩
  by_cases h : Reg.PORT_CNT + 0x200 * p = a
  · subst h
    rw [count, reg_modReg_self, addCnt, fld_setFld_other _ _ _ _ _ _ hlen (.inr (hlo (by simp only [Reg.PORT_CNT]; omega)))]
  · rw [count, reg_modReg_ne _ _ _ h]

theorem relays_clean : Relays d d.clean := .of_regs rfl rfl

theorem relays_toPort (src : Nat) (k : Packet) (s : Dev × List Copy) (hp : p < Config.nPorts) : Relays s.1 (toPort src k s p).1 := by
  simp only [Config.nPorts] at hp
  unfold toPort
  split_ifs with hc
  · exact relays_count _ 1 (by simp only [relayReg, Reg.PORT_CNT, Reg.PORT_CTL, Reg.PORT_DEVID]; omega) (fun _ => le_rfl) le_rfl
  · dsimp only
    split_ifs
    · exact relays_count _ 1 (by simp only [relayReg, Reg.PORT_SLOT_LATE, Reg.PORT_CTL, Reg.PORT_DEVID]; omega)
        (fun h => by simp only [Reg.PORT_SLOT_LATE] at h; omega) (by omega)
    · exact .refl _

theorem relays_foldl_toPort (src : Nat) (k : Packet) (ps : List Nat) (hps : ∀ p ∈ ps, p < Config.nPorts) (s : Dev × List Copy) :
    Relays s.1 (ps.foldl (toPort src k) s).1 :=
  List.foldlRecOn (motive := fun e : Dev × List Copy => Relays s.1 e.1) ps _ (.refl _) fun e he x hx => he.trans (relays_toPort src k e (hps x hx))

theorem lt_nPorts_of_mem_maskPorts {m : Nat} (h : p ∈ maskPorts m) : p < Config.nPorts := List.mem_range.mp (List.mem_filter.mp h).1

theorem fld_lt_nPorts {w : Nat} (v : BitVec w) (lo : Nat) : fld v lo 4 < Config.nPorts := fld_lt ..

theorem relays_relayOuts (src : Nat) (k : Packet) : Relays d (d.relayOuts src k).1 := by
  have hone (v : W128) (lo : Nat) : ∀ p ∈ [fld v lo 4], p < Config.nPorts := by simpa using fld_lt_nPorts v lo
  have hmask (m : Nat) : ∀ p ∈ maskPorts m, p < Config.nPorts := fun _ => lt_nPorts_of_mem_maskPorts
  unfold relayOuts
  dsimp only
  split_ifs
  · exact relays_foldl_toPort _ _ _ (hmask _) (d, [])
  · exact relays_foldl_toPort _ _ _ (hmask _) (d, [])
  · exact .refl d
  · exact .refl d
  · exact relays_foldl_toPort _ _ _ (hone _ _) (d, [])
  · exact .refl d
  · exact .refl d
  · exact .refl d
  · exact relays_count _ 1 (.inr (.inl rfl)) (by decide) (by decide)
  · exact relays_foldl_toPort _ _ _ (hmask _) (d, [])
  · exact relays_foldl_toPort _ _ _ (hone _ _) (d, [])

theorem relays_accepted (k : Packet) : Relays d (d.accepted k) := by
  unfold accepted toUnit
  split_ifs
  · exact relays_count _ 1 (.inl rfl) (by decide) (by decide)
  · exact .of_regs rfl rfl
  · exact .refl d
  · exact .of_regs rfl rfl

theorem relays_arriveHere (k : Packet) : Relays d (d.arriveHere k) := by
  unfold arriveHere
  split_ifs
  · exact relays_count _ 1 (.inr (.inl rfl)) (by decide) (by decide)
  · exact .of_regs rfl rfl
  · exact .refl d
  · exact relays_accepted ..

theorem relays_relayIn (src : Nat) (k : Packet) : Relays d (d.relayIn src k) := by
  have houts : Relays d { (d.relayOuts src k).1 with flying := (d.relayOuts src k).1.flying ++ [Flight.taken ⟨relay, src, (d.relayOuts src k).2.1,
    some (d.relayOuts src k).2.2⟩] } := (d.relays_relayOuts src k).trans (.of_regs rfl rfl)
  unfold relayIn
  dsimp only
  split_ifs
  · exact houts.trans (relays_arriveHere ..)
  · exact houts

theorem relays_unitOut (k : Packet) : Relays d (d.unitOut k) := (d.relays_relayIn 16 k).trans (relays_clean _)

theorem relays_relayBody (src : Nat) (v : BitVec 2) (ws : List W128) : Relays d (d.relayBody src v ws) := by
  unfold relayBody
  split
  · exact .refl d
  · have hadd : Relays d { d with flying := addFlit d.flying relay src v ws } := .of_regs rfl rfl
    dsimp only
    split_ifs
    · exact hadd.trans (relays_arriveHere ..)
    · exact hadd

theorem relays_relayCut (src : Nat) (v : BitVec 2) : Relays d (d.relayCut src v) := by
  unfold relayCut
  split
  · exact .refl d
  · exact (relays_relayBody ..).trans (relays_clean _)

theorem relays_completeAll (p : Nat) : Relays d (d.completeAll p) := Relays.foldl _ (fun d v _ => d.relays_relayCut p v) d

end Dev

end Sys2Proof.Machine

/-! ## Cores, firmware and the latch (O55) -/

namespace Sys2Proof.Machine

open Sys2Proof Sys2Proof.Claims

/-! ### Sparse maps laid over each other -/

section

variable {V : Type} (f : Nat → V) {xs ys : SMap V} {k : Nat}

theorem SMap.get_append_of_notMem_left (h : ∀ e ∈ xs, e.1 ≠ k) : SMap.get f (xs ++ ys) k = SMap.get f ys k := by
  induction xs with
  | nil => rfl
  | cons e xs ih =>
    obtain ⟨he, hxs⟩ := List.forall_mem_cons.mp h
    rw [List.cons_append, SMap.get, if_neg (Ne.symm he), ih hxs]

theorem SMap.get_of_notMem (h : ∀ e ∈ ys, e.1 ≠ k) : SMap.get f ys k = f k := by
  have happ := SMap.get_append_of_notMem_left f (ys := []) h
  rwa [List.append_nil] at happ

theorem SMap.get_append_of_notMem_right (h : ∀ e ∈ ys, e.1 ≠ k) : SMap.get f (xs ++ ys) k = SMap.get f xs k := by
  induction xs with
  | nil => exact SMap.get_of_notMem f h
  | cons e xs ih => rw [List.cons_append, SMap.get, SMap.get, ih]

end

section

variable {d d₀ : Dev} {m k : Nat}

/-! ### Core resets (16 R360) -/

theorem lockReg_injective : Function.Injective lockReg := fun a b h => by simpa [lockReg] using h

theorem Dev.epochOf_epochUp (d : Dev) (hk : k < Config.nCores) : (d.epochUp k).epochOf k = (d.epochOf k + 1) % 4096 := by
  simp only [Config.nCores] at hk
  exact (congrArg (fld · (12 * k) 12) (Dev.reg_modReg_self ..)).trans (fld_setFld_self _ _ _ _ (by omega))

theorem Dev.reg_abandon_lock (d : Dev) (k : Nat) {n : Nat} (hn : n < 64) : (d.abandon k).reg (lockReg n) = abandonLock k (d.reg (lockReg n)) :=
  Dev.reg_foldl_modReg lockReg_injective List.nodup_range (List.mem_range.mpr hn) d

theorem Dev.reg_abandon_of_lt (d : Dev) (k : Nat) {a : Nat} (ha : a < Reg.HIVE_LOCK) : (d.abandon k).reg a = d.reg a :=
  Dev.reg_foldl_modReg_of_notMem (fun n _ => by simp only [lockReg]; omega) d

theorem Dev.reports_logEvent (d : Dev) (kind : Nat) : Reports d (d.logEvent kind) := by
  have hdrawn : Reports d d.drawn := .of_regs rfl rfl
  exact hdrawn.trans (Dev.reports_log ..)

/-- A core reset: the epoch advances, the locks of the core are abandoned, and the log is written. -/
theorem Dev.coreReset_spec (d : Dev) (hk : k < Config.nCores) : (d.coreReset k).epochOf k = (d.epochOf k + 1) % 4096 ∧
    ∀ n, n < 64 → (d.coreReset k).reg (lockReg n) = abandonLock k (d.reg (lockReg n)) := by
  have hlog : Reports ((d.epochUp k).abandon k) (d.coreReset k) := Dev.reports_logEvent ..
  refine ⟨?_, fun n hn => ?_⟩
  · rw [← d.epochOf_epochUp hk, Dev.epochOf, hlog.reg _ (by decide), Dev.reg_abandon_of_lt _ _ (by decide), Dev.epochOf]
  · rw [hlog.reg _ (by simp only [lockReg, Reg.HIVE_LOCK, Reg.HIVE_CNT]; omega), Dev.reg_abandon_lock _ _ hn, Dev.epochUp,
      Dev.reg_modReg_ne _ _ _ (by simp only [lockReg, Reg.HIVE_LOCK, Reg.HIVE_EPOCH]; omega)]

/-! ### Firmware (16 R362 to R364) -/

theorem Dev.phase_setPhase (d : Dev) {p : Nat} (hp : p < 8) : (d.setPhase p).phase = p := by
  rw [Dev.phase, Dev.setPhase, Dev.reg_modReg_self, fld_setFld_self _ _ _ _ (by decide)]
  exact Nat.mod_eq_of_lt hp

theorem Dev.reg_setPhase_ne (d : Dev) (p : Nat) {a : Nat} (ha : a ≠ Reg.HOST_STATUS) : (d.setPhase p).reg a = d.reg a := Dev.reg_modReg_ne _ _ _ ha

/-- The image of `len` bytes lies over the bytes of a shared memory. -/
theorem Dev.read_fwImage (d : Dev) (len : Nat) (mem : Memory) (a : Nat) :
    Memory.read (d.fwImage len mem) a = if a < len then Memory.read d.hive.staging a else Memory.read mem a := by
  unfold Memory.read Dev.fwImage
  split
  · next h =>
    have hout : ∀ e ∈ mem.filter fun e => decide (len ≤ e.1), e.1 ≠ a := fun e he => by
      have := (List.mem_filter.mp he).2
      simp only [decide_eq_true_eq] at this
      omega
    rw [SMap.get_append_of_notMem_right _ hout, SMap.get_filter _ (by simpa using h)]
  · next h =>
    have hout : ∀ e ∈ d.hive.staging.filter fun e => decide (e.1 < len), e.1 ≠ a := fun e he => by
      have := (List.mem_filter.mp he).2
      simp only [decide_eq_true_eq] at this
      omega
    rw [SMap.get_append_of_notMem_left _ hout, SMap.get_filter _ (by simpa using h)]

/-- GO: the image is checked, at once when the boot ROM waits for firmware. -/
theorem Dev.fwGo_spec (hbusy : d.fwBusy = false) (hrun : d.hive.run = false) : d.fwGo.fwBusy = true ∧ (d.phase = 2 ∨ d.phase = 5 → d.fwGo.phase = 3) := by
  obtain ⟨e, he⟩ : ∃ e, e = d.modReg Reg.HIVE_FW fun v => setBit v 17 := ⟨_, rfl⟩
  have hb : e.fwBusy = true := by rw [he, Dev.fwBusy, Dev.reg_modReg_self, bit_setBit_self _ _ (by decide)]
  have hp : e.phase = d.phase := by rw [he, Dev.phase, Dev.reg_modReg_ne _ _ _ (by decide), Dev.phase]
  unfold Dev.fwGo
  dsimp only
  rw [if_neg (by simp [hbusy, hrun]), ← he, hp]
  split
  · exact ⟨(congrArg (bit · 17) (Dev.reg_setPhase_ne _ _ (by decide))).trans hb, fun _ => Dev.phase_setPhase _ (by decide)⟩
  · next h => exact ⟨hb, fun h' => absurd h' h⟩

/-- FW_CHECK_COMPLETE: the result stands in HIVE_FW, and the image that passes runs. -/
theorem Dev.fwChecked_spec (hbusy : d.fwBusy = true) (hphase : d.phase = 3) :
    d.fwChecked.fwBusy = false ∧ fld (d.fwChecked.reg Reg.HIVE_FW) 0 16 = d.fwCheck.toNat ∧
    d.fwChecked.hive.run = (decide (d.fwCheck = St.OK) || d.hive.run) ∧ d.fwChecked.phase = (if d.fwCheck = St.OK then 4 else 5) ∧
    d.fwChecked.hive.entry = (if d.fwCheck = St.OK then BitVec.ofNat 32 (d.fwNat 0x10 4) else d.hive.entry) ∧
    d.fwChecked.hive.shared = (if d.fwCheck = St.OK then d.hive.shared.map (d.fwImage (d.fwNat 8 4)) else d.hive.shared) := by
  obtain ⟨e, he⟩ : ∃ e, e = d.modReg Reg.HIVE_FW fun v => clrBit (setFld v 0 16 d.fwCheck.toNat) 17 := ⟨_, rfl⟩
  have hreg : e.reg Reg.HIVE_FW = clrBit (setFld (d.reg Reg.HIVE_FW) 0 16 d.fwCheck.toNat) 17 := by rw [he, Dev.reg_modReg_self]
  have hfield : fld (e.reg Reg.HIVE_FW) 0 16 = d.fwCheck.toNat := by
    rw [hreg, fld_clrBit_other _ _ _ _ (.inr (by decide)), fld_setFld_self _ _ _ _ (by decide)]
    exact Nat.mod_eq_of_lt d.fwCheck.isLt
  have hidle : bit (e.reg Reg.HIVE_FW) 17 = false := by rw [hreg, bit_clrBit_self]
  have hh : e.hive = d.hive := by rw [he]; rfl
  unfold Dev.fwChecked
  dsimp only
  rw [if_pos ⟨hbusy, hphase⟩, ← he]
  by_cases hok : d.fwCheck = St.OK
  · simp only [if_pos hok]
    have hkeep (a : Nat) (ha : a ≠ Reg.HOST_STATUS) : e.fwStart.reg a = e.reg a := Dev.reg_setPhase_ne _ _ ha
    refine ⟨(congrArg (bit · 17) (hkeep _ (by decide))).trans hidle, (congrArg (fld · 0 16) (hkeep _ (by decide))).trans hfield, ?_,
      Dev.phase_setPhase _ (by decide), ?_, ?_⟩
    · simp [hok, Dev.fwStart, Dev.setPhase, Dev.modReg, Dev.setReg]
    · rw [he]
      rfl
    · rw [he]
      rfl
  · simp only [if_neg hok]
    have hkeep (a : Nat) (ha : a ≠ Reg.HOST_STATUS) : (e.setPhase 5).reg a = e.reg a := Dev.reg_setPhase_ne _ _ ha
    refine ⟨(congrArg (bit · 17) (hkeep _ (by decide))).trans hidle, (congrArg (fld · 0 16) (hkeep _ (by decide))).trans hfield, ?_,
      Dev.phase_setPhase _ (by decide), congrArg Hive.entry hh, congrArg Hive.shared hh⟩
    rw [decide_eq_false hok, Bool.false_or]
    exact congrArg Hive.run hh

/-- What stands of a reply does not depend on other registers, nor on the latch. -/
theorem replied_of_keeps {st : W16} {e : Dev} (h : Replied m st d₀ d) (hreg : e.reg Reg.HIVE_MBOXST = d.reg Reg.HIVE_MBOXST) (hbox : e.hive.mbox = d.hive.mbox) :
    Replied m st d₀ e := by
  simpa only [Replied, Dev.mbState, Dev.mbNat, hreg, hbox] using h

/-- Resets of cores write the epochs and the locks alone. -/
theorem Dev.resetCores_frame (l : List Nat) (d : Dev) : (l.foldl (fun d k => (d.epochUp k).abandon k) d).hive = d.hive ∧
    ∀ a, a < Reg.HIVE_EPOCH → (l.foldl (fun d k => (d.epochUp k).abandon k) d).reg a = d.reg a := by
  refine ⟨?_, fun a ha => ?_⟩
  · refine Dev.foldl_keeps (G := Dev.hive) ?_ l d
    intro d k
    refine Dev.foldl_keeps (G := Dev.hive) ?_ _ (d.epochUp k)
    exact fun _ _ => rfl
  refine Dev.foldl_keeps (G := (Dev.reg · a)) ?_ l d
  intro d k
  exact (Dev.reg_abandon_of_lt _ _ (by simp only [Reg.HIVE_EPOCH, Reg.HIVE_LOCK] at *; omega)).trans (Dev.reg_modReg_ne _ _ _ (by omega))

/-- A device whose cores were reset and wait for firmware (16 R364). -/
def Dev.noFirmware (d : Dev) : Dev :=
  ({ d with
    hive := { d.hive with run := false, fwver := 0, began := [], noReply := [], late := [], payloads := [] }
    aon := { d.aon with owner := .nobody } } : Dev).negClear.setPhase 2

theorem Dev.reg_noFirmware (d : Dev) {a : Nat} (ha : a ≠ Reg.HOST_STATUS) : d.noFirmware.reg a = d.reg a := (Dev.reg_setPhase_ne _ _ ha).trans rfl

theorem Dev.fwReload_eq (hserving : ∀ r, r < Config.nRegions → (d.region r).serving = false) (hsessions : d.wt.sessions = []) :
    d.fwReload m = ((List.range Config.nCores).foldl (fun d k => (d.epochUp k).abandon k) (d.reply m St.OK)).noFirmware := by
  have hgo : (((List.range Config.nRegions).any fun r => (d.region r).serving) || !d.wt.sessions.isEmpty) = false := by
    simpa [hsessions] using hserving
  rw [Dev.fwReload, if_neg (by simp [hgo])]
  rfl

theorem Replied.noFirmware {st : W16} (h : Replied m st d₀ d) : Replied m st d₀ d.noFirmware :=
  replied_of_keeps h (d.reg_noFirmware (by decide)) rfl

theorem Replied.resetCores {st : W16} (h : Replied m st d₀ d) (l : List Nat) : Replied m st d₀ (l.foldl (fun d k => (d.epochUp k).abandon k) d) := by
  obtain ⟨hhive, hreg⟩ := d.resetCores_frame l
  exact replied_of_keeps h (hreg _ (by decide)) (congrArg Hive.mbox hhive)

/-! ### The authority latch (16 R365 to R369) -/

theorem pairIdx_cases (east : Bool) : pairIdx east = 0 ∨ pairIdx east = 1 := by cases east <;> simp [pairIdx]

theorem getD_set_self {α : Type} (l : List α) (i : Nat) (x y : α) (h : i < l.length ∨ y = x) : (l.set i x).getD i y = x := by
  rcases h with h | rfl
  · simp [List.getD_eq_getElem?_getD, h]
  · simp only [List.getD_eq_getElem?_getD, List.getElem?_set_self']
    cases l[i]? <;> rfl

/-- A pair that holds the latch and does not act on it. -/
theorem Dev.authority_of_owner {east : Bool} (h : d.aon.owner = pairOwner east) :
    d.authority = (d.hive.run && (!d.hive.demoted.getD (pairIdx east) false && !d.seamF east)) := by
  rw [Dev.authority, h]
  cases east <;> rfl

/-- A refresh by the pair that acts on the latch. -/
theorem Dev.latchRefresh_of_owner {east : Bool} (ack : Bool) (hrun : d.hive.run = true) (howner : d.aon.owner = pairOwner east)
    (hd : d.hive.demoted.getD (pairIdx east) false = false) (hs : d.seamF east = false) :
    d.latchRefresh east ack =
      if ack then { d with aon := { d.aon with since := 0 }, hive := { d.hive with nack := d.hive.nack.set (pairIdx east) 0 } }
      else { d with hive := { d.hive with
        nack := d.hive.nack.set (pairIdx east) (d.hive.nack.getD (pairIdx east) 0 + 1)
        demoted := if d.hive.nack.getD (pairIdx east) 0 + 1 ≥ 2 then d.hive.demoted.set (pairIdx east) true else d.hive.demoted } } := by
  have hgo : ¬(d.hive.run = false ∨ d.aon.owner ≠ pairOwner east ∨ d.hive.demoted.getD (pairIdx east) false = true ∨ d.seamF east = true) := by
    rw [hrun, howner, hd, hs]
    simp
  unfold Dev.latchRefresh
  dsimp only
  rw [if_neg hgo]

/-- The second refresh in a row that is not acknowledged demotes the owner. -/
theorem Dev.latchRefresh_demotes {east : Bool} (hrun : d.hive.run = true) (howner : d.aon.owner = pairOwner east)
    (hd : d.hive.demoted.getD (pairIdx east) false = false) (hs : d.seamF east = false) (hlen : d.hive.demoted.length = 2)
    (hnack : d.hive.nack.getD (pairIdx east) 0 = 1) : (d.latchRefresh east false).authority = false := by
  have hi : pairIdx east < d.hive.demoted.length := by
    rcases pairIdx_cases east with h | h <;> omega
  rw [Dev.latchRefresh_of_owner false hrun howner hd hs, hnack, if_neg (by simp), if_pos (by decide)]
  refine (Dev.authority_of_owner (east := east) ?_).trans ?_
  · exact howner
  · simp only [getD_set_self _ _ _ _ (Or.inl hi), Bool.not_true, Bool.false_and, Bool.and_false]

end

end Sys2Proof.Machine

/-! ## A pair takes the latch (16 R365 to R368) -/

namespace Sys2Proof.Machine

open Sys2Proof Sys2Proof.Claims

/-! ### Replies to other mailboxes -/

/-- Only mailbox `k` was answered between two devices. -/
structure AnswersOnly (k : Nat) (d e : Dev) : Prop where
  state : ∀ m, m ≠ k → e.mbState m = d.mbState m
  bytes : ∀ m off n, m ≠ k → off + n ≤ 4096 → e.mbNat m off n = d.mbNat m off n
  reg : ∀ a, a ≠ Reg.HIVE_MBOXST → e.reg a = d.reg a
  aon : e.aon = d.aon
  run : e.hive.run = d.hive.run
  demoted : e.hive.demoted = d.hive.demoted
  noReply : ∀ m, m ∈ e.hive.noReply → m ∈ d.hive.noReply

section

variable {d d₀ e : Dev} {m k : Nat} {st : W16}

theorem AnswersOnly.authority (h : AnswersOnly k d e) : e.authority = d.authority := by
  simp only [Dev.authority, Dev.seamF, h.aon, h.run, h.demoted, h.reg Reg.HIVE_STATUS (by decide)]

theorem Awaits.answersOnly (h : Awaits m d₀ d) (g : AnswersOnly k d e) (hm : m ≠ k) : Awaits m d₀ e where
  lt := h.lt
  authority := g.authority.trans h.authority
  running := (g.state m hm).trans h.running
  wanted := fun hn => h.wanted (g.noReply m hn)
  words := (g.bytes m 0 8 hm (by decide)).trans h.words

theorem replied_of_answersOnly (h : Replied m st d₀ d) (g : AnswersOnly k d e) (hm : m ≠ k) : Replied m st d₀ e := by
  obtain ⟨hstate, hstatus, hwords⟩ := h
  exact ⟨(g.state m hm).trans hstate, (g.bytes m 8 4 hm (by decide)).trans hstatus, (g.bytes m 0 8 hm (by decide)).trans hwords⟩

/-- The message area of a mailbox lies outside the reply of another. -/
theorem mbNat_reply_area (mem : Memory) (bs : List Byte) {off n : Nat} (hb : bs.length ≤ 4088) (hm : m ≠ k) (hoff : off + n ≤ 4096) :
    ((Memory.clear mem (4096 * k + 8) 4088).writeN (4096 * k + 8) bs).readNat (4096 * m + off) n = mem.readNat (4096 * m + off) n := by
  rw [Memory.readNat_writeN_outside (by omega)]
  exact Memory.readNat_congr fun x _ _ => Memory.read_clear_outside mem (by omega)

theorem Dev.replyFull_answersOnly (d : Dev) (hk : k < Config.nMailboxes) (st : W16) (detail : W32) (w57 : List W32) (data : List Byte) :
    AnswersOnly k d (d.replyFull k st detail w57 data) := by
  have hfilter {l : List Nat} {m : Nat} (h : m ∈ l.filter fun i => decide (i ≠ k)) : m ∈ l := List.mem_of_mem_filter h
  have hdone (e : Dev) (g : AnswersOnly k d e) : AnswersOnly k d (e.setMbState k 3) :=
    ⟨fun m hm => (Dev.mbState_setMbState_ne e 3 hk hm).trans (g.state m hm), g.bytes, fun a ha => (Dev.reg_modReg_ne _ _ _ ha).trans (g.reg a ha),
      g.aon, g.run, g.demoted, g.noReply⟩
  have hirq (e : Dev) (v : Nat) (g : AnswersOnly k d e) : AnswersOnly k d (e.irq v) := by
    obtain ⟨_, _, he⟩ := e.irq_frame v
    rw [he]
    exact ⟨g.state, g.bytes, g.reg, g.aon, g.run, g.demoted, g.noReply⟩
  unfold Dev.replyFull
  dsimp only
  split_ifs
  · exact ⟨fun _ _ => rfl, fun _ _ _ _ _ => rfl, fun _ _ => rfl, rfl, rfl, rfl, fun _ h => h⟩
  · exact ⟨fun _ _ => rfl, fun _ _ _ _ _ => rfl, fun _ _ => rfl, rfl, rfl, rfl, fun _ h => hfilter h⟩
  · exact hdone _ ⟨fun _ _ => rfl, fun _ _ _ hm ho => mbNat_reply_area _ _ (by simp; omega) hm ho, fun _ _ => rfl, rfl, rfl, rfl, fun _ h => hfilter h⟩
  · exact hirq _ _ (hdone _ ⟨fun _ _ => rfl, fun _ _ _ hm ho => mbNat_reply_area _ _ (by simp; omega) hm ho, fun _ _ => rfl, rfl, rfl, rfl,
      fun _ h => hfilter h⟩)
  · exact ⟨fun _ _ => rfl, fun _ _ _ _ _ => rfl, fun _ _ => rfl, rfl, rfl, rfl, fun _ h => hfilter h⟩

/-- Every mailbox of a list that runs a command is answered. -/
theorem Awaits.replied_foldl (l : List Nat) (hl : l.Nodup) (hlt : ∀ k ∈ l, k < Config.nMailboxes) (hm : m ∈ l) (h : Awaits m d₀ d) :
    Replied m st d₀ (l.foldl (fun d m => if d.mbState m = 2 then d.reply m st else d) d) := by
  have hother {l : List Nat} (hlt : ∀ k ∈ l, k < Config.nMailboxes) (hm : m ∉ l) (d : Dev) (h : Replied m st d₀ d) :
      Replied m st d₀ (l.foldl (fun d m => if d.mbState m = 2 then d.reply m st else d) d) :=
    List.foldlRecOn (motive := fun e => Replied m st d₀ e) l _ h fun e he k hk => by
      split
      · exact replied_of_answersOnly he (e.replyFull_answersOnly (hlt k hk) _ _ _ _) fun hmk => hm (hmk ▸ hk)
      · exact he
  induction l generalizing d with
  | nil => exact absurd hm List.not_mem_nil
  | cons k l ih =>
    obtain ⟨hkl, hnodup⟩ := List.nodup_cons.mp hl
    obtain ⟨hk, hlts⟩ := List.forall_mem_cons.mp hlt
    rw [List.foldl_cons]
    rcases List.mem_cons.mp hm with rfl | hml
    · rw [if_pos h.running]
      exact hother hlts hkl _ (h.replied st 0 [] [])
    · refine ih hnodup hlts hml ?_
      split
      · exact h.answersOnly (d.replyFull_answersOnly hk _ _ _ _) fun hmk => hkl (hmk ▸ hml)
      · exact h

/-! ### What a claim leaves of the Hive -/

/-- Nothing of the Hive lies between two devices, nor a register below those of the weight tier's haul. -/
def HiveKept (d e : Dev) : Prop := e.hive = d.hive ∧ ∀ a, a < Reg.WT_HAUL_BAD → e.reg a = d.reg a

theorem HiveKept.refl (d : Dev) : HiveKept d d := ⟨rfl, fun _ _ => rfl⟩

theorem HiveKept.trans {f : Dev} (h : HiveKept d e) (g : HiveKept e f) : HiveKept d f :=
  ⟨g.1.trans h.1, fun a ha => (g.2 a ha).trans (h.2 a ha)⟩

theorem Relays.hiveKept (h : Relays d e) : HiveKept d e := ⟨h.hive, fun a ha => h.reg a (not_relayReg_of_lt ha)⟩

theorem Dev.hiveKept_modWt (d : Dev) (f : WTier → WTier) : HiveKept d (d.modWt f) := ⟨rfl, fun _ _ => rfl⟩

theorem Dev.hiveKept_unitSend (d : Dev) (route : Nat) (kind : BitVec 4) (vc : BitVec 2) (sflow : Nat) (ws : List W128) :
    HiveKept d (d.unitSend route kind vc sflow ws) := by
  unfold Dev.unitSend
  split
  · exact .refl d
  · dsimp only
    split
    · exact (Dev.relays_accepted ..).hiveKept
    · refine HiveKept.trans ?_ (Dev.relays_unitOut ..).hiveKept
      exact ⟨rfl, fun _ _ => rfl⟩

/-- A record that is finished without a mailbox sends its acknowledgement at most. -/
theorem Dev.hiveKept_afterRecord (d : Dev) {p : JPend} (hp : p.reply = none) : HiveKept d (d.afterRecord p) := by
  have hsession (e : Dev) : HiveKept e (match p.session with
      | some q => match e.session? q with
        | some s => e.sendAck s 3 0 0 (e.reg Reg.WT_JSEQ)
        | none => e
      | none => e) := by
    split
    · split
      · exact Dev.hiveKept_unitSend ..
      · exact .refl e
    · exact .refl e
  unfold Dev.afterRecord
  dsimp only
  rw [hp]
  cases p.alloc with
  | none =>
    dsimp only
    exact hsession d
  | some i =>
    dsimp only
    have halloc := d.hiveKept_modWt fun w => (w.putImage i).own i.rect i.xset i.id i.gen true
    generalize (d.modWt fun w => (w.putImage i).own i.rect i.xset i.id i.gen true) = e at halloc
    exact halloc.trans (hsession e)

theorem Dev.hiveKept_finishRecords (d : Dev) : HiveKept d d.finishRecords := by
  have hstage : HiveKept d d.stage3 := by
    unfold Dev.stage3
    exact d.hiveKept_modWt _
  unfold Dev.finishRecords
  split
  · split
    · refine hstage.trans (Dev.hiveKept_afterRecord _ ?_)
      rfl
    · exact .refl d
  · exact .refl d

end

end Sys2Proof.Machine

/-! ## The claim of the latch, SEAM_FAULT, and the settlement of O55 -/

namespace Sys2Proof.Machine

open Sys2Proof Sys2Proof.Claims

section

variable {d d₀ : Dev} {m : Nat} {st : W16}

/-! ### LATCH_CLAIM (16 R365, R368) -/

theorem Dev.reg_coreReset (d : Dev) (k : Nat) {a : Nat} (ha : a < Reg.HIVE_CNT) : (d.coreReset k).reg a = d.reg a := by
  have hlog : Reports ((d.epochUp k).abandon k) (d.coreReset k) := Dev.reports_logEvent ..
  simp only [Reg.HIVE_CNT] at ha
  rw [hlog.reg _ (by simp only [Reg.HIVE_CNT]; omega), Dev.reg_abandon_of_lt _ _ (by simp only [Reg.HIVE_LOCK]; omega), Dev.epochUp,
    Dev.reg_modReg_ne _ _ _ (by simp only [Reg.HIVE_EPOCH]; omega)]

theorem Dev.hive_abandon (d : Dev) (k : Nat) : (d.abandon k).hive = d.hive := by
  refine Dev.foldl_keeps (G := Dev.hive) ?_ _ d
  exact fun _ _ => rfl

theorem Dev.mbox_coreReset (d : Dev) (k : Nat) : (d.coreReset k).hive.mbox = d.hive.mbox := by
  have hlog : Reports ((d.epochUp k).abandon k) (d.coreReset k) := Dev.reports_logEvent ..
  exact (hlog.keeps (·.hive.mbox) : (d.coreReset k).hive.mbox = ((d.epochUp k).abandon k).hive.mbox).trans (congrArg Hive.mbox ((d.epochUp k).hive_abandon k) :)

theorem Replied.setHive {v : Hive} (h : Replied m st d₀ d) (hv : v.mbox = d.hive.mbox) : Replied m st d₀ { d with hive := v } :=
  replied_of_keeps h rfl hv

theorem Replied.pairReset (h : Replied m st d₀ d) (east : Bool) : Replied m st d₀ (d.pairReset east) := by
  have hcores (i j : Nat) : Replied m st d₀ ((d.coreReset i).coreReset j) := replied_of_keeps h
    ((Dev.reg_coreReset _ _ (by decide)).trans (Dev.reg_coreReset _ _ (by decide))) ((Dev.mbox_coreReset ..).trans (Dev.mbox_coreReset ..))
  unfold Dev.pairReset
  exact Replied.setHive (hcores ..) rfl

/-- A device with nothing that goes on for a mailbox. -/
def Dev.mboxIdle (d : Dev) : Dev :=
  { d.mboxForget with hive := { d.hive with began := [], noReply := [], late := [], payloads := [] } }

theorem Dev.authorityLost_eq (d : Dev) : d.authorityLost =
    (List.range Config.nMailboxes).foldl (fun d m => if d.mbState m = 2 then d.reply m St.AUTHORITY_LOST else d) d.mboxIdle := rfl

/-- Every mailbox in RUNNING ends with AUTHORITY_LOST while the pair that took the latch acts on it. -/
theorem Dev.authorityLost_replied (hm : m < Config.nMailboxes) (ha : d.authority = true) (hrun : d.mbState m = 2) :
    Replied m St.AUTHORITY_LOST d d.authorityLost := by
  have hawaits : Awaits m d d.mboxIdle := ⟨hm, ha, hrun, List.not_mem_nil, rfl⟩
  rw [Dev.authorityLost_eq]
  exact hawaits.replied_foldl _ List.nodup_range (fun _ h => List.mem_range.mp h) (List.mem_range.mpr hm)

/-- A pair that claims and takes the latch acts on it. -/
theorem Dev.authority_latchTake {east : Bool} (h : d.claims east = true) : (d.latchTake east).authority = true := by
  simp only [Dev.claims, Bool.and_eq_true, Bool.not_eq_true'] at h
  obtain ⟨⟨hrun, hseam⟩, -⟩ := h
  have hdemoted : (d.latchTake east).hive.demoted.getD (pairIdx east) false = false := getD_set_self _ _ _ _ (.inr rfl)
  have hself : (d.latchTake east).hive.run = true := hrun
  have hfine : (d.latchTake east).seamF east = false := hseam
  rw [Dev.authority_of_owner (east := east) rfl, hself, hdemoted, hfine]
  rfl

/-- The claim up to the point where the mailboxes are answered. -/
def Dev.claimed (d : Dev) (east : Bool) : Dev := ((d.latchTake east).logEvent 3).finishRecords

theorem Dev.claimed_keeps (d : Dev) (east : Bool) : (d.claimed east).authority = (d.latchTake east).authority ∧
    (∀ k, (d.claimed east).mbState k = d.mbState k) ∧ (d.claimed east).aon = (d.latchTake east).aon := by
  have hlog := (d.latchTake east).reports_logEvent 3
  obtain ⟨hhive, hreg⟩ := ((d.latchTake east).logEvent 3).hiveKept_finishRecords
  have haon : (d.claimed east).aon = (d.latchTake east).aon := (Dev.finishRecords_aon ..).trans hlog.aon
  have hregs (a : Nat) (ha : a < Reg.HIVE_CNT) : (d.claimed east).reg a = d.reg a :=
    (hreg a (ha.trans (by decide))).trans (hlog.reg a (Nat.ne_of_lt ha))
  have hrun : (d.claimed east).hive.run = (d.latchTake east).hive.run := (congrArg Hive.run hhive).trans (hlog.keeps (·.hive.run))
  have hdemoted : (d.claimed east).hive.demoted = (d.latchTake east).hive.demoted :=
    (congrArg Hive.demoted hhive).trans (hlog.keeps (·.hive.demoted))
  have hstatus : (d.claimed east).reg Reg.HIVE_STATUS = (d.latchTake east).reg Reg.HIVE_STATUS := hregs _ (by decide)
  refine ⟨?_, fun k => ?_, haon⟩
  · simp only [Dev.authority, Dev.seamF, haon, hrun, hdemoted, hstatus]
  · rw [Dev.mbState, hregs _ (by decide), Dev.mbState]

theorem Dev.latchClaim_spec {east : Bool} {x : BitVec 16} (hc : d.claims east = true) (hx : d.claimOk x = true) :
    (d.latchClaim east x).aon.owner = pairOwner east ∧ (d.latchClaim east x).aon.epoch = d.aon.epoch + 1 ∧ (d.latchClaim east x).aon.since = 0 ∧
    ∀ m, m < Config.nMailboxes → d.mbState m = 2 → (d.latchClaim east x).mbState m = 3 ∧ (d.latchClaim east x).mbNat m 8 4 = St.AUTHORITY_LOST.toNat := by
  obtain ⟨hauth, hstate, haon⟩ := d.claimed_keeps east
  have heq : d.latchClaim east x =
      if d.aon.owner = pairOwner (!east) then (d.claimed east).authorityLost.pairReset (!east) else (d.claimed east).authorityLost := by
    rw [Dev.latchClaim, if_pos (by simp [hc, hx])]
    rfl
  have hkept : (d.latchClaim east x).aon = (d.latchTake east).aon := by
    rw [heq, ← haon]
    split <;> simp
  have hlost (m : Nat) (hm : m < Config.nMailboxes) (hr : d.mbState m = 2) : Replied m St.AUTHORITY_LOST (d.claimed east) (d.latchClaim east x) := by
    have hreplied := Dev.authorityLost_replied hm (hauth.trans (Dev.authority_latchTake hc)) ((hstate m).trans hr)
    rw [heq]
    split
    · exact Replied.pairReset hreplied _
    · exact hreplied
  refine ⟨congrArg AlwaysOn.owner hkept, congrArg AlwaysOn.epoch hkept, congrArg AlwaysOn.since hkept, fun m hm hr => ?_⟩
  obtain ⟨hdone, hstatus, -⟩ := hlost m hm hr
  exact ⟨hdone, hstatus⟩

/-! ### Heartbeats and SEAM_FAULT (16 R367, R369) -/

/-- The third heartbeat that a pair misses in a row makes it claim. -/
theorem Dev.heartbeatMiss_claims {east : Bool} (hrun : d.hive.run = true) (hlen : d.hive.claiming.length = 2)
    (hmiss : d.hive.miss.getD (pairIdx east) 0 = 2) (hs : d.seamF east = false) : (d.heartbeatMiss east).hive.claiming.getD (pairIdx east) false = true := by
  have hi : pairIdx east < d.hive.claiming.length := by
    rcases pairIdx_cases east with h | h <;> omega
  unfold Dev.heartbeatMiss
  dsimp only
  rw [if_pos hrun, hmiss, hs, if_pos (by decide)]
  exact getD_set_self _ _ _ _ (.inl hi)

/-- The half whose seam fails: the bit is set and the pair claims no more. -/
def Dev.seamLost (d : Dev) (east : Bool) : Dev :=
  let d := d.modReg Reg.HIVE_STATUS fun v => setBit v (if east then 4 else 3)
  { d with hive := { d.hive with claiming := d.hive.claiming.set (pairIdx east) false } }

theorem Dev.tile_alert (d : Dev) (t : Nat) : d.alert.tile t = d.tile t := rfl

/-- SEAM_FAULT after the regions are in FAULT: the tiles are held, and a lone half raises the alert. -/
def Dev.halfHeld (d : Dev) (east : Bool) : Dev :=
  let held := d.modTiles (tilesOfHalf east) fun t => { t with stopped := true }
  if d.seamF (!east) then held else held.alert

theorem Dev.halfHeld_frame (d : Dev) (east : Bool) : ∃ tiles aon, d.halfHeld east = { d with tiles := tiles, aon := aon } ∧
    (d.seamF (!east) = false → aon.alertN = true) ∧ ∀ t ∈ tilesOfHalf east, ((d.halfHeld east).tile t).stopped = true := by
  have hstopped (t : Nat) (ht : t ∈ tilesOfHalf east) : ((d.modTiles (tilesOfHalf east) fun t => { t with stopped := true }).tile t).stopped = true :=
    Dev.modTiles_of_mem (P := fun x => x.stopped = true) (fun _ => rfl) (.inl ht)
  obtain ⟨ts, hts⟩ := onlyTiles_modTiles d (tilesOfHalf east) fun t => { t with stopped := true }
  unfold Dev.halfHeld
  dsimp only
  split
  · next h => exact ⟨ts, d.aon, hts, fun h' => absurd (h'.symm.trans h) Bool.false_ne_true, hstopped⟩
  · refine ⟨ts, { d.aon with alertN := true }, ?_, fun _ => rfl, fun t ht => ?_⟩
    · rw [hts]
      rfl
    · rw [Dev.tile_alert]
      exact hstopped t ht

/-- SEAM_FAULT but for its record: the half is lost, its regions go to FAULT, its tiles are held. -/
def Dev.seamHeld (d : Dev) (east : Bool) : Dev := (((d.seamLost east).regionsOfHalf east).foldl Dev.tripRegion (d.seamLost east)).halfHeld east

theorem Dev.seamFault_eq {east : Bool} (hs : d.seamF east = false) :
    d.seamFault east = if (d.seamHeld east).authority then (d.seamHeld east).record (errBase 9 11 St.SEAM_FAULT) else d.seamHeld east := by
  rw [Dev.seamFault, if_neg (by simp [hs])]
  rfl

theorem Dev.seamFault_reports {east : Bool} (hs : d.seamF east = false) : Reports (d.seamHeld east) (d.seamFault east) := by
  rw [Dev.seamFault_eq hs]
  split
  · exact Dev.reports_record ..
  · exact .refl _

theorem Dev.seamF_seamLost (d : Dev) (east : Bool) : (d.seamLost east).seamF east = true ∧ (d.seamLost east).seamF (!east) = d.seamF (!east) := by
  have hreg : (d.seamLost east).reg Reg.HIVE_STATUS = setBit (d.reg Reg.HIVE_STATUS) (if east then 4 else 3) :=
    d.reg_modReg_self Reg.HIVE_STATUS fun v => setBit v (if east then 4 else 3)
  constructor
  · rw [Dev.seamF, hreg]
    exact bit_setBit_self _ _ (by cases east <;> decide)
  · rw [Dev.seamF, hreg]
    refine bit_setBit_ne (v := d.reg Reg.HIVE_STATUS) ?_
    cases east <;> decide

theorem Dev.seamFault_spec {east : Bool} (hs : d.seamF east = false) :
    (d.seamFault east).seamF east = true ∧ (d.seamF (!east) = false → (d.seamFault east).aon.alertN = true) ∧
    (∀ t ∈ tilesOfHalf east, ((d.seamFault east).tile t).stopped = true) ∧ ∀ r ∈ d.regionsOfHalf east, ((d.seamFault east).region r).st = .fault := by
  have hrep := Dev.seamFault_reports hs
  have hregions : (d.seamLost east).regionsOfHalf east = d.regionsOfHalf east := by
    simp only [Dev.regionsOfHalf, Dev.loaded, show ∀ r, (d.seamLost east).region r = d.region r from fun _ => rfl]
  obtain ⟨hself, hother⟩ := d.seamF_seamLost east
  have hfault (r : Nat) (hr : r ∈ d.regionsOfHalf east) := Dev.fault_foldl_tripRegion (d.regionsOfHalf east) (d.seamLost east) (.inl hr)
  have hstatus := Dev.reg_foldl_tripRegion (d.regionsOfHalf east) (d.seamLost east) (a := Reg.HIVE_STATUS) (not_finishRegs (.inr (by decide)))
  rw [Dev.seamHeld, hregions] at hrep
  generalize (d.regionsOfHalf east).foldl Dev.tripRegion (d.seamLost east) = e at hrep hfault hstatus
  obtain ⟨tiles, aon, he, halert, hstopped⟩ := e.halfHeld_frame east
  have hseam (b : Bool) : (d.seamFault east).seamF b = (d.seamLost east).seamF b := by
    rw [Dev.seamF, hrep.reg _ (by decide), he, Dev.seamF, ← hstatus]
    rfl
  refine ⟨(hseam _).trans hself, fun hlone => ?_, fun t ht => ?_, fun r hr => ?_⟩
  · rw [hrep.aon, he]
    exact halert ((congrArg (bit · _) hstatus).trans (hother.trans hlone))
  · rw [hrep.tile]
    exact hstopped t ht
  · rw [hrep.region, he]
    exact hfault r hr

end

/-- Settles O55. WAIT_FW after FW_RELOAD, the epoch and the locks of a core that is reset without firmware, and the claim after three misses in a row are
log 52's choices. -/
theorem coresFirmwareAndLatch : Obligations.CoresFirmwareAndLatch := by
  intro s
  refine ⟨fun k hk c hc => ?_, fun hbusy hrun => ?_, fun hbusy hphase => ?_, fun m hready hserving hsessions => ?_, fun east hrun howner hd hseam => ⟨?_, fun hlen hnack => ?_⟩,
    fun east x hclaims hx => ?_, fun east hrun hlen hmiss hseam => ?_, fun east => ?_, fun east hseam => ?_⟩
  · have hspec := s.dev.coreReset_spec hk
    simp only [List.mem_cons, List.not_mem_nil, or_false] at hc
    rcases hc with rfl | rfl
    · exact completes_onUnit hk (f := fun d => d.coreReset k) rfl hspec
    · exact completes_onUnit hk (f := fun d => d.coreReset k) rfl hspec
  · exact completes_onDev (f := Dev.fwGo) rfl (Dev.fwGo_spec hbusy hrun)
  · refine completes_onDev (f := Dev.fwChecked) rfl ?_
    obtain ⟨hidle, hresult, hrun, hnext, hentry, hshared⟩ := Dev.fwChecked_spec hbusy hphase
    refine ⟨hidle, hresult, hrun, hnext, hentry, fun k a hk => ?_⟩
    rw [hshared]
    by_cases hok : s.dev.fwCheck = St.OK
    · simp only [hok, if_true, true_and]
      rw [List.getD_eq_getElem?_getD, List.getElem?_map, ← Dev.read_fwImage, List.getD_eq_getElem?_getD, List.getElem?_eq_getElem hk]
      rfl
    · simp only [hok, if_false, false_and]
  · refine completes_onHost hready (f := fun d => d.fwReload m) rfl ?_
    rw [Dev.fwReload_eq (d := s.dev.begin_ m) hserving hsessions]
    have hreplied : Replied m St.OK s.dev ((s.dev.begin_ m).reply m St.OK) := (awaits_of_ready hready).replied ..
    exact ⟨Replied.noFirmware (Replied.resetCores hreplied _), rfl, rfl, Dev.phase_setPhase _ (by decide), rfl⟩
  · refine completes_onDev (f := fun d => d.latchRefresh east true) rfl ?_
    rw [Dev.latchRefresh_of_owner true hrun howner hd hseam, if_pos rfl]
    exact ⟨rfl, getD_set_self _ _ _ _ (.inr rfl)⟩
  · exact completes_onDev (f := fun d => d.latchRefresh east false) rfl (Dev.latchRefresh_demotes hrun howner hd hseam hlen hnack)
  · exact completes_onDev (f := fun d => d.latchClaim east x) rfl (Dev.latchClaim_spec hclaims hx)
  · exact completes_onDev (f := fun d => d.heartbeatMiss east) rfl (Dev.heartbeatMiss_claims hrun hlen hmiss hseam)
  · exact completes_onDev (f := fun d => d.heartbeat east) rfl ⟨getD_set_self _ _ _ _ (.inr rfl), getD_set_self _ _ _ _ (.inr rfl)⟩
  · exact completes_onDev (f := fun d => d.seamFault east) rfl (Dev.seamFault_spec hseam)

end Sys2Proof.Machine

/-! ## Port states (O47; 12 R298, R305 to R307) -/

namespace Sys2Proof.Machine

open Sys2Proof Sys2Proof.Claims

/-! ### Registers of a port -/

section

variable {p : Nat}

/-- The relay counts in PORT_CNT and PORT_SLOT_LATE of a port, and in no other of its registers. -/
theorem not_relayReg_port {b : Nat} (hp : p < Config.nPorts) (hb : Reg.PORT_CTL ≤ b ∧ b < Reg.PORT_CNT ∨ Reg.PORT_FEC ≤ b ∧ b < Reg.PORT_CTL + 0x200) :
    ¬relayReg (b + 0x200 * p) := by
  simp only [relayReg, Reg.PORT_CTL, Reg.PORT_CNT, Reg.PORT_FEC, Reg.WT_HAUL_BAD, Reg.PORT_DROPCNT, Reg.PORT_DEVID, Config.nPorts] at hp hb ⊢
  omega

theorem portReg_ne {a b : Nat} (h : a ≠ b) : a + 0x200 * p ≠ b + 0x200 * p := by omega

theorem portReg_ne_hiveCnt {b : Nat} (hb : Reg.PORT_CTL ≤ b) : b + 0x200 * p ≠ Reg.HIVE_CNT := by
  simp only [Reg.PORT_CTL, Reg.HIVE_CNT] at *
  omega

/-! ### The copies for a port that have not started -/

theorem mem_modify {α : Type} {l : List α} {i : Nat} {g : α → α} {x : α} (h : x ∈ l.modify i g) : x ∈ l ∨ ∃ y ∈ l, x = g y := by
  obtain ⟨j, hj, rfl⟩ := List.mem_iff_getElem.mp h
  rw [List.length_modify] at hj
  rw [List.getElem_modify]
  split
  · exact .inr ⟨_, List.getElem_mem hj, rfl⟩
  · exact .inl (List.getElem_mem hj)

theorem Flight.copyTo_modCopy_ne (f : Flight) {o q : Nat} (h : q ≠ o) (g : Copy → Copy) (hg : ∀ c, (g c).out = c.out) : (f.modCopy o g).copyTo q = f.copyTo q := by
  unfold Flight.copyTo Flight.modCopy
  cases f.outs with
  | none => rfl
  | some l =>
    simp only [Option.map_some]
    induction l with
    | nil => rfl
    | cons c l ih =>
      rw [List.map_cons, List.find?_cons, List.find?_cons, ih]
      by_cases hc : c.out = o
      · rw [if_pos hc]
        have hout : (g c).out ≠ q := fun he => h (he.symm.trans ((hg c).trans hc))
        have hout' : c.out ≠ q := fun he => h (he.symm.trans hc)
        simp [hout, hout']
      · rw [if_neg hc]

theorem Flight.copyTo_taken (f : Flight) {q : Nat} (h : q ≠ outHere) : f.taken.copyTo q = f.copyTo q := f.copyTo_modCopy_ne h _ fun _ => rfl

/-- The packets at the relay have started on port `p`. -/
def PortStarted (p : Nat) (fs : List Flight) : Prop := ∀ f ∈ fs, f.node = relay → ∀ c, f.copyTo p = some c → c.sent ≠ 0

theorem PortStarted.addFlit {fs : List Flight} (h : PortStarted p fs) (hp : p < Config.nPorts) (node inp : Nat) (v : BitVec 2) (ws : List W128) :
    PortStarted p (addFlit fs node inp v ws) := by
  unfold Sys2Proof.Machine.addFlit
  split
  · intro f hf hnode c hc
    rcases mem_modify hf with hf | ⟨e, he, rfl⟩
    · exact h f hf hnode c hc
    · have hne : p ≠ outHere := Nat.ne_of_lt hp
      rw [Flight.copyTo_taken _ hne] at hc
      exact h e he hnode c hc
  · exact h

theorem Dev.flying_arriveHere (d : Dev) (k : Packet) : (d.arriveHere k).flying = d.flying := by
  unfold Dev.arriveHere Dev.accepted Dev.toUnit
  split_ifs <;> rfl

theorem PortStarted.clean {d : Dev} (h : PortStarted p d.flying) : PortStarted p d.clean.flying := fun f hf => h f (List.mem_of_mem_filter hf)

theorem PortStarted.relayBody {d : Dev} (h : PortStarted p d.flying) (hp : p < Config.nPorts) (src : Nat) (v : BitVec 2) (ws : List W128) :
    PortStarted p (d.relayBody src v ws).flying := by
  unfold Dev.relayBody
  split
  · exact h
  · dsimp only
    split
    · rw [Dev.flying_arriveHere]
      exact h.addFlit hp _ _ _ _
    · exact h.addFlit hp _ _ _ _

theorem PortStarted.completeAll {d : Dev} (h : PortStarted p d.flying) (hp : p < Config.nPorts) (q : Nat) : PortStarted p (d.completeAll q).flying := by
  refine List.foldlRecOn (motive := fun e : Dev => PortStarted p e.flying) _ _ h fun e he v _ => ?_
  unfold Dev.relayCut
  split
  · exact he
  · exact (he.relayBody hp _ _ _).clean

theorem portStarted_dropCopies (d : Dev) (p : Nat) : PortStarted p (d.dropCopies p fun c => decide (c.sent = 0)).flying := by
  intro f hf hnode c hc
  obtain ⟨e, he, rfl⟩ := List.mem_map.mp (List.mem_of_mem_filter hf)
  by_cases hr : e.node = relay
  · simp only [if_pos hr, Flight.copyTo] at hc
    cases ho : e.outs with
    | none => simp [ho] at hc
    | some l =>
      simp only [ho, Option.map_some] at hc
      have hout : c.out = p := by simpa using List.find?_some hc
      have hkeep := (List.mem_filter.mp (List.mem_of_find?_eq_some hc)).2
      simpa [hout] using hkeep
  · rw [if_neg hr] at hnode
    exact absurd hnode hr

/-! ### A port that stops, or begins to train -/

variable (d : Dev)

theorem Dev.relays_dropCopies (f : Copy → Bool) : Relays d (d.dropCopies p f) := .of_regs rfl rfl

/-- What a port that stops leaves as it was. -/
theorem Dev.portStop_spec (hp : p < Config.nPorts) : (∀ a, ¬relayReg a → (d.portStop p).reg a = d.reg a) ∧
    (d.portStop p).port p = { d.port p with idling := true } ∧ PortStarted p (d.portStop p).flying := by
  obtain ⟨n, hn⟩ : ∃ n, n = (d.flying.filter fun f => decide (f.node = relay) && match f.copyTo p with | some c => decide (c.sent = 0) | none => false).length :=
    ⟨_, rfl⟩
  obtain ⟨e, he⟩ : ∃ e, e = (d.portDiscard p n).dropCopies p fun c => decide (c.sent = 0) := ⟨_, rfl⟩
  have hrelays : Relays d e := by
    rw [he]
    refine .trans ?_ (Dev.relays_dropCopies ..)
    exact d.relays_count n (by simp only [relayReg, Reg.PORT_CNT, Reg.PORT_CTL, Reg.PORT_DEVID, Config.nPorts] at hp ⊢; omega) (fun _ => le_rfl) le_rfl
  have hstarted : PortStarted p e.flying := he ▸ portStarted_dropCopies _ p
  have heq : d.portStop p = (e.modPort p fun x => { x with idling := true }).completeAll p := by
    rw [he, hn]
    rfl
  have hcut := (e.modPort p fun x => { x with idling := true }).relays_completeAll p
  rw [heq]
  refine ⟨fun a ha => (hcut.reg a ha).trans (hrelays.reg a ha), ?_, PortStarted.completeAll (d := e.modPort p _) hstarted hp p⟩
  rw [hcut.port, Dev.port_modPort_self, hrelays.port]

theorem Dev.portFresh_spec : (∀ a, (d.portFresh p).reg a = d.reg a) ∧ (d.portFresh p).port p = { Port.reset with credAt := d.elapsed } :=
  ⟨fun _ => rfl, Dev.port_setPort_self ..⟩

theorem Dev.portState_setPortState {st : Nat} (hst : st < 8) : (d.setPortState p st).portState p = st := by
  rw [Dev.portState, Dev.setPortState, Dev.reg_modReg_self, fld_setFld_self _ _ _ _ (by decide)]
  exact Nat.mod_eq_of_lt hst

theorem Dev.reg_autoAlt (p : Nat) {a : Nat} (ha : a ≠ Reg.HIVE_CNT) : (d.autoAlt p).reg a = d.reg a := by
  unfold Dev.autoAlt
  split
  · refine Dev.foldl_keeps (G := (Dev.reg · a)) ?_ _ d
    intro d e
    dsimp only
    split
    · split
      · split
        · rfl
        · exact (d.reports_record _).reg a ha
      · rfl
    · rfl
  · rfl

/-- A port that goes down is in DOWN; of its other registers it counts in PORT_CNT alone. -/
theorem Dev.portDown_spec (hp : p < Config.nPorts) (st : W16) : (d.portDown p st).portState p = 4 ∧
    (d.portDown p st).reg (Reg.PORT_ERR + 0x200 * p) = d.reg (Reg.PORT_ERR + 0x200 * p) := by
  obtain ⟨hreg, -, -⟩ := (d.setPortState p 4).portStop_spec hp
  have hkeep (a : Nat) (ha : a ≠ Reg.HIVE_CNT) (hr : ¬relayReg a) : (d.portDown p st).reg a = (d.setPortState p 4).reg a := by
    unfold Dev.portDown
    dsimp only
    rw [Dev.reg_autoAlt _ _ ha, (Dev.reports_record ..).reg a ha]
    exact hreg a hr
  constructor
  · rw [Dev.portState, hkeep _ (portReg_ne_hiveCnt (by decide)) (not_relayReg_port hp (.inl (by decide)))]
    exact d.portState_setPortState (by decide)
  · rw [hkeep _ (portReg_ne_hiveCnt (by decide)) (not_relayReg_port hp (.inl (by decide)))]
    exact Dev.reg_modReg_ne _ _ _ (portReg_ne (by decide))

/-! ### The commands -/

variable {d}

theorem Dev.portEnable_spec (hst : d.portState p = 0) (hopt : optical p = false ∨ d.pwr.optEn = true) :
    (d.portEnable p).portEn p = true ∧ (d.portEnable p).portState p = 1 := by
  obtain ⟨e, he⟩ : ∃ e, e = d.modReg (Reg.PORT_CTL + 0x200 * p) fun v => setBit v 0 := ⟨_, rfl⟩
  have hen : e.portEn p = true := by
    rw [he, Dev.portEn, Dev.reg_modReg_self]
    exact bit_setBit_self _ _ (by decide)
  have hzero : e.portState p = 0 := by
    rw [he, Dev.portState, Dev.reg_modReg_ne _ _ _ (portReg_ne (by decide))]
    exact hst
  have hgo : ¬(optical p && !d.pwr.optEn) = true := by
    rcases hopt with h | h <;> simp [h]
  rw [Dev.portEnable, if_neg hgo, ← he]
  dsimp only
  rw [if_pos hzero]
  refine ⟨?_, Dev.portState_setPortState (d := e) (by decide)⟩
  rw [Dev.portEn, (Dev.portFresh_spec _).1, Dev.setPortState, Dev.reg_modReg_ne _ _ _ (portReg_ne (by decide))]
  exact hen

/-- PORT_STATUS of a port that is UP, on its lanes and with its margin. -/
def upStatus (narrow : Bool) (margin : Byte) : W64 := BitVec.ofNat 64 (2 + (if narrow then 4 else 8) * 8 + (if narrow then 128 else 0) + margin.toNat * 256)

theorem upStatus_fields (narrow : Bool) (margin : Byte) :
    fld (upStatus narrow margin) 0 3 = 2 ∧ fld (upStatus narrow margin) 3 4 = if narrow then 4 else 8 := by
  have hm := margin.isLt
  simp only [upStatus, fld, BitVec.toNat_ofNat]
  cases narrow <;> simp only [Bool.false_eq_true, if_true, if_false] <;> omega

theorem Dev.trained_spec {narrow : Bool} (margin : Byte) (hst : d.portState p = 1 ∨ d.portState p = 4) (hen : d.portEn p = true)
    (hidle : (d.port p).idling = false) (hnarrow : narrow = true → optical p = false ∧ bit (d.reg (Reg.PORT_CTL + 0x200 * p)) 1 = true) :
    (d.trained p narrow margin).portState p = 2 ∧
    fld ((d.trained p narrow margin).reg (Reg.PORT_STATUS + 0x200 * p)) 3 4 = (if narrow then 4 else 8) ∧
    (d.trained p narrow margin).port p = { Port.reset with credAt := d.elapsed } := by
  have hmay : ((decide (d.portState p = 1) || decide (d.portState p = 4)) && d.portEn p && !(d.port p).idling &&
      (!narrow || (!optical p && bit (d.reg (Reg.PORT_CTL + 0x200 * p)) 1))) = true := by
    rw [hen, hidle]
    cases narrow
    · simpa using hst
    · obtain ⟨helectrical, hok⟩ := hnarrow rfl
      simpa [helectrical, hok] using hst
  have heq : d.trained p narrow margin = (d.portFresh p).setReg (Reg.PORT_STATUS + 0x200 * p) (upStatus narrow margin) := by
    rw [Dev.trained]
    exact if_pos hmay
  obtain ⟨hstate, hlanes⟩ := upStatus_fields narrow margin
  rw [heq, Dev.portState, Dev.reg_setReg_self]
  exact ⟨hstate, hlanes, d.portFresh_spec.2⟩

theorem Dev.trainFail_spec (hp : p < Config.nPorts) (hen : d.portEn p = true) (hst : d.portState p = 1 ∨ d.portState p = 4) :
    (d.trainFail p).portState p = 4 ∧ bit ((d.trainFail p).reg (Reg.PORT_ERR + 0x200 * p)) 1 = true := by
  obtain ⟨e, he⟩ : ∃ e, e = d.modReg (Reg.PORT_ERR + 0x200 * p) fun v => setBit v 1 := ⟨_, rfl⟩
  have herr : bit (e.reg (Reg.PORT_ERR + 0x200 * p)) 1 = true := by
    rw [he, Dev.reg_modReg_self]
    exact bit_setBit_self _ _ (by decide)
  have hstate : e.portState p = d.portState p := by
    rw [he, Dev.portState, Dev.reg_modReg_ne _ _ _ (portReg_ne (by decide)), Dev.portState]
  have heq : d.trainFail p = if d.portState p = 1 then e.portDown p St.LINK_DOWN else e.record (linkRecord p St.LINK_DOWN) := by
    rw [Dev.trainFail]
    dsimp only
    rw [if_pos ⟨hen, hst⟩, ← he]
  rw [heq]
  split
  · obtain ⟨hdown, hkeep⟩ := e.portDown_spec hp St.LINK_DOWN
    exact ⟨hdown, hkeep ▸ herr⟩
  · next h1 =>
    have hrec := e.reports_record (linkRecord p St.LINK_DOWN)
    rw [Dev.portState, hrec.reg _ (portReg_ne_hiveCnt (by decide)), hrec.reg _ (portReg_ne_hiveCnt (by decide))]
    exact ⟨hstate.trans (hst.resolve_left h1), herr⟩

theorem Dev.portDisable_spec (hp : p < Config.nPorts) (hen : d.portEn p = true) : (d.portDisable p).portEn p = false ∧
    (d.portState p ≠ 0 → ((d.portDisable p).port p).idling = true ∧ PortStarted p (d.portDisable p).flying) := by
  obtain ⟨e, he⟩ : ∃ e, e = d.modReg (Reg.PORT_CTL + 0x200 * p) fun v => clrBit v 0 := ⟨_, rfl⟩
  have hoff : e.portEn p = false := by
    rw [he, Dev.portEn, Dev.reg_modReg_self]
    exact bit_clrBit_self ..
  have hstate : e.portState p = d.portState p := by
    rw [he, Dev.portState, Dev.reg_modReg_ne _ _ _ (portReg_ne (by decide)), Dev.portState]
  have heq : d.portDisable p = if e.portState p = 0 then e else e.portStop p := by
    rw [Dev.portDisable, if_pos hen, ← he]
  rw [heq, hstate]
  split
  · next h => exact ⟨hoff, fun h' => absurd h h'⟩
  · obtain ⟨hreg, hport, hstarted⟩ := e.portStop_spec hp
    refine ⟨?_, fun _ => ⟨?_, hstarted⟩⟩
    · rw [Dev.portEn, hreg _ (not_relayReg_port hp (.inl (by decide)))]
      exact hoff
    · rw [hport]

theorem Dev.portIdleDone_spec (hidle : (d.port p).idling = true) (hbusy : d.portBusy p = false) (hen : d.portEn p = false) :
    (d.portIdleDone p).portState p = 0 ∧ (d.portIdleDone p).port p = { Port.reset with credAt := d.elapsed } := by
  obtain ⟨e, he⟩ : ∃ e, e = (d.dropCopies p fun _ => true).modPort p fun x => { x with idling := false } := ⟨_, rfl⟩
  have hreg (a : Nat) : e.reg a = d.reg a := by
    rw [he]
    rfl
  have hns : e.elapsed = d.elapsed := by
    rw [he]
    rfl
  have heq : d.portIdleDone p = (e.setReg (Reg.PORT_STATUS + 0x200 * p) 0).portFresh p := by
    have hoff : e.portEn p = false := by
      rw [Dev.portEn, hreg]
      exact hen
    rw [Dev.portIdleDone, if_neg (by simp [hidle, hbusy]), ← he]
    exact if_pos hoff
  obtain ⟨hkeep, hport⟩ := (e.setReg (Reg.PORT_STATUS + 0x200 * p) 0).portFresh_spec (p := p)
  rw [heq, Dev.portState, hkeep, Dev.reg_setReg_self]
  exact ⟨rfl, hport.trans (congrArg (fun n => { Port.reset with credAt := n }) hns)⟩

theorem Dev.errlimCheck_spec (hst : d.portState p = 2) (hlim : fld (d.reg (Reg.PORT_CTL + 0x200 * p)) 16 16 ≠ 0)
    (hover : fld (d.reg (Reg.PORT_CTL + 0x200 * p)) 16 16 < ((d.port p).drops.filter fun t => decide (d.now < t + 1000000000)).length) :
    (d.errlimCheck p).portState p = 3 ∧ bit ((d.errlimCheck p).reg (Reg.PORT_ERR + 0x200 * p)) 2 = true := by
  have heq : d.errlimCheck p = ((d.setPortState p 3).modReg (Reg.PORT_ERR + 0x200 * p) fun v => setBit v 2).record (linkRecord p St.LINK_DOWN) := by
    rw [Dev.errlimCheck]
    exact if_pos ⟨hst, hlim, hover⟩
  have hrec := ((d.setPortState p 3).modReg (Reg.PORT_ERR + 0x200 * p) fun v => setBit v 2).reports_record (linkRecord p St.LINK_DOWN)
  rw [heq, Dev.portState, hrec.reg _ (portReg_ne_hiveCnt (by decide)), hrec.reg _ (portReg_ne_hiveCnt (by decide)), Dev.reg_modReg_self,
    Dev.reg_modReg_ne _ _ _ (portReg_ne (by decide))]
  exact ⟨d.portState_setPortState (by decide), bit_setBit_self _ _ (by decide)⟩

end

/-- Settles O47. -/
theorem portsTrainServeAndStop : Obligations.PortsTrainServeAndStop := by
  intro s p hp
  refine ⟨fun hst hopt => ?_, fun narrow margin hst hen hidle hnarrow => ?_, fun hen hst => ?_, fun hen => ?_, fun hidle hbusy hen => ?_, fun hst hlim hover => ?_,
    fun hup => ?_, fun hstall => ?_⟩
  · exact completes_onUnit hp (f := fun d => d.portEnable p) rfl (Dev.portEnable_spec hst hopt)
  · exact completes_onUnit hp (f := fun d => d.trained p narrow margin) rfl (Dev.trained_spec margin hst hen hidle hnarrow)
  · exact completes_onUnit hp (f := fun d => d.trainFail p) rfl (Dev.trainFail_spec hp hen hst)
  · exact completes_onUnit hp (f := fun d => d.portDisable p) rfl (Dev.portDisable_spec hp hen)
  · exact completes_onUnit hp (f := fun d => d.portIdleDone p) rfl (Dev.portIdleDone_spec hidle hbusy hen)
  · exact completes_onUnit hp (f := fun d => d.errlimCheck p) rfl (Dev.errlimCheck_spec hst hlim hover)
  · refine completes_onUnit hp (f := fun d => if d.portUp p then d.portDown p St.LINK_DOWN else d) rfl ?_
    rw [if_pos hup]
    exact (s.dev.portDown_spec hp _).1
  · refine completes_onUnit hp (show exec (.creditStall p) s = _ from rfl) ?_
    rw [if_pos hstall, (Dev.reports_record ..).reg _ (portReg_ne_hiveCnt (by decide)), Dev.reg_modReg_self]
    exact bit_setBit_self _ _ (by decide)

end Sys2Proof.Machine

/-! ## What the end of a step and a failed read leave as they were -/

namespace Sys2Proof.Machine

open Sys2Proof Sys2Proof.Claims

section

variable {α : Type} {G : Dev → α}

theorem Dev.d2hPut_frame (d : Dev) (p : Nat) (bs : List Byte) :
    ∃ rings host out, d.d2hPut p bs = { d with rings := rings, host := host, out := out } := by
  have hirq (e : Dev) : ∃ rings host out, e.ringIrq p = { e with rings := rings, host := host, out := out } := by
    obtain h | h | h := e.ringIrq_cases p
    · exact ⟨e.rings, e.host, e.out, h⟩
    · obtain ⟨_, _, hirq⟩ := Dev.irq_frame (e.setRing p { e.ring p with irq := 0, irqAt := e.elapsed + (e.ring p).d.imod.toNat }) (e.ring p).d.vector.toNat
      exact ⟨_, _, _, h.trans hirq⟩
    · exact ⟨_, e.host, e.out, h⟩
  unfold Dev.d2hPut
  dsimp only
  obtain ⟨_, _, _, h⟩ := hirq (((d.emit (.dmaWrite ((d.ring p).d.d2hBase.toNat + 32 * ((d.ring p).d2hProd.toNat % (d.ring p).d2hSize))
    (slice bs 0 31 ++ [BitVec.ofNat 8 (128 * (((d.ring p).d2hProd.toNat / (d.ring p).d2hSize + 1) % 2))]))).setRing p
      { d.ring p with d2hProd := (d.ring p).d2hProd + 1 }).emit (.dmaWrite ((d.ring p).d.idxAddr.toNat + 4) (leBytes 4 ((d.ring p).d2hProd.toNat + 1))))
  exact ⟨_, _, _, h⟩

/-- The end of a step writes registers, tiles, regions, rings, slots, the swaps of the weight tier, the mailboxes, frames of the ring, the host's window, and
what leaves the device: what does not depend on these is kept. -/
theorem endKeeps_of_frame (hG : ∀ (d : Dev) regs tiles regions rings slots wt hive cic host out ctr, G { d with
    regs := regs, tiles := tiles, regions := regions, rings := rings, slots := slots, wt := wt, hive := hive, cic := cic, host := host, out := out
    ctr := ctr } = G d) (r : Nat) : EndKeeps r G where
  take d _ _ := hG d d.regs d.tiles d.regions _ d.slots d.wt d.hive d.cic d.host _ d.ctr
  put d p bs := by
    obtain ⟨rings, host, out, h⟩ := d.d2hPut_frame p bs
    rw [h]
    exact hG d d.regs d.tiles d.regions rings d.slots d.wt d.hive d.cic host out d.ctr
  reply d m st := by
    obtain ⟨regs, hive, msix, out, h⟩ := d.replyFull_frame m st 0 [] []
    rw [Dev.reply, h]
    exact hG d regs d.tiles d.regions d.rings d.slots d.wt hive d.cic _ out d.ctr
  report d id := by
    obtain ⟨regs, cic, out, h⟩ := Dev.barReport_frame (d := d) (r := r) (id := id)
    rw [h]
    exact hG d regs d.tiles d.regions d.rings d.slots d.wt d.hive cic d.host out d.ctr
  hold d _ := hG d d.regs d.tiles _ d.rings d.slots d.wt d.hive d.cic _ d.out d.ctr
  rest d _ := hG d d.regs d.tiles _ d.rings d.slots d.wt d.hive d.cic d.host d.out d.ctr
  region d _ := hG d d.regs d.tiles _ d.rings d.slots d.wt d.hive d.cic d.host d.out d.ctr
  slot d _ _ := hG d d.regs d.tiles d.regions d.rings _ d.wt d.hive d.cic d.host d.out d.ctr
  host d h := hG d d.regs d.tiles d.regions d.rings d.slots d.wt d.hive d.cic h d.out d.ctr
  swaps d w := hG d d.regs d.tiles d.regions d.rings d.slots w d.hive d.cic d.host d.out d.ctr
  tiles d ts c := hG d d.regs ts d.regions d.rings d.slots d.wt d.hive d.cic d.host d.out c

/-- The standing of the flows at their source is no part of a step. -/
theorem endKeeps_txFlows (r : Nat) : EndKeeps r Dev.txFlows := endKeeps_of_frame (fun _ _ _ _ _ _ _ _ _ _ _ _ => rfl) r

/-! ### Reads that fail parity -/

theorem Dev.txFlows_rerunError (d : Dev) (r t unit detail : Nat) : (d.rerunError r t unit detail).txFlows = d.txFlows := by
  unfold Dev.rerunError Dev.stepRerun
  split
  · exact ((endKeeps_txFlows r).region _ _).trans (((endKeeps_txFlows r).abortTiles ..).trans ((Dev.reports_recordTile ..).keeps Dev.txFlows))
  · exact ((endKeeps_txFlows r).stepFail _).trans ((Dev.reports_recordTile ..).keeps Dev.txFlows)

theorem Dev.txFlows_parityRead (d : Dev) (t a : Nat) : (d.parityRead t a).1.txFlows = d.txFlows := by
  unfold Dev.parityRead
  split
  · exact (Dev.txFlows_rerunError ..).trans rfl
  · exact (Dev.reports_recordTile ..).keeps Dev.txFlows

theorem Dev.txFlows_spadChecks (qs : List (Nat × Nat × Nat)) (d : Dev) : (Dev.spadChecks qs d).1.txFlows = d.txFlows := by
  have hcheck (d : Dev) (t a n : Nat) : (d.spadCheck t a n).1.txFlows = d.txFlows := by
    unfold Dev.spadCheck
    split
    · exact Dev.txFlows_parityRead ..
    · rfl
  induction qs generalizing d with
  | nil => rfl
  | cons q qs ih =>
    have hq := hcheck d q.1 q.2.1 q.2.2
    unfold Dev.spadChecks
    split <;> rename_i h
    · rwa [h] at hq
    · rw [h] at hq
      exact (ih _).trans hq

end

end Sys2Proof.Machine

/-! ## End-to-end flows (O46; 12 R299 to R304) -/

namespace Sys2Proof.Machine

open Sys2Proof Sys2Proof.Claims

section

variable {d : Dev} {k : FlowKey} {f : RxFlow}

/-! ### Receive flow entries -/

theorem Dev.rxFlow_key (h : d.rxFlow k = some f) : f.key = k := by simpa using List.find?_some h

/-- An entry that is replaced is found in its new form. -/
theorem Dev.rxFlow_setRx (h : d.rxFlow k = some f) {g : RxFlow} (hg : g.key = k) : (d.setRx g).rxFlow k = some g := by
  unfold Dev.rxFlow Dev.setRx at *
  dsimp only
  generalize d.rxFlows = l at h
  induction l with
  | nil => cases h
  | cons e l ih =>
    rw [List.map_cons, List.find?_cons]
    by_cases he : e.key = k
    · rw [if_pos (he.trans hg.symm), decide_eq_true hg]
    · rw [List.find?_cons, decide_eq_false he] at h
      rw [if_neg (fun h' => he (h'.trans hg)), decide_eq_false he]
      exact ih h

theorem Dev.rxFlow_of_rxFlows {e : Dev} (h : e.rxFlows = d.rxFlows) (j : FlowKey) : e.rxFlow j = d.rxFlow j := by rw [Dev.rxFlow, h, Dev.rxFlow]

/-- An entry that is freed is gone; the others stay. -/
theorem find?_filter_ne {l : List RxFlow} (j : FlowKey) : (l.filter fun g => decide (g.key ≠ k)).find? (fun e => decide (e.key = j)) =
    if j = k then none else l.find? fun e => decide (e.key = j) := by
  induction l with
  | nil => simp
  | cons e l ih =>
    by_cases hek : e.key = k
    · rw [List.filter_cons_of_neg (by simp [hek]), ih]
      by_cases hj : j = k
      · simp [hj]
      · rw [if_neg hj, if_neg hj, List.find?_cons, decide_eq_false fun h => hj (h.symm.trans hek)]
    · rw [List.filter_cons_of_pos (by simp [hek]), List.find?_cons, List.find?_cons, ih]
      by_cases hej : e.key = j
      · have hjk : j ≠ k := fun h => hek (hej.trans h)
        simp only [hej, hjk, decide_true, if_false]
      · rw [decide_eq_false hej]

/-- A control packet that leaves changes no entry and gives the gateways nothing. -/
theorem Dev.relays_sendNak (d : Dev) (p : Packet) (type : BitVec 2) (n : W32) : Relays d (d.sendNak p type n) := d.relays_unitOut _

/-- What a packet that is accepted reaches. -/
theorem Dev.acceptIn_rxFlow {p : Packet} (h : d.rxFlow k = some f) : ∃ g, (d.acceptIn f p).rxFlow k = some g ∧ g.x = p.flowseq + 1 := by
  obtain ⟨g, hg⟩ : ∃ g : RxFlow, g = { f with
    x := p.flowseq + 1, unacked := f.unacked + 1, oldest := if f.unacked = 0 then d.now else f.oldest, back := p, last := d.now } := ⟨_, rfl⟩
  have hf : f.key = k := Dev.rxFlow_key h
  have hkey : g.key = k := (congrArg RxFlow.key hg).trans hf
  have hx : g.x = p.flowseq + 1 := by rw [hg]
  have hset : ((d.setRx g).accepted p).rxFlow k = some g :=
    (Dev.rxFlow_of_rxFlows (((d.setRx g).relays_accepted p).keeps Dev.rxFlows) k).trans (Dev.rxFlow_setRx h hkey)
  have heq : d.acceptIn f p = if g.unacked ≥ 16 then ((d.setRx g).accepted p).ackNow g else (d.setRx g).accepted p := by
    rw [hg]
    rfl
  rw [heq]
  split
  · refine ⟨{ g with unacked := 0 }, ?_, hx⟩
    exact (Dev.rxFlow_of_rxFlows ((Dev.relays_sendNak ..).keeps Dev.rxFlows) k).trans (Dev.rxFlow_setRx hset hkey)
  · exact ⟨g, hset, hx⟩

/-! ### What a gateway gets -/

theorem not_outHere_mem_toPort {src : Nat} {q : Packet} (ps : List Nat) (hps : ∀ p ∈ ps, p < Config.nPorts) (s : Dev × List Copy)
    (hs : ∀ c ∈ s.2, c.out < Config.nPorts) : ∀ c ∈ (ps.foldl (Dev.toPort src q) s).2, c.out < Config.nPorts :=
  List.foldlRecOn (motive := fun s : Dev × List Copy => ∀ c ∈ s.2, c.out < Config.nPorts) ps _ hs fun s hs p hp => by
    unfold Dev.toPort
    split
    · exact hs
    · intro c hc
      rcases List.mem_append.mp hc with h | h
      · exact hs c h
      · rw [List.mem_singleton.mp h]
        exact hps p hp

/-- What a unit or a gateway gives to the crossbar leaves the device: none of it is for the device itself. -/
theorem Dev.relayOuts_lt (d : Dev) (q : Packet) : ∀ c ∈ (d.relayOuts 16 q).2.2, c.out < Config.nPorts := by
  unfold Dev.relayOuts
  rw [if_neg (by decide)]
  split
  · exact fun c hc => absurd hc List.not_mem_nil
  · refine not_outHere_mem_toPort _ ?_ (d, []) fun c hc => absurd hc List.not_mem_nil
    split
    · exact fun _ => Dev.lt_nPorts_of_mem_maskPorts
    · exact fun p hp => List.mem_singleton.mp hp ▸ Dev.fld_lt_nPorts ..

/-- A packet whose copies all go to ports has none for the device. -/
theorem Flight.copyTo_outHere_taken (node inp : Nat) (q : Packet) {l : List Copy} (hl : ∀ c ∈ l, c.out < Config.nPorts) :
    (Flight.taken ⟨node, inp, q, some l⟩).copyTo outHere = none := by
  refine List.find?_eq_none.mpr fun c hc => ?_
  obtain ⟨e, he, rfl⟩ := List.mem_map.mp hc
  have hout : e.out ≠ outHere := Nat.ne_of_lt (hl e he)
  rw [if_neg hout]
  simpa using hout

theorem Dev.gwIn_unitOut (d : Dev) (q : Packet) : (d.unitOut q).gwIn = d.gwIn := by
  have htoPort (src : Nat) (q : Packet) (ps : List Nat) (s : Dev × List Copy) : (ps.foldl (Dev.toPort src q) s).1.gwIn = s.1.gwIn :=
    List.foldlRecOn (motive := fun e : Dev × List Copy => e.1.gwIn = s.1.gwIn) ps _ rfl fun e he p _ => by
      refine Eq.trans ?_ he
      unfold Dev.toPort
      dsimp only
      split_ifs <;> rfl
  have houts : (d.relayOuts 16 q).1.gwIn = d.gwIn := by
    unfold Dev.relayOuts
    rw [if_neg (by decide)]
    split
    · rfl
    · exact htoPort ..
  have hnone := Flight.copyTo_outHere_taken relay 16 (d.relayOuts 16 q).2.1 (d.relayOuts_lt q)
  unfold Dev.unitOut Dev.relayIn
  dsimp only
  rw [hnone, Option.isSome_none, Bool.and_false, if_neg (by decide)]
  exact houts

theorem Dev.acceptIn_gwIn (d : Dev) (f : RxFlow) {p : Packet} (hp : p.dtile.toNat ≠ 0x7FF) :
    (d.acceptIn f p).gwIn = d.gwIn ++ [(p.gateway, { p with hopptr := p.hops })] := by
  have hacc (e : Dev) : (e.accepted p).gwIn = e.gwIn ++ [(p.gateway, { p with hopptr := p.hops })] := by rw [Dev.accepted, if_neg hp]
  unfold Dev.acceptIn
  dsimp only
  split
  · exact (Dev.gwIn_unitOut ..).trans (hacc _)
  · exact hacc _

theorem Dev.e2eArrival_next {p : Packet} (h : d.rxFlow p.flow = some f) (hcrc : p.crcOk = true) (hx : p.flowseq = f.x) (hp : p.dtile.toNat ≠ 0x7FF) :
    (d.e2eArrival p).gwIn = d.gwIn ++ [(p.gateway, { p with hopptr := p.hops })] ∧ ∃ g, (d.e2eArrival p).rxFlow p.flow = some g ∧ g.x = p.flowseq + 1 := by
  have h' : ({ d with rxIn := d.rxIn.erase p } : Dev).rxFlow p.flow = some f := h
  have heq : d.e2eArrival p = ({ d with rxIn := d.rxIn.erase p } : Dev).acceptIn f p := by
    unfold Dev.e2eArrival
    dsimp only
    rw [if_neg (by simp [hcrc]), h']
    dsimp only
    rw [if_pos hx]
  rw [heq]
  exact ⟨Dev.acceptIn_gwIn _ f hp, Dev.acceptIn_rxFlow h'⟩

/-- An acknowledgement covers what was accepted. -/
theorem Dev.ackNow_rxFlow (h : d.rxFlow k = some f) : ∃ g, (d.ackNow f).rxFlow k = some g ∧ g.unacked = 0 ∧ g.x = f.x := by
  refine ⟨{ f with unacked := 0 }, ?_, rfl, rfl⟩
  have hf : f.key = k := Dev.rxFlow_key h
  exact (Dev.rxFlow_of_rxFlows ((Dev.relays_sendNak ..).keeps Dev.rxFlows) k).trans (Dev.rxFlow_setRx h hf)

end

section

variable {d : Dev} {f : FlowKey} {n : W32}

/-! ### The copies that a source holds -/

/-- The copies of a flow that pass a test stay, in order. -/
theorem filter_key_filterMap {g : Held → Bool} {l : List Held} :
    (l.filterMap fun h => if h.key = f then (if g h then none else some h) else some h).filter (fun h => decide (h.key = f)) =
      (l.filter fun h => decide (h.key = f)).filter fun h => !g h := by
  induction l with
  | nil => rfl
  | cons h l ih =>
    by_cases hk : h.key = f
    · cases hg : g h
      · simp [hk, hg, ih]
      · simp [hk, hg, ih]
    · simp [hk, ih]

/-- Freed copies are gone from what the flow holds. -/
theorem Dev.heldOf_mapHeld (d : Dev) (f : FlowKey) (g : Held → Bool) :
    (d.mapHeld f fun h => if g h then none else some h).heldOf f = (d.heldOf f).filter fun h => !g h := by
  unfold Dev.mapHeld Dev.heldOf
  by_cases hf : f.tile = 0x7FF
  · simp only [if_pos hf]
    exact filter_key_filterMap
  · simp only [if_neg hf]
    rw [Dev.modTile, Dev.tile_setTile_self]
    exact filter_key_filterMap

/-- ACK_ARRIVAL at a flow that sends to single receivers. -/
theorem Dev.heldOf_ackArrival (src : BitVec 12) (hm : ∀ h ∈ d.heldOf f, h.pkt.mcast = false) (hw : f.tile = 0x7FF ∨ (d.tile f.tile.toNat).txWait = []) :
    (d.ackArrival f n src).heldOf f = (d.heldOf f).filter fun h => !flowLe h.seq n := by
  obtain ⟨gone, hgone, hsingle⟩ : ∃ gone : Held → Bool, (∃ tx : TxFlow, d.ackArrival f n src =
      if f.tile = 0x7FF then (d.mapHeld f fun h => if gone h then none else some h).setTx tx
      else ((d.mapHeld f fun h => if gone h then none else some h).setTx tx).txRun f.tile.toNat) ∧
      ∀ h, h.pkt.mcast = false → gone h = flowLe h.seq n := by
    refine ⟨_, ⟨_, rfl⟩, fun h hs => ?_⟩
    simp only [hs, Bool.false_eq_true, if_false]
  obtain ⟨tx, heq⟩ := hgone
  have hset : ((d.mapHeld f fun h => if gone h then none else some h).setTx tx).heldOf f = (d.heldOf f).filter fun h => !flowLe h.seq n := by
    refine (d.heldOf_mapHeld f gone).trans (List.filter_congr fun h hh => ?_)
    rw [hsingle h (hm h hh)]
  rw [heq]
  by_cases hf : f.tile = 0x7FF
  · rw [if_pos hf]
    exact hset
  · have hidle : (((d.mapHeld f fun h => if gone h then none else some h).setTx tx).tile f.tile.toNat).txWait = [] := by
      have hmod : ((d.mapHeld f fun h => if gone h then none else some h).setTx tx).tile f.tile.toNat =
          { d.tile f.tile.toNat with replay := (d.tile f.tile.toNat).replay.filterMap fun h => if h.key = f then (if gone h then none else some h) else some h } := by
        unfold Dev.mapHeld
        dsimp only
        rw [if_neg hf]
        exact Dev.tile_setTile_self ..
      rw [hmod]
      exact hw.resolve_left hf
    rw [if_neg hf, Dev.txRun, hidle]
    exact hset

/-! ### Resending -/

theorem Dev.spadChecks_of_tile {t : Nat} (h : (d.tile t).parInv = []) (qs : List (Nat × Nat × Nat)) (hq : ∀ q ∈ qs, q.1 = t) : Dev.spadChecks qs d = (d, false) := by
  induction qs with
  | nil => rfl
  | cons q qs ih =>
    obtain ⟨hqt, hqs⟩ := List.forall_mem_cons.mp hq
    rw [Dev.spadChecks, hqt, Dev.spadCheck_of_good h]
    exact ih hqs

/-- What a tile resends enters its router in order. -/
theorem Dev.foldl_resend (t : Nat) (floor : W32) (l : List Held) (d : Dev) :
    l.foldl (fun d h => { d with flying := d.flying ++ [⟨t, 4, d.resent h floor, none⟩] }) d =
      { d with flying := d.flying ++ l.map fun h => ⟨t, 4, d.resent h floor, none⟩ } := by
  induction l generalizing d with
  | nil => simp
  | cons h l ih =>
    rw [List.foldl_cons, ih, List.map_cons]
    simp only [List.append_assoc, List.singleton_append]
    rfl

/-- NAK_ARRIVAL at a flow of a tile whose window holds its parity. -/
theorem Dev.resend_of_tile (hgood : (d.tile f.tile.toNat).parInv = []) (hf : f.tile ≠ 0x7FF) :
    (d.resend f n).reg Reg.PORT_RESEND = addCnt (d.reg Reg.PORT_RESEND) 0 64 ((d.heldOf f).filter fun h => flowLe n h.seq).length ∧
    ∀ h rest, d.heldOf f = h :: rest → (d.resend f n).flying =
      d.flying ++ ((d.heldOf f).filter fun g => flowLe n g.seq).map fun g => ⟨f.tile.toNat, 4, d.resent g h.seq, none⟩ := by
  have hreads : Dev.spadChecks (((d.heldOf f).filter fun h => flowLe n h.seq).flatMap fun h => (h.lines.drop 1).map fun a => (f.tile.toNat, 64 * a, 64)) d =
      (d, false) := Dev.spadChecks_of_tile hgood _ fun q hq => by
    obtain ⟨h, -, hh⟩ := List.mem_flatMap.mp hq
    obtain ⟨a, -, rfl⟩ := List.mem_map.mp hh
    rfl
  have hmap (e : Dev) (g : Held → Option Held) : (e.mapHeld f g).reg Reg.PORT_RESEND = e.reg Reg.PORT_RESEND ∧ (e.mapHeld f g).flying = e.flying := by
    unfold Dev.mapHeld
    dsimp only
    rw [if_neg hf]
    exact ⟨rfl, rfl⟩
  unfold Dev.resend
  dsimp only
  rw [hreads]
  simp only [if_neg hf]
  rw [Dev.foldl_resend]
  constructor
  · rw [Dev.count, Dev.reg_modReg_self, (hmap _ _).1]
    rfl
  · intro h rest hl
    rw [hl]
    exact (hmap _ _).2

theorem Dev.txFlows_resend (d : Dev) (f : FlowKey) (n : W32) : (d.resend f n).txFlows = d.txFlows := by
  have hsend (floor : W32) (l : List Held) (d : Dev) : (l.foldl (fun d h =>
      let k := d.resent h floor
      if f.tile = 0x7FF then d.unitOut k else { d with flying := d.flying ++ [⟨f.tile.toNat, 4, k, none⟩] }) d).txFlows = d.txFlows := by
    refine Dev.foldl_keeps (G := Dev.txFlows) ?_ l d
    intro d h
    dsimp only
    split
    · exact (d.relays_unitOut _).keeps Dev.txFlows
    · rfl
  have hmap (e : Dev) (g : Held → Option Held) : (e.mapHeld f g).txFlows = e.txFlows := by
    unfold Dev.mapHeld
    dsimp only
    split <;> rfl
  unfold Dev.resend
  dsimp only
  have hchecks := Dev.txFlows_spadChecks (((d.heldOf f).filter fun h => flowLe n h.seq).flatMap fun h => (h.lines.drop 1).map fun a => (f.tile.toNat, 64 * a, 64)) d
  split <;> rename_i hc
  · rwa [hc] at hchecks
  · rw [hc] at hchecks
    exact (hmap _ _).trans ((hsend _ _ _).trans hchecks)

theorem Dev.txFlow_setTx (d : Dev) (e : TxFlow) : (d.setTx e).txFlow e.key = e := by
  have hnone : (d.txFlows.filter fun g => decide (g.key ≠ e.key)).find? (fun g => decide (g.key = e.key)) = none :=
    List.find?_eq_none.mpr fun g hg => by simpa using (List.mem_filter.mp hg).2
  unfold Dev.txFlow Dev.setTx
  dsimp only
  rw [List.find?_append, hnone]
  simp

theorem Dev.txFlow_key (d : Dev) (f : FlowKey) : (d.txFlow f).key = f := by
  unfold Dev.txFlow
  cases h : d.txFlows.find? fun e => decide (e.key = f) with
  | none => rfl
  | some e => simpa using List.find?_some h

/-- RESEND_TIMEOUT short of the break counts the timeout. -/
theorem Dev.resendTimeout_spec {h : Held} {rest : List Held} (hheld : d.heldOf f = h :: rest) (hold : h.sent + d.rto ≤ d.now)
    (hfew : (d.txFlow f).timeouts + 1 < d.breakN) : ((d.resendTimeout f).txFlow f).timeouts = (d.txFlow f).timeouts + 1 := by
  obtain ⟨e, he⟩ : ∃ e : TxFlow, e = { d.txFlow f with timeouts := (d.txFlow f).timeouts + 1 } := ⟨_, rfl⟩
  have hkey : e.key = f := (congrArg TxFlow.key he).trans (d.txFlow_key f)
  have heq : d.resendTimeout f = (d.setTx e).resend f h.seq := by
    unfold Dev.resendTimeout
    rw [hheld]
    dsimp only
    rw [if_neg (by omega), if_neg (by omega), he]
  have hflow : (d.resendTimeout f).txFlow f = (d.setTx e).txFlow f := by rw [heq, Dev.txFlow, Dev.txFlows_resend, Dev.txFlow]
  have hset : (d.setTx e).txFlow f = e := hkey ▸ d.txFlow_setTx e
  rw [hflow, hset, he]

end

/-- Settles O46. -/
theorem endToEndFlowsAcceptAckAndResend : Obligations.EndToEndFlowsAcceptAckAndResend := by
  refine ⟨fun s k f hnext hflow hcrc hx hp => ?_, fun s k f hflow => ⟨fun hun hold => ?_, fun hun hold => ?_⟩, fun s f n src hown =>
    ⟨fun k hk hm hw => ?_, fun k hk hgood hf => ?_, fun h rest hheld hold hfew => ?_⟩⟩
  · refine completes_onDev (show execE2ePacketArrival k s = _ from rfl) ?_
    rw [if_pos hnext]
    exact Dev.e2eArrival_next hflow hcrc hx hp
  · refine completes_onDev (show execAckSend k s = _ from rfl) ?_
    rw [hflow]
    dsimp only
    rw [if_pos ⟨hun, hold⟩]
    exact Dev.ackNow_rxFlow hflow
  · refine completes_onDev (show execFlowEntryExpiry k s = _ from rfl) ?_
    rw [hflow]
    dsimp only
    rw [if_pos ⟨hun, hold⟩]
    exact ⟨(find?_filter_ne k).trans (if_pos rfl), fun j hj => (find?_filter_ne j).trans (if_neg hj)⟩
  · refine completes_onDev (show execAckArrival f n src s = _ from rfl) ?_
    rw [hk]
    exact Dev.heldOf_ackArrival (d := s.dev.unitTake f.tile.toNat k) src hm hw
  · refine completes_onDev (show execNakArrival f n src s = _ from rfl) ?_
    rw [hk]
    exact Dev.resend_of_tile (d := s.dev.unitTake f.tile.toNat k) hgood hf
  · refine completes_onDev (show execResendTimeout f s = _ from rfl) ?_
    rw [if_pos hown]
    exact Dev.resendTimeout_spec hheld hold hfew

end Sys2Proof.Machine

/-! ## Header flits and link frames there and back (O45; 11 Table 11.1, 12 Table 12.2) -/

namespace Sys2Proof.Machine

open Sys2Proof Sys2Proof.Claims

/-! ### Packed fields -/

/-- A field of a packed number, after those before it. -/
theorem packFields_field {l : List (Nat × Nat)} {i w v : Nat} (h : l[i]? = some (w, v)) :
    packFields l / 2 ^ ((l.take i).map Prod.fst).sum % 2 ^ w = v % 2 ^ w := by
  induction l generalizing i with
  | nil => simp at h
  | cons e l ih =>
    obtain ⟨a, b⟩ := e
    cases i with
    | zero =>
      obtain ⟨rfl, rfl⟩ := Prod.mk.inj (Option.some.inj h)
      simp [packFields]
    | succ i =>
      have hdiv : packFields ((a, b) :: l) / 2 ^ a = packFields l := by
        rw [packFields, Nat.add_mul_div_left _ _ (Nat.two_pow_pos a), Nat.div_eq_of_lt (Nat.mod_lt _ (Nat.two_pow_pos a)), Nat.zero_add]
      rw [List.take_succ_cons, List.map_cons, List.sum_cons, pow_add, ← Nat.div_div_eq_div_mul, hdiv]
      exact ih h

theorem extractLsb'_ofNat {n start len w : Nat} (h : start + len ≤ w) : (BitVec.ofNat w n).extractLsb' start len = BitVec.ofNat len (n / 2 ^ start) := by
  refine BitVec.eq_of_getLsbD_eq fun i hi => ?_
  rw [BitVec.getLsbD_extractLsb', BitVec.getLsbD_ofNat, BitVec.getLsbD_ofNat, Nat.testBit_div_two_pow]
  simp only [hi, decide_true, Bool.true_and, show start + i < w by omega, Nat.add_comm]

/-- The widths of the fields of a header (11 Table 11.1). -/
def headWidths : List Nat :=
  [128, 6, 3, 3, 32, 11, 10, 7, 2, 12, 11, 32, 6, 2, 4, 1, 5, 5, 6, 6, 1, 6, 12, 11, 32, 1, 8, 1, 128, 2]

section

variable {k : Packet} {i off : Nat}

theorem Packet.offset_fields (hoff : (headWidths.take i).sum = off) : ((k.fields.take i).map Prod.fst).sum = off := by
  have hwidths : k.fields.map Prod.fst = headWidths := rfl
  rw [List.map_take, hwidths, hoff]

/-- A field of the header flit. -/
theorem Packet.extract_head {w : Nat} (x : BitVec w) (h : k.fields[i]? = some (w, x.toNat)) (hoff : (headWidths.take i).sum = off)
    (hw : off + w ≤ 512) : k.head.extractLsb' off w = x := by
  have hfield := packFields_field h
  rw [Packet.offset_fields hoff, Nat.mod_eq_of_lt x.isLt] at hfield
  rw [Packet.head, extractLsb'_ofNat hw]
  exact BitVec.eq_of_toNat_eq ((BitVec.toNat_ofNat ..).trans hfield)

/-- A flag of the header flit. -/
theorem Packet.getLsbD_head (x : Bool) (h : k.fields[i]? = some (1, x.toNat)) (hoff : (headWidths.take i).sum = off)
    (hw : off + 1 ≤ 512) : k.head.getLsbD off = x := by
  have hfield := packFields_field h
  rw [Packet.offset_fields hoff, pow_one] at hfield
  rw [Packet.head, BitVec.getLsbD_ofNat, decide_eq_true (show off < 512 from hw), Bool.true_and, Nat.testBit_eq_decide_div_mod_eq, hfield]
  cases x <;> rfl

end

/-- The header flit holds every field of a header. -/
theorem Packet.ofHead_head (k : Packet) : Packet.ofHead k.head = k.hdr := by
  have e {i off w : Nat} (x : BitVec w) := Packet.extract_head (k := k) (i := i) (off := off) x
  have b {i off : Nat} (x : Bool) := Packet.getLsbD_head (k := k) (i := i) (off := off) x
  simp only [Packet.ofHead, Packet.hdr, Packet.mk.injEq]
  refine ⟨e (i := 0) k.route rfl (by decide) (by decide), e (i := 1) _ rfl (by decide) (by decide), e (i := 2) _ rfl (by decide) (by decide), e (i := 3) _ rfl (by decide) (by decide),
    e (i := 4) _ rfl (by decide) (by decide), e (i := 5) _ rfl (by decide) (by decide), e (i := 6) _ rfl (by decide) (by decide), e (i := 7) _ rfl (by decide) (by decide),
    e (i := 8) _ rfl (by decide) (by decide), e (i := 9) _ rfl (by decide) (by decide), e (i := 10) _ rfl (by decide) (by decide), e (i := 11) _ rfl (by decide) (by decide),
    e (i := 12) _ rfl (by decide) (by decide), e (i := 13) _ rfl (by decide) (by decide), e (i := 14) _ rfl (by decide) (by decide), b (i := 15) _ rfl (by decide) (by decide),
    e (i := 16) _ rfl (by decide) (by decide), e (i := 17) _ rfl (by decide) (by decide), e (i := 18) _ rfl (by decide) (by decide), e (i := 19) _ rfl (by decide) (by decide),
    b (i := 20) _ rfl (by decide) (by decide), e (i := 21) _ rfl (by decide) (by decide), e (i := 22) _ rfl (by decide) (by decide), e (i := 23) _ rfl (by decide) (by decide),
    e (i := 24) _ rfl (by decide) (by decide), b (i := 25) _ rfl (by decide) (by decide), e (i := 26) _ rfl (by decide) (by decide), b (i := 27) _ rfl (by decide) (by decide),
    e (i := 28) _ rfl (by decide) (by decide), e (i := 29) _ rfl (by decide) (by decide), trivial⟩

/-! ### Frames -/

theorem leBytes_add (m n x : Nat) : leBytes (m + n) x = leBytes m x ++ leBytes n (x / 256 ^ m) := by
  induction m generalizing x with
  | zero => simp [leBytes]
  | succ m ih => rw [Nat.succ_add, leBytes, leBytes, ih, List.cons_append, Nat.div_div_eq_div_mul, Nat.pow_succ']

/-- The codes of the slots as they stand in a frame's control word. -/
def slotCodes (sl : List (Nat × BitVec 512)) : Nat := packFields (sl.map fun s => (4, s.1))

/-- The flits of the slots of a frame. -/
def slotFlits (sl : List (Nat × BitVec 512)) : List Byte := (sl.map fun s => s.2.toNat).flatMap (leBytes 64)

section

variable (p : Nat) (seq : BitVec 16) (sl : List (Nat × BitVec 512))

theorem ctlBytes_eq : ∃ m n, ctlBytes p = 2 + (m + n) ∧ m ≤ 4 ∧ frameSlots p ≤ 2 * m := by
  unfold ctlBytes frameSlots
  split
  · exact ⟨4, 2, rfl, by decide, by decide⟩
  · exact ⟨2, 0, rfl, by decide, by decide⟩

/-- A frame before its link CRC. -/
def frameFront : List Byte := leBytes (ctlBytes p) (seq.toNat + 2 ^ 16 * slotCodes sl) ++ slotFlits sl

theorem frameBytes_eq : frameBytes p seq sl = frameFront p seq sl ++ leBytes 4 (linkCrc (frameFront p seq sl)) := by
  have hflits : (sl.flatMap fun s => leBytes 64 s.2.toNat) = slotFlits sl := by rw [slotFlits, List.flatMap_map]
  rw [frameBytes, hflits]
  rfl

theorem length_slotFlits : (slotFlits sl).length = 64 * sl.length := by rw [slotFlits, length_flatMap_leBytes, List.length_map]

variable {p sl}

theorem length_frameFront (hl : sl.length = frameSlots p) : (frameFront p seq sl).length = frameBody p := by
  rw [frameFront, List.length_append, length_leBytes, length_slotFlits, hl, frameBody]

/-- A frame as it is sent checks (12 R290). -/
theorem crcOk_frameBytes (hl : sl.length = frameSlots p) (a b : Nat) : LinkFrame.crcOk ⟨frameBytes p seq sl, a, b⟩ p = true := by
  have hlen := length_frameFront seq hl
  have hfront : slice (frameBytes p seq sl) 0 (frameBody p) = frameFront p seq sl := by
    rw [frameBytes_eq]
    exact slice_middle [] _ _ _ _ rfl hlen
  have hcrc : slice (frameBytes p seq sl) (frameBody p) 4 = leBytes 4 (linkCrc (frameFront p seq sl)) := by
    rw [frameBytes_eq, ← List.append_nil (_ ++ _)]
    exact slice_middle _ _ _ _ _ hlen (length_leBytes ..)
  have hbytes : (frameBytes p seq sl).length = frameBody p + 4 := by rw [frameBytes_eq, List.length_append, hlen, length_leBytes]
  rw [LinkFrame.crcOk, Bool.and_eq_true, decide_eq_true_eq, decide_eq_true_eq]
  refine ⟨hbytes, ?_⟩
  rw [rdNat, hcrc, hfront, leNat_leBytes]
  exact Nat.mod_eq_of_lt (crcLsb_lt _ (by decide) _)

theorem leBytes_two_add (a b : Nat) : leBytes 2 (a + 2 ^ 16 * b) = leBytes 2 a := by
  simp only [leBytes, List.cons.injEq, and_true]
  constructor <;> refine BitVec.eq_of_toNat_eq ?_ <;> simp only [BitVec.toNat_ofNat] <;> omega

/-- The control word of a frame: FSEQ in two bytes, then the codes. -/
theorem frameFront_ctl {n : Nat} (hn : ctlBytes p = 2 + n) : frameFront p seq sl = leBytes 2 seq.toNat ++ (leBytes n (slotCodes sl) ++ slotFlits sl) := by
  have hcodes : (seq.toNat + 2 ^ 16 * slotCodes sl) / 256 ^ 2 = slotCodes sl := by
    have := seq.isLt
    omega
  rw [frameFront, hn, leBytes_add, leBytes_two_add, hcodes, List.append_assoc]

theorem fseq_frameBytes (a b : Nat) : LinkFrame.fseq ⟨frameBytes p seq sl, a, b⟩ = seq := by
  obtain ⟨m, n, hn, -, -⟩ := ctlBytes_eq p
  have hs : slice (frameBytes p seq sl) 0 2 = leBytes 2 seq.toNat := by
    rw [frameBytes_eq, frameFront_ctl seq hn, List.append_assoc]
    exact slice_middle [] (leBytes 2 seq.toNat) _ 0 2 rfl (length_leBytes ..)
  rw [LinkFrame.fseq, rdNat, hs, leNat_leBytes]
  refine BitVec.eq_of_toNat_eq ?_
  rw [BitVec.toNat_ofNat]
  have := seq.isLt
  omega

/-- The code of a slot. -/
theorem slotCodes_getElem {i : Nat} (hi : i < sl.length) (hc : sl[i].1 < 16) : slotCodes sl / 2 ^ (4 * i) % 16 = sl[i].1 := by
  have hfield : (sl.map fun s => (4, s.1))[i]? = some (4, sl[i].1) := by simp [hi]
  have hoff : (((sl.map fun s => (4, s.1)).take i).map Prod.fst).sum = 4 * i := by
    rw [← List.map_take, List.map_map]
    have : (sl.take i).map (Prod.fst ∘ fun s : Nat × BitVec 512 => (4, s.1)) = List.replicate i 4 :=
      (List.map_const' ..).trans (by rw [List.length_take, Nat.min_eq_left hi.le])
    rw [this, List.sum_replicate, smul_eq_mul, Nat.mul_comm]
  have h := packFields_field hfield
  rw [hoff] at h
  exact h.trans (Nat.mod_eq_of_lt hc)

/-- The first four bytes after FSEQ hold the codes, as far as the control word reaches. -/
theorem rdNat_codes {m n : Nat} (hn : ctlBytes p = 2 + (m + n)) (hm : m ≤ 4) : rdNat (frameBytes p seq sl) 2 4 % 256 ^ m = slotCodes sl % 256 ^ m := by
  obtain ⟨rest, hrest⟩ : ∃ rest, frameBytes p seq sl = leBytes 2 seq.toNat ++ (leBytes m (slotCodes sl) ++ rest) := by
    refine ⟨leBytes n (slotCodes sl / 256 ^ m) ++ (slotFlits sl ++ leBytes 4 (linkCrc (frameFront p seq sl))), ?_⟩
    rw [frameBytes_eq]
    generalize leBytes 4 (linkCrc (frameFront p seq sl)) = crc
    rw [frameFront_ctl seq hn, leBytes_add]
    simp only [List.append_assoc]
  have hcodes : slice (frameBytes p seq sl) 2 m = leBytes m (slotCodes sl) := by
    rw [hrest, ← List.append_assoc]
    exact slice_middle (leBytes 2 seq.toNat) (leBytes m (slotCodes sl)) rest 2 m (length_leBytes ..) (length_leBytes ..)
  have hsplit : slice (frameBytes p seq sl) 2 4 = leBytes m (slotCodes sl) ++ slice (frameBytes p seq sl) (2 + m) (4 - m) := by
    rw [← hcodes, ← slice_add, Nat.add_sub_cancel' hm]
  rw [rdNat, hsplit, leNat_append, length_leBytes, leNat_leBytes, Nat.add_mul_mod_self_left, Nat.mod_mod]

/-- Bits below the modulus are the same on both sides of a congruence. -/
theorem div_mod_of_mod_eq {a b t len M : Nat} (h : a % 2 ^ M = b % 2 ^ M) (ht : t + len ≤ M) : a / 2 ^ t % 2 ^ len = b / 2 ^ t % 2 ^ len := by
  refine Nat.eq_of_testBit_eq fun i => ?_
  simp only [Nat.testBit_mod_two_pow, Nat.testBit_div_two_pow]
  by_cases hi : i < len
  · have hbit := congrArg (Nat.testBit · (i + t)) h
    simp only [Nat.testBit_mod_two_pow, show i + t < M by omega, decide_true, Bool.true_and] at hbit
    simp only [hi, decide_true, Bool.true_and, hbit]
  · simp only [hi, decide_false, Bool.false_and]

/-- The slots of a frame as it is sent. -/
theorem slot_frameBytes (hl : sl.length = frameSlots p) (hc : ∀ c ∈ sl, c.1 < 16) (a b : Nat) {i : Nat} (hi : i < sl.length) :
    LinkFrame.slot ⟨frameBytes p seq sl, a, b⟩ p i = sl[i] := by
  obtain ⟨m, n, hn, hm, hroom⟩ := ctlBytes_eq p
  have hcode : rdNat (frameBytes p seq sl) 2 4 / 2 ^ (4 * i) % 16 = sl[i].1 := by
    have hmod : rdNat (frameBytes p seq sl) 2 4 % 2 ^ (8 * m) = slotCodes sl % 2 ^ (8 * m) := by
      have h := rdNat_codes seq (sl := sl) hn hm
      rwa [show (256 : Nat) = 2 ^ 8 by decide, ← pow_mul] at h
    exact (div_mod_of_mod_eq (len := 4) hmod (by omega)).trans (slotCodes_getElem hi (hc _ (List.getElem_mem hi)))
  have hflit : slice (frameBytes p seq sl) (ctlBytes p + 64 * i) 64 = leBytes 64 sl[i].2.toNat := by
    have hsplit : sl.take i ++ sl[i] :: sl.drop (i + 1) = sl := by rw [List.getElem_cons_drop, List.take_append_drop]
    have hflits : slotFlits sl = slotFlits (sl.take i) ++ (leBytes 64 sl[i].2.toNat ++ slotFlits (sl.drop (i + 1))) := by
      conv_lhs => rw [← hsplit]
      simp only [slotFlits, List.map_append, List.map_cons, List.flatMap_append, List.flatMap_cons]
    rw [frameBytes_eq]
    generalize leBytes 4 (linkCrc (frameFront p seq sl)) = crc
    rw [frameFront, hflits]
    generalize hctl : leBytes (ctlBytes p) (seq.toNat + 2 ^ 16 * slotCodes sl) = ctl
    have hlen : (ctl ++ slotFlits (sl.take i)).length = ctlBytes p + 64 * i := by
      rw [List.length_append, ← hctl, length_leBytes, length_slotFlits, List.length_take, Nat.min_eq_left hi.le]
    have hassoc : ctl ++ (slotFlits (sl.take i) ++ (leBytes 64 sl[i].2.toNat ++ slotFlits (sl.drop (i + 1)))) ++ crc =
        (ctl ++ slotFlits (sl.take i)) ++ leBytes 64 sl[i].2.toNat ++ (slotFlits (sl.drop (i + 1)) ++ crc) := by simp only [List.append_assoc]
    rw [hassoc]
    exact slice_middle _ (leBytes 64 sl[i].2.toNat) _ _ _ hlen (length_leBytes ..)
  refine Prod.ext hcode ?_
  change BitVec.ofNat 512 (leNat (slice (frameBytes p seq sl) (ctlBytes p + 64 * i) 64)) = sl[i].2
  rw [hflit, leNat_leBytes]
  refine BitVec.eq_of_toNat_eq ?_
  have hwidth : (256 : Nat) ^ 64 = 2 ^ 512 := by rw [show (256 : Nat) = 2 ^ 8 from rfl, ← pow_mul]
  rw [BitVec.toNat_ofNat, hwidth, Nat.mod_mod]
  exact Nat.mod_eq_of_lt sl[i].2.isLt

theorem slots_frameBytes (hl : sl.length = frameSlots p) (hc : ∀ c ∈ sl, c.1 < 16) (a b : Nat) : LinkFrame.slots ⟨frameBytes p seq sl, a, b⟩ p = sl := by
  refine List.ext_getElem (by rw [LinkFrame.slots, List.length_map, List.length_range, hl]) fun i hi hi' => ?_
  rw [← slot_frameBytes seq hl hc a b hi']
  simp only [LinkFrame.slots, List.getElem_map, List.getElem_range]

end

end Sys2Proof.Machine

/-! ## Frames that a port takes, drops and sends (O45; 12 R289 to R292, R296) -/

namespace Sys2Proof.Machine

open Sys2Proof Sys2Proof.Claims

section

variable {d : Dev} {p : Nat} {fr : LinkFrame}

/-! ### The way of a frame into the port -/

/-- The device with the codewords that a frame's FEC counted. -/
def Dev.fecCounted (d : Dev) (p : Nat) (fr : LinkFrame) : Dev :=
  if optical p then (d.count (Reg.PORT_FEC + 0x200 * p) 0 32 fr.fecCorr).count (Reg.PORT_FEC + 0x200 * p) 32 32 fr.fecUncorr else d

theorem Dev.fecCounted_frame (d : Dev) (p : Nat) (fr : LinkFrame) : ∃ regs, d.fecCounted p fr = { d with regs := regs } := by
  unfold Dev.fecCounted
  split
  · exact ⟨_, rfl⟩
  · exact ⟨d.regs, rfl⟩

theorem Dev.reg_fecCounted (d : Dev) (p : Nat) (fr : LinkFrame) {a : Nat} (ha : a ≠ Reg.PORT_FEC + 0x200 * p) : (d.fecCounted p fr).reg a = d.reg a := by
  unfold Dev.fecCounted
  split
  · exact (Dev.reg_modReg_ne _ _ _ ha).trans (Dev.reg_modReg_ne _ _ _ ha)
  · rfl

/-- The port as the slots of a frame are taken: the next frame and the last one are known. -/
def Dev.frameNoted (d : Dev) (p : Nat) (fr : LinkFrame) : Dev :=
  ((d.fecCounted p fr).modPort p fun x => { x with rxSeq := some (fr.fseq + 1) }).modPort p fun x => { x with taken := fr.fseq }

/-- A frame that checks and follows the last one is taken. -/
theorem Dev.linkFrame_of_next (hup : d.portCarries p = true) (hcrc : fr.crcOk p = true) (hfec : optical p = true → fr.fecUncorr = 0)
    (hnext : ∀ q, (d.port p).rxSeq = some q → fr.fseq = q) (hres : fr.reserved p = false) :
    d.linkFrame p fr = ((fr.slots p).foldl (Dev.takeSlot p) (d.frameNoted p fr)).clean := by
  have hgood : ¬(!fr.crcOk p || (optical p && decide (fr.fecUncorr ≠ 0))) = true := by
    cases ho : optical p
    · simp [hcrc]
    · simp [hcrc, hfec ho]
  have hport : ((d.fecCounted p fr).port p).rxSeq = (d.port p).rxSeq := by
    obtain ⟨_, h⟩ := d.fecCounted_frame p fr
    rw [h]
    rfl
  unfold Dev.linkFrame
  rw [if_neg (by simp [hup])]
  change (if (!fr.crcOk p || (optical p && decide (fr.fecUncorr ≠ 0))) = true then _ else _) = _
  rw [if_neg hgood]
  dsimp only
  have hcounted : (if optical p then (d.count (Reg.PORT_FEC + 0x200 * p) 0 32 fr.fecCorr).count (Reg.PORT_FEC + 0x200 * p) 32 32 fr.fecUncorr else d) =
      d.fecCounted p fr := rfl
  rw [if_neg (by simp [hres]), hcounted, Dev.frameNoted]
  cases hq : ((d.fecCounted p fr).port p).rxSeq with
  | none =>
    dsimp only
    rw [if_neg (by decide)]
  | some q =>
    have hzero : (fr.fseq - q).toNat = 0 := by simp [hnext q (hport.symm.trans hq)]
    dsimp only
    rw [if_neg fun h => h hzero]

/-- A frame that fails its check is dropped. -/
theorem Dev.linkFrame_of_bad (hup : d.portCarries p = true) (hcrc : fr.crcOk p = false) :
    ∃ x, d.linkFrame p fr = ((d.fecCounted p fr).setPort p x).frameDrop p 1 := by
  refine ⟨{ (d.fecCounted p fr).port p with rxSeq := ((d.fecCounted p fr).port p).rxSeq.map (· + 1) }, ?_⟩
  unfold Dev.linkFrame
  rw [if_neg (by simp [hup])]
  exact if_pos (by simp [hcrc])

/-! ### Slots -/

/-- The slots of a frame leave what a port knows of the frames. -/
theorem Dev.takeSlot_keeps (d : Dev) (sl : Nat × BitVec 512) :
    ((Dev.takeSlot p d sl).port p).rxSeq = (d.port p).rxSeq ∧ ((Dev.takeSlot p d sl).port p).taken = (d.port p).taken := by
  have hrelays {e : Dev} (h : Relays d e) : (e.port p).rxSeq = (d.port p).rxSeq ∧ (e.port p).taken = (d.port p).taken := by
    rw [h.port]
    exact ⟨rfl, rfl⟩
  have hhead (v : BitVec 2) (b : BitVec 512) : Relays d (d.takeHead p v b) := by
    have hin := (d.relays_relayCut p v).trans ((d.relayCut p v).relays_relayIn p { Packet.ofHead b with vc := v })
    unfold Dev.takeHead
    dsimp only
    split
    · exact hin.trans (Dev.relays_relayCut ..)
    · exact hin
  unfold Dev.takeSlot
  split_ifs
  · unfold Dev.takeCredit
    rw [Dev.port_modPort_self]
    exact ⟨rfl, rfl⟩
  · exact ⟨rfl, rfl⟩
  · exact hrelays (Dev.relays_relayBody ..)
  · exact hrelays (hhead ..)
  · exact ⟨rfl, rfl⟩

theorem Dev.linkFrame_noted (hup : d.portCarries p = true) (hcrc : fr.crcOk p = true) (hfec : optical p = true → fr.fecUncorr = 0)
    (hnext : ∀ q, (d.port p).rxSeq = some q → fr.fseq = q) (hres : fr.reserved p = false) :
    ((d.linkFrame p fr).port p).rxSeq = some (fr.fseq + 1) ∧ ((d.linkFrame p fr).port p).taken = fr.fseq := by
  have hnoted : ((d.frameNoted p fr).port p).rxSeq = some (fr.fseq + 1) ∧ ((d.frameNoted p fr).port p).taken = fr.fseq := by
    simp only [Dev.frameNoted, Dev.port_modPort_self, and_self]
  rw [Dev.linkFrame_of_next hup hcrc hfec hnext hres]
  exact List.foldlRecOn (motive := fun e : Dev => (e.port p).rxSeq = some (fr.fseq + 1) ∧ (e.port p).taken = fr.fseq) _ _ hnoted fun e he sl _ =>
    ⟨(Dev.takeSlot_keeps e sl).1.trans he.1, (Dev.takeSlot_keeps e sl).2.trans he.2⟩

/-- IDLE slots change nothing. -/
theorem Dev.foldl_takeSlot_idle (n : Nat) (d : Dev) : (List.replicate n (0, 0)).foldl (Dev.takeSlot p) d = d := by
  induction n with
  | zero => rfl
  | succ n ih => exact ih

/-! ### The flit of a BODY slot -/

theorem leNat_ofWords (ws : List W128) : leNat (ofWords ws) = packFields (ws.map fun w => (128, w.toNat)) := by
  induction ws with
  | nil => rfl
  | cons w ws ih =>
    have hwidth : (256 : Nat) ^ 16 = 2 ^ 128 := by decide
    rw [ofWords, List.flatMap_cons, leNat_append, leNat_leBytes, length_leBytes, List.map_cons, packFields, hwidth]
    exact congrArg (w.toNat % 2 ^ 128 + 2 ^ 128 * ·) ih

/-- The four words of a flit. -/
theorem words_of_flit {ws : List W128} (hl : ws.length = 4) :
    ((List.range 4).map fun i => (BitVec.ofNat 512 (leNat (ofWords ws))).extractLsb' (128 * i) 128) = ws := by
  refine List.ext_getElem (by simp [hl]) fun i hi hi' => ?_
  have hi4 : i < 4 := hl ▸ hi'
  have hfield : (ws.map fun w => (128, w.toNat))[i]? = some (128, ws[i].toNat) := by simp [hi']
  have hoff : (((ws.map fun w => (128, w.toNat)).take i).map Prod.fst).sum = 128 * i := by
    have hconst : ((ws.take i).map (Prod.fst ∘ fun w : W128 => (128, w.toNat))) = List.replicate i 128 :=
      (List.map_const' ..).trans (by rw [List.length_take, Nat.min_eq_left hi'.le])
    rw [← List.map_take, List.map_map, hconst, List.sum_replicate, smul_eq_mul, Nat.mul_comm]
  have h := packFields_field hfield
  rw [hoff, ← leNat_ofWords, Nat.mod_eq_of_lt ws[i].isLt] at h
  rw [List.getElem_map, List.getElem_range, extractLsb'_ofNat (by omega)]
  exact BitVec.eq_of_toNat_eq ((BitVec.toNat_ofNat ..).trans h)

/-- The last flit of a packet for this device: the packet waits for its end-to-end check, and leaves the crossbar. -/
theorem Dev.relayBody_last {f : Flight} {v : BitVec 2} {ws : List W128} (hfly : d.flying = [f]) (hat : f.at_ relay p v = true)
    (houts : f.outs = some [⟨outHere, f.pkt.hdr, f.pkt.got, false⟩]) (hlast : f.pkt.got + 1 = f.pkt.flits) (hws : ws.length = 4)
    (hdev : f.pkt.ddev = d.id) (he2e : f.pkt.e2e = true) :
    (d.relayBody p v ws).rxIn = d.rxIn ++ [{ f.pkt with words := f.pkt.words ++ ws }] ∧ (d.relayBody p v ws).clean.flying = [] := by
  have hpart : f.pkt.whole = false := by
    rw [Packet.whole, decide_eq_false_iff_not]
    omega
  obtain ⟨k, hk⟩ : ∃ k : Packet, k = { f.pkt with words := f.pkt.words ++ ws } := ⟨_, rfl⟩
  have hgot : k.got = f.pkt.got + 1 := by
    rw [hk, Packet.got, Packet.got, List.length_append, hws]
    omega
  have hflits : k.flits = f.pkt.flits := by rw [hk]; rfl
  have hwhole : k.whole = true := by
    rw [Packet.whole, decide_eq_true_eq, hflits, hgot]
    omega
  have hfind : d.flying.find? (fun f => f.at_ relay p v && !f.pkt.whole) = some f := by
    rw [hfly, List.find?_cons, hat, hpart]
    rfl
  have hadd : addFlit d.flying relay p v ws = [({ f with pkt := k } : Flight).taken] := by
    have hidx : [f].findIdx? (fun f => f.at_ relay p v && !f.pkt.whole) = some 0 := by
      rw [List.findIdx?_cons, hat, hpart]
      rfl
    rw [addFlit, hfly, hidx, hk]
    rfl
  have hcopy : (f.copyTo outHere).isSome = true := by
    rw [Flight.copyTo, houts]
    rfl
  have harrive (e : Dev) (hid : e.id = d.id) : e.arriveHere k = { e with rxIn := e.rxIn ++ [k] } := by
    have hmine : ¬(k.mcast = false ∧ k.ddev ≠ e.id) := fun h => h.2 (by rw [hid, hk]; exact hdev)
    have hcheck : k.e2e = true := by rw [hk]; exact he2e
    rw [Dev.arriveHere, if_neg hmine, if_pos hcheck]
  have heq : d.relayBody p v ws = { d with flying := [({ f with pkt := k } : Flight).taken], rxIn := d.rxIn ++ [k] } := by
    unfold Dev.relayBody
    rw [hfind]
    dsimp only
    rw [← hk, hwhole, hcopy, hadd]
    exact harrive _ rfl
  have hover : (({ f with pkt := k } : Flight).taken).over = true := by
    simp only [Flight.over, Flight.taken, Flight.modCopy, houts, hwhole, Option.map_some, List.map_cons, List.map_nil, if_true, List.all_cons, List.all_nil,
      Bool.and_true, Bool.true_and, decide_eq_true_eq, hflits, hgot]
    omega
  rw [heq, ← hk]
  refine ⟨rfl, ?_⟩
  rw [Dev.clean]
  simp [hover]

theorem Dev.frameNoted_keeps (hp : p < Config.nPorts) : (d.frameNoted p fr).flying = d.flying ∧ (d.frameNoted p fr).rxIn = d.rxIn ∧ (d.frameNoted p fr).id = d.id := by
  obtain ⟨regs, h⟩ := d.fecCounted_frame p fr
  have hid : (d.fecCounted p fr).reg Reg.PORT_DEVID = d.reg Reg.PORT_DEVID :=
    Dev.reg_fecCounted _ _ _ (by simp only [Reg.PORT_DEVID, Reg.PORT_FEC, Config.nPorts] at hp ⊢; omega)
  refine ⟨?_, ?_, congrArg (fun v => BitVec.ofNat 12 (fld v 0 12)) hid⟩
  · rw [Dev.frameNoted, h]
    rfl
  · rw [Dev.frameNoted, h]
    rfl

/-- A frame whose one flit ends a packet for this device. -/
theorem Dev.linkFrame_body {f : Flight} {v : BitVec 2} {ws : List W128} (hp : p < Config.nPorts) (hup : d.portCarries p = true) (hcrc : fr.crcOk p = true)
    (hfec : optical p = true → fr.fecUncorr = 0) (hnext : ∀ q, (d.port p).rxSeq = some q → fr.fseq = q)
    (hslots : fr.slots p = (12 + v.toNat, BitVec.ofNat 512 (leNat (ofWords ws))) :: List.replicate (frameSlots p - 1) (0, 0)) (hws : ws.length = 4)
    (hfly : d.flying = [f]) (hat : f.at_ relay p v = true) (houts : f.outs = some [⟨outHere, f.pkt.hdr, f.pkt.got, false⟩]) (hlast : f.pkt.got + 1 = f.pkt.flits)
    (hdev : f.pkt.ddev = d.id) (he2e : f.pkt.e2e = true) :
    (d.linkFrame p fr).rxIn = d.rxIn ++ [{ f.pkt with words := f.pkt.words ++ ws }] ∧ (d.linkFrame p fr).flying = [] := by
  have hv := v.isLt
  have hres : fr.reserved p = false := by
    rw [LinkFrame.reserved, hslots, List.any_cons, Bool.or_eq_false_iff]
    refine ⟨by simp; omega, ?_⟩
    simp
  have hcode : BitVec.ofNat 2 (12 + v.toNat) = v := by
    refine BitVec.eq_of_toNat_eq ?_
    rw [BitVec.toNat_ofNat]
    omega
  have htake (e : Dev) : Dev.takeSlot p e (12 + v.toNat, BitVec.ofNat 512 (leNat (ofWords ws))) = e.relayBody p v ws := by
    unfold Dev.takeSlot
    dsimp only
    rw [if_neg (by omega), if_pos (by omega), hcode, words_of_flit hws]
  obtain ⟨hflying, hrx, hid⟩ := Dev.frameNoted_keeps (d := d) (fr := fr) hp
  rw [Dev.linkFrame_of_next hup hcrc hfec hnext hres, hslots, List.foldl_cons, htake, Dev.foldl_takeSlot_idle, ← hrx]
  exact Dev.relayBody_last (hflying.trans hfly) hat houts hlast hws (hdev.trans hid.symm) he2e

/-! ### Frames that fail -/

theorem Dev.linkFrame_bad (hp : p < Config.nPorts) (hup : d.portCarries p = true) (hcrc : fr.crcOk p = false) :
    bit ((d.linkFrame p fr).reg (Reg.PORT_ERR + 0x200 * p)) 0 = true ∧
    fld ((d.linkFrame p fr).reg (Reg.PORT_CNT + 0x200 * p)) 0 32 = min (fld (d.reg (Reg.PORT_CNT + 0x200 * p)) 0 32 + 1) (2 ^ 32 - 1) := by
  obtain ⟨x, hx⟩ := Dev.linkFrame_of_bad hup hcrc
  obtain ⟨e, he⟩ : ∃ e : Dev, e = (d.fecCounted p fr).setPort p x := ⟨_, rfl⟩
  have hcount : e.reg (Reg.PORT_CNT + 0x200 * p) = d.reg (Reg.PORT_CNT + 0x200 * p) := by
    rw [he]
    exact Dev.reg_fecCounted _ _ _ (portReg_ne (by decide))
  obtain ⟨g, hg⟩ : ∃ g : Dev, g = (e.count (Reg.PORT_CNT + 0x200 * p) 0 32 1).modReg (Reg.PORT_ERR + 0x200 * p) fun v => setBit v 0 := ⟨_, rfl⟩
  have herr : bit (g.reg (Reg.PORT_ERR + 0x200 * p)) 0 = true := by
    rw [hg, Dev.reg_modReg_self]
    exact bit_setBit_self _ _ (by decide)
  have hdrops : fld (g.reg (Reg.PORT_CNT + 0x200 * p)) 0 32 = min (fld (d.reg (Reg.PORT_CNT + 0x200 * p)) 0 32 + 1) (2 ^ 32 - 1) := by
    rw [hg, Dev.reg_modReg_ne _ _ _ (portReg_ne (by decide)), Dev.count, Dev.reg_modReg_self, hcount]
    exact fld_addCnt_self _ _ (by decide)
  obtain ⟨f, hf⟩ : ∃ f : Port → Port, (e.frameDrop p 1) = (g.modPort p f).completeAll p := by
    rw [hg]
    exact ⟨_, rfl⟩
  have hcut := (g.modPort p f).relays_completeAll p
  rw [hx, ← he, hf, hcut.reg _ (not_relayReg_port hp (.inl (by decide))), hcut.drops p hp]
  exact ⟨herr, hdrops⟩

/-! ### Credit and slots -/

theorem Dev.fillSlots_of_empty (n : Nat) (hfly : d.flying = []) : Dev.fillSlots p n d = (d, List.replicate n (0, 0)) := by
  have hpick : d.portPick p = none := by
    rw [Dev.portPick, hfly]
    rfl
  induction n with
  | zero => rfl
  | succ n ih =>
    rw [Dev.fillSlots, hpick]
    dsimp only
    rw [ih, List.replicate_succ]

theorem Dev.creditSend_spec (hup : d.portCarries p = true) (hdue : d.creditDue p = true) (hfly : d.flying = []) :
    (d.creditSend p).out = d.out ++ [.portOut p (frameBytes p (d.port p).txSeq ((1, d.creditSlot p) :: List.replicate (frameSlots p - 1) (0, 0)))] ∧
    ((d.creditSend p).port p).txSeq = (d.port p).txSeq + 1 ∧ ((d.creditSend p).port p).credSent = d.rxFrees p := by
  obtain ⟨e, he⟩ : ∃ e, e = d.modPort p fun x => { x with credSent := d.rxFrees p, credAt := d.elapsed } := ⟨_, rfl⟩
  have hport : e.port p = { d.port p with credSent := d.rxFrees p, credAt := d.elapsed } := by rw [he, Dev.port_modPort_self]
  have hempty : e.flying = [] := by
    rw [he]
    exact hfly
  have heq : d.creditSend p = ((e.setPort p { e.port p with txSeq := (e.port p).txSeq + 1 }).emit
      (.portOut p (frameBytes p (e.port p).txSeq ((1, d.creditSlot p) :: List.replicate (frameSlots p - 1) (0, 0))))).clean := by
    rw [Dev.creditSend, if_pos (by simp [hup, hdue]), ← he, Dev.frameSend]
    dsimp only
    rw [Dev.fillSlots_of_empty _ hempty]
    rfl
  have hout : e.out = d.out := by
    rw [he]
    rfl
  have hself : (d.creditSend p).port p = { e.port p with txSeq := (e.port p).txSeq + 1 } := by
    rw [heq]
    exact Dev.port_setPort_self ..
  rw [hself, hport]
  refine ⟨?_, rfl, rfl⟩
  rw [heq, hport]
  exact congrArg (· ++ _) hout

theorem Dev.portSlotStart_spec {n src : Nat} {h : Nat × Flight × Copy} (hup : d.portCarries p = true) (hslots : d.portSlots p = true)
    (hclock : d.portClock = some n) (hfirst : n % d.portSlotNs p = 0) (hsrc : d.portSrc p = some src) (hfree : ∀ g ∈ heads d.flying relay p 0, g.2.2.go = false)
    (hhead : (heads d.flying relay p 0).find? (fun h => decide (h.2.1.inp = src)) = some h) :
    d.portSlotStart p = { d with flying := d.flying.modify h.1 fun f => f.modCopy p fun c => { c with go := true } } := by
  have hnone : (heads d.flying relay p 0).any (fun h => h.2.2.go) = false := by simpa using hfree
  unfold Dev.portSlotStart
  rw [hclock, hsrc]
  dsimp only
  rw [if_pos ⟨hup, hslots, hfirst, hnone⟩, hhead]

end

/-- Settles O45. -/
theorem linkFramesAndPortSlots : Obligations.LinkFramesAndPortSlots := by
  refine ⟨Packet.ofHead_head, fun p seq sl a b hl hc => ⟨crcOk_frameBytes seq hl a b, fseq_frameBytes seq a b, slots_frameBytes seq hl hc a b⟩,
    fun s p fr hp hup => ⟨fun hcrc hfec hnext => ⟨fun hres => ?_, fun v f ws hslots hws hfly hat houts hlast _ _ hdev he2e => ?_⟩, fun hcrc => ?_, fun hdue hfly => ?_⟩,
    fun s p n src h hp hup hslots hclock hfirst hsrc hfree hhead => ?_⟩
  · exact completes_onUnit hp (f := fun d => d.linkFrame p fr) rfl (Dev.linkFrame_noted hup hcrc hfec hnext hres)
  · exact completes_onUnit hp (f := fun d => d.linkFrame p fr) rfl (Dev.linkFrame_body hp hup hcrc hfec hnext hslots hws hfly hat houts hlast hdev he2e)
  · exact completes_onUnit hp (f := fun d => d.linkFrame p fr) rfl (Dev.linkFrame_bad hp hup hcrc)
  · exact completes_onUnit hp (f := fun d => d.creditSend p) rfl (Dev.creditSend_spec hup hdue hfly)
  · exact completes_onUnit hp (f := fun d => d.portSlotStart p) rfl (Dev.portSlotStart_spec hup hslots hclock hfirst hsrc hfree hhead)

end Sys2Proof.Machine

/-! ## A header at a router (O28; 11 R272 to R274, R281 to R283) -/

namespace Sys2Proof.Machine

open Sys2Proof Sys2Proof.Claims

/-! ### Where a header goes -/

theorem Packet.skipSegs_hdr (n : Nat) (k : Packet) : Packet.skipSegs n k.hdr = (Packet.skipSegs n k).hdr := by
  induction n generalizing k with
  | zero => rfl
  | succ n ih =>
    by_cases h : k.segptr.toNat < k.segn.toNat ∧ (k.seg k.segptr.toNat).2 = 0
    · have hk : Packet.skipSegs (n + 1) k = Packet.skipSegs n { k with segptr := k.segptr + 1 } := if_pos h
      have hh : Packet.skipSegs (n + 1) k.hdr = Packet.skipSegs n ({ k with segptr := k.segptr + 1 } : Packet).hdr := if_pos h
      rw [hk, hh, ih]
    · have hk : Packet.skipSegs (n + 1) k = k := if_neg h
      have hh : Packet.skipSegs (n + 1) k.hdr = k.hdr := if_neg h
      rw [hk, hh]

section

variable {k : Packet} {t : Nat} {inp : Port5}

/-- A packet whose current segment names a neighbour goes there, one hop taken. -/
theorem Packet.outputs_of_seg {u : Nat} {j : Port5} (hseg : (Packet.skipSegs 4 k).segptr.toNat < (Packet.skipSegs 4 k).segn.toNat)
    (hn : neighbour t (dirPort ((Packet.skipSegs 4 k).seg (Packet.skipSegs 4 k).segptr.toNat).1) = some (u, j)) :
    k.hdr.outputs t inp = some [(dirPort ((Packet.skipSegs 4 k).seg (Packet.skipSegs 4 k).segptr.toNat).1, (Packet.skipSegs 4 k).hdr.hop)] := by
  unfold Packet.outputs
  rw [Packet.skipSegs_hdr]
  generalize Packet.skipSegs 4 k = q at hseg hn
  have hseg' : q.hdr.segptr.toNat < q.hdr.segn.toNat := hseg
  have hn' : neighbour t (dirPort (q.hdr.seg q.hdr.segptr.toNat).1) = some (u, j) := hn
  dsimp only
  rw [if_pos hseg', hn']
  rfl

/-- A packet at its end in its tile goes to the Local port. -/
theorem Packet.outputs_of_end (hseg : (Packet.skipSegs 4 k).segn.toNat ≤ (Packet.skipSegs 4 k).segptr.toNat) (hhop : (Packet.skipSegs 4 k).hopLeft = false)
    (hrmc : (Packet.skipSegs 4 k).rmc = false) (hd : (Packet.skipSegs 4 k).dtile.toNat = t) :
    k.hdr.outputs t inp = some [(.local_, (Packet.skipSegs 4 k).hdr)] := by
  unfold Packet.outputs
  rw [Packet.skipSegs_hdr]
  generalize Packet.skipSegs 4 k = q at hseg hhop hrmc hd
  have hhop' : q.hdr.hopLeft = false := hhop
  have hrmc' : q.hdr.rmc = false := hrmc
  have hd' : q.hdr.dtile.toNat = t := hd
  have hseg' : ¬q.hdr.segptr.toNat < q.hdr.segn.toNat := Nat.not_lt.mpr hseg
  dsimp only
  rw [if_neg hseg', if_neg (by simp [hhop']), if_pos hrmc', if_pos hd']

end

section

variable {d : Dev} {t : Nat} {inp : Port5} {k : Packet} {i : Nat} {f : Flight} {outs : List (Port5 × Packet)}

/-- A malformed header is misrouted. -/
theorem Dev.route1_of_malformed (hin : inp ≠ .local_) (hform : k.malformed false = true) : d.route1 t inp k.hdr = (d.misroute t, k.hdr, []) := by
  have hbad : (k.hdr.malformed false || !kindVc k.hdr.kind.toNat k.hdr.vc.toNat) = true := Bool.or_eq_true_iff.mpr (.inl hform)
  unfold Dev.route1
  rw [if_neg hin]
  exact if_pos hbad

section

variable (hin : inp ≠ .local_) (hform : k.malformed false = false) (hkind : kindVc k.kind.toNat k.vc.toNat = true)
    (habort : d.abortDrops t k.regtag.toNat = false)

include hin hform hkind habort

/-- A VC0 header of another region is discarded at the boundary. -/
theorem Dev.route1_of_bound (hbound : k.vc = 0 ∧ k.regtag.toNat ≠ 0x7F ∧ (d.tile t).meshRegion ≠ k.regtag.toNat ∧ (d.tile t).meshRegion ≠ 0x7F) :
    d.route1 t inp k.hdr = (d.boundDrop t k.regtag.toNat, k.hdr, []) := by
  have hgo : ¬(k.hdr.malformed false || !kindVc k.hdr.kind.toNat k.hdr.vc.toNat) = true := by
    change ¬(k.malformed false || !kindVc k.kind.toNat k.vc.toNat) = true
    simp [hform, hkind]
  have hstay : ¬d.abortDrops t k.hdr.regtag.toNat = true := Bool.eq_false_iff.mp habort
  unfold Dev.route1
  rw [if_neg hin]
  dsimp only
  rw [if_neg hgo, if_neg hstay]
  exact if_pos hbound

/-- The router's answer to a well-formed header that it need not discard. -/
theorem Dev.route1_of_good (hbound : ¬(k.vc = 0 ∧ k.regtag.toNat ≠ 0x7F ∧ (d.tile t).meshRegion ≠ k.regtag.toNat ∧ (d.tile t).meshRegion ≠ 0x7F))
    (ho : k.hdr.outputs t inp = some outs) : d.route1 t inp k.hdr = (d, k.hdr, outs) := by
  have hgo : ¬(k.hdr.malformed false || !kindVc k.hdr.kind.toNat k.hdr.vc.toNat) = true := by
    change ¬(k.malformed false || !kindVc k.kind.toNat k.vc.toNat) = true
    simp [hform, hkind]
  have hstay : ¬d.abortDrops t k.hdr.regtag.toNat = true := Bool.eq_false_iff.mp habort
  have hbound' : ¬(k.hdr.vc = 0 ∧ k.hdr.regtag.toNat ≠ 0x7F ∧ (d.tile t).meshRegion ≠ k.hdr.regtag.toNat ∧ (d.tile t).meshRegion ≠ 0x7F) := hbound
  unfold Dev.route1
  rw [if_neg hin]
  dsimp only
  rw [if_neg hgo, if_neg hstay, if_neg hbound', ho]

end

/-- The header that came is the packet's own: only its copies become known. -/
theorem modify_header {fs : List Flight} (hi : fs[i]? = some f) (hf : f.pkt.hdr = k.hdr) (o : Option (List Copy)) :
    fs.modify i (fun f => { f with pkt := { k.hdr with words := f.pkt.words }, outs := o }) = fs.modify i fun f => { f with outs := o } := by
  refine List.ext_getElem? fun j => ?_
  by_cases h : i = j
  · subst h
    rw [List.getElem?_modify_eq, List.getElem?_modify_eq, hi, ← hf]
    rfl
  · rw [List.getElem?_modify_ne _ _ h, List.getElem?_modify_ne _ _ h]

/-- The copy that leaves over an output. -/
def copyOut (o : Port5 × Packet) : Copy := ⟨o.1.code, o.2.hdr, 0, false⟩

/-- A header that arrives is routed; its copies are not late when it is not of VC0 or is discarded. -/
theorem Dev.headerIn_of_route (ha : d.arriving t inp k.vc = some i) (hi : d.flying[i]? = some f) (hf : f.pkt.hdr = k.hdr) {e : Dev} (hfly : e.flying = d.flying)
    (hr : d.route1 t inp k.hdr = (e, k.hdr, outs)) (hlate : k.vc ≠ 0 ∨ outs = []) :
    d.headerIn t inp k = { e with flying := Routed d i (outs.map copyOut) } := by
  have hl : (decide (k.vc = 0) && (e.tile t).slotsOn && outs.any fun o => e.lateAt t inp k o.1) = false := by
    rcases hlate with h | h
    · rw [decide_eq_false h]
      rfl
    · rw [h]
      exact Bool.and_false _
  unfold Dev.headerIn
  rw [ha]
  dsimp only
  rw [hi]
  dsimp only
  rw [if_neg (not_not.mpr hf), hr]
  dsimp only
  rw [hl]
  change ({ e with flying := e.flying.modify i fun f => { f with pkt := { k.hdr with words := f.pkt.words }, outs := some (outs.map copyOut) } } : Dev).clean = _
  rw [hfly, modify_header hi hf]
  rfl

end

section

variable {s : State} {t : Nat} {inp : Port5} {k : Packet} {i : Nat} {f : Flight} {outs : List (Port5 × Packet)}

theorem completes_packetArrival {e : Dev} {P : Dev → Prop} (ht : t < Config.nTiles) (hopen : s.dev.inputOpen t inp = true) (ha : s.dev.arriving t inp k.vc = some i)
    (hi : s.dev.flying[i]? = some f) (hf : f.pkt.hdr = k.hdr) (hfly : e.flying = s.dev.flying) (hr : s.dev.route1 t inp k.hdr = (e, k.hdr, outs)) (hlate : k.vc ≠ 0 ∨ outs = [])
    (hP : P { e with flying := Routed s.dev i (outs.map copyOut) }) : Completes (.packetArrival t inp k) s P := by
  refine completes_of_tile ht rfl ?_ hP
  rw [if_pos hopen]
  exact Dev.headerIn_of_route ha hi hf hfly hr hlate

/-- What a discard adds to a counter of the tile. -/
theorem Dev.reg_boundDrop (d : Dev) (t r : Nat) : ((d.boundDrop t r).tile t).reg Reg.MESH_BOUND_DROP = addCnt ((d.tile t).reg Reg.MESH_BOUND_DROP) 0 64 1 := by
  have hcount : (((d.modTile t fun x => x.count Reg.MESH_BOUND_DROP 1).tile t).reg Reg.MESH_BOUND_DROP) = addCnt ((d.tile t).reg Reg.MESH_BOUND_DROP) 0 64 1 := by
    rw [Dev.tile_modTile_self]
    exact Tile.reg_setReg_self ..
  unfold Dev.boundDrop
  dsimp only
  split_ifs with hr
  · cases hl : ((d.modTile t fun x => x.count Reg.MESH_BOUND_DROP 1).region r).tileList with
    | nil => exact hcount
    | cons u us => exact (Dev.modTile_keeps (F := fun x => x.reg Reg.MESH_BOUND_DROP) _ u rfl t).trans hcount
  · exact hcount

theorem Dev.flying_boundDrop (d : Dev) (t r : Nat) : (d.boundDrop t r).flying = d.flying := by
  unfold Dev.boundDrop
  dsimp only
  split_ifs with hr
  · cases hl : ((d.modTile t fun x => x.count Reg.MESH_BOUND_DROP 1).region r).tileList with
    | nil => rfl
    | cons u us => rfl
  · rfl

end

/-! ### The last flit of a packet at the Local output -/

section

variable {d : Dev} {f : Flight} {c : Copy} {slots : Bool} {last : Nat}

/-- A packet alone on its way leads its VC. -/
theorem heads_single (houts : f.outs = some [c]) (hsent : c.sent < f.pkt.flits) : heads [f] f.node c.out f.pkt.vc = [(0, f, c)] := by
  have hcopy : f.copyTo c.out = some c := by simp [Flight.copyTo, houts]
  simp [heads, hcopy, hsent]

/-- It is what its output sends next, when its next flit has come. -/
theorem nextOn_single {n : Nat} (houts : f.outs = some [c]) (hsent : c.sent < f.pkt.flits) (hgot : c.sent < f.pkt.got) (hvc : f.pkt.vc = 1) :
    nextOn [f] f.node c.out n slots last 1 = some (0, f, c) := by
  unfold nextOn
  rw [← hvc, heads_single houts hsent, hvc]
  by_cases h : 0 < c.sent
  · simp [h, hgot]
  · simp [h]

theorem lastFlit_pick (h : LastFlit d f c) : d.meshPick f.node 4 = some (0, f, c) := by
  obtain ⟨hfly, houts, hout, hnode, hwhole, hsent, hvc, hports⟩ := h
  have hflits : c.sent < f.pkt.flits := by omega
  have hgot : c.sent < f.pkt.got := hflits.trans_le (of_decide_eq_true hwhole)
  have hnext := nextOn_single (n := 6) (slots := (d.tile f.node).slotsOn) (last := (d.tile f.node).lastIn 4 1) houts hflits hgot hvc
  rw [hout] at hnext
  unfold Dev.meshPick choose
  rw [hfly, List.findSome?_cons, hnext]
  rfl

/-- The only output with a packet is the Local one of its router. -/
theorem lastFlit_outs (h : LastFlit d f c) : d.meshOuts = [(f.node, 4)] := by
  obtain ⟨hfly, houts, hout, hnode, -⟩ := h
  simp [Dev.meshOuts, hfly, houts, hout, hnode]

/-- The packet that a flit sent over the Local output completes. -/
theorem Dev.sendFlit_of_last (h : LastFlit d f c) :
    Dev.sendFlit f.node d (0, f, c) = ({ d with flying := [f.modCopy c.out fun c => { c with sent := c.sent + 1 }] } : Dev).deliver f.node { c.hdr with words := f.pkt.words } := by
  obtain ⟨hfly, houts, hout, hnode, hwhole, hsent, hvc, hports⟩ := h
  have hlow : ¬f.pkt.vc.toNat ≥ 2 := by
    rw [hvc]
    decide
  have hlink : linkEnd f.node c.out = none := by
    rw [hout]
    rfl
  unfold Dev.sendFlit
  dsimp only
  rw [if_neg hlow, hlink]
  dsimp only
  rw [if_pos hsent, hfly]
  rfl

/-- An acknowledgement of the tile's own region waits at the unit. -/
theorem Dev.deliver_of_ack {t : Nat} {k : Packet} (htag : k.regtag.toNat ≠ 0x7F) (hreg : (d.tile t).meshRegion = k.regtag.toNat) (hkind : k.kind = 6)
    (hnak : k.nakType.toNat < 2) (hcrc : k.crcOk = true) : d.deliver t k = { d with unitIn := d.unitIn ++ [(t, k)] } := by
  have hitem : ¬k.kind = 0 := by
    rw [hkind]
    decide
  unfold Dev.deliver
  dsimp only
  rw [if_neg htag, if_neg (not_not.mpr hreg), if_neg hitem]
  exact if_pos (.inr ⟨hkind, hnak, hcrc⟩)

/-- A packet of which every flit has come and left by its only copy is over. -/
theorem lastFlit_over (h : LastFlit d f c) : (f.modCopy c.out fun c => { c with sent := c.sent + 1 }).over = true := by
  obtain ⟨hfly, houts, hout, hnode, hwhole, hsent, hvc, hports⟩ := h
  have hwhole' : (f.modCopy c.out fun c => { c with sent := c.sent + 1 }).pkt.whole = true := hwhole
  have houts' : (f.modCopy c.out fun c => { c with sent := c.sent + 1 }).outs = some [{ c with sent := c.sent + 1 }] := by
    simp [Flight.modCopy, houts]
  unfold Flight.over
  rw [hwhole', houts']
  simpa [Flight.modCopy] using hsent.ge

/-- The state of the routers and ports on which `LastFlit` rests is kept when the routers begin to count. -/
theorem lastFlit_epochs (h : LastFlit d f c) : LastFlit ({ d with cyc := d.cyc + 1 } : Dev).epochs f c := by
  obtain ⟨ts, hts⟩ : OnlyTiles { d with cyc := d.cyc + 1 } ({ d with cyc := d.cyc + 1 } : Dev).epochs := onlyTiles_modTiles _ _ _
  rw [hts]
  exact h

theorem Dev.meshRegion_epochs (d : Dev) (t : Nat) : (d.epochs.tile t).meshRegion = (d.tile t).meshRegion := by
  have hslot : ∀ x : Tile, Tile.meshRegion { x with slot0 := d.cyc + 1 } = x.meshRegion := fun _ => rfl
  unfold Dev.epochs
  exact Dev.modTiles_keeps (F := Tile.meshRegion) d _ hslot t

/-- Ports that carry nothing send nothing. -/
theorem Dev.portCycle_of_quiet (h : ∀ p, p < Config.nPorts → d.portCarries p = false ∧ (d.port p).idling = false) : d.portCycle = d := by
  have hfold : ∀ l : List Nat, (∀ p ∈ l, p < Config.nPorts) →
      l.foldl (fun d p => if d.portCarries p || (d.port p).idling then d.frameSend p none else d) d = d := by
    intro l
    induction l with
    | nil => exact fun _ => rfl
    | cons p l ih =>
      intro hl
      obtain ⟨hcarries, hidling⟩ := h p (hl p List.mem_cons_self)
      rw [List.foldl_cons, hcarries, hidling]
      exact ih fun q hq => hl q (List.mem_cons_of_mem _ hq)
  exact hfold _ fun p hp => List.mem_range.mp hp

/-- The cycle that sends the last flit of an acknowledgement gives it to the unit of its tile. -/
theorem Dev.cycle_of_lastFlit (h : LastFlit d f c) (htag : c.hdr.regtag.toNat ≠ 0x7F) (hreg : (d.tile f.node).meshRegion = c.hdr.regtag.toNat)
    (hkind : c.hdr.kind = 6) (hnak : c.hdr.nakType.toNat < 2) (hcrc : ({ c.hdr with words := f.pkt.words } : Packet).crcOk = true) :
    d.cycle.flying = [] ∧ d.cycle.unitIn = d.unitIn ++ [(f.node, { c.hdr with words := f.pkt.words })] := by
  obtain ⟨e, he⟩ : ∃ e, e = ({ d with cyc := d.cyc + 1 } : Dev).epochs := ⟨_, rfl⟩
  have hlast : LastFlit e f c := he ▸ lastFlit_epochs h
  have hunit : e.unitIn = d.unitIn := by
    obtain ⟨ts, hts⟩ : OnlyTiles { d with cyc := d.cyc + 1 } ({ d with cyc := d.cyc + 1 } : Dev).epochs := onlyTiles_modTiles _ _ _
    rw [he, hts]
  have hown : (e.tile f.node).meshRegion = c.hdr.regtag.toNat := by
    rw [he]
    exact (Dev.meshRegion_epochs _ _).trans hreg
  have hmesh : d.meshCycle = { e with flying := [], unitIn := e.unitIn ++ [(f.node, { c.hdr with words := f.pkt.words })] } := by
    have hclear : e.lostGateway f.node (0, f, c) = false := by
      obtain ⟨-, -, hout, -⟩ := hlast
      unfold Dev.lostGateway
      dsimp only
      rw [hout]
      rfl
    unfold Dev.meshCycle
    rw [← he]
    dsimp only
    rw [lastFlit_outs hlast]
    have hwait : ([(f.node, 4)].filter fun x => e.meshWaits x.1 x.2) = [] := rfl
    have hsend : ([(f.node, 4)].filterMap fun x => (e.meshPick x.1 x.2).map fun m => (x.1, m)) = [(f.node, (0, f, c))] := by simp [lastFlit_pick hlast]
    rw [hwait, hsend, List.foldl_cons, List.foldl_nil]
    dsimp only
    rw [hclear, if_neg Bool.false_ne_true, Dev.sendFlit_of_last hlast]
    rw [Dev.deliver_of_ack (d := { e with flying := [f.modCopy c.out fun c => { c with sent := c.sent + 1 }] }) (k := { c.hdr with words := f.pkt.words }) htag hown hkind hnak hcrc]
    change ({ e with flying := [f.modCopy c.out fun c => { c with sent := c.sent + 1 }], unitIn := _ } : Dev).clean = _
    unfold Dev.clean
    dsimp only
    rw [List.filter_cons_of_neg (by simp [lastFlit_over hlast])]
    rfl
  obtain ⟨hfly, houts, hout, hnode, hwhole, hsent, hvc, hports⟩ := hlast
  have hquiet : d.meshCycle.portCycle = d.meshCycle := by
    refine Dev.portCycle_of_quiet ?_
    rw [hmesh]
    exact hports
  unfold Dev.cycle
  rw [hquiet, hmesh]
  exact ⟨rfl, congrArg (· ++ _) hunit⟩

end

/-- Settles O28. What a malformed header is, is log 43; the place `unitIn` where a packet waits for its unit is log 44; and the cycle that sends a last flit
is the model's empty-queue step of log 20: these three are the model's choices. -/
theorem routerForwardsDeliversOrDrops : Obligations.RouterForwardsDeliversOrDrops := by
  unfold Obligations.RouterForwardsDeliversOrDrops
  refine ⟨fun s t inp k i f => ⟨?neighbour, ?deliver, ?malformed, ?bound⟩, ?last⟩
  case neighbour =>
    rintro u j ⟨ht, hopen, ha, hi, hf, hin, hform, hkind, habort⟩ hvc hseg hn
    exact completes_packetArrival ht hopen ha hi hf rfl
      (Dev.route1_of_good hin hform hkind habort (fun h => hvc h.1) (Packet.outputs_of_seg hseg hn)) (.inl hvc) rfl
  case deliver =>
    rintro ⟨ht, hopen, ha, hi, hf, hin, hform, hkind, habort⟩ hvc hseg hhop hrmc hd
    exact completes_packetArrival ht hopen ha hi hf rfl
      (Dev.route1_of_good hin hform hkind habort (fun h => hvc h.1) (Packet.outputs_of_end hseg hhop hrmc hd)) (.inl hvc) rfl
  case malformed =>
    intro ht hopen ha hi hf hin hform
    refine completes_packetArrival ht hopen ha hi hf (e := s.dev.misroute t) rfl (Dev.route1_of_malformed hin hform) (.inr rfl) ⟨rfl, ?_⟩
    change OnlyTileReg Reg.MESH_MISROUTE (s.dev.tile t) ((s.dev.misroute t).tile t) ∧ ((s.dev.misroute t).tile t).reg Reg.MESH_MISROUTE = _
    rw [Dev.misroute, Dev.tile_modTile_self]
    exact ⟨Tile.onlyTileReg_setReg .., Tile.reg_setReg_self ..⟩
  case bound =>
    rintro ⟨ht, hopen, ha, hi, hf, hin, hform, hkind, habort⟩ hvc htag hown hopenTile
    exact completes_packetArrival ht hopen ha hi hf (Dev.flying_boundDrop ..)
      (Dev.route1_of_bound hin hform hkind habort ⟨hvc, by omega, hown, hopenTile⟩) (.inr rfl) ⟨rfl, Dev.reg_boundDrop ..⟩
  case last =>
    intro d f c h htag hreg hkind hnak hcrc
    exact ⟨rfl, Dev.cycle_of_lastFlit h htag hreg hkind hnak hcrc⟩

end Sys2Proof.Machine

/-! ## Recovery aborts (15 R343) -/

namespace Sys2Proof.Machine

open Sys2Proof Sys2Proof.Claims

section

variable {α : Type} {r : Nat} {G : Dev → α}

/-- Nothing that a recovery abort of region `r` does changes `G`. -/
structure AbortKeeps (r : Nat) (G : Dev → α) : Prop extends EndKeeps r G where
  relays : ∀ {d e}, Relays d e → G e = G d
  drops : ∀ d n, G (d.count (Reg.SRV_ABORTDROP + 8 * r) 0 64 n) = G d
  flows : ∀ (d : Dev) rx tx, G { d with rxFlows := rx, txFlows := tx } = G d

theorem EndKeeps.enterStopped (h : EndKeeps r G) (d : Dev) : G (d.enterStopped r) = G d :=
  (h.sendReplies _ _).trans ((h.region _ _).trans (h.unfetch d))

theorem EndKeeps.onlyTilesCtr (h : EndKeeps r G) {d e : Dev} (ho : OnlyTilesCtr d e) : G e = G d := by
  obtain ⟨ts, c, rfl⟩ := ho
  exact h.tiles ..

theorem onlyTilesCtr_modTiles (d : Dev) (ts : List Nat) (f : Tile → Tile) : OnlyTilesCtr d (d.modTiles ts f) :=
  onlyTilesCtr_foldl (fun d t => onlyTilesCtr_modTile d t f) ts d

/-- Packets of the region are cut out of the relay crossbar, and discarded at its routers and tiles. -/
theorem AbortKeeps.dropPackets (h : AbortKeeps r G) (d : Dev) : G (d.dropPackets r) = G d := by
  have hcut (mine : Packet → Bool) (d : Dev) (g : Nat) : Relays d (([0, 1, 2, 3] : List (BitVec 2)).foldl (fun d v =>
      if d.flying.any fun f => f.at_ relay (16 + g) v && mine f.pkt && !f.pkt.whole then d.relayCut (16 + g) v else d) d) := by
    refine Relays.foldl _ (fun d v _ => ?_) d
    split_ifs
    · exact d.relays_relayCut ..
    · exact .refl d
  unfold Dev.dropPackets
  extract_lets x mine here begun n d₁ d₂ d₃
  have hrouters : Relays d d₁ := .of_regs rfl rfl
  have hrelay : Relays d₁ d₂ := Relays.foldl _ (fun d g _ => hcut mine d g) d₁
  have htiles : OnlyTilesCtr d₂ d₃ := onlyTilesCtr_foldl (fun d t => onlyTilesCtr_modTile d t _) _ d₂
  exact (h.drops d₃ n).trans ((h.onlyTilesCtr htiles).trans ((h.relays hrelay).trans (h.relays hrouters)))

theorem AbortKeeps.regionAbort (h : AbortKeeps r G) (d : Dev) : G (d.regionAbort r) = G d :=
  (h.endStep _ _).trans ((h.abortTiles _ _ _).trans (h.dropPackets d))

/-- After a REGION_ABORT and the region's entry into FAULT, a recovery abort frees flows. -/
theorem Dev.recoveryAbort_frame (d : Dev) (r : Nat) :
    ∃ rx tx, OnlyTilesCtr { (d.regionAbort r).toFault r with rxFlows := rx, txFlows := tx } (d.recoveryAbort r) := by
  unfold Dev.recoveryAbort
  generalize (d.regionAbort r).toFault r = e
  exact ⟨_, _, onlyTilesCtr_modTiles _ _ _⟩

theorem AbortKeeps.recoveryAbort (h : AbortKeeps r G) (d : Dev) : G (d.recoveryAbort r) = G d := by
  obtain ⟨rx, tx, hfrees⟩ := d.recoveryAbort_frame r
  exact (h.onlyTilesCtr hfrees).trans ((h.flows _ _ _).trans ((h.toFault _).trans (h.regionAbort d)))

theorem Dev.abortAll_keeps (rs : List Nat) (h : ∀ r ∈ rs, AbortKeeps r G) (d : Dev) : G (d.abortAll rs) = G d := by
  unfold Dev.abortAll
  refine List.foldlRecOn (motive := fun e => G e = G d) rs _ rfl fun e he r hr => ?_
  split_ifs
  · exact he
  · exact ((h r hr).recoveryAbort e).trans he

/-- What depends on none of the parts of the device that an abort writes, an abort keeps. -/
theorem abortKeeps_of_frame (hG : ∀ (d : Dev) regs tiles regions rings slots wt hive cic host out ctr, G { d with
    regs := regs, tiles := tiles, regions := regions, rings := rings, slots := slots, wt := wt, hive := hive, cic := cic, host := host, out := out
    ctr := ctr } = G d) (hr : ∀ {d e}, Relays d e → G e = G d) (hf : ∀ (d : Dev) rx tx, G { d with rxFlows := rx, txFlows := tx } = G d) (r : Nat) :
    AbortKeeps r G where
  toEndKeeps := endKeeps_of_frame hG r
  relays := hr
  drops d _ := hG d _ d.tiles d.regions d.rings d.slots d.wt d.hive d.cic d.host d.out d.ctr
  flows := hf

theorem abortKeeps_flt (r : Nat) : AbortKeeps r Dev.flt := abortKeeps_of_frame (fun _ _ _ _ _ _ _ _ _ _ _ _ => rfl) (fun h => h.flt) (fun _ _ _ => rfl) r

theorem abortKeeps_standing {k : Nat} (hk : k ≠ r) : AbortKeeps r fun d => (d.region k).standing where
  toEndKeeps := endKeeps_standing hk
  relays h := congrArg Region.standing (h.region k)
  drops _ _ := rfl
  flows _ _ _ := rfl

theorem abortKeeps_reg {a : Nat} (hfin : ¬finishRegs a) (hrel : ¬relayReg a) (hdrop : a ≠ Reg.SRV_ABORTDROP + 8 * r) : AbortKeeps r (Dev.reg · a) where
  toEndKeeps := endKeeps_reg hfin r
  relays h := h.reg a hrel
  drops _ _ := Dev.reg_modReg_ne _ _ _ hdrop
  flows _ _ _ := rfl

end

/-! ### The region itself -/

section

variable {d : Dev} {k : Nat}

theorem Dev.adm_endStep (d : Dev) (r : Nat) (st : W16) : ((d.endStep r st).region r).adm = none := by
  have hfinish (e : Dev) : ((((e.decideCancels r).1.sendReplies (e.decideCancels r).2).runFins r).region r).adm = (e.region r).adm := by
    have hkeep := finishKeeps_standing r r
    obtain ⟨hadm, -⟩ := Region.standing_eq ((hkeep.runFins _).trans (hkeep.sendReplies (e.decideCancels r).1 (e.decideCancels r).2))
    rw [hadm, e.decideCancels_region r]
  unfold Dev.endStep
  dsimp only
  split
  · assumption
  · rw [hfinish, Dev.region_setRegion_self]

/-- A recovery abort leaves its region in FAULT without a step. -/
theorem Dev.region_recoveryAbort (d : Dev) (r : Nat) : ((d.recoveryAbort r).region r).st = .fault ∧ ((d.recoveryAbort r).region r).adm = none := by
  obtain ⟨hst, hadm⟩ := (d.regionAbort r).toFault_region r
  have hregion : (d.recoveryAbort r).region r = ((d.regionAbort r).toFault r).region r := by
    obtain ⟨rx, tx, ts, c, he⟩ := d.recoveryAbort_frame r
    refine Dev.region_of_regions ?_ r
    rw [he]
  rw [hregion]
  exact ⟨hst, hadm.trans (Dev.adm_endStep ..)⟩

/-- Regions under aborts that end in FAULT: those named that have a program, and those that were there before. -/
theorem Dev.region_abortAll (rs : List Nat) (h : k ∈ rs ∧ (d.region k).st ≠ .empty ∨ (d.region k).st = .fault ∧ (d.region k).adm = none) :
    ((d.abortAll rs).region k).st = .fault ∧ ((d.abortAll rs).region k).adm = none := by
  induction rs generalizing d with
  | nil => exact h.resolve_left fun h => List.not_mem_nil h.1
  | cons r rs ih =>
    have hcons : d.abortAll (r :: rs) = (if (d.region r).st = .empty then d else d.recoveryAbort r).abortAll rs := rfl
    rw [hcons]
    refine ih ?_
    by_cases hempty : (d.region r).st = .empty
    · rw [if_pos hempty]
      refine h.imp_left fun ⟨hmem, hst⟩ => ⟨(List.mem_cons.mp hmem).resolve_left ?_, hst⟩
      rintro rfl
      exact hst hempty
    · rw [if_neg hempty]
      by_cases hk : k = r
      · subst hk
        exact .inr (d.region_recoveryAbort k)
      · have hstand := (abortKeeps_standing hk).recoveryAbort d
        rcases h with ⟨hmem, hst⟩ | ⟨hst, hadm⟩
        · refine .inl ⟨(List.mem_cons.mp hmem).resolve_left hk, fun hnow => ?_⟩
          obtain ⟨-, -, -, hback⟩ := Region.standing_eq hstand.symm
          exact hst ((hback (by simp [hnow]) (by simp [hnow])).trans hnow)
        · obtain ⟨hadm', -, -, hst'⟩ := Region.standing_eq hstand
          exact .inr ⟨(hst' (by simp [hst]) (by simp [hst])).trans hst, hadm'.trans hadm⟩

theorem Dev.flt_abortAll (d : Dev) (rs : List Nat) : (d.abortAll rs).flt = d.flt := Dev.abortAll_keeps rs (fun r _ => abortKeeps_flt r) d

/-! ### Regions that are STOPPED -/

theorem Dev.st_enterStopped (d : Dev) (r : Nat) : ((d.enterStopped r).region r).st = .stopped := by
  have hsend : (d.enterStopped r).region r = ((d.unfetch r).modRegion r fun x => { x with st := .stopped, stopM := [] }).region r :=
    Dev.foldl_keeps (G := (Dev.region · r)) (fun _ _ => Dev.reply_region ..) _ _
  rw [hsend, Dev.region_modRegion_self]

/-- The regions of a list that are in FAULT enter STOPPED. -/
def Dev.stopFaulty (d : Dev) (rs : List Nat) : Dev := rs.foldl (fun d r => if (d.region r).st = .fault then d.enterStopped r else d) d

theorem Dev.stopFaulty_keeps {α : Type} {G : Dev → α} (rs : List Nat) (h : ∀ r ∈ rs, EndKeeps r G) (d : Dev) : G (d.stopFaulty rs) = G d := by
  refine List.foldlRecOn (motive := fun e => G e = G d) rs _ rfl fun e he r hr => ?_
  split_ifs
  · exact ((h r hr).enterStopped e).trans he
  · exact he

theorem Dev.st_stopFaulty (rs : List Nat) (h : k ∈ rs ∧ (d.region k).st = .fault ∨ (d.region k).st = .stopped) : ((d.stopFaulty rs).region k).st = .stopped := by
  induction rs generalizing d with
  | nil => exact h.resolve_left fun h => List.not_mem_nil h.1
  | cons r rs ih =>
    have hcons : d.stopFaulty (r :: rs) = (if (d.region r).st = .fault then d.enterStopped r else d).stopFaulty rs := rfl
    rw [hcons]
    refine ih ?_
    by_cases hk : k = r
    · subst hk
      split_ifs with hfault
      · exact .inr (d.st_enterStopped k)
      · exact .inr (h.resolve_left fun h => hfault h.2)
    · have hst : ((if (d.region r).st = .fault then d.enterStopped r else d).region k).standing = (d.region k).standing := by
        split_ifs
        · exact (endKeeps_standing hk).enterStopped d
        · rfl
      obtain ⟨-, -, -, hback⟩ := Region.standing_eq hst
      rcases h with ⟨hmem, hf⟩ | hs
      · exact .inl ⟨(List.mem_cons.mp hmem).resolve_left hk, (hback (by simp [hf]) (by simp [hf])).trans hf⟩
      · exact .inr ((hback (by simp [hs]) (by simp [hs])).trans hs)

/-- A region that goes to STOPPED from FAULT in one of two rounds. -/
theorem Dev.st_stopFaulty_or (rs : List Nat) (h : (d.region k).st = .fault) : ((d.stopFaulty rs).region k).st = .fault ∨ ((d.stopFaulty rs).region k).st = .stopped := by
  by_cases hk : k ∈ rs
  · exact .inr (Dev.st_stopFaulty rs (.inl ⟨hk, h⟩))
  · have hkeep (r : Nat) (hr : r ∈ rs) : EndKeeps r fun d => (d.region k).standing := endKeeps_standing fun he => hk (by rwa [he])
    obtain ⟨-, -, -, hback⟩ := Region.standing_eq (Dev.stopFaulty_keeps rs hkeep d)
    exact .inl ((hback (by simp [h]) (by simp [h])).trans h)

end

end Sys2Proof.Machine

/-! ## FAULT frames and the parts of a recovery (O53; 15 R341 to R352, R356) -/

namespace Sys2Proof.Machine

open Sys2Proof Sys2Proof.Claims

section

variable {s : State} {fr : RingFrame} {action : Nat} {act : Dev → Dev} {c : Instr} {P : Dev → Prop}

/-- A FAULT frame of a class that touches regions, under the row of its ACTION. -/
theorem completes_faultIn (hfirst : FirstCopy ftFAULT fr s.dev) (hcls : fCls fr = 3 ∨ fCls fr = 5 ∨ fCls fr = 6) (hact : fAct fr = action) (hle : action ≤ 3)
    (hx : exec c s = onDev s fun d => d.faultIn fr action act) (hP : ∀ e, Reports s.dev e → P (act e)) : Completes c s P := by
  have hvalid : (decide (fAct fr ≤ 3) && (decide (fCls fr = 3) || decide (fCls fr = 5) || decide (fCls fr = 6) || decide (fCls fr = 7))) = true := by
    rw [hact]
    rcases hcls with h | h | h <;> simp [h, hle]
  have hring : ¬fCls fr = 7 := by omega
  refine completes_onDev hx ?_
  unfold Dev.faultIn
  dsimp only
  rw [hvalid, if_neg (fun h => h.2 hact), Dev.ringIn_of_firstCopy hfirst, if_neg (by decide), if_neg hring]
  exact hP _ ((s.dev.reports_forward ..).trans (Dev.reports_remember ..))

/-- A NOTICE of the ring class at the master asks for a measurement window. -/
theorem completes_faultNotice (hfirst : FirstCopy ftFAULT fr s.dev) (hcls : fCls fr = 7) (hact : fAct fr = 0) (hjoined : s.dev.cicBit 0 = true)
    (hmaster : s.dev.cicBit 2 = true) : Completes (.faultNotice fr) s fun d' => d'.cic.tW = some (s.dev.now + 20000) := by
  have hvalid : (decide (fAct fr ≤ 3) && (decide (fCls fr = 3) || decide (fCls fr = 5) || decide (fCls fr = 6) || decide (fCls fr = 7))) = true := by
    simp [hcls, hact]
  have hreports := (s.dev.reports_forward fr fr.payload).trans (Dev.reports_remember _ fr)
  refine completes_onDev (f := fun d => d.faultIn fr 0 fun d => d) rfl ?_
  unfold Dev.faultIn
  dsimp only
  rw [hvalid, if_neg (fun h => h.2 hact), Dev.ringIn_of_firstCopy hfirst, if_neg (by decide), if_pos hcls, hreports.cicBit, hreports.cicBit, hjoined, hmaster]
  exact (Dev.tW_askWindow ..).trans (congrArg (fun n => some (n + 20000)) hreports.now)

end

section

variable {d e : Dev} {fr : RingFrame}

theorem Reports.flt_recov (h : Reports d e) : e.flt.recov = d.flt.recov := h.keeps (·.flt.recov)

theorem Reports.namedBy (h : Reports d e) (subject : BitVec 12) (group : Nat) : e.namedBy subject group = d.namedBy subject group := by
  have hgroup (r : Nat) : e.fltGroupOf r = d.fltGroupOf r := by
    unfold Dev.fltGroupOf
    rw [h.reg _ (by simp only [Reg.FLT_GROUP, Reg.HIVE_CNT]; omega)]
  have hmembers (g : Nat) : e.members g = d.members g := h.keeps (Dev.members · g)
  have hloaded : e.loaded = d.loaded := h.keeps Dev.loaded
  unfold Dev.namedBy
  simp only [hgroup, hmembers, hloaded]

theorem Dev.st_of_mem_namedBy {subject : BitVec 12} {group r : Nat} (h : r ∈ d.namedBy subject group) : (d.region r).st ≠ .empty := by
  have hmem := (List.mem_filter.mp h).1
  exact of_decide_eq_true (List.mem_filter.mp hmem).2

/-- A recovery without sites ends its local part at once. -/
theorem Dev.noSites_of_quiesced {v : Recovery} (hv : d.flt.recov = some v) (hstage : v.stage = .quiesced) (htodo : v.todo = []) : d.noSites = d.waitParts := by
  unfold Dev.noSites
  rw [hv]
  exact if_pos ⟨hstage, by simp [htodo]⟩

/-- The local part of another device's recovery ends: its originator is told. -/
theorem Dev.waitParts_of_not_own {v : Recovery} (hv : d.flt.recov = some v) (hown : v.own = false) :
    d.waitParts = (d.setRecov (some { v with stage := .waitParts })).partDone v.recid := by
  unfold Dev.waitParts
  rw [hv]
  dsimp only
  rw [hown]
  rfl

/-- A QUIESCE of a tile or link fault to a device without a recovery. -/
theorem Dev.quiesce_spec (hnone : d.flt.recov = none) (hcls : fCls fr ≠ 6) :
    .ctrl (BitVec.ofNat 12 ((fRecid fr).toNat / 2 ^ 20)) (fRecid fr) ∈ (d.quiesce fr).out ∧
    (∀ r ∈ d.namedBy (fSubject fr) (fGroup fr), ((d.quiesce fr).region r).st = .fault ∧ ((d.quiesce fr).region r).adm = none) ∧
    ∃ v, (d.quiesce fr).flt.recov = some v ∧ v.recid = fRecid fr ∧ v.own = false ∧ v.regions = d.namedBy (fSubject fr) (fGroup fr) := by
  obtain ⟨e, he⟩ : ∃ e, e = (d.sawSubject (fSubject fr).toNat (fRecid fr)).setRecov (some (d.joined fr .quiesced St.OK)) := ⟨_, rfl⟩
  have hrecov : (e.abortAll (d.namedBy (fSubject fr) (fGroup fr))).flt.recov = some (d.joined fr .quiesced St.OK) := by
    rw [Dev.flt_abortAll, he]
    rfl
  have hregion (r : Nat) : e.region r = d.region r := by
    rw [he]
    rfl
  have hq : d.quiesce fr = ((e.abortAll (d.namedBy (fSubject fr) (fGroup fr))).setRecov (some { d.joined fr .quiesced St.OK with stage := .waitParts })).partDone (fRecid fr) := by
    unfold Dev.quiesce
    rw [hnone]
    dsimp only
    rw [← he]
    unfold Dev.localPart
    dsimp only
    rw [if_neg hcls, Dev.noSites_of_quiesced hrecov rfl rfl, Dev.waitParts_of_not_own hrecov rfl]
    rfl
  rw [hq]
  refine ⟨List.mem_append_right _ List.mem_cons_self, fun r hr => ?_, _, rfl, rfl, rfl, rfl⟩
  exact Dev.region_abortAll (d := e) _ (.inl ⟨hr, hregion r ▸ Dev.st_of_mem_namedBy hr⟩)

/-- A HOLD of the recovery that the device holds. -/
theorem Dev.faultHold_of_same {v : Recovery} (hv : d.flt.recov = some v) (hid : v.recid = fRecid fr) :
    ∃ w, (d.faultHold fr).flt.recov = some w ∧ w.stage = .held ∧ w.status = St.RECOVERY_ESCALATED ∧ w.recid = v.recid := by
  have hsame : d.sameRecovery v (fRecid fr) (fSubject fr).toNat = true := Bool.or_eq_true_iff.mpr (.inl (decide_eq_true hid))
  unfold Dev.faultHold
  dsimp only
  rw [hv]
  dsimp only
  rw [if_pos hsame]
  exact ⟨_, rfl, rfl, rfl, rfl⟩

/-- A recovery that is closed leaves its regions STOPPED that were in FAULT, and its report. -/
theorem Dev.closeRecovery_spec (d : Dev) (v : Recovery) : (d.closeRecovery v).flt.recov = none ∧
    (∀ r ∈ v.regions, (d.region r).st = .fault ∨ (d.region r).st = .stopped → ((d.closeRecovery v).region r).st = .stopped) ∧
    ⟨v.recid, v.status, v.lost⟩ ∈ (d.closeRecovery v).flt.reports := by
  refine ⟨rfl, fun r hr h => ?_, List.mem_append_right _ List.mem_cons_self⟩
  exact Dev.st_stopFaulty v.regions (h.imp_left fun h => ⟨hr, h⟩)

/-- Closing a recovery keeps what neither the regions nor the recovery and the reports make up. -/
theorem Dev.closeRecovery_keeps {α : Type} {G : Dev → α} {v : Recovery} (h : ∀ r ∈ v.regions, EndKeeps r G)
    (hflt : ∀ (d : Dev) rs, G { d with flt := { d.flt with recov := none, reports := rs } } = G d) (d : Dev) : G (d.closeRecovery v) = G d :=
  (hflt (d.stopFaulty v.regions) _).trans (Dev.stopFaulty_keeps _ h d)

/-- A RELEASE of the recovery of another device. -/
theorem Dev.release_of_same {v : Recovery} (hv : d.flt.recov = some v) (hid : v.recid = fRecid fr) (hown : v.own = false) :
    (d.release fr).flt.recov = none ∧ ∀ r ∈ v.regions, (d.region r).st = .fault → ((d.release fr).region r).st = .stopped := by
  have hsame : d.sameRecovery v (fRecid fr) (fSubject fr).toNat = true := Bool.or_eq_true_iff.mpr (.inl (decide_eq_true hid))
  have hrelease : d.release fr = (d.stopFaulty (d.namedBy (fSubject fr) (fGroup fr))).closeRecovery v := by
    unfold Dev.release
    dsimp only
    rw [hv]
    exact if_pos ⟨hown, hsame⟩
  obtain ⟨hnone, hstop, -⟩ := Dev.closeRecovery_spec (d.stopFaulty (d.namedBy (fSubject fr) (fGroup fr))) v
  rw [hrelease]
  exact ⟨hnone, fun r hr h => hstop r hr (Dev.st_stopFaulty_or _ h)⟩

/-! ### Parts -/

theorem Dev.reports_faultSend (d : Dev) (v : Recovery) (action : Nat) (cs : List Cause) : Reports d (d.faultSend v action cs) := by
  unfold Dev.faultSend
  refine List.foldlRecOn (motive := fun e => Reports d e) cs _ (.refl d) fun e he c _ => ?_
  exact List.foldlRecOn (motive := fun e => Reports d e) c.groups _ he fun e he g _ => he.trans (Dev.reports_sendFrame ..)

theorem Dev.flt_faultSend (d : Dev) (v : Recovery) (action : Nat) (cs : List Cause) : (d.faultSend v action cs).flt = d.flt :=
  Dev.foldl_keeps (G := Dev.flt) (fun _ _ => Dev.foldl_keeps (G := Dev.flt) (fun _ _ => Dev.sendFrame_flt ..) _ _) cs d

theorem Dev.tryRelease_of_waiting {v : Recovery} (hv : d.flt.recov = some v) (h : ¬(v.own = true ∧ v.stage = .waitParts ∧ (v.needParts.all fun i => v.parts.contains i) = true)) :
    d.tryRelease = d := by
  unfold Dev.tryRelease
  rw [hv]
  exact if_neg h

theorem Dev.tryRelease_of_done {v : Recovery} (hv : d.flt.recov = some v) (hown : v.own = true) (hstage : v.stage = .waitParts)
    (hparts : (v.needParts.all fun i => v.parts.contains i) = true) : d.tryRelease = (d.faultSend v 3 v.causes).closeRecovery v := by
  unfold Dev.tryRelease
  rw [hv]
  exact if_pos ⟨hown, hstage, hparts⟩

/-- The last part of a recovery closes it; an earlier one is remembered. -/
theorem Dev.tryRelease_setRecov {v : Recovery} (hown : v.own = true) :
    (v.stage ≠ .waitParts → ((d.setRecov (some v)).tryRelease).flt.recov = some v) ∧
    (v.stage = .waitParts → (v.needParts.all fun i => v.parts.contains i) = true → ((d.setRecov (some v)).tryRelease).flt.recov = none ∧
      (∀ r ∈ v.regions, (d.region r).st = .fault → (((d.setRecov (some v)).tryRelease).region r).st = .stopped) ∧
      ⟨v.recid, v.status, v.lost⟩ ∈ ((d.setRecov (some v)).tryRelease).flt.reports) := by
  have hv : (d.setRecov (some v)).flt.recov = some v := rfl
  refine ⟨fun hstage => ?_, fun hstage hparts => ?_⟩
  · rw [Dev.tryRelease_of_waiting hv fun h => hstage h.2.1]
    rfl
  · rw [Dev.tryRelease_of_done hv hown hstage hparts]
    have hsend := (d.setRecov (some v)).reports_faultSend v 3 v.causes
    obtain ⟨hnone, hstop, hreport⟩ := Dev.closeRecovery_spec ((d.setRecov (some v)).faultSend v 3 v.causes) v
    exact ⟨hnone, fun r hr h => hstop r hr (.inl ((congrArg Region.st (hsend.region r)).trans h)), hreport⟩

end

/-! ### Shadow resync -/

/-- Tiles that shadow to the device send whole arenas. -/
def Tile.resync (src : BitVec 12) (x : Tile) : Tile :=
  let c := x.reg Reg.WVL_SHADOW
  if bit c 0 ∧ fld c 4 12 = src.toNat then { x with wvl := { x.wvl with shWhole := true } } else x

theorem Tile.reg_resync (src : BitVec 12) (x : Tile) (a : Nat) : (x.resync src).reg a = x.reg a := by
  unfold Tile.resync
  dsimp only
  split_ifs <;> rfl

theorem Tile.shWhole_resync {src : BitVec 12} {x : Tile} (hon : bit (x.reg Reg.WVL_SHADOW) 0 = true) (hsrc : fld (x.reg Reg.WVL_SHADOW) 4 12 = src.toNat) :
    (x.resync src).wvl.shWhole = true := by
  unfold Tile.resync
  dsimp only
  rw [if_pos ⟨hon, hsrc⟩]

theorem Dev.tile_of_notMem {d : Dev} {t : Nat} (h : t ∉ d.tiles.map (·.1)) : d.tile t = Tile.reset :=
  SMap.get_of_notMem _ fun _ he hk => h (hk ▸ List.mem_map_of_mem he)

/-- Every tile that shadows to the device sends whole after a resync. -/
theorem Dev.shWhole_resync (d : Dev) (src : BitVec 12) {t : Nat} (hon : bit ((d.tile t).reg Reg.WVL_SHADOW) 0 = true)
    (hsrc : fld ((d.tile t).reg Reg.WVL_SHADOW) 4 12 = src.toNat) : ((d.modTiles (d.tiles.map (·.1)) (Tile.resync src)).tile t).wvl.shWhole = true := by
  have hkeep := d.modTiles_keeps (F := fun x => x.reg Reg.WVL_SHADOW) (d.tiles.map (·.1)) (fun x => x.reg_resync src _) t
  refine Dev.modTiles_of_mem (P := fun x => bit (x.reg Reg.WVL_SHADOW) 0 = true → fld (x.reg Reg.WVL_SHADOW) 4 12 = src.toNat → x.wvl.shWhole = true) ?_ ?_
    (hkeep ▸ hon) (hkeep ▸ hsrc)
  · intro x hon hsrc
    rw [Tile.reg_resync] at hon hsrc
    exact Tile.shWhole_resync hon hsrc
  · by_cases hmem : t ∈ d.tiles.map (·.1)
    · exact .inl hmem
    · rw [Dev.tile_of_notMem hmem] at hon
      exact absurd hon (by decide)

/-! ### A recovery that opens -/

/-- The groups that a recovery of a cause names, and the regions of this device in it. -/
def Dev.openGroups (d : Dev) (cls : Nat) (rs : List Nat) : List Nat := if cls = 6 then [0] else d.groupsOf rs

def Dev.openRegions (d : Dev) (cls subject : Nat) (rs : List Nat) : List Nat :=
  addNew rs (((d.openGroups cls rs).flatMap fun g => d.namedBy (BitVec.ofNat 12 subject) g).dedup)

/-- The recovery that this device opens. -/
def Dev.opened (d : Dev) (cls subject loc : Nat) (sites : List (Nat × Nat)) (rs : List Nat) : Recovery :=
  { recid := BitVec.ofNat 32 (d.id.toNat * 2 ^ 20 + d.flt.recCtr % 2 ^ 20), causes := [⟨cls, subject, loc, d.openGroups cls rs⟩], sites := sites, todo := sites
    moved := [], restored := [], lost := [], restarts := 0, stage := .quiesced, own := true, regions := d.openRegions cls subject rs, parts := []
    needParts := d.partners cls subject (d.openGroups cls rs), toLoad := [], status := St.OK, relay := false }

/-- The device that has counted the recovery `v` it opens and written its record. -/
def Dev.opening (d : Dev) (v : Recovery) (own : Bool) (rec : ErrRec) : Dev :=
  let d := { d with flt := { d.flt with recCtr := d.flt.recCtr + 1 } }
  let d := d.count Reg.FLT_CNT 0 16 1
  if own then d.record { rec with action := 3, recid := v.recid } else d

section

variable {d : Dev} {cls subject loc : Nat} {sites : List (Nat × Nat)} {rs : List Nat} {own : Bool} {rec : ErrRec}

theorem Dev.openRecovery_of_none (hnone : d.flt.recov = none) : d.openRecovery cls subject loc sites rs own rec =
    let v := d.opened cls subject loc sites rs
    ((((d.opening v own rec).faultSend v 1 v.causes).sawSubject subject v.recid).setRecov (some v)).abortAll v.regions := by
  unfold Dev.openRecovery
  dsimp only
  split
  · rfl
  · next h => exact absurd (hnone.symm.trans h) (by simp)

theorem Dev.recov_openRecovery (hnone : d.flt.recov = none) :
    (d.openRecovery cls subject loc sites rs own rec).flt.recov = some (d.opened cls subject loc sites rs) := by
  rw [Dev.openRecovery_of_none hnone]
  dsimp only
  rw [Dev.flt_abortAll]
  rfl

/-- The registers of the fault manager that an abort of regions leaves. -/
theorem Dev.reg_abortAll (d : Dev) {a : Nat} (hfin : ¬finishRegs a) (hrel : ¬relayReg a) {rs : List Nat} (hrs : ∀ r ∈ rs, a ≠ Reg.SRV_ABORTDROP + 8 * r) :
    (d.abortAll rs).reg a = d.reg a := Dev.abortAll_keeps (G := (Dev.reg · a)) rs (fun r hr => abortKeeps_reg hfin hrel (hrs r hr)) d

theorem not_finishRegs_fltCnt : ¬finishRegs Reg.FLT_CNT := not_finishRegs (.inl (by decide))

theorem not_relayReg_fltCnt : ¬relayReg Reg.FLT_CNT := by
  simp only [relayReg, Reg.FLT_CNT, Reg.WT_HAUL_BAD, Reg.PORT_DROPCNT, Reg.PORT_CTL, Reg.PORT_DEVID]
  omega

theorem Dev.reg_opening (d : Dev) (v : Recovery) (own : Bool) (rec : ErrRec) : (d.opening v own rec).reg Reg.FLT_CNT = addCnt (d.reg Reg.FLT_CNT) 0 16 1 := by
  have hcount : (({ d with flt := { d.flt with recCtr := d.flt.recCtr + 1 } } : Dev).count Reg.FLT_CNT 0 16 1).reg Reg.FLT_CNT = addCnt (d.reg Reg.FLT_CNT) 0 16 1 :=
    Dev.reg_modReg_self ..
  unfold Dev.opening
  dsimp only
  split_ifs
  · exact ((Dev.reports_record _ _).reg _ (by decide)).trans hcount
  · exact hcount

/-- An opened recovery counts once. -/
theorem Dev.reg_openRecovery (hnone : d.flt.recov = none) (hrs : ∀ r ∈ d.openRegions cls subject rs, r < Config.nRegions) :
    (d.openRecovery cls subject loc sites rs own rec).reg Reg.FLT_CNT = addCnt (d.reg Reg.FLT_CNT) 0 16 1 := by
  have habort (r : Nat) (hr : r ∈ (d.opened cls subject loc sites rs).regions) : Reg.FLT_CNT ≠ Reg.SRV_ABORTDROP + 8 * r := by
    have := hrs r hr
    simp only [Config.nRegions, Reg.FLT_CNT, Reg.SRV_ABORTDROP] at this ⊢
    omega
  rw [Dev.openRecovery_of_none hnone]
  dsimp only
  rw [Dev.reg_abortAll _ not_finishRegs_fltCnt not_relayReg_fltCnt habort]
  exact ((Dev.reports_faultSend ..).reg _ (by decide)).trans (Dev.reg_opening ..)

/-- Opening a recovery arms and disarms no plan. -/
theorem Dev.plans_openRecovery (hnone : d.flt.recov = none) : (d.openRecovery cls subject loc sites rs own rec).flt.plans = d.flt.plans := by
  obtain ⟨v, hv⟩ : ∃ v, v = d.opened cls subject loc sites rs := ⟨_, rfl⟩
  have hsend := congrArg FltMgr.plans (Dev.flt_faultSend (d.opening v own rec) v 1 v.causes)
  have hopen : (d.opening v own rec).flt.plans = d.flt.plans := by
    unfold Dev.opening
    dsimp only
    split_ifs
    · rw [Dev.record, Dev.log_flt]
      rfl
    · rfl
  rw [Dev.openRecovery_of_none hnone]
  dsimp only
  rw [Dev.flt_abortAll, ← hv]
  exact hsend.trans hopen

/-- The record of the opening is among those kept. -/
theorem Dev.recs_openRecovery (hnone : d.flt.recov = none) : ∃ e ∈ (d.openRecovery cls subject loc sites rs true rec).flt.recs,
    e.cls = rec.cls ∧ e.status = rec.status ∧ e.detail = rec.detail ∧ e.rseq = d.flt.rseq := by
  obtain ⟨v, hv⟩ : ∃ v, v = d.opened cls subject loc sites rs := ⟨_, rfl⟩
  have hflt : (d.openRecovery cls subject loc sites rs true rec).flt.recs = (d.opening v true rec).flt.recs := by
    rw [Dev.openRecovery_of_none hnone]
    dsimp only
    rw [Dev.flt_abortAll, ← hv]
    have hsend := congrArg FltMgr.recs (Dev.flt_faultSend (d.opening v true rec) v 1 v.causes)
    exact hsend
  rw [hflt]
  exact ⟨_, Dev.mem_recs_record _ { rec with action := 3, recid := v.recid }, rfl, rfl, rfl, rfl⟩

/-! ### The loss of a device -/

theorem Dev.runPlan_of_none {subject : Nat} (h : ∀ p ∈ d.flt.plans, p.1.toNat ≠ subject) : d.runPlan subject = d := by
  have hfind : (d.flt.plans.find? fun p => decide (p.1.toNat = subject)) = none := List.find?_eq_none.mpr fun p hp => by simpa using h p hp
  unfold Dev.runPlan
  rw [hfind]

/-- The end of the local part of a recovery without sites leaves what sending, closing and the recovery itself leave. -/
theorem Dev.noSites_keeps {α : Type} {G : Dev → α} {v : Recovery} (hv : d.flt.recov = some v) (hstage : v.stage = .quiesced) (htodo : v.todo = []) (hown : v.own = true)
    (hregions : ∀ r ∈ v.regions, EndKeeps r G) (hsend : ∀ (d : Dev) v n cs, G (d.faultSend v n cs) = G d)
    (hflt : ∀ (d : Dev) v rs, G { d with flt := { d.flt with recov := v, reports := rs } } = G d) : G d.noSites = G d := by
  obtain ⟨w, hw⟩ : ∃ w, w = { v with stage := RecStage.waitParts } := ⟨_, rfl⟩
  have hset : G (d.setRecov (some w)) = G d := hflt d (some w) d.flt.reports
  have hrecov : (d.setRecov (some w)).flt.recov = some w := rfl
  have hwait : d.noSites = (d.setRecov (some w)).tryRelease := by
    rw [Dev.noSites_of_quiesced hv hstage htodo, hw]
    unfold Dev.waitParts
    rw [hv]
    dsimp only
    rw [hown]
    rfl
  rw [hwait]
  refine Eq.trans ?_ hset
  by_cases h : w.own = true ∧ w.stage = .waitParts ∧ (w.needParts.all fun i => w.parts.contains i) = true
  · rw [Dev.tryRelease_of_done hrecov h.1 h.2.1 h.2.2]
    have hw' : w.regions = v.regions := by rw [hw]
    exact (Dev.closeRecovery_keeps (hw' ▸ hregions) (fun d rs => hflt d none rs) _).trans (hsend ..)
  · rw [Dev.tryRelease_of_waiting hrecov h]

theorem Dev.deviceLoss_of_down {dev : BitVec 12} (hports : d.peerPorts dev ≠ [])
    (hdown : ∀ p ∈ d.peerPorts dev, d.portState p = 4 ∧ (d.port p).downAt + d.dloss ≤ d.elapsed) (hnone : d.flt.recov = none) (hplans : ∀ p ∈ d.flt.plans, p.1 ≠ dev) :
    d.deviceLoss dev = ((d.openRecovery 6 dev.toNat 0 [] [] true { errBase 6 6 St.DEVICE_LOST with detail := dev.toNat }).ringNotice dev
      (d.opened 6 dev.toNat 0 [] []).recid).noSites := by
  have hpeer : d.peerDown dev = true := List.all_eq_true.mpr fun p hp => by simpa using hdown p hp
  obtain ⟨e, he⟩ : ∃ e, e = d.openRecovery 6 dev.toNat 0 [] [] true { errBase 6 6 St.DEVICE_LOST with detail := dev.toNat } := ⟨_, rfl⟩
  have hrecov : e.flt.recov = some (d.opened 6 dev.toNat 0 [] []) := he ▸ Dev.recov_openRecovery hnone
  have hplan : (e.ringNotice dev (d.opened 6 dev.toNat 0 [] []).recid).runPlan dev.toNat = e.ringNotice dev (d.opened 6 dev.toNat 0 [] []).recid := by
    refine Dev.runPlan_of_none fun p hp heq => ?_
    have hsame : (e.ringNotice dev (d.opened 6 dev.toNat 0 [] []).recid).flt.plans = d.flt.plans := by
      rw [Dev.ringNotice, Dev.sendFrame_flt, he]
      exact Dev.plans_openRecovery hnone
    exact hplans p (hsame ▸ hp) (BitVec.eq_of_toNat_eq heq)
  unfold Dev.deviceLoss
  rw [if_neg (by simp [hports, hpeer])]
  dsimp only
  rw [← he, hrecov, hnone]
  dsimp only
  rw [if_neg Bool.false_ne_true, if_pos (show (d.opened 6 dev.toNat 0 [] []).stage = .quiesced from rfl), hplan]

/-- The recovery of a lost device is counted and has its record. -/
theorem Dev.deviceLoss_spec {dev : BitVec 12} (hports : d.peerPorts dev ≠ [])
    (hdown : ∀ p ∈ d.peerPorts dev, d.portState p = 4 ∧ (d.port p).downAt + d.dloss ≤ d.elapsed) (hnone : d.flt.recov = none) (hplans : ∀ p ∈ d.flt.plans, p.1 ≠ dev) :
    (d.deviceLoss dev).reg Reg.FLT_CNT = addCnt (d.reg Reg.FLT_CNT) 0 16 1 ∧
    ∃ e ∈ (d.deviceLoss dev).flt.recs, e.cls = 6 ∧ e.status = St.DEVICE_LOST ∧ e.detail = dev.toNat ∧ e.rseq = d.flt.rseq := by
  obtain ⟨e, he⟩ : ∃ e, e = (d.openRecovery 6 dev.toNat 0 [] [] true { errBase 6 6 St.DEVICE_LOST with detail := dev.toNat }).ringNotice dev
    (d.opened 6 dev.toNat 0 [] []).recid := ⟨_, rfl⟩
  have hloss : d.deviceLoss dev = e.noSites := he ▸ Dev.deviceLoss_of_down hports hdown hnone hplans
  have hsent : e.flt = (d.openRecovery 6 dev.toNat 0 [] [] true { errBase 6 6 St.DEVICE_LOST with detail := dev.toNat }).flt := by
    rw [he]
    exact Dev.sendFrame_flt ..
  have hrecov : e.flt.recov = some (d.opened 6 dev.toNat 0 [] []) := hsent ▸ Dev.recov_openRecovery hnone
  have hregions (r : Nat) (hr : r ∈ d.openRegions 6 dev.toNat []) : r < Config.nRegions := by
    have hmem : r ∈ ([0].flatMap fun g => d.namedBy (BitVec.ofNat 12 dev.toNat) g).dedup := by
      simpa [Dev.openRegions, addNew, Dev.openGroups] using hr
    obtain ⟨g, -, hg⟩ := List.mem_flatMap.mp (List.mem_dedup.mp hmem)
    exact List.mem_range.mp (List.mem_filter.mp (List.mem_filter.mp hg).1).1
  have hreg : e.noSites.reg Reg.FLT_CNT = e.reg Reg.FLT_CNT := Dev.noSites_keeps (G := (Dev.reg · Reg.FLT_CNT)) hrecov rfl rfl rfl
    (fun r _ => endKeeps_reg not_finishRegs_fltCnt r) (fun d v n cs => (d.reports_faultSend v n cs).reg _ (by decide)) (fun _ _ _ => rfl)
  have hrecs : e.noSites.flt.recs = e.flt.recs := Dev.noSites_keeps (G := (·.flt.recs)) hrecov rfl rfl rfl
    (fun r _ => endKeeps_of_frame (fun _ _ _ _ _ _ _ _ _ _ _ _ => rfl) r) (fun d v n cs => congrArg FltMgr.recs (d.flt_faultSend v n cs)) (fun _ _ _ => rfl)
  rw [hloss, hrecs, hsent, hreg, he, (Dev.reports_ringNotice ..).reg _ (by decide)]
  exact ⟨Dev.reg_openRecovery hnone hregions, Dev.recs_openRecovery hnone⟩

end

/-- Settles O53. -/
theorem recoveryFramesAndParts : Obligations.RecoveryFramesAndParts := by
  unfold Obligations.RecoveryFramesAndParts
  refine fun s => ⟨fun fr hfirst hcls => ⟨?quiesce, ?hold, ?release, ?notice⟩, fun v dev hv hown => ?parts, ?loss, ?lapse, ?resync⟩
  case quiesce =>
    intro hact hcls' hnone
    refine completes_faultIn hfirst (by omega) hact (by decide) rfl fun e he => ?_
    rw [← he.namedBy]
    exact Dev.quiesce_spec (he.flt_recov.trans hnone) (by omega)
  case hold =>
    intro v hact hring hv hid
    exact completes_faultIn hfirst (by omega) hact (by decide) rfl fun e he => Dev.faultHold_of_same (he.flt_recov.trans hv) hid
  case release =>
    intro v hact hring hv hid hown
    refine completes_faultIn hfirst (by omega) hact (by decide) rfl fun e he => ?_
    obtain ⟨hnone, hstop⟩ := Dev.release_of_same (he.flt_recov.trans hv) hid hown
    exact ⟨hnone, fun r hr h => hstop r hr ((congrArg Region.st (he.region r)).trans h)⟩
  case notice => exact fun hact hring hjoined hmaster => completes_faultNotice hfirst hring hact hjoined hmaster
  case parts =>
    have hown' : ({ v with parts := addNew v.parts [dev.toNat] } : Recovery).own = true := hown
    obtain ⟨hearly, hlast⟩ := Dev.tryRelease_setRecov (d := s.dev) hown'
    have hdone {P : Dev → Prop} (hP : P (s.dev.setRecov (some { v with parts := addNew v.parts [dev.toNat] })).tryRelease) :
        Completes (.localPartDone dev v.recid) s P := by
      have hx : exec (.localPartDone dev v.recid) s = execLocalPartDone dev v.recid s := rfl
      unfold execLocalPartDone at hx
      refine completes_onDev hx ?_
      rw [hv]
      dsimp only
      rw [if_pos ⟨hown, rfl⟩]
      exact hP
    refine ⟨fun hstage => hdone (hearly hstage), fun hstage hparts => hdone (hlast hstage ?_)⟩
    refine List.all_eq_true.mpr fun i hi => ?_
    rcases hparts i hi with h | h <;> simp [addNew, h]
  case loss =>
    intro dev hports hdown hnone hplans
    obtain ⟨hcnt, hrec⟩ := Dev.deviceLoss_spec hports hdown hnone hplans
    refine completes_onDev (f := fun d => d.deviceLoss dev) rfl ⟨?_, hrec⟩
    rw [Counts, hcnt, fld_addCnt_self _ _ (by decide)]
  case lapse =>
    obtain ⟨hbypass, hjoined, -⟩ := s.dev.closeBypass_spec
    exact completes_onDev (f := Dev.closeBypass) rfl ⟨hbypass, hjoined⟩
  case resync =>
    intro src
    have hx : exec (.shadowResync src) s = execShadowResync src s := rfl
    have hf : execShadowResync src s = onDev s fun d => d.tiles.foldl (fun d e => d.modTile e.1 (Tile.resync src)) d := rfl
    refine completes_onDev (hx.trans hf) fun t hon hsrc => ?_
    have hmap : s.dev.tiles.foldl (fun d e => d.modTile e.1 (Tile.resync src)) s.dev = s.dev.modTiles (s.dev.tiles.map (·.1)) (Tile.resync src) := by
      rw [Dev.modTiles, List.foldl_map]
    rw [hmap]
    exact Dev.shWhole_resync _ src hon hsrc

end Sys2Proof.Machine

/-! ## Why a tile recovery may count twice (O54; 15 R345, R358) -/

namespace Sys2Proof.Machine

open Sys2Proof Sys2Proof.Claims

/-- The number of a region, far past the 64 there are, whose SRV_ABORTDROP would lie where FLT_CNT is. -/
def strayRegion : Nat := (Reg.FLT_CNT - Reg.SRV_ABORTDROP) / 8

theorem abortDrop_strayRegion : Reg.SRV_ABORTDROP + 8 * strayRegion = Reg.FLT_CNT := by decide

theorem exec_tileRecovery {b col : Nat} (hb : b < Config.benches) (hcol : col < 48) (s : State) :
    exec (.tileRecovery b col) s = .next ⟨s.dev.tileRecovery b col, s.pending⟩ := by
  have hx : exec (.tileRecovery b col) s = execTileRecovery b col s := rfl
  rw [hx, execTileRecovery, if_pos hcol, onUnit_of_lt _ _ hb]

/-- Tile 0, judged failed and with a packet that waits to be sent, is the one tile of that region. -/
def strayDev : Dev := { Dev.reset with
  regions := [(strayRegion, { Region.reset with st := .stopped, h := 1, w := 1 })]
  tiles := [(0, { Tile.reset with txWait := [(0, packet0)] })]
  flt := { Dev.reset.flt with defects := [0] } }

/-- The site of tile 0 is judged failed, and no recovery is open. -/
theorem strayDev_ready : strayDev.tileAt 0 1 = some 0 ∧ 0 ∈ strayDev.flt.defects ∧ strayDev.flt.recov = none := by decide

/-- The recovery counts itself, and then the abort counts the discarded packet in the same register. -/
theorem fltCnt_strayDev : fld (strayDev.reg Reg.FLT_CNT) 0 16 = 0 ∧ fld ((strayDev.tileRecovery 0 1).reg Reg.FLT_CNT) 0 16 = 2 := by decide

/-- Refutes O54: the statement bounds no region number, and a recovery abort counts the packets it discards in register SRV_ABORTDROP + 8 r (10 R266). For
the region `strayRegion`, which a state may hold though there are but 64, that register is FLT_CNT: at `strayDev` the recovery of tile 0 advances it by two. -/
theorem not_tileRecoveryAndFaultCommands : ¬ Obligations.TileRecoveryAndFaultCommands := by
  unfold Obligations.TileRecoveryAndFaultCommands
  intro h
  obtain ⟨hopen, -⟩ := h ⟨strayDev, []⟩
  obtain ⟨htile, hdefect, hnone⟩ := strayDev_ready
  obtain ⟨hbefore, hafter⟩ := fltCnt_strayDev
  obtain ⟨d', hx, -, hcounts, -⟩ := hopen 0 1 0 (by decide) (by decide) htile hdefect hnone
  rw [exec_tileRecovery (by decide) (by decide)] at hx
  obtain rfl : strayDev.tileRecovery 0 1 = d' := congrArg State.dev (Host.Outcome.next.inj hx)
  rw [Counts, hbefore, hafter] at hcounts
  exact absurd hcounts (by decide)

end Sys2Proof.Machine
